-- ==== Sys2Proof/Word.lean ====
section
/-!
DEFINITION. Word: the names of the machine's bit-vector widths (R7, R37, R167, R242).
-/
namespace Sys2Proof

/-- One byte (R7). -/
abbrev Byte := BitVec 8
/-- A residue word of 32 bits (R37), and one word of a command (R179). -/
abbrev Word32 := BitVec 32
/-- A scalar or parameter register, and a BAR0 register (R167, R310). -/
abbrev Word64 := BitVec 64
/-- A device address of 48 bits (R242). -/
abbrev DevAddr := BitVec 48
/-- A beat number of 48 bits (R27). -/
abbrev BeatNo := BitVec 48

end Sys2Proof
end

