-- ==== Sys2Proof/Syntax.lean ====
section
/-!
DEFINITION. Syntax: the commands of the block, one constructor per row of spec/opcode_table.json, in the table's
order. The table gives no row any bits; an operand is what the rule named with the row says the step depends on
from outside (log entry 1). Units carry their physical numbers (R14, R15).
-/
namespace Sys2Proof

/-- A cluster by physical group and cluster index (R14, R17). -/
structure ClusterId where
  group : Fin 68
  cluster : Fin 32
deriving DecidableEq, Repr

/-- Physical cluster number (R212). -/
def ClusterId.num (k : ClusterId) : Nat := 32 * k.group.val + k.cluster.val

/-- The four little-endian words of a command (R179 to R182). -/
structure CmdWord where
  w0 : Word32
  w1 : Word32
  w2 : Word32
  w3 : Word32
deriving DecidableEq, Repr

/-- Where a transfer's request slots lie (R221): HBM, key cache, group buffer. -/
inductive SlotSource where
  | hbm | keyCache | groupBuffer
deriving DecidableEq, Repr

/-- What Terrier proves: the checkers of a physical group, or those of a memory-side die (R263). -/
inductive TerrierUnit where
  | group (p : Fin 68)
  | memoryDie (k : Fin 4)
deriving DecidableEq, Repr

/-- How a 64-bit register is accessed: whole, or one 32-bit half (R310). -/
inductive AccessWidth where
  | full | lowHalf | highHalf
deriving DecidableEq, Repr

/-- What a scrubber found in a line or word at a device address (R256): corrected or uncorrectable. -/
structure ScrubFind where
  addr : DevAddr
  uncorrectable : Bool
deriving DecidableEq, Repr

/-- One sensor reading: sensor number of R418 and signed quarter degrees. -/
structure TempReading where
  sensor : BitVec 6
  temp : BitVec 10
deriving DecidableEq, Repr

/-- One rail reading: rail code of R294 and mV. -/
structure RailReading where
  rail : Fin 9
  mv : BitVec 12
deriving DecidableEq, Repr

/-- What the outside supplies to a release step (R427, R428): the strap samples, the HBM lanes that failed training
(stack, pseudo-channel, lane), and the groups whose poison fill failed its read-back. -/
structure ReleaseObs where
  strapCodes : List (BitVec 8)
  failedLanes : List (Fin 8 × Fin 32 × Fin 32)
  failedFills : List (Fin 68)
deriving DecidableEq, Repr

/-- What training of a port measured (R339): the lanes that passed, widest margin first; codeword and frame lock;
the peer's identity digest and position; the one-way latency in cycles at 600 MHz. -/
structure PortTraining where
  lanes : List (Fin 5)
  locked : Bool
  peerDigest : List Byte
  peerPosition : BitVec 6
  latency : Nat
deriving DecidableEq, Repr

/-- A control record whose CRC held (R352), without its kind, which the command's row names. -/
structure ControlRecord where
  origin : BitVec 6
  hops : BitVec 4
  value : Byte
  beat : BeatNo
  key : Word64
  plan : Word32
deriving DecidableEq, Repr

/-- What the BEAT_IN pin shows (R350): a pulse of some width in cycles, or no well-formed pulse. -/
inductive BeatPulse where
  | pulse (width : Nat)
  | lost
deriving DecidableEq, Repr

/-- A configuration request (R308): offset and, for a write, its data. -/
structure ConfigAccess where
  offset : BitVec 12
  write : Option Word32
deriving DecidableEq, Repr

/-- The commands (log entry 1 says how each operand follows from the row's rule). -/
inductive Instr where
  -- scalar instructions of a cluster core (R174)
  | nop (k : ClusterId)
  | add (k : ClusterId) (sd sa sb : BitVec 5)
  | sub (k : ClusterId) (sd sa sb : BitVec 5)
  | and (k : ClusterId) (sd sa sb : BitVec 5)
  | or (k : ClusterId) (sd sa sb : BitVec 5)
  | xor (k : ClusterId) (sd sa sb : BitVec 5)
  | shl (k : ClusterId) (sd sa sb : BitVec 5)
  | shr (k : ClusterId) (sd sa sb : BitVec 5)
  | mul (k : ClusterId) (sd sa sb : BitVec 5)
  | addi (k : ClusterId) (sd sa : BitVec 5) (imm : BitVec 16)
  | lih (k : ClusterId) (sd : BitVec 5) (pos : BitVec 2) (imm : BitVec 16)
  | movp (k : ClusterId) (sd : BitVec 5) (pk : BitVec 6)
  | rdfeat (k : ClusterId) (sd : BitVec 5) (idx : BitVec 8)
  | rdstat (k : ClusterId) (sd : BitVec 5) (idx : BitVec 8)
  | loop (k : ClusterId) (lc : BitVec 2) (src : Bool) (forward : BitVec 11) (count : BitVec 12)
  | endl (k : ClusterId) (lc : BitVec 2) (back : BitVec 16)
  | waitc (k : ClusterId) (c : BitVec 16)
  | waitb (k : ClusterId)
  | waitResume (k : ClusterId)
  | settw (k : ClusterId) (tk : BitVec 4) (sa : BitVec 5)
  | endStream (k : ClusterId)
  -- engine commands (R185)
  | veChain (k : ClusterId) (c : CmdWord)
  | veTensor (k : ClusterId) (c : CmdWord)
  | veRescale (g : Fin 68) (c : CmdWord)
  | veModsw (g : Fin 68) (c : CmdWord)
  | veCvtin (k : ClusterId) (c : CmdWord)
  | veCvtout (k : ClusterId) (c : CmdWord)
  | veGather (k : ClusterId) (c : CmdWord)
  | veAuto (g : Fin 68) (c : CmdWord)
  | veFill (k : ClusterId) (c : CmdWord)
  | veLdprog (k : ClusterId) (c : CmdWord)
  | veLdconst (k : ClusterId) (c : CmdWord)
  | teFwd (g : Fin 68) (c : CmdWord)
  | teInv (g : Fin 68) (c : CmdWord)
  | teChecksumVerdict (g : Fin 68) (disturb : Word32)
  | rmeBconv (k : ClusterId) (c : CmdWord)
  | rmeKip (k : ClusterId) (c : CmdWord)
  | rmeCombine (k : ClusterId) (c : CmdWord)
  | refRun (k : ClusterId) (c : CmdWord)
  | refreshResume (g : Fin 68)
  | suLoad (k : ClusterId) (c : CmdWord)
  | suLoads (g : Fin 68) (c : CmdWord)
  | suStore (k : ClusterId) (c : CmdWord)
  | suArm (k : ClusterId) (c : CmdWord)
  | shadowRepeat (k : ClusterId) (ring : Fin 16)
  | suRelay (k : ClusterId) (c : CmdWord)
  | suKfill (k : ClusterId) (c : CmdWord)
  | suPip (k : ClusterId) (c : CmdWord)
  | suTile (k : ClusterId) (c : CmdWord)
  | gxMove (k : ClusterId) (c : CmdWord)
  | gxBcast (g : Fin 68) (c : CmdWord)
  | fuse (k : ClusterId) (c : CmdWord) (members : List CmdWord)
  -- streams and guards
  | sheepdogVerdict (k : ClusterId)
  | transferGrant (g : Fin 68) (src : SlotSource) (cycle : BitVec 16)
  | transferStamp (k : ClusterId) (tag : BitVec 6)
  | relayRowLanding (g : Fin 68)
  | hbmBoundOverrun (k : ClusterId) (tag : BitVec 6)
  | kcBoundOverrun (k : ClusterId) (tag : BitVec 6)
  -- the fault path
  | faultMessage (wire : Option Word64)
  | testMessage (p : Fin 68)
  | deviceCollectorRecord
  -- the beat
  | beatBoundary
  | programWindowEnd
  | terrierInjection (u : TerrierUnit) (fires arrives : Bool)
  | terrierVerdict (u : TerrierUnit) (own peer : Word64) (peerGroup : Fin 68) (firedUnit : Option Word64)
  | terrierRetest (p : Fin 68) (passes : Bool)
  | serviceScrub (finds : List ScrubFind)
  | abortFill (job : BitVec 16)
  | retrieverAbsorb (p : Fin 68)
  | retrieverFinalize (p : Fin 68)
  | ledgerSampling (temps : List TempReading) (rails : List RailReading)
  | reconciliation
  | retrieverVerdict
  | windfallTimeout (job : BitVec 16)
  | releaseDecision
  | checkpointCopy (job : BitVec 16)
  -- submission and jobs
  | submissionWrite (fn : Fin 17) (offset : BitVec 16) (data : List Byte) (tlps : Nat) (onStream : Bool)
  | submissionRead (fn : Fin 17) (length : Nat)
  | programChunk
  | programReference
  | programVerification
  | jobEntry
  | jobMapping (job : BitVec 16)
  | jobFirstIssue (job : BitVec 16)
  | jobDeadline (job : BitVec 16)
  | jobRestart (job : BitVec 16)
  | jobCompletion (job : BitVec 16)
  | transfer
  | transferComplete (fn : Fin 17) (hostOk : Bool)
  | registerKeyset
  | keysetCommit
  | removeKeyset
  | removeProgram
  | defineArea
  | deleteArea
  | cancelJob
  | marker
  | encode
  | backlogDrain (fn : Fin 17)
  | extentDigestDone (job : BitVec 16)
  -- host attachment
  | bar2Write (fn : Fin 17) (offset : BitVec 36) (data : List Byte) (onStream : Bool)
  | bar2Read (fn : Fin 17) (offset : BitVec 36) (length : Nat) (onStream : Bool)
  | configRequest (fn : Fin 17) (a : ConfigAccess)
  | vfFunctionLevelReset (vf : Fin 16)
  | pfFunctionLevelReset
  | pePerstN (active : Bool)
  | d3hotEntry (fn : Fin 17)
  | eventSourceFire (fn : Fin 17) (source : Fin 10)
  | eventTaken (fn : Fin 17) (source : Fin 10)
  | evSet (fn : Fin 17) (v : Word64) (w : AccessWidth)
  | evComplete (fn : Fin 17) (v : Word64) (w : AccessWidth)
  | evMaskWrite (fn : Fin 17) (v : Word64) (w : AccessWidth)
  | ringEnable (fn : Fin 17) (receipts : Bool) (v : Word64)
  | stickyClear (reg : Fin 3) (v : Word64) (w : AccessWidth)
  | logTailWrite (v : Word32)
  | registerWrite (fn : Fin 17) (offset : BitVec 26) (v : Word64) (w : AccessWidth)
  -- memory system
  | lineWriteback (addr : DevAddr) (secondReadCorrects : Bool)
  | rowRemap (stack : Fin 8) (pc : Fin 32) (row : BitVec 20)
  | patrolScrub (finds : List ScrubFind)
  | kcExtentRepair (extent : BitVec 9)
  | stackTemperatureTrigger (sensor : BitVec 6) (temp : BitVec 10)
  | doubledRefreshEntry (stack : Fin 8)
  | memoryClockSlow (die : Fin 4)
  | couplingCapLift
  -- power, clocks, thermal control, reset
  | stepSwitch
  | avsVoltageConfirm (mv : BitVec 10) (amps : BitVec 11)
  | stepUpAbandoned
  | stepUpRetry
  | junctionStepUp
  | cappedEvaluation (vddcWatts : BitVec 11)
  | vddCCurrentLift
  | hostStep (v : Word64) (w : AccessWidth)
  | railRange (rail : Fin 9) (mv : BitVec 12)
  | thermalTrip (sensor : BitVec 6)
  | powerOnReset
  | brownOutReset
  | clockFailure
  | lockUp
  | resetN
  | watchdog
  | swReset (v : Word64) (w : AccessWidth)
  | releaseStep (obs : ReleaseObs)
  | hostReady
  | haltReqN
  | halt (v : Word64) (w : AccessWidth)
  | orderlyHalt
  | coolAlarmN (active : Bool)
  | coolAlarmStuck
  | coolForcingEnd
  | inputGlitch (pin : Fin 7) (racing : Bool)
  | inputRacingEnd (pin : Fin 7)
  | beatIn (p : BeatPulse)
  | trstN
  | blockIdleReport (domain : BitVec 8)
  | blockIdle (domain : BitVec 8)
  | groupRetirement (p : Fin 68)
  | spareProven (p : Fin 68) (passes : Bool)
  -- peer links
  | linkFrameReceive (port : Fin 16) (frame : List Byte) (uncorrectable : Bool) (corrected : Nat)
  | linkMessageSend (port : Fin 16) (slot : BitVec 12)
  | linkRetransmit (port : Fin 16) (slot : BitVec 12)
  | linkKeepalive (port : Fin 16)
  | portTraining (port : Fin 16) (t : PortTraining)
  | spareRequest (port : Fin 16) (lane : Fin 5) (corrected : Nat)
  | spareAcknowledge (port : Fin 16)
  | laneSwap (port : Fin 16)
  | beatMarker (intact : Bool) (beat : BeatNo) (error : Int)
  | aligned
  | clear (r : ControlRecord)
  | fail (r : ControlRecord)
  | ready (r : ControlRecord)
  | restart (r : ControlRecord)
  | terminate (r : ControlRecord)
  | step (r : ControlRecord)
  | domainStepChange
  | linkedJobStart (job : BitVec 16)
  | portEnable (port : Fin 16) (v : Word64) (w : AccessWidth)
  | retrain (port : Fin 16) (v : Word64) (w : AccessWidth)
  -- security mailbox
  | identity
  | ownerState
  | loadCurve
  | importOffer
  | importShare
  | eraseShare
  | attest
  | partialDecrypt
  | pointCheck
  | scalarMultiplication
  | ecdsaVerify
  | modularExponentiation
  | sealDisable
  | mailboxResponse
  | drbgHealthFailure
  | drbgReseed
  -- image staging and adoption
  | stageGo (w : AccessWidth)
  | stageComplete (flashOk : Bool)
  | adoptGo (w : AccessWidth)
  | adoptionPiece (ok : Bool)
  | adoptSwitch
  | groupTableApply (p : Fin 68)
  | pseudoChannelRetrain (ok : Bool)
  | adoptAbort (w : AccessWidth)
  | adoptTimeout
  -- factory test and modes
  | factoryAuth (record : List Byte)
  | factoryEntry
  | powerReq (v : Word64) (w : AccessWidth)
  | twinAll (v : Word64) (w : AccessWidth)
  | injectionArm (v : Word64) (w : AccessWidth)
  | injectionFire
  -- life ledger
  | ledgerEventWrite (flashOk : Bool)
  | ledgerSnapshot (flashOk : Bool)
  | flushNow (w : AccessWidth)
  | durableCopy (flashOk : Bool)
  | windowOffset (v : Word64) (w : AccessWidth)
  | windowReady
  -- observation, boundary scan, sideband
  | obsSel (pin : Fin 4) (v : Word64) (w : AccessWidth)
  | anaSel (v : Word64) (w : AccessWidth)
  | extest
  | samplePreload (bits : List Bool)
  | idcode
  | clamp
  | highz
  | debugReset (bit : Bool)
  | scanDump
  | bypass (tdi : Bool)
  | status
  | tj
  | sbStep
  | cause
  | power
  | alert
  | smbusTimeout
  -- rows the table lists last
  | linkReferenceLoss
  | heldResetRelease
  | haltDrainLimit
  | encodeComplete
  | d0Return (fn : Fin 17)
  | msixVectorUnmask (fn : Fin 17) (vector : Fin 64)
  | ideKm (fn : Fin 17) (stream : BitVec 8)
deriving DecidableEq, Repr

end Sys2Proof
end

