-- ==== Sys2Proof/Decode.lean ====
section
/-!
DEFINITION. Decode: the rows of spec/opcode_table.json that give bits. None does (every row's fields are empty), so
no word spells a command.
-/
namespace Sys2Proof

/-- The command a table word spells: none, since no row of the table has bits. -/
def decodeTableWord (_nbits _w : Nat) : Option Instr := none

end Sys2Proof
end

