-- ==== Sys2Proof/Machine/Bytes.lean ====
section
/-!
DEFINITION. Bytes: little-endian fields (R7), the three CRCs (R46, R277, R294) and SHAKE (FIPS 202, named by R69,
R79 and R271).
-/
namespace Sys2Proof.Machine

/-- The `n` little-endian bytes of `v` (R7). -/
def leBytes : Nat → Nat → List Byte
  | 0, _ => []
  | n + 1, v => BitVec.ofNat 8 v :: leBytes n (v / 256)

/-- The number whose little-endian bytes are given (R7). -/
def leNat : List Byte → Nat
  | [] => 0
  | b :: bs => b.toNat + 256 * leNat bs

/-- The number whose big-endian bytes are given (R372). -/
def beNat (bs : List Byte) : Nat := leNat bs.reverse

/-- The `n` big-endian bytes of `v` (R375). -/
def beBytes (n v : Nat) : List Byte := (leBytes n v).reverse

/-- `len` bytes from offset `off`, reading 0 past the end. -/
def slice (bs : List Byte) (off len : Nat) : List Byte :=
  let part := (bs.drop off).take len
  part ++ List.replicate (len - part.length) 0

/-- The little-endian field of `len` bytes at offset `off`. -/
def field (bs : List Byte) (off len : Nat) : Nat := leNat (slice bs off len)

/-- All bytes zero. -/
def allZero (bs : List Byte) : Bool := bs.all (· == 0)

/-- The bytes of an ASCII context string (R359). -/
def ascii (s : String) : List Byte := s.toList.map fun c => BitVec.ofNat 8 c.toNat

/-- `bs` cut into pieces of `n` bytes, the last perhaps shorter; at most `fuel` pieces. -/
def chunks (n : Nat) : Nat → List Byte → List (List Byte)
  | 0, _ => []
  | _ + 1, [] => []
  | fuel + 1, bs => bs.take n :: chunks n fuel (bs.drop n)

/-- One reflected CRC bit step. -/
def crcStepReflected (poly crc : Nat) : Nat :=
  if crc % 2 = 1 then (crc >>> 1) ^^^ poly else crc >>> 1

/-- `f` applied `n` times. -/
def iterate {α : Type} (f : α → α) : Nat → α → α
  | 0, x => x
  | n + 1, x => iterate f n (f x)

/-- CRC-32C (R46): Castagnoli polynomial, reflected, initial value and final XOR all ones. -/
def crc32c (bs : List Byte) : Nat :=
  (bs.foldl (fun crc b => iterate (crcStepReflected 0x82F63B78) 8 (crc ^^^ b.toNat)) 0xFFFFFFFF) ^^^ 0xFFFFFFFF

/-- One unreflected CRC bit step of the given width. -/
def crcStep (width poly crc : Nat) : Nat :=
  if crc >>> (width - 1) = 1 then ((crc <<< 1) ^^^ poly) % 2 ^ width else crc <<< 1

/-- CRC-64 (R277) continued from `init`: no reflection, no final XOR. -/
def crc64From (init : Nat) (bs : List Byte) : Nat :=
  bs.foldl (fun crc b => iterate (crcStep 64 0x42F0E1EBA9EA3693) 8 (crc ^^^ (b.toNat <<< 56))) init

/-- CRC-64 of R277. -/
def crc64 (bs : List Byte) : Nat := crc64From 0 bs

/-- CRC-16 of R294: polynomial 0x1021, initial value 0xFFFF, no reflection, no final XOR. -/
def crc16 (bs : List Byte) : Nat :=
  bs.foldl (fun crc b => iterate (crcStep 16 0x1021) 8 (crc ^^^ (b.toNat <<< 8))) 0xFFFF

/-- `data` followed by its CRC-32C. -/
def withCrc32c (data : List Byte) : List Byte := data ++ leBytes 4 (crc32c data)

/-- The 64-bit left rotation of Keccak. -/
def rotl64 (x n : Nat) : Nat := ((x <<< (n % 64)) ||| (x >>> (64 - n % 64))) % 2 ^ 64

/-- A lane's number in the state: column `x`, row `y`. -/
def laneNo (x y : Nat) : Nat := x % 5 + 5 * (y % 5)

/-- FIPS 202's walk over the lanes but (0, 0): the lane's number at step `t` with its rotation, the triangular number of `t + 1`. -/
def rotationWalk : Nat → Nat → Nat → Nat → List (Nat × Nat)
  | 0, _, _, _ => []
  | n + 1, t, x, y => (laneNo x y, (t + 1) * (t + 2) / 2 % 64) :: rotationWalk n (t + 1) y (2 * x + 3 * y)

/-- The rotation of a lane (FIPS 202, step ρ). -/
def laneRotation (i : Nat) : Nat := (((rotationWalk 24 0 1 0).find? fun e => e.1 == i).map (·.2)).getD 0

/-- One step of FIPS 202's eight-bit register with feedback into bits 0, 4, 5 and 6. -/
def roundRegister (r : Nat) : Nat := if r < 128 then 2 * r else (2 * r - 256) ^^^ 0x71

/-- The constant of a round from the register as it stands: the bit shifted out at step `j` is bit 2^j − 1. -/
def roundConstant : Nat → Nat → Nat → Nat
  | 0, _, _ => 0
  | n + 1, j, r => r % 2 * 2 ^ (2 ^ j - 1) + roundConstant n (j + 1) (roundRegister r)

/-- The constants of `n` rounds, seven register steps each (FIPS 202, step ι). -/
def roundConstants : Nat → Nat → List Nat
  | 0, _ => []
  | n + 1, r => roundConstant 7 0 r :: roundConstants n (iterate roundRegister 7 r)

/-- Step θ: every lane takes the parities of the columns beside it. -/
def mixColumns (a : List Nat) : List Nat :=
  let parity := (List.range 5).map fun x => ((List.range 5).map fun y => a.getD (laneNo x y) 0).foldl (· ^^^ ·) 0
  (a.zipIdx).map fun e => e.1 ^^^ parity.getD ((e.2 + 4) % 5) 0 ^^^ rotl64 (parity.getD ((e.2 + 1) % 5) 0) 1

/-- Steps ρ and π: lane (x, y) takes the rotated lane (x + 3y, x). -/
def moveLanes (a : List Nat) : List Nat :=
  (List.range 25).map fun i => let src := laneNo (i % 5 + 3 * (i / 5)) (i % 5); rotl64 (a.getD src 0) (laneRotation src)

/-- Step χ: a lane takes what its right neighbour does not mask of the one behind. -/
def maskLanes (a : List Nat) : List Nat :=
  (a.zipIdx).map fun e =>
    let right := fun n => a.getD (laneNo (e.2 % 5 + n) (e.2 / 5)) 0
    e.1 ^^^ (right 2 - (right 2 &&& right 1))

/-- One round of Keccak-f[1600] with its constant on the 25 lanes. -/
def keccakRound (a : List Nat) (rc : Nat) : List Nat := (maskLanes (moveLanes (mixColumns a))).modify 0 (· ^^^ rc)

/-- Keccak-f[1600]. -/
def keccakF (a : List Nat) : List Nat := (roundConstants 24 1).foldl keccakRound a

/-- Absorb one block of `rate` bytes. -/
def keccakAbsorb (a : List Nat) (block : List Byte) : List Nat :=
  keccakF ((List.range 25).map fun i => a.getD i 0 ^^^ leNat ((block.drop (8 * i)).take 8))

/-- Squeeze `n` blocks of `rate` bytes. -/
def keccakSqueeze (rate : Nat) : Nat → List Nat → List Byte
  | 0, _ => []
  | n + 1, a => ((a.flatMap (leBytes 8)).take rate) ++ keccakSqueeze rate n (keccakF a)

/-- The SHAKE padding of a message to whole blocks (FIPS 202). -/
def shakePad (rate : Nat) (m : List Byte) : List Byte :=
  let k := rate - 1 - m.length % rate
  if k = 0 then m ++ [0x9F] else m ++ [0x1F] ++ List.replicate (k - 1) 0 ++ [0x80]

/-- SHAKE with a rate in bytes: `n` output bytes. -/
def shake (rate : Nat) (m : List Byte) (n : Nat) : List Byte :=
  let padded := shakePad rate m
  let a := (chunks rate (padded.length / rate) padded).foldl keccakAbsorb (List.replicate 25 0)
  (keccakSqueeze rate ((n + rate - 1) / rate) a).take n

/-- SHAKE128 (R79). -/
def shake128 (m : List Byte) (n : Nat) : List Byte := shake 168 m n
/-- SHAKE256 with 32 bytes of output: every digest of the spec (R359). -/
def digest32 (m : List Byte) : List Byte := shake 136 m 32
/-- SHAKE256 with `n` bytes of output (R377). -/
def shake256 (m : List Byte) (n : Nat) : List Byte := shake 136 m n

end Sys2Proof.Machine
end

