-- ==== Sys2Proof/Config.lean ====
section
/-!
DEFINITION. Config: the values an implementation fixes and the spec leaves open. Every one is an opaque
constant: nothing in Lean can evaluate it, so a theorem holds whatever its value is (log entries 4 to 9).
-/
namespace Sys2Proof.Config

/-- A free value: the word an open result takes. The argument is the state's own counter (log entry 4). -/
opaque freeWord : Nat → Word32
/-- The fields no rule gives of the header of an output without object input (R48, R107), and element `e` of a chain stage's
Y that nothing supplies (R97): free values of the command's four words, so a replay meets the same (R209). -/
opaque fillHeader : List Nat → Nat
@[inherit_doc fillHeader] opaque absentWord : List Nat → Nat → Word32
/-- Output byte `n` of the device's DRBG since reset (R365): an entropy source, hence a free value. -/
opaque drbgByte : Nat → Byte

/-- ML-DSA-65 verification (FIPS 204, R359): public key, context string, message, signature. -/
opaque mldsaVerify : List Byte → List Byte → List Byte → List Byte → Bool
/-- Byte `i` of a hedged ML-DSA-65 signature by the identity key (R359): context, message, DRBG position, `i`. -/
opaque mldsaSignByte : List Byte → List Byte → Nat → Nat → Byte
/-- Byte `i` of the ML-KEM-768 encapsulation key made from DRBG position `n` (FIPS 203, R375). -/
opaque mlkemEncapsKeyByte : Nat → Nat → Byte
/-- Byte `i` of the ML-KEM-768 shared key decapsulated from a ciphertext with the key made at `n` (R377). -/
opaque mlkemDecapsByte : Nat → List Byte → Nat → Byte
/-- AES-256-GCM opening (R377): key, nonce, additional data, ciphertext with its tag; none on a tag failure. -/
opaque aesGcmOpen : List Byte → List Byte → List Byte → List Byte → Option (List Byte)
/-- The fixed base of Miller–Rabin round `i` (R372: "64 Miller–Rabin rounds with fixed bases"). -/
opaque millerRabinBase : Nat → Nat

/-- Byte `i` of the identity public key of the part (R357). -/
opaque identityKeyByte : Nat → Byte
/-- Byte `i` of the identity record where the part's own data stands: date and serial (R358, bytes 4 to 23). -/
opaque identityRecordByte : Nat → Byte
/-- Byte `i` of Corath's signature over the identity record (R358). -/
opaque corathSignatureByte : Nat → Byte
/-- Byte `i` of Corath's public key, whose digest is the issuer digest (R358, R391, R433). -/
opaque corathKeyByte : Nat → Byte
/-- The public key whose digest an owner slot holds (R360, R361, R371: only the digest is fused). -/
opaque ownerPublicKey : List Byte → List Byte
/-- Byte `i` of the digest of the firmware in the boot ROM (R399). -/
opaque romFirmwareByte : Nat → Byte
/-- The fused voltage V_k in mV of step code `k` (R411). -/
opaque stepVoltage : Nat → Nat

/-- Coefficient `i`, a binary64 number, of the inverse canonical embedding at degree 2^k of slot values (R65: the order of the
ROM's operations is not given): `k`, the slots' real and imaginary parts in binary64, and `i`. -/
opaque ckksEmbedding : Nat → List (Word64 × Word64) → Nat → Word64
/-- Word `i` of plane `(p, r)` of a refreshed object (R157 to R166: the ROM's contents are not given): the words of
the input's plane 0, the descriptor's bytes, then `p`, `r` and `i`. -/
opaque refreshWord : List Nat → List Byte → Nat → Nat → Nat → Nat
/-- The program-window cycles of a refresh whose descriptor is not the one R166 times: descriptor and span. -/
opaque refreshCycles : List Byte → Nat → Nat
/-- The Galois elements, each with the level of its use, that the refresh ROM lists for a descriptor (R160). -/
opaque refreshGalois : List Byte → List (Nat × Nat)
/-- Bit `i` of the boundary register as the balls stand (R453): a pin level the model does not hold. -/
opaque boundaryBit : Nat → Bool

end Sys2Proof.Config
end

