-- ==== Sys2Proof/Machine/State.lean ====
section
/-!
DEFINITION. State: everything the spec gives the machine, as plain data, and State.reset.
Tables over many like units (clusters, rings, groups, counters) are association lists sorted by key with one
default per table, so equal tables are equal data. Times are absolute arithmetic cycles, beat × 65,536 + cycle (R8).
-/
namespace Sys2Proof.Machine

/-- A sparse table: key and value, keys strictly rising; an unlisted key holds the table's default. -/
abbrev Table (α : Type) := List (Nat × α)
/-- One scratchpad row of 64 words (R212), or one TILE64 row (R127). -/
abbrev Row := List Word32

/-- Why a step stops with a fault. -/
inductive Fault where
  /-- Raised by every command but the reset sources after SCAN_DUMP: R454 leaves the device's state undefined until
  reset. Safe: the model stops. -/
  | undefinedAfterScanDump
deriving DecidableEq, Repr

/-- Why a command has no meaning in the model. -/
inductive Refusal where
  /-- Raised only by an arm of Dispatch for a command not yet modelled; no arm is one now. Safe. -/
  | notModelled (mnemonic : String)
deriving DecidableEq, Repr

/-- The decoded 64-byte object header (R46). -/
structure Header where
  format : Nat := 1
  version : Nat := 1
  scheme : Nat := 1
  log2n : Nat := 12
  npoly : Nat := 2
  level : Nat := 1
  dclass : Nat := 0
  eval : Bool := false
  seeded : Bool := false
  poisoned : Bool := false
  releaseTagged : Bool := false
  reservedFlags : Nat := 0
  scale : Nat := 0
  budget : Nat := 0
  poison : Nat := 0
  rset : Nat := 0
  job : Nat := 0
  ksid : Nat := 0
  tag : Nat := 0
  digestPrefix : Nat := 0
  reservedZero : Bool := true
deriving DecidableEq, Repr

/-- One header-queue entry (R217): first row (ring offset), rows, rows not yet popped, the header of an object ring,
the poison code of a raw ring, the seed of a seeded object's head (R52, R85), the cycle the header is written in (R104,
R122), whether an SU.LOAD brought it (R53), the code its declaration refuses it with (R143), and whether a raw ring's segment
carries the header of the BFV product it is part of, which only the product's last command writes (R148). -/
structure Segment where
  first : Nat
  rows : Nat
  left : Nat
  hdr : Header
  code : Nat
  seed : List Byte := []
  at_ : Nat := 0
  loaded : Bool := false
  decl : Nat := 0
  carried : Bool := false
deriving DecidableEq, Repr

/-- The SU operations a stream descriptor or a transfer can be of (R226). -/
inductive SuOp where
  | load | loads | store | tile
deriving DecidableEq, Repr

/-- Stream descriptor k of ring k (R226): the last command, the cursor, the shadow, the last transfer's stamp,
the transfers of the descriptor not yet stamped, and the word index of the SU.ARM the shadow holds. -/
structure StreamDesc where
  last : Option (SuOp × CmdWord) := none
  base : Nat := 0
  cursor : Nat := 0
  shadow : Bool := false
  lastStamp : Nat := 0
  outstanding : Nat := 0
  role : Nat := 0
  noHeader : Bool := false
  hdr : Option Header := none
  code : Nat := 0
  armWord : Nat := 0
deriving DecidableEq, Repr

/-- A read of a row no transfer has been granted for (R231): the row's number among the ring's claimed rows, the read's
cycle, the reading engine and OP, and the reading item's word index. -/
structure AwaitedRead where
  row : Nat
  at_ : Nat
  engine : Nat
  op : Nat
  word : Nat
deriving DecidableEq, Repr

/-- What the last command of an engine pushed to a ring: its engine and issue cycle, the ring offset of its first row and
its rows; a check that fails on the command poisons them (R53, R98, R126). -/
structure OutNote where
  engine : Nat
  at_ : Nat
  first : Nat
  rows : Nat
deriving DecidableEq, Repr

/-- A ring of a cluster (R215 to R217), positions and sizes in rows. `ready` counts the rows from head to tail, `ahead`
the rows an issued command reads before they land; `returns` the credit its reads return, one row a cycle from a first
cycle on; `claimed` the rows ever claimed by transfers; `awaited` the reads judged at a later grant (R231);
`openRows` the last rows pushed, of an object whose header is not written yet (R104); `uses` the reads of the bank
ports in the beat, ring offset and cycle (R214); `before` what the last row pushed
held before its write (R213). -/
structure Ring where
  base : BitVec 12 := 0
  size : BitVec 13 := 0
  resident : Bool := false
  object : Bool := false
  head : BitVec 12 := 0
  tail : BitVec 12 := 0
  claim : BitVec 12 := 0
  credit : BitVec 13 := 0
  occupancy : BitVec 13 := 0
  ready : BitVec 13 := 0
  hq : List Segment := []
  stamps : Table Nat := []
  ends : Table Nat := []
  reads : Table Nat := []
  ahead : Nat := 0
  returns : List (Nat × Nat) := []
  claimed : Nat := 0
  awaited : List AwaitedRead := []
  pushAt : Nat := 0
  openRows : Nat := 0
  uses : List (Nat × Nat) := []
  before : Option (Nat × Row) := none
  note : Option OutNote := none
  desc : StreamDesc := {}
deriving DecidableEq, Repr

/-- One SU transfer (R220): the command it is part of, its place in that command, and from its grant its tag, stamp
and held rows. `code` is the poison code its rows carry; `out` says the rows leave the ring; `opc` is the command's OP;
`segRows` is the row count of the segment a head opens; `els` and `width` are an SU.LOADS's (R225); `word` is the
command's word index. -/
structure Transfer where
  op : SuOp
  src : SlotSource
  ring : Nat
  index : Nat
  addr : Nat
  rows : Nat
  bytes : Nat
  ringRow : Nat
  eligible : Nat
  isHead : Bool
  isLast : Bool
  job : Nat
  role : Nat
  tag : Option Nat := none
  stamp : Nat := 0
  data : List Row := []
  code : Nat := 0
  stored : Option Header := none
  marks : List Nat := []
  out : Bool := false
  opc : Nat := 0
  segRows : Nat := 0
  els : Nat := 0
  width : Nat := 1
  word : Nat := 0
deriving DecidableEq, Repr

/-- A verdict Sheepdog owes (R231, R232): its cycle, check code of R239, engine code, ring, word 0's opcode, and the word
index of the item it concerns (R296). -/
structure SheepdogDue where
  at_ : Nat
  check : Nat
  engine : Nat
  ring : Nat
  op : Nat
  addr : Nat
  refusedIssue : Bool
  word : Nat
deriving DecidableEq, Repr

/-- A table entry that a command loads: the value that holds from cycle `from_` on, and the one before (R106). -/
structure Timed (α : Type) where
  from_ : Nat
  new : α
  old : α
deriving DecidableEq, Repr

/-- What a core is doing (STATE of R178). -/
inductive CoreState where
  | idle | issuing | waiting | ended
deriving DecidableEq, Repr

/-- A VE object in progress (R104): elements done, the header to be written and whether its output carries one, its
poison, and the rows written. -/
structure OpenObject where
  opcode : Nat
  done : Nat
  hdr : Header
  code : Nat
  outRows : Nat
  headed : Bool
deriving DecidableEq, Repr

/-- A cluster: core state (R167; `lastItem` is the word index of the item issued last), status counters (R177), VE tables
(R99, R100: programs, constants and the residue set each residue index was loaded for), engine occupancy (R172) and the last cycle of each engine's work (R25), SU state (R220; `tagFreeAt` is the
first cycle a tag is free in, when all 64 have been held), the hand-over buffer with the cycles its rows were pushed in and
whether a fused command read a row before its push or fell more than 64 rows behind (R186), and Sheepdog's pending verdicts. -/
structure Cluster where
  sregs : Vector Word64 32 := Vector.replicate 32 0
  params : Vector Word64 64 := Vector.replicate 64 0
  loops : Vector (BitVec 24) 4 := Vector.replicate 4 0
  pc : BitVec 32 := 0
  image : List Word32 := []
  imageIndex : Nat := 0
  lastItem : Nat := 0
  state : CoreState := .idle
  nextAt : Nat := 0
  issueAt : Nat := 0
  issued : Bool := false
  sat : Word32 := 0
  nan : Word32 := 0
  grange : Word32 := 0
  rearm : Word32 := 0
  progs : Table (Timed (List Word32)) := []
  consts : Table (Timed Nat) := []
  constSets : Table (Timed (Option Nat)) := []
  objects : Table OpenObject := []
  busy : Table Nat := []
  lastWork : Table Nat := []
  transfers : List Transfer := []
  tagFreeAt : Nat := 0
  nextGrant : Table Nat := []
  granted : Word32 := 0
  due : List SheepdogDue := []
  handover : List Row := []
  handoverHdr : Option Segment := none
  handoverObj : Bool := false
  handoverAt : List Nat := []
  handoverLate : Bool := false
  storeSig : Word64 := 0
deriving DecidableEq, Repr

/-- What a group may be used for (GROUP_MAP of R331): usable, spare, fused off, retired or failed. -/
inductive GroupRole where
  | usable | spare | fusedOff | retired | failed
deriving DecidableEq, Repr

/-- Residency of a group (R273, RES_STATE of R288). -/
inductive Residency where
  | none | pending | confirmed
deriving DecidableEq, Repr

/-- A collector's latch and counts (R291, R305). The four words are the record's, open or last drained. -/
structure Collector where
  isOpen : Bool := false
  rec0 : Word64 := 0
  rec1 : Word64 := 0
  rec2 : Word64 := 0
  rec3 : Word64 := 0
  testMsgs : Word32 := 0
  messages : Word32 := 0
deriving DecidableEq, Repr

/-- A Pip expansion set held at a tile boundary (R132): key declaration, level, first target, targets, digits, next
tile. -/
structure PipSet where
  decl : Nat
  level : Nat
  firstTarget : Nat
  targets : Nat
  digits : Nat
  nextTile : Nat
deriving DecidableEq, Repr

/-- A refresh in progress (R157 to R166): its command and job, the output header and code, what it read, its
descriptor, and the window cycles still to run after the current window. -/
structure Refresh where
  cmd : CmdWord
  hdr : Header
  code : Nat
  words : List Nat
  descriptor : List Byte
  remaining : Nat
  suspended : Bool
deriving DecidableEq, Repr

/-- One row on the relay chain (R228 to R230): `injectAt` is the cycle of its injection, `claimed` says it has claimed its
credit there, `places` the clusters it claimed it in and the ring offsets, `from_` the sending cluster, `op` and `word` its
command's. -/
structure RelayRow where
  from_ : Nat
  injectAt : Nat
  op : Nat
  word : Nat
  job : Nat
  targetGroup : Nat
  targetCluster : Nat
  ring : Nat
  stamp : Nat
  data : Row
  code : Nat
  claimed : Bool
  places : List (Nat × Nat) := []
deriving DecidableEq, Repr

/-- What Terrier found in the beat (R268): unit's injection fired and its message arrived. -/
structure TerrierResult where
  beat : Nat
  fired : Bool
  arrived : Bool
deriving DecidableEq, Repr

/-- One pending checksum of a TE command (R120 to R122): modulus, the sums formed and the values they must equal. -/
structure PlaneSums where
  q : Nat
  sum0 : Nat
  want0 : Nat
  sum1 : Nat
  want1 : Nat
deriving DecidableEq, Repr

/-- A TE command whose verdict is due (R122); `outs` are the rows it and the later members of its fused command wrote:
cluster, ring, first ring offset and rows. -/
structure TeVerdict where
  at_ : Nat
  cmd : CmdWord
  sums : List PlaneSums
  hdr : Option Header
  code : Nat
  rows : Nat
  inverse : Bool
  outs : List (Nat × Nat × Nat × Nat)
deriving DecidableEq, Repr

/-- Rows that a command of the RME moves over one feed (R125), evenly over `cycles` cycles from `from_` on: kind 0 ring rows
in, 1 tile rows in, 2 rows out, 3 rows out to tiles, 4 the key feed. -/
structure Feed where
  kind : Nat
  from_ : Nat
  cycles : Nat
  rows : Nat
deriving DecidableEq, Repr

/-- A row that the RME's store path or the Pip expander writes to the group buffer in cycle `at_` (R128, R235). -/
structure TileWrite where
  at_ : Nat
  row : Nat
  data : Row
deriving DecidableEq, Repr

/-- A physical group (R17): allocation, residency (R219, R273), integrity block (R288), collector (R305), the RME's
rows, conversion store and Pip set (R123, R129, R132), tile windows (R167) and the refresh sequencer. -/
structure Group where
  role : GroupRole := .usable
  failed : Bool := false
  proving : Bool := false
  provedFrom : Nat := 0
  job : BitVec 16 := 0
  logical : Nat := 0
  set : Nat := 0
  quarantine : Bool := false
  quarantineBeat : Nat := 0
  retireDue : Bool := false
  lastEngineFault : Table Nat := []
  residency : Residency := .none
  model : List Byte := []
  resRows : BitVec 13 := 0
  walkU : BitVec 7 := 0
  walkEpoch : Nat := 0
  walkCounts : Bool := false
  walkDone : Bool := false
  absorbed : Table (List Byte) := []
  digest : List Byte := []
  lastMatch : BeatNo := 0
  terrierFails : BitVec 16 := 0
  retests : BitVec 16 := 0
  lastFamily : BitVec 4 := 0
  lastVisit : BitVec 6 := 0
  restartFaults : BitVec 16 := 0
  lastRestartBeat : BeatNo := 0
  lastGood : Table Nat := []
deriving DecidableEq, Repr

/-- The rest of a physical group: its collector and test state (R268, R305), the RME (R123, R125, R129), the Pip
expander (R132), the tile windows of its lead cluster (R167, R181), the refresh sequencer (R157), Terrier's
results, the relay rows it has sent (R229), the Sheepdog block (R239) and the applied tables (R404). `rmeResidues` is the
residue index and modulus of each array row (R123), `gbTaken` the cycles in which tile feeds and the store path take the
group buffer's slots (R221), first cycle and number, `feeds` the RME's feeds in use (R125), `tileWrites` the tile writes not
yet in memory and `tileReads` the last cycle each row is read in (R128, R231), and `tileNote` the engine and the group-buffer
rows of the last tile store. -/
structure GroupUnits where
  collector : Collector := {}
  injection : Option TerrierResult := none
  tileWindows : Vector (BitVec 16) 16 := Vector.replicate 16 0
  tileFree : Option Nat := none
  tileWritten : List Nat := []
  rmeRows : Table Nat := []
  rmeResidues : Table (Nat × Nat) := []
  gbTaken : List (Nat × Nat) := []
  feeds : List Feed := []
  tileWrites : List TileWrite := []
  tileReads : Table Nat := []
  tileNote : Option (Nat × List Nat) := none
  feedHbmUntil : Nat := 0
  feedKcUntil : Nat := 0
  lastSlot : Table Nat := []
  convStore : List Word32 := []
  pipSets : List PipSet := []
  refresh : Option Refresh := none
  teVerdicts : List TeVerdict := []
  relay : List RelayRow := []
  sdViolations : Word32 := 0
  sdFirstAt : Nat := 0
  sdCluster : BitVec 5 := 0
  sdEngine : BitVec 4 := 0
  sdRing : BitVec 4 := 0
  sdCheck : BitVec 3 := 0
  scrubRow : Nat := 0
  tableSerial : Word64 := 0
  heldBeat : Option Nat := none
  sigRecord : List Word64 := []
deriving DecidableEq, Repr

/-- One residue-set record (R71). -/
structure ResidueSet where
  log2n : Nat
  ordinary : List Nat
  special : List Nat
  digit : Nat
  t : Nat
deriving DecidableEq, Repr

/-- One key directory entry (R72). -/
structure KeyEntry where
  index : Nat
  kind : Nat
  rset : Nat
  galois : Nat
  lo : Nat
  hi : Nat
  digits : Nat
  offset : Nat
  length : Nat
deriving DecidableEq, Repr

/-- One bound-table entry (R150). -/
structure BoundEntry where
  cls : Nat
  rset : Nat
  lo : Nat
  hi : Nat
  dec : Nat
  cap : Nat
  width : Nat
deriving DecidableEq, Repr

/-- The bound table of a BGV or BFV key set (R149). -/
structure BoundTable where
  margin : Nat := 0
  fresh : List Nat := []
  entries : List BoundEntry := []
deriving DecidableEq, Repr

/-- A registered key set (R67 to R75). -/
structure KeySet where
  digest : List Byte
  ksid : Nat
  scheme : Nat
  seed : List Byte
  ownerKey : List Byte
  rsets : List ResidueSet
  bounds : BoundTable
  keys : List KeyEntry
  regionBase : Nat
  regionLen : Nat
  ownerPub : List Byte := []
deriving DecidableEq, Repr

/-- A registration in progress (R75): the entry's function and host tag, the manifest and key region it locks. -/
structure Registration where
  fn : Nat
  tag : Word32
  manifest : Nat
  manifestLen : Nat
  region : Nat
  regionLen : Nat
  areaNo : Nat
  seq : Nat
deriving DecidableEq, Repr

/-- A read of a piece of a key whose transfer has not been granted (R231): the piece, the read's cycle, and the reading
cluster, OP and word index. -/
structure AwaitedPiece where
  piece : Nat
  at_ : Nat
  cluster : Nat
  op : Nat
  word : Nat
deriving DecidableEq, Repr

/-- An SU.KFILL under way (R89): its job and cluster, the cycle its first piece is eligible in, the piece to be granted next
and their number (the key's head, then its planes in 2 KiB blocks), its OP and word index, and the reads judged later. -/
structure KcFill where
  job : Nat
  cluster : Nat
  first : Nat
  next : Nat
  count : Nat
  opc : Nat
  word : Nat
  awaited : List AwaitedPiece := []
deriving DecidableEq, Repr

/-- A key-cache directory entry in use (R87 to R91): its extents, the jobs that share it, its header, whether a fill has been
issued and whether it failed, the extents under repair, the fill under way, and the stamp of each piece granted. -/
structure KcEntry where
  ksid : Nat
  index : Nat
  hi : Nat
  extents : List Nat
  jobs : List Nat
  filled : Bool
  bad : Bool
  repairing : List Nat
  header : List Byte := []
  fill : Option KcFill := none
  landing : Table Nat := []
deriving DecidableEq, Repr

/-- An area of host HBM (R312); `doomed` once a function-level reset waits for its jobs to let it go (R308). -/
structure Area where
  release : Bool
  owner : Nat
  base : Nat
  length : Nat
  doomed : Bool := false
deriving DecidableEq, Repr

/-- A range locked against the host (R313, R75, R281): base, length and the lock's owner. -/
inductive LockOwner where
  | registration | job (id : Nat) | mailbox | staging
deriving DecidableEq, Repr

/-- A submitted entry (R317): its function and 64 bytes, in arrival order; then the beat it became visible in, and
whether R319 holds it. -/
structure Entry where
  fn : Nat
  raw : List Byte
  seq : Nat
  visible : Nat
  held : Bool := false
deriving DecidableEq, Repr

/-- A transfer entry being moved (R321). -/
structure HostTransfer where
  fn : Nat
  tag : Word32
  toHost : Bool
  hostAddr : Nat
  devAddr : Nat
  length : Nat
  seq : Nat
deriving DecidableEq, Repr

/-- A ring in host memory (R322, R333). -/
structure HostRing where
  base : Word64 := 0
  log2 : BitVec 5 := 6
  enabled : Bool := false
  head : BitVec 16 := 0
  tail : BitVec 16 := 0
  phase : Bool := true
deriving DecidableEq, Repr

/-- A waiting completion record or receipt item (R323). -/
structure BacklogItem where
  bytes : List Byte
  job : Nat
  kind : Nat
deriving DecidableEq, Repr

/-- A function's side of the host attachment (R308, R316, R322 to R334). Function 0 is the PF. -/
structure Func where
  quota : BitVec 13 := 0
  droppedCredit : Word32 := 0
  droppedMalformed : Word32 := 0
  accessRefused : Word32 := 0
  poisonReads : Word32 := 0
  creditThreshold : BitVec 13 := 0
  allotBase : BitVec 22 := 0
  allotLen : BitVec 21 := 0
  cq : HostRing := {}
  rq : HostRing := { log2 := 4 }
  cqBacklog : List BacklogItem := []
  rqBacklog : List BacklogItem := []
  seq : Word64 := 0
  rqSeq : Word64 := 0
  evPending : BitVec 16 := 0
  evActive : BitVec 16 := 0
  evMask : BitVec 16 := 0xFFFF
  evStray : Word32 := 0
  evVector : Vector (BitVec 6) 16 := Vector.replicate 16 0
  msixTable : Table Word64 := []
  msixMask : BitVec 64 := 0xFFFFFFFFFFFFFFFF
  msixPending : BitVec 64 := 0
  d3hot : Bool := false
  streams : List (BitVec 8) := []
  cfgRetry : Bool := false
  cfgReply : Word32 := 0
deriving DecidableEq, Repr

/-- One parameter declaration (R190). -/
structure ParamDecl where
  role : Nat := 0
  required : Bool := false
  lo : Nat := 0
  hi : Nat := 0
  extent : Nat := 0
deriving DecidableEq, Repr

/-- One ring declaration of an image (R189, R215). -/
structure RingDecl where
  base : Nat
  size : Nat
  resident : Bool
  object : Bool
deriving DecidableEq, Repr

/-- One INPUTS entry (R191). -/
structure InputDecl where
  reg : Nat
  format : Nat
  npoly : Nat
  rset : Nat
  level : Nat
  seededOk : Bool
  eval : Bool
  refreshed : Bool
  scale : Nat
  budget : Nat
  offset : Nat
deriving DecidableEq, Repr

/-- One key declaration (R189). -/
structure KeyDecl where
  index : Nat
  kind : Nat
  hi : Nat
  rset : Nat
  fromHbm : Bool
deriving DecidableEq, Repr

/-- One message of the link slot plan (R344). -/
structure LinkMessage where
  beat : Nat
  slot : Nat
  frames : Nat
  port : Nat
  receive : Bool
  final : Bool
  group : Nat
  reg : Nat
  offset : Nat
  id : Nat
deriving DecidableEq, Repr

/-- The LINK section (R344). -/
structure LinkPlan where
  key : Nat
  digest : List Byte
  members : Nat
  position : Nat
  diameter : Nat
  ports : List Nat
  messages : List LinkMessage
deriving DecidableEq, Repr

/-- A parsed Nalar object (R188 to R192). -/
structure Program where
  digest : List Byte := []
  scheme : Nat := 1
  refreshed : Bool := false
  log2n : Nat := 12
  groups : Nat := 1
  span : Nat := 1
  releaseStage : Bool := false
  load : Bool := false
  use : Bool := false
  linked : Bool := false
  ksid : Nat := 0
  jobLength : Nat := 1
  images : List (List Word32) := []
  streamMap : List Nat := []
  rings : List (List RingDecl) := []
  params : List ParamDecl := []
  inputs : List InputDecl := []
  keys : List KeyDecl := []
  descriptors : List (List Byte) := []
  checkpoints : List Nat := []
  model : List Byte := []
  residentBytes : Nat := 0
  data : List Byte := []
  link : Option LinkPlan := none
deriving DecidableEq, Repr

/-- An object in the program queue (R193): assembled bytes, whole or not, and where its completion goes. -/
structure QueuedProgram where
  fn : Nat
  tag : Word32
  byChunks : Bool
  bytes : List Byte
  complete : Bool
  seq : Nat
  visible : Nat := 0
deriving DecidableEq, Repr

/-- Where a job stands (R29, R282, R285). -/
inductive JobPhase where
  | waiting | mapped | running | fencedRestart | fencedTerminate | finished
deriving DecidableEq, Repr

/-- The saved state of a cluster at a checkpoint (R280): the items of R167 but the parameters, and R177's counters. -/
structure SavedCore where
  sregs : Vector Word64 32
  loops : Vector (BitVec 24) 4
  pc : BitVec 32
  state : CoreState
  sat : Word32
  nan : Word32
  grange : Word32
  rearm : Word32
deriving DecidableEq, Repr

/-- A checkpoint bank (R280): the job beat, and each cluster's saved state by logical cluster number (32 × set-wise
logical group + cluster); the saved tile windows by logical group. -/
structure Checkpoint where
  beat : Nat
  cores : Table SavedCore
  windows : Table (Vector (BitVec 16) 16)
  half : Bool := false
deriving DecidableEq, Repr

/-- An SU.STORE of a job (R30, R236): its destination range, whether its completion stamp has passed, its register's
role, and for an object store the object's base and header. -/
structure StoreRange where
  addr : Nat
  length : Nat
  jobBeat : Nat
  done : Bool
  role : Nat
  base : Nat := 0
  object : Bool := false
  hdr : Header := {}
deriving DecidableEq, Repr

/-- A job of the job table (R202 to R208, R282 to R287, R320). -/
structure Job where
  id : BitVec 16
  fn : Nat
  tag : Word32
  recordAddr : Nat
  recordLen : Nat
  visible : Nat
  seq : Nat
  checked : Bool := false
  complTag : Word32 := 0
  deadline : Nat := 0
  program : Nat := 0
  groupCount : Nat := 0
  twin : Bool := false
  phase : JobPhase := .waiting
  mapBeat : Nat := 0
  set0 : List Nat := []
  set1 : List Nat := []
  params : Table Word64 := []
  jobBeat0 : Nat := 0
  jobBeat : Nat := 0
  releaseMark : Option Nat := none
  lastOut : Option Nat := none
  withheld : Bool := false
  decision : Option Bool := none
  cancelled : Bool := false
  deadlineHit : Bool := false
  silent : Bool := false
deriving DecidableEq, Repr

/-- The rest of a job: stores (R236, R313), checkpoints (R280), signatures (R277), faults and restarts (R285, R287,
R299), its final record (R324, R325), its LINKED state (R351 to R355), and for each
group it held the first and last beat in which it released (R275). -/
structure JobRun where
  stores : List StoreRange := []
  pendingBank : Option Checkpoint := none
  committed : Option Checkpoint := none
  copied : Nat := 0
  previous : Option Checkpoint := none
  signatures : Table (List Word64) := []
  faults : List (List Word64) := []
  episode : Bool := false
  episodeRestarting : Bool := false
  kind : Nat := 0
  restarts : Nat := 0
  point : Option (List Nat) := none
  excluded : List Nat := []
  fills : Nat := 0
  recalls : List Word64 := []
  inputDigests : List (List Byte) := []
  configDigest : List Byte := []
  linkReady : List Nat := []
  linkStart : Option Nat := none
  restartNo : Nat := 0
  clears : Table (List Nat) := []
  commonBeat : Option Checkpoint := none
  linkSig : Word64 := 0
  provisionalFailed : Bool := false
  windfall : List (Nat × Nat) := []
  badFrames : Table Nat := []
  spoiled : List Nat := []
  refusal : Option (List Nat) := none
  fencedAt : Nat := 0
  faultsTruncated : Bool := false
  spans : Table (Nat × Nat) := []
  area : Nat := 0
deriving DecidableEq, Repr

/-- A finished job whose receipt waits for its extent digests (R325, R385), with its serial, program and key-set digest. -/
structure ReceiptDue where
  job : Job
  run : JobRun
  status : Nat
  serial : Nat
  prog : Program
  ksDigest : List Byte
deriving DecidableEq, Repr

/-- A fault message between its unit and its collector (R289, R300): the word, its fire time and job; `via` is the
requesting group whose collector a memory-side unit's message goes to (R290). -/
structure FaultWire where
  word : Word64
  fireAt : Nat
  job : BitVec 16
  addr : Nat
  poisoned : Bool
  detSuspect : Bool
  injected : Bool
  via : Option Nat := none
deriving DecidableEq, Repr

/-- The device fault collector (R293, R306) and the collectors of the memory-side dies and the I/O die blocks. -/
structure FaultUnit where
  wires : List FaultWire := []
  toDevice : List (List Word64) := []
  dieCollectors : Table Collector := []
  stickyGroups : BitVec 68 := 0
  stickyMsd : BitVec 4 := 0
  stickyIo : BitVec 10 := 0
  severe : List Nat := []
  fencesJ : Word32 := 0
  fencesW : Word32 := 0
  logHead : Word32 := 0
  logTail : Word32 := 0
  logLost : Word32 := 0
  logIndex : BitVec 12 := 0
  log : Table (List Word64) := []
  faultN : Bool := true
deriving DecidableEq, Repr

/-- One stack's counters and tables (R253, R259). -/
structure Stack where
  ready : Bool := false
  remap : Table Nat := []
  secondLevel : List Nat := []
  sparesUsed : Table Nat := []
  deadRows : List Nat := []
  corrected : Word32 := 0
  uncorrectable : Word32 := 0
  retries : Word32 := 0
  overruns : Word32 := 0
  temp : BitVec 10 := 0
  laneSpares : Word32 := 0
  doubledRefresh : Bool := false
  capAsked : Bool := false
  coolSince : Nat := 0
deriving DecidableEq, Repr

/-- One memory-side die (R240, R259). -/
structure MemoryDie where
  kcCorrected : Word32 := 0
  kcUncorrectable : Word32 := 0
  temp : BitVec 10 := 0
  slowClock : Bool := false
  capAsked : Bool := false
  liftDue : Bool := false
  coolSince : Nat := 0
  injection : Option TerrierResult := none
  lastGood : Nat := 0
deriving DecidableEq, Repr

/-- A remap, second remap or page retirement that has been decided and waits to take effect (R253, R254, R446). -/
structure RemapDue where
  stack : Nat
  pc : Nat
  row : Nat
deriving DecidableEq, Repr

/-- The memory system block (R240 to R259). -/
structure MemorySystem where
  hbmStacks : Table Stack := []
  dies : Table MemoryDie := []
  hbmReady : Bool := false
  hbmFailed : Bool := false
  retiredPages : List Nat := []
  retiredIndex : BitVec 27 := 0
  patrolEn : Bool := true
  patrolHours : BitVec 5 := 12
  patrolPos : BitVec 38 := 0
  passes : BitVec 16 := 0
  pcSelect : BitVec 8 := 0
  pcCorrected : Table Word32 := []
  pcUncorrectable : Table Word32 := []
  writebacks : List Nat := []
  failedRows : List RemapDue := []
  migrating : Option Nat := none
deriving DecidableEq, Repr

/-- The device memory (R242): every byte of HBM, key cache, group buffers and scratchpads by device address in one
canonical list, and the lines and words marked poisoned (R255, R213). -/
structure Memory where
  cells : List Host.Cell := []
  poisonLines : List Nat := []
  poisonWords : List Nat := []
deriving DecidableEq, Repr

/-- Identity and fuses (R2, R15, R331, R357, R360): kept across every reset. -/
structure Fuses where
  grade : BitVec 4 := 0
  stepping : Byte := 0xB1
  spareGroups : List Nat := [16, 33, 50, 67]
  fusedOff : List Nat := []
  retired : List Nat := []
  ownerEpoch : BitVec 4 := 0
  ownerDigests : Table (List Byte) := []
  securityVersion : BitVec 6 := 0
  sealDisabled : Bool := false
deriving DecidableEq, Repr

/-- Power, clocks and thermal control (R411 to R422, R430). `permits` is each cause's step code (R416). -/
structure PowerUnit where
  stepCode : BitVec 3 := 0
  hostStep : BitVec 3 := 0
  permits : Table Nat := []
  capUnmet : Bool := false
  pending : Option (Nat × Nat) := none
  later : Option Nat := none
  stepChanges : Word32 := 0
  stepUpAbandoned : Word32 := 0
  awaitingVoltage : Option Nat := none
  retryAt : Nat := 0
  sensors : Table (BitVec 10) := []
  tjMax : BitVec 10 := 0
  tjSensor : BitVec 6 := 0
  throttleStart : BitVec 7 := 95
  hotSamples : Nat := 0
  holdUntil : Nat := 0
  fastHoldUntil : Nat := 0
  coolSince : Nat := 0
  pkgPower : BitVec 11 := 0
  vddcAmps : BitVec 11 := 0
  vddcMv : BitVec 10 := 0
  vddcRequest : BitVec 10 := 750
  belowSince : Nat := 0
  currentSince : Nat := 0
  sensorSelect : BitVec 6 := 0
  railSelect : BitVec 4 := 0
  railMv : Table (BitVec 12) := []
  railMin : Table (BitVec 12) := []
  railMax : Table (BitVec 12) := []
  railExcursions : Table (BitVec 12) := []
deriving DecidableEq, Repr

/-- Reset, release and halt (R422 to R430). `released` counts the release steps done (R427). -/
structure ResetUnit where
  rstCause : BitVec 4 := 0
  released : Nat := 0
  hostReady : Bool := false
  tripped : Bool := false
  tripSensor : BitVec 6 := 0
  heldReset : Bool := false
  haltPending : Bool := false
  haltStarted : Bool := false
  halted : Bool := false
  domains : BitVec 190 := 0
  blockResets : Word32 := 0
  blockTimeouts : Word32 := 0
  idleAsked : List Nat := []
  thermTripN : Bool := true
  beatOut : Nat := 0
  scanDumped : Bool := false
  strap : BitVec 4 := 0
  linkReference : Bool := true
deriving DecidableEq, Repr

/-- The mode axes (R431 to R442). -/
structure ModeUnit where
  sealedTrust : Bool := false
  capped : Bool := false
  powerForced : Bool := false
  linked : Bool := false
  adopting : Bool := false
  factory : Bool := false
  twinAll : Bool := false
  twinAllNext : Bool := false
  powerReq : Bool := false
  factoryBeat : BeatNo := 0
  authRefused : BitVec 16 := 0
  factoryPending : Bool := false
deriving DecidableEq, Repr

/-- The filtered inputs (R462, R463, R468). -/
structure PinUnit where
  active : BitVec 7 := 0
  racing : BitVec 7 := 0
  coolForcing : Bool := false
  forcingNext : Option Bool := none
  glitches : Table Word32 := []
  coolStuck : BitVec 16 := 0
  beatInWidths : List Nat := []
  sbAlert : Byte := 0
  sbAnswer : BitVec 16 := 0
deriving DecidableEq, Repr

/-- One link port (R335 to R340, R347, R356): the NAK it owes its peer and the one it got, its lane control, the replay
buffer with the slot of each frame, and the frames last sent. -/
structure Port where
  state : BitVec 3 := 0
  failCause : BitVec 3 := 0
  peerPosition : BitVec 6 := 0
  peerValid : Bool := false
  lanesActive : BitVec 5 := 0
  spareLane : Option Nat := none
  spareUsed : Bool := false
  sparing : Option Nat := none
  swapAt : Option Nat := none
  latency : Byte := 0
  corrected : Word32 := 0
  framesBad : Word32 := 0
  retransmits : Word32 := 0
  retrains : Word32 := 0
  enabled : Bool := true
  nak : Option Nat := none
  peerNak : Option Nat := none
  laneRequest : Option Nat := none
  laneAck : Bool := false
  replay : List (Nat × List Byte) := []
  sent : List (List Byte) := []
deriving DecidableEq, Repr

/-- The link block and the beat domain (R341 to R343, R351 to R356). -/
structure LinkUnit where
  ports : Table Port := []
  position : BitVec 6 := 0
  upstream : BitVec 4 := 0
  aligned : Bool := false
  alignRun : Nat := 0
  domainStep : BitVec 3 := 0
  memberSteps : Table Nat := []
  stepDue : List (Nat × Nat) := []
  sentStep : Nat := 0
  beatInUsed : Bool := false
  alignErr : BitVec 8 := 0
  alignLosses : Word32 := 0
  membersSeen : Word64 := 0
  membersNow : Word64 := 0
  seen : List (List Nat) := []
  readies : List (List Nat) := []
  outgoing : List (List Nat) := []
deriving DecidableEq, Repr

/-- An accepted curve of the Quince engine (R372). -/
structure Curve where
  len : Nat
  p : Nat
  a : Nat
  b : Nat
  gx : Nat
  gy : Nat
  n : Nat
  h : Nat
  digest : List Byte
deriving DecidableEq, Repr

/-- An open import session (R375). -/
structure ImportSession where
  number : Word32
  slot : Nat
  ksid : Nat
  scalar : Nat
  kemPos : Nat
  offerDigest : List Byte
deriving DecidableEq, Repr

/-- The held decryption share (R376 to R378). -/
structure Share where
  party : Nat
  parties : Nat
  width : Nat
  precision : Nat
  rset : Nat
  planes : Nat
  ksid : Nat
  words : List Nat
  digest : List Byte
deriving DecidableEq, Repr

/-- The security block and mailbox (R365 to R382). -/
structure SecurityUnit where
  cmd : Byte := 0
  busy : Bool := false
  result : Byte := 0
  respLen : BitVec 16 := 0
  done : Word32 := 0
  refused : Word32 := 0
  request : List Host.Cell := []
  response : List Byte := []
  nextResult : Nat := 0
  nextResponse : List Byte := []
  drbgOk : Bool := false
  drbgLocked : Bool := false
  drbgPos : Nat := 0
  drbgRequests : Nat := 0
  drbgFailures : Nat := 0
  session : Option ImportSession := none
  sessions : Word32 := 0
  share : Option Share := none
  curves : Table Curve := []
  attested : List (List Byte × Nat) := []
  pdDone : Word32 := 0
  pdTable : List (List Byte) := []
deriving DecidableEq, Repr

/-- One field's applied value (R395, R396): a number, or the bytes of a list's applied entries. -/
structure FieldValue where
  num : Nat
  bytes : List Byte
  reason : Nat
  flags : Nat
  given : Nat
deriving DecidableEq, Repr

/-- A parsed and checked image (R390 to R400): serial, firmware digest, whether its policy verified, its owner key
digest, the fields by type and the IGNORED_UNKNOWN entries. -/
structure Image where
  serial : Word64
  fwDigest : List Byte
  policyOk : Bool
  ownerDigest : List Byte
  ownerChange : Bool
  fields : Table FieldValue
  unknown : List (Nat × Nat × Nat)
deriving DecidableEq, Repr

/-- The configuration, staging and adoption (R388 to R405). -/
structure ConfigUnit where
  bootSlot : BitVec 2 := 0
  policyOk : Bool := false
  ownerChanged : Bool := false
  active : Option Image := none
  fields : Table FieldValue := []
  appliedDigest : List Byte := []
  reportIndex : Byte := 0
  reportStaged : Bool := false
  slotA : BitVec 2 := 0
  slotB : BitVec 2 := 0
  recovery : BitVec 2 := 0
  stageAddr : DevAddr := 0
  stageLen : BitVec 25 := 0
  stageState : BitVec 3 := 0
  stageResult : Byte := 0
  staged : Option Image := none
  adoptPiece : BitVec 4 := 0
  adoptState : BitVec 4 := 0
  adoptResult : Byte := 0
  groupsTabled : List Nat := []
  refused : Word32 := 0
  switchBeat : Option Nat := none
  revert : Bool := false
  bank : Bool := false
  oldFields : Table FieldValue := []
  retrainNext : Nat := 0
  recalStart : Nat := 0
deriving DecidableEq, Repr

/-- The flash on the board (R389): its bytes by flash offset; not part of any reset. -/
structure Flash where
  cells : List Host.Cell := []
deriving DecidableEq, Repr

/-- One ledger event waiting to be written (R446). -/
structure LedgerEvent where
  code : Nat
  body : List Byte
deriving DecidableEq, Repr

/-- The life ledger (R443 to R450). -/
structure LedgerUnit where
  valid : Bool := false
  fresh : Bool := false
  flushBusy : Bool := false
  failed : Bool := false
  resetCount : BitVec 24 := 0
  sequence : Word64 := 0
  flushes : Word32 := 0
  writeErrors : Word32 := 0
  eventsLost : Word32 := 0
  lostPending : Nat := 0
  badSectors : Byte := 0
  events : List LedgerEvent := []
  flushAsked : Bool := false
  durableAsked : Bool := false
  cntIndex : BitVec 12 := 0
  counters : Table (BitVec 48) := []
  windowOffset : BitVec 23 := 0
  windowReady : Bool := false
  window : List Byte := []
  writePos : Nat := 0
deriving DecidableEq, Repr

/-- Observation, boundary scan and injection (R304, R451 to R454). -/
structure TestUnit where
  obsSel : Table (BitVec 16) := []
  anaSel : BitVec 16 := 0
  selRefused : Word32 := 0
  jtagRefused : Word32 := 0
  tapInstr : Byte := 0x02
  boundary : List Bool := []
  bypassBit : Bool := false
  tdo : List Bool := []
  injArm : Bool := false
  injMode : BitVec 2 := 0
  injUnit : BitVec 20 := 0
  injKind : Byte := 0
  injFired : Word32 := 0
deriving DecidableEq, Repr

/-- The intake side (R316 to R324) and work in the management cores that a later command finishes. -/
structure HostUnit where
  funcs : Table Func := []
  fifo : List Entry := []
  visible : List Entry := []
  nextSeq : Nat := 0
  areas : Table Area := []
  locks : List (LockOwner × Nat × Nat) := []
  unreleased : List (Nat × Nat) := []
  transfers : List HostTransfer := []
  registration : Option Registration := none
  encode : Option Entry := none
  bar2Base : Byte := 0
  hostHbmMib : Word32 := 0
  hostRam : List Host.Cell := []
  lastRead : List Byte := []
  linkWidth : BitVec 4 := 0
  linkRate : BitVec 4 := 0
  flit : Bool := false
  pcieHeld : Bool := false
deriving DecidableEq, Repr

/-- One receipt kept for a group (R276): the first and last device beat in which its job released an output while it
held the group, its serial and its function. -/
structure JobLogEntry where
  first : Nat
  last : Nat
  serial : Nat
  fn : Nat
deriving DecidableEq, Repr

/-- Jobs, programs, key sets and receipts (R68, R193, R198, R320, R386). -/
structure WorkUnit where
  keySets : Table KeySet := []
  kcDir : List KcEntry := []
  programs : Table Program := []
  queue : List QueuedProgram := []
  jobs : Table Job := []
  runs : Table JobRun := []
  receiptsDue : List ReceiptDue := []
  serial : BitVec 40 := 0
  noticesDue : List (List Byte × List Nat) := []
  unsigned : List (List Byte × List Nat) := []
  jobLogs : Table (List JobLogEntry) := []
  completing : Table (Nat × Nat) := []
deriving DecidableEq, Repr

/-- The machine. `pending` is the block's queue of commands; `free` is the model's own counter of free values
consumed (log entry 4). -/
structure State where
  pending : List Instr
  beat : BeatNo
  cycle : BitVec 16
  free : Nat
  mem : Memory
  groups : Table Group
  units : Table GroupUnits
  clusters : Table Cluster
  rings : Table Ring
  work : WorkUnit
  host : HostUnit
  faults : FaultUnit
  memSys : MemorySystem
  fuses : Fuses
  power : PowerUnit
  rst : ResetUnit
  mode : ModeUnit
  pins : PinUnit
  link : LinkUnit
  sec : SecurityUnit
  cfg : ConfigUnit
  flash : Flash
  ledger : LedgerUnit
  test : TestUnit
deriving DecidableEq, Repr

/-- Function 0 after reset: the PF's quota is 4,096 (R316); every other function's is 0. -/
def Func.reset (fn : Nat) : Func := if fn = 0 then { quota := 4096 } else {}

/-- Take one retired group: the spares now in use and the groups gone, then the spare that replaces it: one of the same
die if one is free, else the lowest-numbered free one (R408). -/
def Fuses.substitute (f : Fuses) (acc : List Nat × List Nat) (r : Nat) : List Nat × List Nat :=
  let used := acc.1.filter (· != r)
  let gone := r :: acc.2
  let free := f.spareGroups.filter fun p => !used.contains p && !gone.contains p
  if f.spareGroups.contains r && !acc.1.contains r then (used, gone)
  else match free.find? fun p => p / 17 == r / 17 with
    | some p => (used ++ [p], gone)
    | none => (used ++ free.take 1, gone)

/-- The spares that replace retired groups, in the order of the retirements (R408). -/
def Fuses.substitutes (f : Fuses) : List Nat := (f.retired.foldl f.substitute ([], [])).1

/-- The spare groups of grade A as the parts of the worked examples carry them (log entry 3): the last of each die. -/
def Group.initial (fz : Fuses) (p : Nat) : Group :=
  { role := if fz.fusedOff.contains p then .fusedOff
            else if fz.retired.contains p then .retired
            else if fz.spareGroups.contains p && !fz.substitutes.contains p then .spare else .usable }

/-- The machine right after reset: the values the rules give each register, and where they give none the values of
log entries 2 and 3. Before the release order of R427 no domain is on and HOST_READY is 0. -/
def State.reset : State where
  pending := []
  beat := 0
  cycle := 0
  free := 0
  mem := {}
  groups := []
  units := []
  clusters := []
  rings := []
  work := {}
  host := {}
  faults := {}
  memSys := {}
  fuses := {}
  power := {}
  rst := {}
  mode := {}
  pins := {}
  link := {}
  sec := {}
  cfg := {}
  flash := {}
  ledger := {}
  test := {}

end Sys2Proof.Machine
end

