-- ==== Sys2Proof/Machine/Ops.lean ====
section
/-!
DEFINITION. Ops: the named operations every meaning uses: tables, the device memory, units, time, free values,
faults, events, completions and the ledger's buffer.
-/
namespace Sys2Proof.Machine

/-- What a meaning answers. -/
abbrev Out := Host.Outcome State Fault Refusal

/-- A meaning's next state, unless SCAN_DUMP has left the device's state undefined (R454). -/
def live (s t : State) : Out := if s.rst.scanDumped then .fault .undefinedAfterScanDump else .next t

/-! ### Tables -/

/-- The value listed at `k`. -/
def Table.find {α : Type} : Table α → Nat → Option α
  | [], _ => none
  | (k, v) :: t, i => if k = i then some v else Table.find t i

/-- The value at `k`, `d` when unlisted. -/
def Table.at {α : Type} (t : Table α) (k : Nat) (d : α) : α := (Table.find t k).getD d

/-- List `v` at `k`, keeping the keys rising. -/
def Table.put {α : Type} : Table α → Nat → α → Table α
  | [], k, v => [(k, v)]
  | (i, w) :: t, k, v =>
    if k < i then (k, v) :: (i, w) :: t else if k = i then (k, v) :: t else (i, w) :: Table.put t k v

/-- Unlist `k`. -/
def Table.del {α : Type} (t : Table α) (k : Nat) : Table α := t.filter fun e => e.1 != k

/-- Change the value at `k`. -/
def Table.modify {α : Type} (t : Table α) (k : Nat) (d : α) (f : α → α) : Table α := t.put k (f (t.at k d))

/-- What an entry holds in cycle `t`. -/
def Timed.at {α : Type} (e : Timed α) (t : Nat) : α := if e.from_ ≤ t then e.new else e.old

/-- Load `v` at `k`, to hold from cycle `t` on; `d` is what an unlisted entry holds. -/
def Table.load {α : Type} (tb : Table (Timed α)) (k t now : Nat) (d v : α) : Table (Timed α) :=
  tb.put k { from_ := t, new := v, old := (tb.find k).elim d fun e => e.at now }

/-! ### Saturating counters -/

/-- A counter that saturates at its maximum, raised by `n`. -/
def satAdd {w : Nat} (x : BitVec w) (n : Nat) : BitVec w :=
  if x.toNat + n < 2 ^ w then BitVec.ofNat w (x.toNat + n) else BitVec.allOnes w

/-- A saturating counter raised by one. -/
def satInc {w : Nat} (x : BitVec w) : BitVec w := satAdd x 1

/-- Bit `i` of a bit vector set. -/
def setBit {w : Nat} (x : BitVec w) (i : Nat) : BitVec w := x ||| BitVec.ofNat w (2 ^ i)
/-- Bit `i` of a bit vector cleared. -/
def clearBit {w : Nat} (x : BitVec w) (i : Nat) : BitVec w := x &&& ~~~ BitVec.ofNat w (2 ^ i)

/-! ### Time -/

/-- Cycles in a beat (R8). -/
def beatCycles : Nat := 65536
/-- First cycle of the service slice (R24). -/
def windowEnd : Nat := 59392
/-- The absolute cycle of the machine's clock. -/
def State.now (s : State) : Nat := s.beat.toNat * beatCycles + s.cycle.toNat
/-- The beat of an absolute cycle. -/
def beatOf (t : Nat) : Nat := t / beatCycles
/-- The cycle within its beat. -/
def cycleOf (t : Nat) : Nat := t % beatCycles

/-- Beats run: host-ready, and neither tripped nor halted (R27, R422, R423). -/
def State.beating (s : State) : Bool := s.rst.hostReady && !s.rst.tripped && !s.rst.halted

/-- One arithmetic cycle of an idle block: while beats run, the cycle advances up to the beat's last; a beat turns
only by BEAT_BOUNDARY (R8, R24; log entry 12). -/
def State.tick (s : State) : State :=
  if s.beating && decide (s.cycle.toNat + 1 < beatCycles) then { s with cycle := s.cycle + 1 } else s

/-- A step of the beat's own timetable (R24, R264): the cycle is at least the step's. -/
def State.reach (s : State) (c : Nat) : State := if s.cycle.toNat < c then { s with cycle := BitVec.ofNat 16 c } else s

/-- The same for an absolute cycle, of a beat that has begun. -/
def State.reachAbs (s : State) (t : Nat) : State := if beatOf t = s.beat.toNat then s.reach (cycleOf t) else s

/-! ### The device memory -/

/-- Base of the key cache, the group buffers, the scratchpads and the registers (R242). -/
def kcBase : Nat := 0x100000000000
@[inherit_doc kcBase] def gbBase : Nat := 0x200000000000
@[inherit_doc kcBase] def spBase : Nat := 0x300000000000
@[inherit_doc kcBase] def regBase : Nat := 0x400000000000
/-- Size of HBM, the key cache, the group buffers and the scratchpads in bytes (R242). -/
def hbmSize : Nat := 0x3000000000
@[inherit_doc hbmSize] def kcSize : Nat := 0x80000000
@[inherit_doc hbmSize] def gbSize : Nat := 0x22000000
/-- Size of an install slot's data area (R189, R198; log entry 51). -/
def dataAreaBytes : Nat := 0x1000000
@[inherit_doc hbmSize] def spSize : Nat := 0x88000000
/-- One group buffer, one scratchpad, one key-cache extent (R17, R19, R87). -/
def groupBufferBytes : Nat := 0x800000
@[inherit_doc groupBufferBytes] def scratchpadBytes : Nat := 0x100000
@[inherit_doc groupBufferBytes] def extentBytes : Nat := 0x400000

/-- What an address nothing has written reads as: the groups' SRAMs hold the poison pattern and HBM and the key
cache hold zeros after the fills of the release order (R427). -/
def unlistedByte (a : Nat) : Byte := if gbBase ≤ a ∧ a < spBase + spSize then 0xFF else 0

/-- The byte at an address of a canonical list, `d` giving what an unlisted address reads as. -/
def cellAt (d : Nat → Byte) : List Host.Cell → Nat → Byte
  | [], a => d a
  | (i, b) :: t, a => if i = a then b else cellAt d t a

/-- Put a byte into a canonical list: the address is listed exactly when the byte is not what it reads as unlisted. -/
def cellPut (d : Nat → Byte) : List Host.Cell → Nat → Byte → List Host.Cell
  | [], a, b => if b = d a then [] else [(a, b)]
  | (i, c) :: t, a, b =>
    if a < i then (if b = d a then (i, c) :: t else (a, b) :: (i, c) :: t)
    else if a = i then (if b = d a then t else (a, b) :: t)
    else (i, c) :: cellPut d t a b

/-- The canonical form: addresses strictly rising, no entry equal to what its address reads as unlisted. -/
def cellsWf (d : Nat → Byte) : List Host.Cell → Bool
  | [] => true
  | [(a, b)] => b != d a
  | (a, b) :: (i, c) :: t => b != d a && decide (a < i) && cellsWf d ((i, c) :: t)

/-- The device memory is in canonical form. -/
def Memory.wf (m : Memory) : Bool := cellsWf unlistedByte m.cells

/-- Host memory and the flash read 0 where nothing is listed (log entries 10 and 11). -/
def zeroByte (_ : Nat) : Byte := 0
/-- Erased flash reads 0xFF (R394). -/
def erasedByte (_ : Nat) : Byte := 0xFF

/-- One byte of device memory. -/
def Memory.read (m : Memory) (a : Nat) : Byte := cellAt unlistedByte m.cells a

/-- `n` bytes from address `a`. -/
def Memory.readN (m : Memory) (a n : Nat) : List Byte := (List.range n).map fun i => m.read (a + i)

/-- Write one byte. -/
def Memory.write (m : Memory) (a : Nat) (b : Byte) : Memory := { m with cells := cellPut unlistedByte m.cells a b }

/-- Write bytes from address `a` on. -/
def Memory.writeN : Memory → Nat → List Byte → Memory
  | m, _, [] => m
  | m, a, b :: bs => Memory.writeN (m.write a b) (a + 1) bs

/-- Fill `n` bytes from address `a`. -/
def Memory.fill (m : Memory) (a : Nat) (b : Byte) : Nat → Memory
  | 0 => m
  | n + 1 => Memory.fill (m.write (a + n) b) a b n

/-- The little-endian word at `a` (R37). -/
def Memory.word (m : Memory) (a : Nat) : Word32 := BitVec.ofNat 32 (leNat (m.readN a 4))

/-- The row of 64 words at `a` (R212). -/
def Memory.row (m : Memory) (a : Nat) : Row := (List.range 64).map fun i => m.word (a + 4 * i)

/-- A row's 256 bytes. -/
def rowBytes (r : Row) : List Byte := r.flatMap fun w => leBytes 4 w.toNat

/-- A list of bytes as words. -/
def bytesToWords (bs : List Byte) : List Word32 :=
  (List.range (bs.length / 4)).map fun i => BitVec.ofNat 32 (field bs (4 * i) 4)

/-- The poison pattern of a word (R53), and a row of it. -/
def poisonWord : Word32 := 0xFFFFFFFF
@[inherit_doc poisonWord] def poisonRow : Row := List.replicate 64 poisonWord

/-- Clear the poison marks of the lines and words that `n` bytes from `a` cover whole (R255). -/
def Memory.unmark (m : Memory) (a n : Nat) : Memory :=
  { m with
    poisonLines := m.poisonLines.filter fun l => !(decide (a ≤ 64 * l) && decide (64 * l + 64 ≤ a + n))
    poisonWords := m.poisonWords.filter fun w => !(decide (a ≤ 4 * w) && decide (4 * w + 4 ≤ a + n)) }

/-- A device write: whole lines and words written clean lose their poison mark (R255). -/
def Memory.store (m : Memory) (a : Nat) (bs : List Byte) : Memory := (m.writeN a bs).unmark a bs.length

/-- The line holding `a` is marked poisoned (R255). -/
def Memory.linePoisoned (m : Memory) (a : Nat) : Bool := m.poisonLines.contains (a / 64)

/-- Some line or word of the range is marked poisoned (R213, R255). -/
def Memory.anyPoison (m : Memory) (a n : Nat) : Bool :=
  m.poisonLines.any (fun l => decide (a < 64 * l + 64) && decide (64 * l < a + n)) ||
  m.poisonWords.any (fun w => decide (a < 4 * w + 4) && decide (4 * w < a + n))

/-- Put `x` into a list without repeats. -/
def insertNew {α : Type} [DecidableEq α] (l : List α) (x : α) : List α := if l.contains x then l else l ++ [x]

/-- Insert into a sorted list without repeats. -/
def insertSorted : List Nat → Nat → List Nat
  | [], x => [x]
  | y :: t, x => if x < y then x :: y :: t else if x = y then y :: t else y :: insertSorted t x

/-- Mark the line of HBM holding `a` poisoned (R255). -/
def Memory.markLine (m : Memory) (a : Nat) : Memory := { m with poisonLines := insertSorted m.poisonLines (a / 64) }
/-- Mark the SRAM word at `a` poisoned (R255). -/
def Memory.markWord (m : Memory) (a : Nat) : Memory := { m with poisonWords := insertSorted m.poisonWords (a / 4) }

/-- Host memory: bytes read and written by the device (R321, R322). -/
def HostUnit.ramRead (h : HostUnit) (a n : Nat) : List Byte := (List.range n).map fun i => cellAt zeroByte h.hostRam (a + i)
/-- Write bytes to host memory. -/
def ramWriteN (cells : List Host.Cell) : Nat → List Byte → List Host.Cell
  | _, [] => cells
  | a, b :: bs => ramWriteN (cellPut zeroByte cells a b) (a + 1) bs
/-- Bytes of the flash (R389). -/
def Flash.readN (f : Flash) (a n : Nat) : List Byte := (List.range n).map fun i => cellAt erasedByte f.cells (a + i)
/-- Program bytes of the flash. -/
def Flash.writeN (cells : List Host.Cell) : Nat → List Byte → List Host.Cell
  | _, [] => cells
  | a, b :: bs => Flash.writeN (cellPut erasedByte cells a b) (a + 1) bs

/-! ### Units -/

/-- A physical group (R14, R17). -/
def State.group (s : State) (p : Nat) : Group := s.groups.at p (Group.initial s.fuses p)
/-- The engine-side state of a physical group. -/
def State.unit (s : State) (p : Nat) : GroupUnits := s.units.at p {}
/-- A physical cluster. -/
def State.cluster (s : State) (k : Nat) : Cluster := s.clusters.at k {}
/-- Ring `r` of physical cluster `k` (R215). -/
def State.ring (s : State) (k r : Nat) : Ring := s.rings.at (16 * k + r) {}
/-- A job by its ID (R202). -/
def State.job? (s : State) (id : Nat) : Option Job := s.work.jobs.find id
/-- The run-time record of a job. -/
def State.run (s : State) (id : Nat) : JobRun := s.work.runs.at id {}
/-- A function (R307). -/
def State.func (s : State) (fn : Nat) : Func := s.host.funcs.at fn (Func.reset fn)

/-- Change a group. -/
def State.modGroup (s : State) (p : Nat) (f : Group → Group) : State := { s with groups := s.groups.put p (f (s.group p)) }
/-- Change a group's units. -/
def State.modUnit (s : State) (p : Nat) (f : GroupUnits → GroupUnits) : State := { s with units := s.units.put p (f (s.unit p)) }
/-- Nothing of a job is under way in a group's units any more (R236, R429). -/
def GroupUnits.dropped (u : GroupUnits) : GroupUnits :=
  { u with refresh := none, relay := [], pipSets := [], tileFree := none, tileWritten := [], teVerdicts := [], gbTaken := [],
           feeds := [], tileWrites := [], tileReads := [], tileNote := none, feedHbmUntil := 0, feedKcUntil := 0 }
/-- Change a cluster. -/
def State.modCluster (s : State) (k : Nat) (f : Cluster → Cluster) : State :=
  { s with clusters := s.clusters.put k (f (s.cluster k)) }
/-- Change a ring. -/
def State.modRing (s : State) (k r : Nat) (f : Ring → Ring) : State :=
  { s with rings := s.rings.put (16 * k + r) (f (s.ring k r)) }
/-- Change a job that is in the table. -/
def State.modJob (s : State) (id : Nat) (f : Job → Job) : State :=
  match s.job? id with
  | some j => { s with work := { s.work with jobs := s.work.jobs.put id (f j) } }
  | none => s
/-- Change the run-time record of a job. -/
def State.modRun (s : State) (id : Nat) (f : JobRun → JobRun) : State :=
  { s with work := { s.work with runs := s.work.runs.put id (f (s.run id)) } }
/-- Change a function. -/
def State.modFunc (s : State) (fn : Nat) (f : Func → Func) : State :=
  { s with host := { s.host with funcs := s.host.funcs.put fn (f (s.func fn)) } }
/-- Change a link port (R335). -/
def State.port (s : State) (n : Nat) : Port := s.link.ports.at n {}
@[inherit_doc State.port] def State.modPort (s : State) (n : Nat) (f : Port → Port) : State :=
  { s with link := { s.link with ports := s.link.ports.put n (f (s.port n)) } }
/-- Change a stack (R241). -/
def State.stack (s : State) (n : Nat) : Stack := s.memSys.hbmStacks.at n {}
@[inherit_doc State.stack] def State.modStack (s : State) (n : Nat) (f : Stack → Stack) : State :=
  { s with memSys := { s.memSys with hbmStacks := s.memSys.hbmStacks.put n (f (s.stack n)) } }
/-- Change a memory-side die (R240). -/
def State.die (s : State) (n : Nat) : MemoryDie := s.memSys.dies.at n {}
@[inherit_doc State.die] def State.modDie (s : State) (n : Nat) (f : MemoryDie → MemoryDie) : State :=
  { s with memSys := { s.memSys with dies := s.memSys.dies.put n (f (s.die n)) } }

/-- Apply `f` for each of a list of numbers. -/
def State.forAll (s : State) (l : List Nat) (f : State → Nat → State) : State := l.foldl f s

/-- The job that holds a physical group, if any (R17). -/
def State.jobOf (s : State) (p : Nat) : Option Job :=
  let id := (s.group p).job.toNat
  if id = 0 then none else s.job? id

/-- A group is powered: usable or spare and not retired or failed, and released (R266, R413). -/
def State.powered (s : State) (p : Nat) : Bool := s.rst.domains.getLsbD (2 * p)

/-- The job's program. -/
def State.programOf (s : State) (j : Job) : Program := s.work.programs.at j.program {}

/-- The registered key set with this ID (R69). -/
def State.keySet? (s : State) (ksid : Nat) : Option KeySet := (s.work.keySets.find? fun e => e.2.ksid = ksid).map (·.2)

/-! ### Configuration fields (R396) -/

/-- Type, default, minimum and maximum of each numeric field of R396. -/
def numericFields : List (Nat × Nat × Nat × Nat × Nat) :=
  -- type, width, minimum, maximum, default
  [(0x0001, 1, 0, 63, 0), (0x0004, 1, 0, 1, 0), (0x0100, 1, 0, 1, 0), (0x0101, 1, 0, 63, 0), (0x0102, 1, 0, 15, 0),
   (0x0103, 1, 0, 1, 0), (0x0104, 2, 0, 1023, 0), (0x0105, 2, 0, 0xFFFF, 0xFFFF), (0x0106, 2, 1, 65535, 256),
   (0x0107, 1, 0, 3, 0), (0x0110, 1, 16, 184, 176), (0x0111, 1, 0, 3, 0), (0x0112, 1, 0, 1, 1), (0x0113, 1, 1, 24, 12),
   (0x0120, 2, 100, 10000, 1000), (0x0121, 1, 0, 1, 0), (0x0122, 2, 400, 1500, 1000), (0x0123, 1, 85, 95, 95),
   (0x0124, 1, 0, 40, 10), (0x0125, 2, 10, 3600, 600)]

/-- The default of a numeric field. -/
def fieldDefault (ty : Nat) : Nat :=
  match numericFields.find? fun e => e.1 = ty with
  | some (_, _, _, _, d) => d
  | none => 0

/-- The value in force of a numeric field. -/
def State.cfgNum (s : State) (ty : Nat) : Nat :=
  match s.cfg.fields.find ty with
  | some v => v.num
  | none => fieldDefault ty

/-- The bytes in force of a list field. -/
def State.cfgBytes (s : State) (ty : Nat) : List Byte :=
  match s.cfg.fields.find ty with
  | some v => v.bytes
  | none => []

/-! ### Free values -/

/-- `n` free words (log entry 4), and the state whose counter has moved past them. -/
def State.takeFree (s : State) (n : Nat) : List Word32 × State :=
  ((List.range n).map fun i => Config.freeWord (s.free + i), { s with free := s.free + n })

/-! ### Life ledger buffer and counters (R446, R447) -/

/-- Add `n` to a lifetime counter of 48 bits, saturating. -/
def State.count (s : State) (idx n : Nat) : State :=
  { s with ledger := { s.ledger with counters := s.ledger.counters.modify idx 0 fun c => satAdd c n } }

/-- Codes 0x02 to 0x04 have 16 entries of the event buffer reserved (R446). -/
def reservedEvent (code : Nat) : Bool := code == 2 || code == 3 || code == 4

/-- The buffer has a free entry for an event of this code (R446). -/
def LedgerUnit.room (l : LedgerUnit) (code : Nat) : Bool :=
  decide (l.events.length < 64) &&
  (reservedEvent code || decide ((l.events.filter fun e => !reservedEvent e.code).length < 48))

/-- Record an event: it waits in the buffer, or is dropped and counted when no entry is free (R446). -/
def State.event (s : State) (code : Nat) (body : List Byte) : State :=
  if s.ledger.room code then
    { s with ledger := { s.ledger with events := s.ledger.events ++ [{ code := code, body := body }] } }
  else
    ({ s with ledger := { s.ledger with eventsLost := satInc s.ledger.eventsLost
                                        lostPending := s.ledger.lostPending + 1 } }).count 0x009 1

/-! ### The event controller (R327 to R329) -/

/-- A source fires: its pending bit is set in every one of the four states (R327). -/
def State.fire (s : State) (fn src : Nat) : State :=
  s.modFunc fn fun f => { f with evPending := setBit f.evPending src }

/-! ### Rings in host memory (R322 to R326) -/

/-- Entries of a host ring. -/
def HostRing.entries (r : HostRing) (lo hi : Nat) : Nat := 2 ^ (max lo (min hi r.log2.toNat))

/-- One more entry fits: TAIL + 1 ≠ HEAD modulo the size (R322). -/
def HostRing.space (r : HostRing) (lo hi : Nat) : Nat :=
  let n := r.entries lo hi
  (r.head.toNat % n + n - r.tail.toNat % n - 1) % n

/-- Advance TAIL by `k` entries, inverting the phase on a wrap. -/
def HostRing.advance (r : HostRing) (lo hi k : Nat) : HostRing :=
  let n := r.entries lo hi
  let t := r.tail.toNat % n + k
  { r with tail := BitVec.ofNat 16 (t % n), phase := if t < n then r.phase else !r.phase }

/-- IDE_REQUIRED is in force (R330, R364). -/
def State.ideRequired (s : State) : Bool := s.mode.sealedTrust && s.cfgNum 0x0004 == 1

/-- The device may write to the function's host memory: in D0, its attachment not held in reset, and on the
function's stream where one is required (R308, R323, R330, R463). -/
def State.canSend (s : State) (fn : Nat) : Bool :=
  !(s.func fn).d3hot && !s.host.pcieHeld && (!s.ideRequired || (s.func fn).streams != [])

/-- The 64 bytes of a completion record as written (R324): phase, receipt flag, sequence and beat filled in. -/
def completionBytes (s : State) (fn : Nat) (r : HostRing) (b : List Byte) : List Byte :=
  let phase := (if r.phase then 1 else 0) + (field b 2 1) % 4 / 2 * 2
  withCrc32c (b.take 2 ++ leBytes 1 phase ++ leBytes 1 fn ++ slice b 4 4 ++ leBytes 8 (s.func fn).seq.toNat ++
    leBytes 6 s.beat.toNat ++ slice b 22 38)

/-- Write a completion record at TAIL and fire COMPLETION (R322, R329). -/
def State.writeCompletion (s : State) (fn : Nat) (b : List Byte) : State :=
  let f := s.func fn
  let a := f.cq.base.toNat + 64 * (f.cq.tail.toNat % f.cq.entries 6 16)
  let bytes := completionBytes s fn f.cq b
  let s := { s with host := { s.host with hostRam := ramWriteN s.host.hostRam a bytes } }
  (s.modFunc fn fun f => { f with cq := f.cq.advance 6 16 1, seq := f.seq + 1 }).fire fn 0

/-- A completion can be written now rather than wait in the backlog (R323). -/
def State.cqOpen (s : State) (fn : Nat) : Bool :=
  let f := s.func fn
  f.cq.enabled && s.canSend fn && f.cqBacklog == [] && decide (0 < f.cq.space 6 16)

/-- Put an item into a backlog, firing BACKLOG when it was empty (R323, R329). A waiting release record of the same
job is replaced by the later one. -/
def State.backlog (s : State) (fn : Nat) (b : BacklogItem) : State :=
  let f := s.func fn
  let wasEmpty := f.cqBacklog == [] && f.rqBacklog == []
  let q := if b.kind = 0x13 && f.cqBacklog.any (fun i => i.kind = 0x13 && i.job = b.job)
    then f.cqBacklog.map fun i => if i.kind = 0x13 && i.job = b.job then b else i
    else f.cqBacklog ++ [b]
  let s := s.modFunc fn fun f => { f with cqBacklog := q }
  if wasEmpty then s.fire fn 3 else s

/-- The body of a completion record before writing: type, status, host tag and type-specific bytes 24 to 55. -/
def completionBody (ty status : Nat) (receipt : Bool) (tag : Word32) (body : List Byte) : List Byte :=
  leBytes 1 ty ++ leBytes 1 status ++ leBytes 1 (if receipt then 2 else 0) ++ leBytes 1 0 ++ leBytes 4 tag.toNat ++
  leBytes 16 0 ++ slice body 0 32 ++ leBytes 4 0

/-- Complete an entry or a job: into the ring, or into the backlog (R322, R323). -/
def State.complete (s : State) (fn ty status : Nat) (tag : Word32) (body : List Byte) (receipt : Bool := false)
    (job : Nat := 0) : State :=
  let b := completionBody ty status receipt tag body
  if s.cqOpen fn then s.writeCompletion fn b else s.backlog fn { bytes := b, job := job, kind := ty }

/-- Slots of a receipt item of `len` bytes: a 16-byte head, then content (R326). -/
def receiptSlots (len : Nat) : Nat := (16 + len + 8191) / 8192

/-- Write the bytes of a receipt item into consecutive slots of the ring, wrapping. -/
def writeSlots (ram : List Host.Cell) (base n slot : Nat) : List (List Byte) → List Host.Cell
  | [] => ram
  | c :: cs => writeSlots (ramWriteN ram (base + 8192 * (slot % n)) c) base n (slot + 1) cs

/-- Write a receipt item at TAIL and fire RECEIPT (R326, R329). -/
def State.writeReceipt (s : State) (fn kind : Nat) (content : List Byte) : State :=
  let f := s.func fn
  let k := receiptSlots content.length
  let head := leBytes 1 kind ++ leBytes 1 k ++ leBytes 1 (if f.rq.phase then 1 else 0) ++ leBytes 1 fn ++
    leBytes 4 content.length ++ leBytes 8 f.rqSeq.toNat
  let n := f.rq.entries 4 12
  let ram := writeSlots s.host.hostRam f.rq.base.toNat n f.rq.tail.toNat (chunks 8192 (k + 1) (head ++ content))
  let s := { s with host := { s.host with hostRam := ram } }
  (s.modFunc fn fun f => { f with rq := f.rq.advance 4 12 k, rqSeq := f.rqSeq + 1 }).fire fn 1

/-- The completion of a job (none for 0) still waits in its function's backlog: its receipt is not written before it (R31). -/
def Func.completionWaits (f : Func) (job : Nat) : Bool := job != 0 && f.cqBacklog.any fun b => b.kind == 3 && b.job == job

/-- A receipt item of a job, or a notice, can be written now (R31, R323). -/
def State.rqOpen (s : State) (fn len : Nat) (job : Nat := 0) : Bool :=
  let f := s.func fn
  !f.completionWaits job && f.rq.enabled && s.canSend fn && f.rqBacklog == [] && decide (receiptSlots len ≤ f.rq.space 4 12)

/-- Deliver a receipt (kind 1) of a job or a recall notice (kind 2) to a function: into its ring or its backlog. -/
def State.receiptItem (s : State) (fn kind : Nat) (content : List Byte) (job : Nat := 0) : State :=
  if s.rqOpen fn content.length job then s.writeReceipt fn kind content
  else
    let f := s.func fn
    let wasEmpty := f.cqBacklog == [] && f.rqBacklog == []
    let s := s.modFunc fn fun f => { f with rqBacklog := f.rqBacklog ++ [{ bytes := content, job := job, kind := kind }] }
    if wasEmpty then s.fire fn 3 else s

/-! ### Signatures -/

/-- The DRBG has delivered `n` bytes from position `pos` (R365). -/
def drbgBytes (pos n : Nat) : List Byte := (List.range n).map fun i => Config.drbgByte (pos + i)

/-- One request to the DRBG for `n` bytes (R365). -/
def State.draw (s : State) (n : Nat) : State :=
  { s with sec := { s.sec with drbgPos := s.sec.drbgPos + n, drbgRequests := s.sec.drbgRequests + 1 } }

/-- A request that finds the DRBG stopped restarts its start-up tests, unless it is locked (R366). -/
def State.restartTests (s : State) : State := { s with sec := { s.sec with drbgOk := !s.sec.drbgLocked } }

/-- The identity key's hedged ML-DSA-65 signature (R359), 3,309 bytes; each draws 32 DRBG bytes. -/
def signature (ctx : String) (msg : List Byte) (pos : Nat) : List Byte :=
  (List.range 3309).map fun i => Config.mldsaSignByte (ascii ctx) msg pos i

/-- The identity public key and its digest (R357). -/
def identityKey : List Byte := (List.range 1952).map Config.identityKeyByte
@[inherit_doc identityKey] def identityDigest : List Byte := digest32 identityKey
/-- Corath's public key (R358). -/
def corathKey : List Byte := (List.range 1952).map Config.corathKeyByte

/-- The current owner's key digest: the slot the epoch counter names (R360). Slot 0 is Corath's. -/
def State.ownerDigest (s : State) : List Byte :=
  s.fuses.ownerDigests.at s.fuses.ownerEpoch.toNat (if s.fuses.ownerEpoch = 0 then digest32 corathKey else List.replicate 32 0)

/-- The share and its once-only table are erased; erasing a share that was held is a SHARE event (R378, R382, R446). -/
def State.eraseShare (s : State) : State :=
  let t := { s with sec := { s.sec with share := none, pdTable := [] } }
  match s.sec.share with
  | some h => t.event 0x07 (leBytes 1 2 ++ h.digest.take 8)
  | none => t

/-- The port is up, sparing or not (R356). -/
def Port.isUp (p : Port) : Bool := p.state == 2 || p.state == 3

/-- A block is asked to go idle (R429). -/
def State.askBlock (s : State) (d : Nat) : State := { s with rst := { s.rst with idleAsked := insertSorted s.rst.idleAsked d } }

/-- No request to a block is open any more. -/
def State.unaskBlock (s : State) (d : Nat) : State := { s with rst := { s.rst with idleAsked := s.rst.idleAsked.filter (· != d) } }

/-- Change a port's state; a change fires LINK (R329, R356). -/
def State.portState (s : State) (n : Nat) (st : BitVec 3) : State :=
  if (s.port n).state = st then s else (s.modPort n fun p => { p with state := st }).fire 0 8

/-- `x` lies in a half-open range (R9). -/
def inRange (a len x : Nat) : Bool := decide (a ≤ x) && decide (x < a + len)
/-- A range lies inside another. -/
def rangeInside (a n b m : Nat) : Bool := decide (b ≤ a) && decide (a + n ≤ b + m)
/-- Two ranges overlap. -/
def rangesOverlap (a n b m : Nat) : Bool := decide (a < b + m) && decide (b < a + n)

/-! ### Fault messages (R289, R295) -/

/-- Unit ID of a part of a cluster of a group (R295). -/
def groupUnit (p cluster engine sub : Nat) : Nat :=
  (p / 17) * 65536 + (p % 17) * 2048 + cluster * 64 + engine * 8 + sub

/-- The fault message word (R289). -/
def faultWord (unit kind op tag : Nat) : Word64 :=
  BitVec.ofNat 64 (unit % 2 ^ 20 + (kind % 256) * 2 ^ 20 + (op % 4096) * 2 ^ 28 + (tag % 2 ^ 24) * 2 ^ 40)

/-- A unit sends a fault message: it is on its way to its collector from `at_` (R289, R290). -/
def State.raise (s : State) (unit kind op tag addr at_ : Nat) (job : BitVec 16) (poisoned : Bool) : State :=
  { s with faults := { s.faults with wires := s.faults.wires ++
      [{ word := faultWord unit kind op tag, fireAt := at_, job := job, addr := addr, poisoned := poisoned,
         detSuspect := false, injected := false }] } }

/-- A memory-side unit's fault on a scheduled request of physical group `p`: its message goes to that group's collector
(R290). -/
def State.raiseVia (s : State) (p unit kind op tag addr at_ : Nat) (poisoned : Bool) : State :=
  { s with faults := { s.faults with wires := s.faults.wires ++
      [{ word := faultWord unit kind op tag, fireAt := at_, job := (s.group p).job, addr := addr, poisoned := poisoned,
         detSuspect := false, injected := false, via := some p }] } }

/-- Pseudo-channel of an HBM address within its stack, 4g + k (R243). -/
def hbmChannel (a : Nat) : Nat :=
  4 * ((a / 2 ^ 11 % 8 + a / 2 ^ 14 % 8 + a / 2 ^ 17 % 8 + a / 2 ^ 20 % 8) % 8) + a / 64 % 4
/-- Stack of an HBM address (R243). -/
def hbmStack (a : Nat) : Nat := a / 256 % 8
/-- Line index of an HBM address within its pseudo-channel (R243). -/
def hbmLine (a : Nat) : Nat := a / 2 ^ 14
/-- The address of line `i` of pseudo-channel `pc` of stack `st` (R296): the inverse of R243. -/
def hbmAddress (st pc i : Nat) : Nat :=
  let hi := i * 2 ^ 14
  let sum := hi / 2 ^ 14 % 8 + hi / 2 ^ 17 % 8 + hi / 2 ^ 20 % 8
  hi + (pc / 4 + 24 - sum) % 8 * 2 ^ 11 + st * 2 ^ 8 + pc % 4 * 64
/-- Unit ID of a part of a memory-side die (R295). -/
def memoryUnit (die fld inst part : Nat) : Nat := (4 + die) * 65536 + fld * 2048 + inst * 64 + part * 8
/-- Unit ID of a block of the I/O die (R295). -/
def ioUnit (block inst sub : Nat) : Nat := 8 * 65536 + block * 2048 + inst * 64 + sub

end Sys2Proof.Machine
end

