-- ==== Sys2Proof/Machine/Faults.lean ====
section
/-!
DEFINITION. Faults: the kind table (R297), the error record (R294 to R296), collectors (R291, R292), the fault log
(R293), the reactions of a job and a group (R285 to R287, R298, R299), quarantine and recall notices (R270, R275,
R276, R387).
-/
namespace Sys2Proof.Machine

/-! ### The kind table -/

/-- The class of a kind: it decides the job's fate (R297). -/
inductive KindClass where
  | restarting | deterministic | harmless
deriving DecidableEq, Repr

/-- The fence scope of a kind (R297). -/
inductive FenceScope where
  | job | all | none
deriving DecidableEq, Repr

/-- The class of R297; reserved codes have none. -/
def kindClass (k : Nat) : KindClass :=
  if k = 0x09 || k = 0x55 || k = 0x64 || k = 0x80 || k = 0x82 then .harmless
  else if k ≤ 0x06 || k = 0x08 || inRange 0x10 11 k || k = 0x24 || k = 0x25 || k = 0x40 || k = 0x41 || inRange 0x50 5 k ||
    inRange 0x60 3 k || k = 0x65 || k = 0x67 || k = 0x70 || k = 0x83 then .restarting
  else if inRange 0x20 4 k || inRange 0x30 9 k || k = 0x63 || k = 0x66 || k = 0x81 || k = 0x84 then .deterministic
  else .harmless

/-- The fence scope of R297. -/
def kindScope (k : Nat) : FenceScope :=
  if kindClass k = .harmless || inRange 0x62 5 k then .none
  else if k = 0x1A || k = 0x54 || k = 0x67 || k = 0x81 || k = 0x83 || k = 0x84 then .all
  else .job

/-- The kinds whose source writes or delivers poison (R294 bit 59; R53, R255): those of the memories, the checkers with
outputs, the header rules and the late reads. -/
def kindPoisons (k : Nat) : Bool :=
  decide (k ≤ 0x06) || k == 0x08 || inRange 0x10 10 k || inRange 0x30 9 k || k == 0x40 || k == 0x41 || k == 0x70

/-! ### Unit IDs (R295) -/

/-- Die of a unit ID. -/
def unitDie (u : Nat) : Nat := u / 65536
/-- Group field, memory-side field or I/O block of a unit ID. -/
def unitField (u : Nat) : Nat := u / 2048 % 32
/-- Cluster, pseudo-channel, bank or link port of a unit ID. -/
def unitInst (u : Nat) : Nat := u / 64 % 32
/-- Engine or part code of a unit ID. -/
def unitPart (u : Nat) : Nat := u / 8 % 8
/-- Physical group of a compute unit; none for other units and for group fields no die has (R15). -/
def unitGroup? (u : Nat) : Option Nat :=
  if unitDie u < 4 && unitField u < 17 then some (unitDie u * 17 + unitField u) else none
/-- The management cores' unit ID (R292). -/
def managementUnit : Nat := 0x81000

/-- The sensors of a die (R418). -/
def dieSensors (die : Nat) : List Nat :=
  if die < 4 then (List.range 8).map (8 * die + ·) else if die < 8 then [32 + 2 * (die - 4), 33 + 2 * (die - 4)] else [40, 41]

/-- The hotter of two sensor readings, the lower sensor on a tie. -/
def hotter (a b : Nat × BitVec 10) : Nat × BitVec 10 := if a.2.toInt < b.2.toInt then b else a

/-- The highest reading among sensors, and its sensor (R418). -/
def State.hottest (s : State) (l : List Nat) : Nat × BitVec 10 :=
  match l.map fun n => (n, s.power.sensors.at n 0) with
  | [] => (0, 0)
  | a :: t => t.foldl hotter a

/-- The rail that feeds a unit (R294, R410; log entry 20). -/
def unitRail (u : Nat) : Nat :=
  if unitDie u < 4 then (if unitPart u = 5 || unitPart u = 7 then 2 else 0)
  else if unitDie u < 8 then (if unitField u < 2 then 6 else if unitField u = 2 then 2 else 1)
  else if unitField u < 2 then 4 else 3

/-- The address a message's TAG stands for (R296). -/
def State.tagAddress (s : State) (u tag : Nat) : Nat :=
  if unitDie u < 4 then
    match unitGroup? u with
    | none => 0
    | some p =>
      let k := 32 * p + unitInst u
      match unitPart u with
      | 0 => tag
      | 3 => match (s.cluster k).transfers.find? fun t => t.tag == some (tag / 2 ^ 18) with
        | some t => t.addr
        | none => 0
      | 6 => gbBase + p * groupBufferBytes + 256 * tag
      | 7 => gbBase + p * groupBufferBytes + 256 * tag
      | _ => spBase + k * scratchpadBytes + 256 * tag
  else if unitDie u < 8 then
    if unitField u < 2 then hbmAddress (2 * (unitDie u - 4) + unitField u) (unitInst u) tag
    else if unitField u = 2 then kcBase + 2048 * tag else 0
  else 0

/-! ### The record (R294) -/

/-- The fields of a record but its CRC. -/
structure RecordFields where
  fireAt : Nat
  unit : Nat
  kind : Nat
  op : Nat
  job : Nat
  first : Bool := false
  overflow : Bool := false
  merged : Bool := false
  poisoned : Bool := false
  detSuspect : Bool := false
  injected : Bool := false
  addr : Nat := 0
  mergeCount : Nat := 0
  alsoSeen : Nat := 0
deriving DecidableEq, Repr

/-- The bytes of a record's words. -/
def wordsBytes (l : List Word64) : List Byte := l.flatMap fun w => leBytes 8 w.toNat

/-- Words 0 to 2 of a record. -/
def RecordFields.words (r : RecordFields) : List Word64 :=
  [BitVec.ofNat 64 (beatOf r.fireAt % 2 ^ 48 + cycleOf r.fireAt * 2 ^ 48),
   BitVec.ofNat 64 (r.unit % 2 ^ 20 + r.kind % 256 * 2 ^ 20 + r.op % 4096 * 2 ^ 28 + r.job % 2 ^ 16 * 2 ^ 40 +
     r.first.toNat * 2 ^ 56 + r.overflow.toNat * 2 ^ 57 + r.merged.toNat * 2 ^ 58 + r.poisoned.toNat * 2 ^ 59 +
     r.detSuspect.toNat * 2 ^ 60 + r.injected.toNat * 2 ^ 61),
   BitVec.ofNat 64 (r.addr % 2 ^ 48 + r.mergeCount % 256 * 2 ^ 48 + r.alsoSeen % 256 * 2 ^ 56)]

/-- Word 3 without its CRC: temperature, voltage, rail and sensor of the source at latch. -/
def State.recordPlace (s : State) (u : Nat) : Nat :=
  let (n, t) := s.hottest (dieSensors (unitDie u))
  let rail := unitRail u
  t.toNat + (s.power.railMv.at rail 0).toNat * 2 ^ 10 + rail * 2 ^ 22 + n * 2 ^ 26

/-- Word 3 of a record: its CRC-16 covers bytes 0 to 29. -/
def sealRecord (w : List Word64) (place : Nat) : List Word64 :=
  let place := place % 2 ^ 48
  w ++ [BitVec.ofNat 64 (place + crc16 (wordsBytes w ++ leBytes 6 place) * 2 ^ 48)]

/-- The record of R294. -/
def State.record (s : State) (r : RecordFields) : List Word64 := sealRecord r.words (s.recordPlace r.unit)

/-- Word `i` of a record. -/
def recWord (w : List Word64) (i : Nat) : Nat := (w.getD i 0).toNat
/-- UNIT of a record. -/
def recUnit (w : List Word64) : Nat := recWord w 1 % 2 ^ 20
/-- KIND of a record. -/
def recKind (w : List Word64) : Nat := recWord w 1 / 2 ^ 20 % 256
/-- OP of a record. -/
def recOp (w : List Word64) : Nat := recWord w 1 / 2 ^ 28 % 4096
/-- JOB of a record. -/
def recJob (w : List Word64) : Nat := recWord w 1 / 2 ^ 40 % 2 ^ 16
/-- DET_SUSPECT of a record. -/
def recSuspect (w : List Word64) : Bool := recWord w 1 / 2 ^ 60 % 2 == 1
/-- Beat of the checker fire. -/
def recBeat (w : List Word64) : Nat := recWord w 0 % 2 ^ 48
/-- Cycle of the checker fire. -/
def recCycle (w : List Word64) : Nat := recWord w 0 / 2 ^ 48

/-! ### Jobs in a fault -/

/-- The job stands mapped, running or fenced: a fence can reach it. -/
def Job.held (j : Job) : Bool :=
  match j.phase with
  | .mapped => true
  | .running => true
  | .fencedRestart => true
  | .fencedTerminate => true
  | .waiting => false
  | .finished => false

/-- The physical groups of a job, set 0 then set 1. -/
def Job.groups (j : Job) : List Nat := j.set0 ++ j.set1

/-- The IDs of the jobs a fence can reach. -/
def State.heldJobs (s : State) : List Nat := (s.work.jobs.filter fun e => e.2.held).map (·.1)

/-- The jobs a record fences (R298). -/
def State.fencedBy (s : State) (kind job : Nat) : List Nat :=
  match kindScope kind with
  | .none => []
  | .all => s.heldJobs
  | .job => s.heldJobs.filter (· == job)

/-- The job beat that ran in a device beat. -/
def State.jobBeatAt (s : State) (j : Job) (beat : Nat) : Nat := j.jobBeat - (s.beat.toNat - beat)

/-- The point of a restarting fault in its job (R285): job beat, cycle, logical group, cluster, engine and operation;
then the physical group it met. -/
def State.faultPoint (s : State) (j : Job) (w : List Word64) : Option (List Nat) :=
  match unitGroup? (recUnit w) with
  | none => none
  | some p => some [s.jobBeatAt j (recBeat w), recCycle w, (s.group p).logical, unitInst (recUnit w), unitPart (recUnit w),
      recOp w, p]

/-- A replay meets the same point on a different physical group (R285). -/
def samePoint (a b : Option (List Nat)) : Bool :=
  match a, b with
  | some x, some y => x.take 6 == y.take 6 && x.drop 6 != y.drop 6
  | _, _ => false

/-- A deterministic kind that R156 lets restart: not those of R286's exceptions, and not management-written. -/
def isRefusal (kind : Nat) : Bool := inRange 0x30 9 kind

/-! ### Collectors (R291, R292) -/

/-- Where a message goes: a group's collector, or a die collector or I/O block's latch. -/
inductive CollectorId where
  | group (p : Nat)
  | die (k : Nat)
deriving DecidableEq, Repr

/-- The collector of a message (R290); none for a unit that does not exist. -/
def FaultWire.collector (w : FaultWire) : Option CollectorId :=
  let u := w.word.toNat % 2 ^ 20
  match w.via with
  | some p => some (.group p)
  | none =>
    if unitDie u < 4 then (unitGroup? u).map .group
    else if unitDie u < 8 then some (.die (unitDie u - 4))
    else if unitDie u = 8 && unitField u < 10 then some (.die (16 + unitField u)) else none

/-- A collector. -/
def State.collector (s : State) : CollectorId → Collector
  | .group p => (s.unit p).collector
  | .die k => s.faults.dieCollectors.at k {}

/-- Change a collector. -/
def State.modCollector (s : State) (i : CollectorId) (f : Collector → Collector) : State :=
  match i with
  | .group p => s.modUnit p fun u => { u with collector := f u.collector }
  | .die k => { s with faults := { s.faults with dieCollectors := s.faults.dieCollectors.modify k {} f } }

/-- The also-seen bit of a merged message (R291, R292). -/
def alsoBit (u : Nat) : Nat :=
  if unitDie u < 8 then unitPart u else if unitField u = 1 then unitInst u / 2 else u % 8

/-- Words of a collector's record. -/
def Collector.words (c : Collector) : List Word64 := [c.rec0, c.rec1, c.rec2, c.rec3]

/-- A collector holding a record. -/
def Collector.hold (c : Collector) (w : List Word64) : Collector :=
  { c with rec0 := w.getD 0 0, rec1 := w.getD 1 0, rec2 := w.getD 2 0, rec3 := w.getD 3 0 }

/-- Merge a message into an open record (R291). -/
def Collector.merge (c : Collector) (u kind : Nat) : Collector :=
  let w1 := c.rec1.toNat
  let crowded := kind / 16 != w1 / 2 ^ 20 % 256 / 16
  let count := min 255 (c.rec2.toNat / 2 ^ 48 % 256 + 1)
  let mask := c.rec2.toNat / 2 ^ 56 ||| 2 ^ alsoBit u
  let w1' := (c.rec1 ||| BitVec.ofNat 64 (2 ^ 58)) ||| (if crowded then BitVec.ofNat 64 (2 ^ 57) else 0)
  let w2' := BitVec.ofNat 64 (c.rec2.toNat % 2 ^ 48 + count * 2 ^ 48 + mask * 2 ^ 56)
  c.hold (sealRecord [c.rec0, w1', w2'] (c.rec3.toNat % 2 ^ 48))

/-- A refusal's record of job `id` with DET_SUSPECT set (R156); any other record as it is. -/
def suspectRefusal (id : Nat) (w : List Word64) : List Word64 :=
  if recJob w = id ∧ isRefusal (recKind w) ∧ !recSuspect w then
    sealRecord [w.getD 0 0, w.getD 1 0 ||| BitVec.ofNat 64 (2 ^ 60), w.getD 2 0] ((w.getD 3 0).toNat % 2 ^ 48)
  else w

/-- The record in an open latch gets DET_SUSPECT where it is a refusal's of the job. -/
def Collector.suspect (id : Nat) (c : Collector) : Collector := if c.isOpen then c.hold (suspectRefusal id c.words) else c

/-- The refusal's record of a job that restarts after all carries DET_SUSPECT, in its latch and on its way (R156). -/
def State.suspectRefusals (s : State) (id : Nat) : State :=
  let s := s.forAll (s.units.map (·.1)) fun s p => s.modCollector (.group p) (Collector.suspect id)
  { s with faults := { s.faults with
      dieCollectors := s.faults.dieCollectors.map fun e => (e.1, e.2.suspect id)
      toDevice := s.faults.toDevice.map (suspectRefusal id) } }

/-- A restarting fault that meets a refusal not yet replayed turns the termination into a restart (R156, R286). -/
def State.meetRestarting (s : State) (id : Nat) : State :=
  match s.job? id, (s.run id).refusal with
  | some j, some r =>
    if j.phase = .fencedTerminate && (s.run id).restarts < 16 then
      ((s.suspectRefusals id).modJob id fun j => { j with phase := .fencedRestart }).modRun id fun x =>
        { x with refusal := some (r.take 2 ++ [1]), kind := 0, restarts := x.restarts + 1, episodeRestarting := true }
    else s
  | _, _ => s

/-- The job a message concerns: carried by the wire, or the job holding the unit's group (R294). -/
def FaultWire.jobOf (w : FaultWire) : Nat := w.job.toNat

/-- Mark the episodes of jobs a first record fences (R299). -/
def State.beginEpisodes (s : State) (ids : List Nat) : State :=
  s.forAll ids fun s id => s.modRun id fun r => { r with episode := true }

/-- The record a message opens a latch with, FIRST and DET_SUSPECT decided (R285, R294, R299, R156). -/
def State.latchRecord (s : State) (w : FaultWire) : List Word64 :=
  let u := w.word.toNat % 2 ^ 20
  let kind := w.word.toNat / 2 ^ 20 % 256
  let ids := s.fencedBy kind w.jobOf
  let base : RecordFields :=
    { fireAt := w.fireAt, unit := u, kind := kind, op := w.word.toNat / 2 ^ 28 % 4096, job := w.jobOf,
      first := ids.any fun id => !(s.run id).episode, poisoned := w.poisoned, injected := w.injected, addr := w.addr }
  let suspect := w.detSuspect || (match s.job? w.jobOf with
    | none => false
    | some j => match kindClass kind with
      | .restarting => samePoint (s.run w.jobOf).point (s.faultPoint j base.words)
      | .deterministic => isRefusal kind && j.phase == .fencedRestart
      | .harmless => false)
  s.record { base with detSuspect := suspect }

/-- A message reaches its collector (R291): a closed latch opens and its record goes to the device collector; an open
one merges it; a test message is only counted. -/
def State.collect (s : State) (w : FaultWire) : State :=
  let u := w.word.toNat % 2 ^ 20
  let kind := w.word.toNat / 2 ^ 20 % 256
  match w.collector with
  | none => s
  | some i =>
    if kind = 0xFF then s.modCollector i fun c => { c with testMsgs := satInc c.testMsgs }
    else
      let c := s.collector i
      if c.isOpen then
        let s := s.modCollector i fun c => { c.merge u kind with messages := satInc c.messages }
        if kindClass kind == KindClass.restarting && kindScope kind != FenceScope.none then s.meetRestarting w.jobOf else s
      else
        let r := s.latchRecord w
        let s := s.modCollector i fun c => { c.hold r with isOpen := true, messages := satInc c.messages }
        let s := { s with faults := { s.faults with toDevice := s.faults.toDevice ++ [r] } }
        s.beginEpisodes (s.fencedBy kind w.jobOf)

/-! ### The fault log (R293) -/

/-- Records appended and not yet freed. -/
def FaultUnit.logCount (f : FaultUnit) : Nat := (f.logHead - f.logTail).toNat

/-- Enter a record in a job's receipt history, the first 1,024 kept (R384). -/
def JobRun.addFault (r : JobRun) (w : List Word64) : JobRun :=
  if r.faults.length < 1024 then { r with faults := r.faults ++ [w] } else { r with faultsTruncated := true }

/-- Append a drained record to the fault log and to the receipt histories of the jobs it named or withheld (R293,
R384). -/
def State.appendLog (s : State) (w : List Word64) : State :=
  let f := s.faults
  let s := if f.logCount = 4096 then { s with faults := { f with logLost := satInc f.logLost } }
    else ({ s with
        faults := { f with log := f.log.put (f.logHead.toNat % 4096) w, logHead := f.logHead + 1 }
        pins := { s.pins with sbAlert := setBit s.pins.sbAlert 3 } }).fire 0 4
  let ids := if kindScope (recKind w) = .all then s.heldJobs else s.heldJobs.filter (· == recJob w)
  let s := s.forAll ids fun s id => s.modRun id fun r => r.addFault w
  let due := s.work.receiptsDue.map fun d =>
    if d.job.id.toNat = recJob w && recJob w != 0 && !ids.contains (recJob w) then { d with run := d.run.addFault w } else d
  { s with work := { s.work with receiptsDue := due } }

/-- Drain an open latch (R291). -/
def State.drainOne (s : State) (i : CollectorId) : State :=
  if (s.collector i).isOpen then (s.modCollector i fun c => { c with isOpen := false }).appendLog (s.collector i).words else s

/-- Drain every open latch (R291). -/
def State.drain (s : State) : State :=
  let s := s.forAll (s.units.map (·.1)) fun s p => s.drainOne (.group p)
  s.forAll (s.faults.dieCollectors.map (·.1)) fun s k => s.drainOne (.die k)

/-! ### Sticky bits and FAULT_N (R293, R306) -/

/-- The key of a source in `severe`: groups, then memory-side dies, then I/O blocks. -/
def sourceKey (u : Nat) : Nat :=
  match unitGroup? u with
  | some p => p
  | none => if unitDie u < 8 then 100 + (unitDie u - 4) else 200 + unitField u

/-- Set the sticky bit of a record's source, and drive FAULT_N low for a class R or D (R293). -/
def FaultUnit.stick (f : FaultUnit) (u kind : Nat) : FaultUnit :=
  let key := sourceKey u
  let f := if key < 100 then { f with stickyGroups := setBit f.stickyGroups key }
    else if key < 200 then { f with stickyMsd := setBit f.stickyMsd (key - 100) }
    else { f with stickyIo := setBit f.stickyIo (key - 200) }
  if kindClass kind = .harmless then f else { f with severe := insertNew f.severe key, faultN := false }

/-! ### Records the management cores write (R292) -/

/-- Write a management record: block 2's sticky bit, the fault log, no fence. Answers the record. -/
def State.managementRecord (s : State) (kind op job addr : Nat) : List Word64 × State :=
  let w := s.record { fireAt := s.now, unit := managementUnit, kind := kind, op := op, job := job, addr := addr }
  (w, ({ s with faults := s.faults.stick managementUnit kind }).appendLog w)

/-- OP of management work and of Retriever (R296). -/
def opManagement : Nat := 0xC02
@[inherit_doc opManagement] def opRetriever : Nat := 0x802

/-! ### Quarantine (R270, R286) -/

/-- Hold a group out of allocation from this beat (R270). -/
def State.quarantineGroup (s : State) (p : Nat) : State :=
  s.modGroup p fun g => { g with quarantine := true, quarantineBeat := s.beat.toNat }

/-- A group is due for retirement at the next boundary (R270, R286); with no fuse slot left it is out of allocation and of
the usable count from this beat on (R4). -/
def State.dueRetirement (s : State) (p : Nat) : State :=
  if s.fuses.retired.length < 16 then s.modGroup p fun g => { g with retireDue := true }
  else (s.managementRecord 0x93 opManagement 0 p).2.modGroup p fun g => { g with role := .failed, failed := true }

/-- A restarting fault attributed to a unit of a group: counted, the group quarantined, and due for retirement on the
second of the same engine within 1,048,576 beats (R286, R288). -/
def State.blameGroup (s : State) (p engine beat : Nat) : State :=
  let g := s.group p
  let again := match g.lastEngineFault.find engine with
    | some b => decide (beat < b + 1048576)
    | none => false
  let s := ((s.quarantineGroup p).modGroup p fun g =>
    { g with restartFaults := satInc g.restartFaults, lastRestartBeat := BitVec.ofNat 48 beat,
             lastEngineFault := g.lastEngineFault.put engine beat }).count (0x4A0 + p) 1
  if again then s.dueRetirement p else s

/-- The kinds that count against memory and never against a group (R298). -/
def memoryKind (k : Nat) : Bool := k == 0x02 || k == 0x03 || k == 0x08 || k == 0x40 || k == 0x41

/-! ### Reactions (R285, R287, R298) -/

/-- A record waits for the ports: kind, origin, hop count, value, beat, key and plan prefix; RESTART, TERMINATE and STEP go
out before the others (R352). -/
def LinkUnit.queue (l : LinkUnit) (r : List Nat) : LinkUnit :=
  let urgent := fun (x : List Nat) => decide (4 ≤ x.headD 0)
  { l with outgoing := if urgent r then l.outgoing.takeWhile urgent ++ [r] ++ l.outgoing.dropWhile urgent else l.outgoing ++ [r] }

/-- A member of a beat domain tells the others (R352, R354, R355). -/
def State.sendControl (s : State) (kind value beat key plan : Nat) : State :=
  { s with link := s.link.queue [kind, s.link.position.toNat, 0, value, beat, key, plan] }

/-- The link job key of a job, none for a program that is not LINKED (R344). -/
def State.linkKey? (s : State) (j : Job) : Option Nat := (s.programOf j).link.map (·.key)

/-- A fault raised before cycle `edge` that concerns a job is still on its way: to its collector, to the device collector,
or as a verdict of Sheepdog's (R30, R264). -/
def State.faultPending (s : State) (id : Nat) (j : Job) (edge : Nat) : Bool :=
  let hits := fun (kind job fire : Nat) => decide (fire < edge) && (match kindScope kind with
    | .none => false
    | .all => true
    | .job => job == id)
  s.faults.wires.any (fun w => hits (w.word.toNat / 2 ^ 20 % 256) w.job.toNat w.fireAt) ||
  s.faults.toDevice.any (fun w => hits (recKind w) (recJob w) (recBeat w * beatCycles + recCycle w)) ||
  j.groups.any fun p => (List.range 32).any fun c => (s.cluster (32 * p + c)).due.any fun d => hits 0x20 id d.at_

/-- Outputs of the beat of the fire are withheld; a fire from cycle 65,376 leaves that beat's decision as it is (R264,
R265). -/
def Job.withhold (j : Job) (sameBeat : Bool) (cycle : Nat) : Job :=
  if sameBeat && decide (65376 ≤ cycle) then j
  else { j with withheld := true, decision := if j.decision = some true then some false else j.decision }

/-- The blocks of a fenced job's groups are asked to go idle (R429). -/
def State.askIdle (s : State) (groups : List Nat) : State :=
  s.forAll groups fun s p => (s.askBlock (2 * p)).askBlock (2 * p + 1)

/-- Fence a job and restart it (R282, R287): a fault during a restart is merged into it; the seventeenth restart
terminates. A member fenced by another member's record tells nobody (R354). -/
def State.fenceRestart (s : State) (id kind : Nat) (point : Option (List Nat)) : State :=
  match s.job? id with
  | none => s
  | some j =>
    let r := s.run id
    if r.episodeRestarting then
      s.modJob id fun j => { j with phase := if j.phase = .fencedTerminate then .fencedTerminate else .fencedRestart }
    else if j.phase = .fencedTerminate then s.meetRestarting id
    else
      let crowded := decide (16 ≤ r.restarts)
      let s := s.askIdle j.groups
      let s := s.modJob id fun j => { j with phase := if crowded then .fencedTerminate else .fencedRestart }
      let s := s.modRun id fun r => { r with
        kind := if crowded then kind else 0, point := point, fencedAt := s.now, episodeRestarting := !crowded, refusal := if crowded then none else r.refusal,
        restarts := if crowded then r.restarts else r.restarts + 1 }
      match s.linkKey? j with
      | some key => if kind = 0x53 then s else s.sendControl 4 kind s.beat.toNat key 0
      | none => s

/-- Fence a job and terminate it with a kind (R285, R298). -/
def State.fenceTerminate (s : State) (id kind : Nat) : State :=
  match s.job? id with
  | none => s
  | some j =>
    let s := if j.phase = .fencedTerminate then s else s.askIdle j.groups
    let s := s.modJob id fun j => { j with phase := .fencedTerminate }
    let s := s.modRun id fun r => { r with fencedAt := s.now, kind := if r.kind = 0 then kind else r.kind, episodeRestarting := false }
    match s.linkKey? j with
    | some key => if j.phase = .fencedTerminate then s else s.sendControl 5 kind s.beat.toNat key 0
    | none => s

/-- A refusal ends its job, except where it meets a restarting fault or is met for the first time in a job that is
restarting (R156, R286). -/
def State.refuseJob (s : State) (id kind : Nat) (point : List Nat) : State :=
  match s.job? id with
  | none => s
  | some j =>
    let seen := match (s.run id).refusal with
      | some r => r.take 2 == point && r.drop 2 == [1]
      | none => false
    if seen then (s.modRun id fun r => { r with refusal := none }).fenceTerminate id kind
    else if (s.run id).episodeRestarting && j.phase = .fencedRestart then s.modRun id fun r => { r with refusal := some (point ++ [1]) }
    else (s.modRun id fun r => { r with refusal := some point }).fenceTerminate id kind

/-- The reaction of one job to a record that fences it (R285, R286, R298). -/
def State.reactJob (s : State) (id : Nat) (w : List Word64) : State :=
  let kind := recKind w
  match s.job? id with
  | none => s
  | some j =>
    if !j.held then s
    else
      let s := s.modJob id fun j => j.withhold (recBeat w == s.beat.toNat) (recCycle w)
      let s := match unitGroup? (recUnit w) with
        | some p => if kindClass kind = .restarting then s.modRun id fun r => { r with excluded := insertNew r.excluded p } else s
        | none => s
      match kindClass kind with
      | .restarting =>
        if recSuspect w then (s.modRun id fun r => { r with refusal := none }).fenceTerminate id kind
        else s.fenceRestart id kind (if kindScope kind = .job then s.faultPoint j w else (s.run id).point)
      | .deterministic =>
        if isRefusal kind then s.refuseJob id kind [s.jobBeatAt j (recBeat w), recOp w]
        else (s.modRun id fun r => { r with refusal := none }).fenceTerminate id kind
      | .harmless => s

/-- The device collector receives a record (R293, R298 to R300): sticky bit, fence, and the reactions of the jobs and the
group. -/
def State.deviceRecord (s : State) (w : List Word64) : State :=
  let u := recUnit w
  let kind := recKind w
  let s := { s with faults := s.faults.stick u kind }
  let ids := s.fencedBy kind (recJob w)
  let s := match kindScope kind with
    | .job => { s with faults := { s.faults with fencesJ := satInc s.faults.fencesJ } }
    | .all => { s with faults := { s.faults with fencesW := satInc s.faults.fencesW } }
    | .none => s
  let s := match unitGroup? u with
    | some p =>
      let s := if recWord w 1 / 2 ^ 56 % 2 = 1 then s.count (0x400 + p) 1 else s
      if kindClass kind == KindClass.restarting && kindScope kind == FenceScope.job && !memoryKind kind then s.blameGroup p (unitPart u) (recBeat w) else s
    | none => s
  s.forAll ids fun s id => s.reactJob id w

/-- A record that is written, latched and acted on in one step, because the step that raises it also stops what would carry
it (R412, R422): sticky bit, fence and log. -/
def State.recordNow (s : State) (unit kind op addr : Nat) : State :=
  let w := s.record { fireAt := s.now, unit := unit, kind := kind, op := op, job := 0, addr := addr, first := (s.fencedBy kind 0).any fun id => !(s.run id).episode }
  ((s.beginEpisodes (s.fencedBy kind 0)).deviceRecord w).appendLog w

/-! ### Identity signatures and notices -/

/-- Sign with the identity key, drawing 32 DRBG bytes (R359). -/
def State.sign (s : State) (ctx : String) (m : List Byte) : List Byte × State :=
  (signature ctx m s.sec.drbgPos, s.draw 32)

/-- The next serial of the series receipts and notices share (R386). -/
def State.nextSerial (s : State) : Nat × State :=
  let n := (s.work.serial.toNat + 1) % 2 ^ 40
  (s.ledger.resetCount.toNat * 2 ^ 40 + n, { s with work := { s.work with serial := BitVec.ofNat 40 n } })

/-- Receipt items reserved by a function's jobs in the table (R323). -/
def State.reservedReceipts (s : State) (fn : Nat) : Nat := (s.work.jobs.filter fun e => e.2.fn == fn).length

/-- A notice can be handed to a function: its ring takes it, or a receipt item is free outside the reservations (R323). -/
def State.noticeRoom (s : State) (fn len : Nat) : Bool :=
  s.rqOpen fn len || decide ((s.func fn).rqBacklog.length + s.reservedReceipts fn < 1024)

/-- Deliver a notice to each of its functions that has room; the others wait in order (R323, R326). -/
def State.deliverNotice (s : State) (content : List Byte) (fns : List Nat) : State :=
  let waiting := fun fn (s : State) => s.work.noticesDue.any fun e => e.2.contains fn
  let now := fns.filter fun fn => s.noticeRoom fn content.length && !waiting fn s
  let late := fns.filter fun fn => !now.contains fn
  let s := s.forAll now fun s fn => s.receiptItem fn 2 content
  if late == [] then s else { s with work := { s.work with noticesDue := s.work.noticesDue ++ [(content, late)] } }

/-- The log entries of a group's receipts that a window touches. -/
def State.logged (s : State) (p first last : Nat) : List JobLogEntry :=
  (s.work.jobLogs.at p []).filter fun e => decide (e.first ≤ last ∧ first ≤ e.last)

/-- The window reaches back beyond a full log of 4,096 receipts (R276). -/
def State.beyondLog (s : State) (p first : Nat) : Bool :=
  let l := s.work.jobLogs.at p []
  decide (4096 ≤ l.length) && (l.head?.any fun e => decide (first < e.first))

/-- The trust and test flags of a notice or receipt are bits of different places; this is the notice's word (R387). -/
def State.noticeFlags (s : State) (confirmed range : Bool) : Nat :=
  confirmed.toNat + 2 * range.toNat + 4 * s.mode.factory.toNat + 8 * s.mode.sealedTrust.toNat

/-- A job still without its receipt held a named group in a beat of the window in which it released (R275). -/
def JobRun.inWindow (r : JobRun) (groups : List Nat) (first last : Nat) : Bool :=
  r.spans.any fun e => groups.contains e.1 && decide (e.2.1 ≤ last ∧ first ≤ e.2.2)

/-- Sign and deliver a notice; without a healthy DRBG it waits unsigned (R366). -/
def State.issueNotice (s : State) (body : List Byte) (fns : List Nat) : State :=
  if s.sec.drbgOk then
    let (sig, s) := s.sign "LNM-RECALL" body
    s.deliverNotice (body ++ sig) fns
  else
    let s := s.restartTests
    { s with work := { s.work with unsigned := s.work.unsigned ++ [(body, fns)] } }

/-- Issue a recall notice (R275, R276, R387): trigger kind, family and visit, the groups named and the window. A range begins
with the first serial of this reset, as the log no longer holds the one the window begins in (DESIGN CHOICE, log entry 57). -/
def State.recall (s : State) (kind fam visit : Nat) (groups : List Nat) (first last : Nat) (trigger : List Word64)
    (confirmed : Bool) : State :=
  let (serial, s) := s.nextSerial
  let entries := groups.flatMap fun p => s.logged p first last
  let range := groups.any fun p => s.beyondLog p first
  let serials := entries.foldl (fun l e => insertSorted l e.serial) []
  let listed := if range then [] else serials
  let bits := groups.foldl (fun n p => n ||| 2 ^ p) 0
  let len := 128 + 8 * listed.length + 3309
  let body := leBytes 1 0x0D ++ leBytes 1 1 ++ leBytes 2 (s.noticeFlags confirmed range) ++ leBytes 4 len ++ leBytes 8 serial ++
    identityDigest ++ leBytes 1 kind ++ leBytes 1 fam ++ leBytes 1 visit ++ leBytes 1 0 ++ leBytes 4 listed.length ++
    leBytes 6 first ++ leBytes 6 last ++ leBytes 9 bits ++ leBytes 3 0 ++
    leBytes 8 (if range then s.ledger.resetCount.toNat * 2 ^ 40 else 0) ++ leBytes 8 (if range then serials.getLastD serial else 0) ++
    wordsBytes trigger ++ listed.flatMap (leBytes 8)
  let note := fun (r : JobRun) => if r.recalls.length < 1024 then { r with recalls := r.recalls ++ [BitVec.ofNat 64 serial] } else r
  let s := s.forAll (s.work.jobs.map (·.1)) fun s id => if (s.run id).inWindow groups first last then s.modRun id note else s
  let due := s.work.receiptsDue.map fun d => if d.run.inWindow groups first last then { d with run := note d.run } else d
  let s := { s with work := { s.work with receiptsDue := due } }
  let s := s.event 0x05 (leBytes 8 serial ++ wordsBytes trigger)
  s.issueNotice body (entries.foldl (fun l e => insertSorted l e.fn) [0])

/-- Clear a group's residency (R219, R273, R274). -/
def Group.unload (g : Group) : Group :=
  { g with residency := .none, model := [], resRows := 0, walkU := 0, walkCounts := false, walkDone := false, absorbed := [] }

/-- Outputs of a job's beat are withheld at reconciliation and the job restarts, the named groups excluded (R265, R274,
R279). -/
def State.divergeRestart (s : State) (id kind : Nat) (groups : List Nat) : State :=
  let s := s.modJob id fun j => j.withhold false 0
  let s := s.modRun id fun r => { r with excluded := groups.foldl insertNew r.excluded, episode := true }
  s.fenceRestart id kind (s.run id).point

/-! ### Memory errors (R91, R250, R252, R253, R255) -/

/-- The key-cache extents in which an uncorrectable word was met wait for their repair (R91). -/
def State.markRepair (s : State) (a : Nat) : State :=
  let x := (a - kcBase) / extentBytes
  let mark : KcEntry → KcEntry := fun e => if e.extents.contains x then { e with repairing := insertNew e.repairing x } else e
  { s with work := { s.work with kcDir := s.work.kcDir.map mark } }

/-- A row that failed waits for its remap (R253). -/
def State.failRow (s : State) (a : Nat) : State :=
  let d : RemapDue := { stack := hbmStack a, pc := hbmChannel a, row := hbmLine a / 16 }
  { s with memSys := { s.memSys with failedRows := insertNew s.memSys.failedRows d } }

/-- Key of a pseudo-channel: stack × 32 + pseudo-channel (R259). -/
def pcKey (a : Nat) : Nat := 32 * hbmStack a + hbmChannel a

/-- A corrected line is counted (R259, R447). -/
def State.countCorrected (s : State) (a : Nat) : State :=
  let s := s.modStack (hbmStack a) fun k => { k with corrected := satInc k.corrected }
  ({ s with memSys := { s.memSys with pcCorrected := s.memSys.pcCorrected.modify (pcKey a) 0 satInc } }).count (0x200 + 2 * pcKey a) 1

/-- An uncorrectable line is marked and counted with its two retries, and its row has failed (R252, R253, R255). -/
def State.loseLine (s : State) (a : Nat) : State :=
  let s := { s with mem := s.mem.markLine a }
  let s := s.modStack (hbmStack a) fun k => { k with uncorrectable := satInc k.uncorrectable, retries := satInc (satInc k.retries) }
  let s := ({ s with memSys := { s.memSys with pcUncorrectable := s.memSys.pcUncorrectable.modify (pcKey a) 0 satInc } }).count
    (0x201 + 2 * pcKey a) 1
  s.failRow a

/-- An uncorrectable key-cache word is marked and counted, and its extent waits for repair (R91, R255). -/
def State.loseKeyWord (s : State) (a : Nat) : State :=
  (({ s with mem := s.mem.markWord a }).modDie (a / 2048 % 4) fun d => { d with kcUncorrectable := satInc d.kcUncorrectable }).markRepair a

end Sys2Proof.Machine
end

