-- ==== Sys2Proof/Machine/Image.lean ====
section
/-!
DEFINITION. Image: the Gikar image, its sections, records and fields, the applied digest and the report (R390 to R401), and
the owner's keys (R360, R361).
-/
namespace Sys2Proof.Machine

/-! ### Header and sections (R390) -/

/-- Offset and length of section 0 firmware, 1 policy, 2 tuning. -/
def sectionAt (h : List Byte) (i : Nat) : Nat × Nat := (field h (16 + 8 * i) 4, field h (20 + 8 * i) 4)

/-- The sections an image holds: a policy or tuning offset of 0 means that the section is absent. -/
def sectionsOf (h : List Byte) : List (Nat × Nat) :=
  sectionAt h 0 :: ([sectionAt h 1, sectionAt h 2].filter fun e => e.1 != 0)

/-- No two ranges of a list overlap. -/
def apart : List (Nat × Nat) → Bool
  | [] => true
  | e :: t => (t.all fun x => !rangesOverlap e.1 e.2 x.1 x.2) && apart t

/-- The header passes R390. -/
def imageHeaderOk (h : List Byte) : Bool :=
  let len := field h 4 4
  field h 0 1 == 0x12 && field h 1 1 == 1 && allZero (slice h 2 2) && decide (4096 ≤ len ∧ len ≤ 0x1000000) && allZero (slice h 40 20) &&
  crc32c (slice h 0 60) == field h 60 4 &&
  ((sectionsOf h).all fun e => e.1 % 4096 == 0 && decide (4096 ≤ e.1) && decide (e.1 + e.2 ≤ len)) && apart (sectionsOf h)

/-- The bytes of a section. -/
def sectionBytes (b : List Byte) (i : Nat) : List Byte :=
  let (o, n) := sectionAt b i
  if o = 0 then [] else slice b o n

/-! ### Firmware (R391) -/

/-- The firmware section without its signature. -/
def firmwareBody (b : List Byte) : List Byte :=
  let f := sectionBytes b 0
  f.take (f.length - 3309)

/-- The firmware section passes R391. -/
def firmwareOk (b : List Byte) : Bool :=
  let f := sectionBytes b 0
  let code := field f 0 4
  decide (1 ≤ code ∧ code ≤ 4194304) && f.length == 16 + code + 3309 && allZero (slice f 8 8) &&
  Config.mldsaVerify corathKey (ascii "LNM-FIRMWARE") (firmwareBody b) (slice f (16 + code) 3309)

/-! ### Records (R394) -/

/-- One record of a section. -/
structure ImageRecord where
  type : Nat
  value : List Byte
  crcOk : Bool
  policy : Bool
deriving DecidableEq, Repr

/-- The records of a section, at most `fuel`: up to the end type, the records length, or a record that extends past it. -/
def parseRecords (policy : Bool) : Nat → List Byte → List ImageRecord
  | 0, _ => []
  | n + 1, b =>
    let ty := field b 0 2
    let v := field b 2 2
    let size := 8 + (v + 3) / 4 * 4
    if b.length < 4 || ty = 0xFFFF || b.length < size then []
    else
      let ok := crc32c (slice b 0 4 ++ slice b 4 v) == field b (size - 4) 4 && decide (v ≤ 4096)
      ⟨ty, slice b 4 v, ok, policy⟩ :: parseRecords policy n (b.drop size)

/-- The records of the policy section (R392). -/
def policyRecords (b : List Byte) : List ImageRecord :=
  let p := sectionBytes b 1
  parseRecords true p.length (slice p 16 (field p 0 4))

/-- The records of the tuning section (R393). -/
def tuningRecords (b : List Byte) : List ImageRecord :=
  let t := sectionBytes b 2
  parseRecords false t.length ((slice t 16 (t.length - 16)).take (field t 0 4))

/-! ### Owners (R360, R361, R392, R393) -/

/-- The current owner's public key: at epoch 0 it is Corath's. -/
def State.ownerKey (s : State) : List Byte := if s.fuses.ownerEpoch = 0 then corathKey else Config.ownerPublicKey s.ownerDigest

/-- Lengths and reserved bytes of a policy section. -/
def policyShape (p : List Byte) : Bool :=
  let r := field p 0 4
  let a := field p 4 4
  (a == 0 || a == 3381) && allZero (slice p 8 8) && p.length == 16 + r + a + 1952 + 3309

/-- The owner key a policy section carries. -/
def policyKey (p : List Byte) : List Byte := slice p (p.length - 5261) 1952

/-- The section's own signature, and that no record of it has a failed CRC. -/
def policySigned (b : List Byte) : Bool :=
  let p := sectionBytes b 1
  policyShape p && Config.mldsaVerify (policyKey p) (ascii "LNM-POLICY") (p.take (p.length - 3309)) (slice p (p.length - 3309) 3309) &&
  (policyRecords b).all (·.crcOk)

/-- The transfer authorization names this change (R361 step 2, R393). -/
def State.transferOk (s : State) (p : List Byte) : Bool :=
  let a := slice p (16 + field p 0 4) 3381
  field p 4 4 == 3381 && field a 0 1 == 0x13 && field a 1 1 == 1 && field a 2 1 == s.fuses.ownerEpoch.toNat + 1 && allZero (slice a 3 5) &&
  slice a 8 32 == digest32 (policyKey p) && slice a 40 32 == identityDigest &&
  Config.mldsaVerify s.ownerKey (ascii "LNM-TRANSFER") (a.take 72) (slice a 72 3309)

/-- How a policy section stands: not verified, verified under the current owner, or a completed change of owner. -/
inductive PolicyVerdict where
  | bad | current | change | exhausted
deriving DecidableEq, Repr

/-- R361 and R392 for an image. A slot above the epoch that holds a digest admits only that digest. -/
def State.policyVerdict (s : State) (b : List Byte) : PolicyVerdict :=
  let p := sectionBytes b 1
  let d := digest32 (policyKey p)
  let next := s.fuses.ownerDigests.find (s.fuses.ownerEpoch.toNat + 1)
  if p.isEmpty || !policySigned b then .bad
  else match next with
    | some x => if x = d && s.transferOk p then .change else .bad
    | none =>
      if d = s.ownerDigest then .current
      else if !s.transferOk p then .bad
      else if s.fuses.ownerEpoch = 15 then .exhausted else .change

/-! ### Fields (R395, R396) -/

/-- The list fields: type, entry width, most entries. -/
def listFields : List (Nat × Nat × Nat) := [(0x0002, 32, 32), (0x0003, 32, 64), (0x0005, 1, 4)]

/-- The types of R396 in ascending order. -/
def fieldTypes : List Nat :=
  [0x0001, 0x0002, 0x0003, 0x0004, 0x0005, 0x0100, 0x0101, 0x0102, 0x0103, 0x0104, 0x0105, 0x0106, 0x0107, 0x0110, 0x0111, 0x0112, 0x0113,
   0x0120, 0x0121, 0x0122, 0x0123, 0x0124, 0x0125]

/-- A policy field (R396). -/
def isPolicyField (ty : Nat) : Bool := decide (ty < 0x0100)

/-- The fields an adoption may change (R396). -/
def isLive (ty : Nat) : Bool := !(inRange 0x0100 4 ty || ty == 0x0110)

/-- A field's default with a reason. -/
def defaultValue (ty reason flags given : Nat) : FieldValue := { num := fieldDefault ty, bytes := [], reason := reason, flags := flags, given := given }

/-- A number of width `w` checked against its range (R395). -/
def numberValue (ty w lo hi flags : Nat) (v : List Byte) : FieldValue :=
  let x := leNat v
  if v.length ≠ w then defaultValue ty 4 flags (x % 2 ^ 64)
  else if x < lo then { num := lo, bytes := [], reason := 1, flags := flags, given := x }
  else if hi < x then { num := hi, bytes := [], reason := 2, flags := flags, given := x }
  else { num := x, bytes := [], reason := 0, flags := flags, given := x }

/-- A list of entries of width `w` (R395). -/
def listValue (ty w hi flags : Nat) (v : List Byte) : FieldValue :=
  let n := v.length / w
  if v.length % w ≠ 0 then defaultValue ty 4 flags n
  else { num := min n hi, bytes := v.take (w * hi), reason := if n ≤ hi then 0 else 2, flags := flags, given := n }

/-- The given value of a record as the report has it (R400): 0 when its CRC fails; for a list, its count of entries. -/
def ImageRecord.given (r : ImageRecord) : Nat :=
  if !r.crcOk then 0
  else match listFields.find? fun e => e.1 == r.type with
    | some (_, w, _) => r.value.length / w
    | none => leNat (r.value.take 8)

/-- A field from the record that decides it. -/
def fieldFrom (ty : Nat) (r : ImageRecord) (policyOk : Bool) : FieldValue :=
  let flags := if r.policy then 2 else 0
  if isPolicyField ty && !(r.policy && policyOk) then defaultValue ty 6 flags r.given
  else if !r.crcOk then defaultValue ty 4 flags 0
  else match listFields.find? fun e => e.1 == ty with
    | some (_, w, hi) => listValue ty w hi flags r.value
    | none => match numericFields.find? fun e => e.1 == ty with
      | some (_, w, lo, hi, _) => numberValue ty w lo hi flags r.value
      | none => defaultValue ty 5 flags 0

/-- The records that may decide fields: the policy section's first, then the tuning section's; of a policy section that does
not verify only its policy fields are reported (R392, R395). -/
def decidingRecords (b : List Byte) (policyOk : Bool) : List ImageRecord :=
  ((policyRecords b).filter fun r => policyOk || isPolicyField r.type) ++ tuningRecords b

/-- The fields of an image. -/
def imageFields (rs : List ImageRecord) (policyOk : Bool) : Table FieldValue :=
  fieldTypes.map fun ty => (ty, match rs.find? fun r => r.type == ty with
    | some r => fieldFrom ty r policyOk
    | none => defaultValue ty 3 0 0)

/-- The IGNORED_UNKNOWN entries in the order met: unknown types, and every later record of a type (R395). -/
def unknownEntries : List Nat → List ImageRecord → List (Nat × Nat × Nat)
  | _, [] => []
  | seen, r :: rs =>
    let place := if r.policy then 2 else 0
    if seen.contains r.type then (r.type, 1 + place, r.given) :: unknownEntries seen rs
    else if fieldTypes.contains r.type then unknownEntries (r.type :: seen) rs
    else (r.type, place, r.given) :: unknownEntries (r.type :: seen) rs

/-- The image with its policy standing. -/
def imageOf (b : List Byte) (v : PolicyVerdict) (owner : List Byte) : Image :=
  let ok := v = .current || v = .change
  let rs := decidingRecords b ok
  { serial := BitVec.ofNat 64 (field b 8 8), fwDigest := digest32 (firmwareBody b), policyOk := ok, ownerDigest := owner,
    ownerChange := v = .change || v = .exhausted, fields := imageFields rs ok, unknown := unknownEntries [] rs }

/-- The image parsed under this device's owner (R392). -/
def State.parseImage (s : State) (b : List Byte) : Image :=
  let v := s.policyVerdict b
  imageOf b v (if v = .change then digest32 (policyKey (sectionBytes b 1)) else s.ownerDigest)

/-- ROM defaults (R399). -/
def State.romImage (s : State) : Image :=
  { serial := 0, fwDigest := (List.range 32).map Config.romFirmwareByte, policyOk := false, ownerDigest := s.ownerDigest,
    ownerChange := false, fields := imageFields [] false, unknown := [] }

/-- A number of an image's fields. -/
def Image.num (i : Image) (ty : Nat) : Nat :=
  match i.fields.find ty with
  | some v => v.num
  | none => fieldDefault ty

/-! ### Digest and report (R397, R400) -/

/-- The bytes of an applied value. -/
def appliedBytes (ty : Nat) (v : FieldValue) : List Byte :=
  match numericFields.find? fun e => e.1 == ty with
  | some (_, w, _, _, _) => leBytes w v.num
  | none => v.bytes

/-- The applied configuration digest (R397). -/
def Image.digest (i : Image) : List Byte :=
  digest32 (i.fwDigest ++ i.ownerDigest ++ i.fields.flatMap fun e =>
    let a := appliedBytes e.1 e.2
    leBytes 2 e.1 ++ leBytes 2 a.length ++ a)

/-- The report's entries, 32 bytes each (R400); `staged` marks a staged image's. -/
def Image.report (i : Image) (staged : Bool) : List (List Byte) :=
  let mark := if staged then 4 else 0
  let one := fun ty reason flags given applied =>
    leBytes 2 ty ++ leBytes 1 reason ++ leBytes 1 (flags + mark) ++ leBytes 4 0 ++ leBytes 8 given ++ leBytes 8 applied ++ leBytes 8 0
  (i.fields.map fun e => one e.1 e.2.reason e.2.flags e.2.given e.2.num) ++ i.unknown.map fun e => one e.1 5 e.2.1 e.2.2 0

/-! ### Slots (R389, R398, R399) -/

/-- Flash offset and size of slot A, slot B and the recovery area. -/
def slotBase (i : Nat) : Nat := [0, 0x1000000, 0x2800000].getD i 0
@[inherit_doc slotBase] def slotSize (i : Nat) : Nat := [0x1000000, 0x1000000, 0x800000].getD i 0

/-- The image in a slot, if its header and firmware pass. -/
def Flash.imageIn (f : Flash) (i : Nat) : Option (List Byte) :=
  let h := f.readN (slotBase i) 64
  if imageHeaderOk h && decide (field h 4 4 ≤ slotSize i) then
    let b := f.readN (slotBase i) (field h 4 4)
    if firmwareOk b then some b else none
  else none

/-- A slot is erased: its header reads as erased flash. -/
def Flash.slotErased (f : Flash) (i : Nat) : Bool := (f.readN (slotBase i) 64).all (· == 0xFF)

/-- The candidates in order of preference (R399), of which `serial` gives the serial of a valid slot. -/
def candidates (policy : Nat) (serial : Nat → Nat) : List Nat :=
  match policy with
  | 0 => if serial 0 < serial 1 then [1, 0, 2] else [0, 1, 2]
  | 1 => [0, 2]
  | 2 => [1, 2]
  | _ => [2]

end Sys2Proof.Machine
end

