-- ==== Sys2Proof/Machine/Clock.lean ====
section
/-!
DEFINITION. Clock: the arithmetic clock step, its causes and its changes (R258, R343, R411, R415, R416, R439).
A higher step code is a lower frequency (R259).
-/
namespace Sys2Proof.Machine

/-- The step codes with their frequencies in MHz (R259). -/
def stepMhz (code : Nat) : Nat := [600, 550, 500, 450, 400, 300, 200].getD code 200

/-- The step code a cause permits (R416); cause 6 is HOST_STEP. -/
def PowerUnit.permit (p : PowerUnit) (cause : Nat) : Nat := if cause = 6 then min 6 p.hostStep.toNat else p.permits.at cause 0

/-- The lowest step the device's own causes permit, as a code (R416). -/
def PowerUnit.ownStep (p : PowerUnit) : Nat := ((List.range 8).map p.permit).foldl max 0

/-- CAUSES: bit c of a cause now below 600 MHz (R430). -/
def PowerUnit.causes (p : PowerUnit) : Nat := ((List.range 9).filter fun c => p.permit c != 0).foldl (fun n c => n + 2 ^ c) 0

/-- The voltage requested for a step (R411): V_k + AVS_MARGIN_MV, clamped to 620 to 780 mV. -/
def State.voltageFor (s : State) (code : Nat) : BitVec 10 :=
  BitVec.ofNat 10 (max 620 (min 780 (Config.stepVoltage code + s.cfgNum 0x0124)))

/-- The step decided last: announced, waiting behind an announced one, or in effect (R415). -/
def PowerUnit.decided (p : PowerUnit) : Nat :=
  match p.later, p.pending with
  | some x, _ => x
  | none, some (_, x) => x
  | none, none => p.stepCode.toNat

/-- Announce a switch cycle 64 cycles after the decision, or let it wait for the change under way; of two decisions in one
cycle the lower step is taken (R415). -/
def State.announce (s : State) (code : Nat) : State :=
  let p := s.power
  match p.pending with
  | none => { s with power := { p with pending := some (s.now + 64, code) } }
  | some (c, x) =>
    if c = s.now + 64 then { s with power := { p with pending := some (c, max x code) } }
    else { s with power := { p with later := some code } }

/-- A step up that still waits for its voltage is given up, and the request is the present step's again (R411). -/
def State.dropStepUp (s : State) : State :=
  if s.power.awaitingVoltage.isNone then s
  else { s with power := { s.power with awaitingVoltage := none, vddcRequest := s.voltageFor s.power.stepCode.toNat } }

/-- Bring the clock to a step (R411, R415): down at once, up only after the voltage; an abandoned step up waits for its
retry. -/
def State.decideStep (s : State) (code : Nat) : State :=
  let d := s.power.decided
  if code > d then s.dropStepUp.announce code
  else if code = d then s.dropStepUp
  else if s.beat.toNat < s.power.retryAt then s
  else { s with power := { s.power with awaitingVoltage := some code, vddcRequest := s.voltageFor code } }

/-- The step a beat domain runs at (R343): the lowest any member permits. -/
def LinkUnit.lowest (l : LinkUnit) : Nat := (l.memberSteps.map (·.2)).foldl max 0

/-- A member's permitted step changed in beat e: the domain follows at cycle 0 of beat e + 2 (R343). -/
def State.memberStep (s : State) (e pos code : Nat) : State :=
  let l := { s.link with memberSteps := s.link.memberSteps.put pos code }
  { s with link := { l with stepDue := l.stepDue.filter (fun d => d.1 != e + 2) ++ [(e + 2, l.lowest)] } }

/-- Act on the causes (R416): a SOLO device changes its step; a LINKED one sends a STEP record when its own permitted step
changes (R343). -/
def State.applyCauses (s : State) : State :=
  let own := s.power.ownStep
  if s.mode.linked then
    if own = s.link.sentStep then s
    else
      let s := { s with link := { s.link with sentStep := own } }
      (s.sendControl 6 own s.beat.toNat 0 0).memberStep s.beat.toNat s.link.position.toNat own
  else s.decideStep own

/-- A cause permits a step (R416). -/
def State.setPermit (s : State) (cause code : Nat) : State :=
  if s.power.permit cause = code then s
  else ({ s with power := { s.power with permits := s.power.permits.put cause code } }).applyCauses

/-- The power axis is CAPPED or FULL (R439): only cause 3 changes. -/
def State.setCapped (s : State) (capped : Bool) : State :=
  if s.mode.capped = capped then s
  else
    let old := s.power.ownStep
    let s := { s with mode := { s.mode with capped := capped }, power := { s.power with capUnmet := false, belowSince := s.beat.toNat } }
    let s := s.event 0x08 ([2, (!capped).toNat, capped.toNat].map (BitVec.ofNat 8))
    let s := if capped then s else s.setPermit 3 0
    if s.power.ownStep = old then s else s.fire 0 6

/-- The coupling cap is in effect (R258): no change is under way and the step is at or below the cap. -/
def PowerUnit.inEffect (p : PowerUnit) (code : Nat) : Bool := p.pending.isNone && decide (code ≤ p.stepCode.toNat)

end Sys2Proof.Machine
end

