-- ==== Sys2Proof/Machine/HostOps.lean ====
section
/-!
DEFINITION. HostOps: areas, locks and host access to HBM (R312 to R314), submitted entries, their checks and their order
(R316 to R319), and the reservations of the backlog (R323).
-/
namespace Sys2Proof.Machine

/-! ### Areas and access -/

/-- Bytes of host HBM (R312, R331). -/
def State.hostHbm (s : State) : Nat := s.host.hostHbmMib.toNat * 2 ^ 20

/-- The area that holds an address, with its number (R312). -/
def State.areaAt (s : State) (a : Nat) : Option (Nat × Area) := s.host.areas.find? fun e => inRange e.2.base e.2.length a

/-- The area that holds a whole range. -/
def State.areaOf (s : State) (a n : Nat) : Option (Nat × Area) := s.host.areas.find? fun e => rangeInside a n e.2.base e.2.length

/-- A range lies in one intake area of a function (R193, R202, R312). -/
def State.inIntake (s : State) (fn a n : Nat) : Bool := (s.areaOf a n).any fun e => !e.2.release && e.2.owner == fn
/-- A range lies in one release area of a function. -/
def State.inRelease (s : State) (fn a n : Nat) : Bool := (s.areaOf a n).any fun e => e.2.release && e.2.owner == fn

/-- An address lies in key storage (R312). -/
def State.keyStorage (s : State) (a : Nat) : Bool := s.work.keySets.any fun e => inRange e.2.regionBase e.2.regionLen a
/-- An address lies in a locked range (R313). -/
def State.locked (s : State) (a : Nat) : Bool := s.host.locks.any fun l => inRange l.2.1 l.2.2 a
/-- The page of an address is retired (R254). -/
def State.pageRetired (s : State) (a : Nat) : Bool := s.memSys.retiredPages.contains (a / 2048)
/-- The page of an address is released (R313). -/
def State.pageReleased (s : State) (a : Nat) : Bool := s.host.unreleased.all fun u => u.1 != a / 2048

/-- The table of R313 for one byte. -/
def State.byteAllowed (s : State) (fn : Nat) (write : Bool) (a : Nat) : Bool :=
  if s.hostHbm ≤ a || s.locked a || s.keyStorage a || s.pageRetired a then false
  else match s.areaAt a with
    | none => !s.mode.sealedTrust
    | some (_, r) =>
      if r.owner ≠ fn then false
      else match r.release, write with
        | false, true => true
        | false, false => !s.mode.sealedTrust
        | true, false => s.pageReleased a
        | true, true => !s.mode.sealedTrust

/-- The bytes a host read of `n` bytes at `a` returns, whether any was refused, and the poisoned lines met (R314). -/
def State.hostRead (s : State) (fn a n : Nat) : List Byte × Bool × Nat :=
  let l := (List.range n).map fun i => (a + i, s.byteAllowed fn false (a + i))
  let bad := s.mem.poisonLines.filter fun ln => l.any fun e => e.2 && e.1 / 64 == ln
  (l.map fun e => if e.2 && !s.mem.linePoisoned e.1 then s.mem.read e.1 else 0xFF, l.any fun e => !e.2, bad.length)

/-- Apply a host write byte by byte (R313, R314); a poisoned line takes it only whole (R255). Answers whether any byte was
refused. -/
def State.hostWrite (s : State) (fn a : Nat) (data : List Byte) : Bool × State :=
  let ok := fun i => s.byteAllowed fn true i
  let whole := fun ln => (List.range 64).all fun j => decide (a ≤ 64 * ln + j) && decide (64 * ln + j < a + data.length) && ok (64 * ln + j)
  let takes := fun i => ok i && (!s.mem.linePoisoned i || whole (i / 64))
  let cells := data.zipIdx.map fun e => (a + e.2, e.1)
  let mem := cells.foldl (fun m e => if takes e.1 then m.write e.1 e.2 else m) s.mem
  let mem := { mem with poisonLines := mem.poisonLines.filter fun ln => !whole ln }
  (cells.any fun e => !takes e.1, { s with mem := mem })

/-- Count a refused access (R314, R332). -/
def State.countRefused (s : State) (fn : Nat) : State := s.modFunc fn fun f => { f with accessRefused := satInc f.accessRefused }

/-- Count poisoned reads and signal the memory event (R314, R329). -/
def State.countPoison (s : State) (fn : Nat) : State :=
  (s.modFunc fn fun f => { f with poisonReads := satInc f.poisonReads }).fire 0 5

/-! ### Entries (R317, R318) -/

/-- Type of an entry. -/
def Entry.type (e : Entry) : Nat := field e.raw 0 1
/-- Subtype of a control entry. -/
def Entry.sub (e : Entry) : Nat := field e.raw 8 1
/-- Host tag of an entry. -/
def Entry.tag (e : Entry) : Word32 := BitVec.ofNat 32 (field e.raw 4 4)
/-- Flags of an entry. -/
def Entry.flags (e : Entry) : Nat := field e.raw 2 2

/-- The fields an entry's body uses, offset and length (R317). -/
def bodyFields (ty sub : Nat) : List (Nat × Nat) :=
  match ty, sub with
  | 1, _ => [(8, 52)]
  | 2, _ => [(8, 12)]
  | 3, _ => [(8, 12)]
  | 4, _ => [(16, 20)]
  | 5, 1 => [(8, 1), (16, 12), (32, 16)]
  | 5, 2 => [(8, 2)]
  | 5, 3 => [(8, 2)]
  | 5, 4 => [(8, 3), (16, 16)]
  | 5, 5 => [(8, 1), (10, 1)]
  | 5, 6 => [(8, 1), (12, 2)]
  | 5, 7 => [(8, 1)]
  | 5, 8 => [(8, 1), (16, 19), (40, 8)]
  | _, _ => []

/-- Bits of the flags a type uses. -/
def flagMask (ty : Nat) : Nat := if ty = 1 then 0x3F01 else if ty = 4 then 1 else 0

/-- Checks 1 to 3 of R318. -/
def Entry.valid (e : Entry) : Bool :=
  e.raw.length == 64 && crc32c (slice e.raw 0 60) == field e.raw 60 4 &&
  decide (1 ≤ e.type ∧ e.type ≤ 5) && field e.raw 1 1 == 1 && (e.type != 5 || decide (1 ≤ e.sub ∧ e.sub ≤ 8)) &&
  (e.flags &&& (0xFFFF ^^^ flagMask e.type)) == 0 &&
  ((List.range 52).all fun i => (bodyFields e.type e.sub).any (fun f => inRange f.1 f.2 (8 + i)) || e.raw.getD (8 + i) 0 == 0)

/-- Check 4 of R318: subtypes 0x01 to 0x03 and ENCODE are the PF's. -/
def Entry.permitted (e : Entry) : Bool := e.fn == 0 || e.type != 5 || (e.sub != 1 && e.sub != 2 && e.sub != 3 && e.sub != 8)

/-- The body of a type 0x05 completion (R324): subtype, number, job ID and output address. -/
def controlBody (sub num job out : Nat) : List Byte := leBytes 1 sub ++ leBytes 1 num ++ leBytes 2 job ++ leBytes 4 0 ++ leBytes 8 out

/-- The type-specific bytes of an entry that is refused before its own checks. -/
def Entry.body (e : Entry) : List Byte := if e.type = 5 then controlBody e.sub 0 0 0 else []

/-- Complete an entry with a status and no more (R318). -/
def State.refuseEntry (s : State) (e : Entry) (status : Nat) : State := s.complete e.fn e.type status e.tag e.body

/-- Complete a control entry (R324). -/
def State.completeControl (s : State) (e : Entry) (status num job out : Nat) : State :=
  s.complete e.fn 5 status e.tag (controlBody e.sub num job out)

/-! ### Order and visibility (R316, R319, R323) -/

/-- Entries of a function still in the FIFO. -/
def State.inFifo (s : State) (fn : Nat) : Nat := (s.host.fifo.filter fun e => e.fn == fn).length
/-- FREE_ENTRIES (R316). -/
def State.freeEntries (s : State) (fn : Nat) : Nat := (s.func fn).quota.toNat - s.inFifo fn

/-- Visible entries and work in hand of a function that still owe a completion. -/
def State.owed (s : State) (fn : Nat) : Nat :=
  (s.host.visible.filter fun e => e.fn == fn).length + (s.work.queue.filter fun q => q.fn == fn && q.complete).length +
  (s.host.transfers.filter fun t => t.fn == fn).length + (if s.host.registration.any fun r => r.fn == fn then 1 else 0) +
  (if s.host.encode.any fun e => e.fn == fn then 1 else 0)

/-- Jobs of a function in the job table (R323, R332). -/
def State.jobsOf (s : State) (fn : Nat) : Nat := (s.work.jobs.filter fun e => e.2.fn == fn).length

/-- The backlog has free space outside the reservations for an entry (R323). -/
def State.entryRoom (s : State) (e : Entry) : Bool :=
  let f := s.func e.fn
  let n := s.jobsOf e.fn
  let job := if e.type = 3 then 1 else 0
  decide (f.cqBacklog.length + 2 * n + s.owed e.fn + 1 + 2 * job ≤ 16384) &&
  decide (f.rqBacklog.length + n + job ≤ 1024)

/-- The kinds of entry that wait behind direction 0 transfers (R319). -/
def Entry.readsHbm (e : Entry) : Bool := e.type == 2 || e.type == 3 || (e.type == 5 && (e.sub == 1 || e.sub == 8))

/-- An earlier direction 0 transfer of the function has not completed (R319). -/
def State.behindTransfer (s : State) (e : Entry) : Bool :=
  (s.host.visible.any fun x => x.fn == e.fn && x.type == 4 && x.flags % 2 == 0 && decide (x.seq < e.seq)) ||
  (s.host.transfers.any fun t => t.fn == e.fn && !t.toHost && decide (t.seq < e.seq))

/-- The first visible entry, not held, of a kind. -/
def State.visibleEntry (s : State) (p : Entry → Bool) : Option Entry := s.host.visible.find? fun e => !e.held && p e

/-- An entry leaves the visible list. -/
def State.dropEntry (s : State) (e : Entry) : State :=
  { s with host := { s.host with visible := s.host.visible.filter fun x => x.seq != e.seq } }

/-- Run a handler on the first visible control entry of a subtype; nothing happens without one. -/
def State.onControl (s : State) (sub : Nat) (f : State → Entry → State) : State :=
  match s.visibleEntry fun e => e.type == 5 && e.sub == sub with
  | some e => f (s.dropEntry e) e
  | none => s

/-- One entry becomes visible: a failing check of R318 completes it at once, else it waits for its command. -/
def State.makeVisible (s : State) (e : Entry) : State :=
  if !e.valid then s.refuseEntry e 0x60
  else if !e.permitted then s.refuseEntry e 0x61
  else
    let e := { e with visible := s.beat.toNat }
    let e := { e with held := e.readsHbm && s.behindTransfer e }
    { s with host := { s.host with visible := s.host.visible ++ [e] } }

/-- The entries of the FIFO become visible in arrival order, those R323 holds back staying with the later ones of their
function (R28, R316, R323). -/
def visibility : List Entry → List Nat → State → State
  | [], _, s => s
  | e :: es, blocked, s =>
    if blocked.contains e.fn || !s.entryRoom e then
      visibility es (insertNew blocked e.fn) { s with host := { s.host with fifo := s.host.fifo ++ [e] } }
    else visibility es blocked (s.makeVisible e)

/-- A credit rise to the threshold fires CREDIT (R329). -/
def State.creditRise (s : State) (fn before : Nat) : State :=
  let th := (s.func fn).creditThreshold.toNat
  if th ≠ 0 && decide (before < th) && decide (th ≤ s.freeEntries fn) then s.fire fn 2 else s

/-- ENTRY_VISIBILITY of a beat boundary (R28, R316, R319). -/
def State.entriesVisible (s : State) : State :=
  let before := s
  let fns := s.host.fifo.foldl (fun l e => insertSorted l e.fn) []
  let freed := s.host.visible.map fun e => if e.held && !s.behindTransfer e then { e with held := false, visible := s.beat.toNat } else e
  let s := { s with host := { s.host with visible := freed, fifo := [] } }
  let s := visibility before.host.fifo [] s
  s.forAll fns fun s fn => s.creditRise fn (before.freeEntries fn)

/-- Some earlier entry of the function has not completed (R319). -/
def State.earlierOpen (s : State) (fn seq : Nat) : Bool :=
  (s.host.visible.any fun e => e.fn == fn && decide (e.seq < seq)) || (s.host.fifo.any fun e => e.fn == fn && decide (e.seq < seq)) ||
  (s.work.queue.any fun q => q.fn == fn && decide (q.seq < seq)) || (s.host.transfers.any fun t => t.fn == fn && decide (t.seq < seq)) ||
  (s.host.registration.any fun r => r.fn == fn && decide (r.seq < seq)) || (s.host.encode.any fun e => e.fn == fn && decide (e.seq < seq)) ||
  (s.work.jobs.any fun j => j.2.fn == fn && decide (j.2.seq < seq))

/-! ### Locks -/

/-- Lock a range (R313). -/
def State.lock (s : State) (o : LockOwner) (a n : Nat) : State :=
  if n = 0 then s else { s with host := { s.host with locks := s.host.locks ++ [(o, a, n)] } }
/-- Drop an owner's locks. -/
def State.unlock (s : State) (o : LockOwner) : State :=
  { s with host := { s.host with locks := s.host.locks.filter fun l => l.1 != o } }

end Sys2Proof.Machine
end

