-- ==== Sys2Proof/Machine/Operands.lean ====
section
/-!
DEFINITION. Operands: the fields of a command word (R179 to R182), the operand kinds (R180), the word-3 value,
objects and their headers (R42, R46, R47), the job a cluster runs for, and rows of rings and tiles (R127, R215).
-/
namespace Sys2Proof.Machine

/-! ### Fields of the four words -/

/-- MARK, ENGINE and OPCODE of word 0 (R179). -/
def cmdMark (c : CmdWord) : Nat := c.w0.toNat / 2 ^ 30
@[inherit_doc cmdMark] def cmdEngine (c : CmdWord) : Nat := c.w0.toNat / 2 ^ 26 % 16
@[inherit_doc cmdMark] def cmdOpcode (c : CmdWord) : Nat := c.w0.toNat / 2 ^ 20 % 64
/-- W3MODE, OBJSTART, OBJEND, DEP, TAGP, SPEC and RSET of word 0 (R179). -/
def cmdW3mode (c : CmdWord) : Nat := c.w0.toNat / 2 ^ 18 % 4
@[inherit_doc cmdW3mode] def cmdObjStart (c : CmdWord) : Bool := c.w0.getLsbD 17
@[inherit_doc cmdW3mode] def cmdObjEnd (c : CmdWord) : Bool := c.w0.getLsbD 16
@[inherit_doc cmdW3mode] def cmdDep (c : CmdWord) : Bool := c.w0.getLsbD 15
@[inherit_doc cmdW3mode] def cmdTagp (c : CmdWord) : Nat := c.w0.toNat / 2 ^ 9 % 64
@[inherit_doc cmdW3mode] def cmdSpec (c : CmdWord) : Nat := c.w0.toNat / 8 % 64
@[inherit_doc cmdW3mode] def cmdRset (c : CmdWord) : Nat := c.w0.toNat % 8
/-- COUNT, R0, W and F of word 2 (R182). -/
def cmdCount (c : CmdWord) : Nat := c.w2.toNat % 2 ^ 17
@[inherit_doc cmdCount] def cmdR0 (c : CmdWord) : Nat := c.w2.toNat / 2 ^ 17 % 128
@[inherit_doc cmdCount] def cmdW (c : CmdWord) : Nat := c.w2.toNat / 2 ^ 24 % 128
@[inherit_doc cmdCount] def cmdF (c : CmdWord) : Bool := c.w2.getLsbD 31
/-- The OP field of a record for this command (R296): ENGINE × 64 + OPCODE. -/
def cmdOp (c : CmdWord) : Nat := cmdEngine c * 64 + cmdOpcode c

/-- The four words of a command. -/
def cmdWords (c : CmdWord) : List Nat := [c.w0.toNat, c.w1.toNat, c.w2.toNat, c.w3.toNat]

/-- An operand code (R180). -/
inductive Operand where
  | none | handover | ring (r : Nat) | peek (r : Nat) | tile (t : Nat) | reserved
deriving DecidableEq, Repr

/-- Read an operand code of 6 bits (R180). -/
def operandOf (code : Nat) : Operand :=
  let r := code % 16
  match code / 16 with
  | 0 => if r = 0 then .none else if r = 1 then .handover else .reserved
  | 1 => .ring r
  | 2 => .peek r
  | _ => .tile r

/-- Operands A to E of word 1 (R180). -/
def cmdA (c : CmdWord) : Operand := operandOf (c.w1.toNat % 64)
@[inherit_doc cmdA] def cmdB (c : CmdWord) : Operand := operandOf (c.w1.toNat / 2 ^ 6 % 64)
@[inherit_doc cmdA] def cmdC (c : CmdWord) : Operand := operandOf (c.w1.toNat / 2 ^ 12 % 64)
@[inherit_doc cmdA] def cmdD (c : CmdWord) : Operand := operandOf (c.w1.toNat / 2 ^ 18 % 64)
@[inherit_doc cmdA] def cmdE (c : CmdWord) : Operand := operandOf (c.w1.toNat / 2 ^ 24 % 64)

/-- The ring an operand names. -/
def Operand.ringNo? : Operand → Option Nat
  | .ring r => some r
  | .peek r => some r
  | _ => Option.none

/-- A signed number from its low `w` bits. -/
def signedOf (w x : Nat) : Int := if x % 2 ^ w < 2 ^ (w - 1) then (x % 2 ^ w : Int) else (x % 2 ^ w : Int) - 2 ^ w

/-- The value V that word 3 supplies (R182): the immediate, or a register plus 256 times a signed offset. -/
def wordValue (cl : Cluster) (c : CmdWord) : Nat :=
  let off := signedOf 26 (c.w3.toNat / 64)
  let wrap := fun (x : Int) => (x % 2 ^ 64).toNat
  match cmdW3mode c with
  | 1 => wrap ((cl.params.toList.getD (c.w3.toNat % 64) 0).toNat + 256 * off)
  | 2 => wrap ((cl.sregs.toList.getD (c.w3.toNat % 32) 0).toNat + 256 * off)
  | _ => c.w3.toNat

/-! ### Headers -/

/-- The form flags byte (R46). -/
def Header.flags (h : Header) : Nat :=
  h.eval.toNat + 2 * h.seeded.toNat + 4 * h.poisoned.toNat + 8 * h.releaseTagged.toNat + 16 * h.reservedFlags

/-- The 64 bytes of a header with its CRC (R46). -/
def Header.bytes (h : Header) : List Byte :=
  withCrc32c (leBytes 1 h.format ++ leBytes 1 h.version ++ leBytes 1 h.scheme ++ leBytes 1 h.log2n ++ leBytes 1 h.npoly ++
    leBytes 1 h.level ++ leBytes 1 h.dclass ++ leBytes 1 h.flags ++ leBytes 2 h.scale ++ leBytes 2 h.budget ++
    leBytes 1 h.poison ++ leBytes 1 h.rset ++ leBytes 2 h.job ++ leBytes 8 h.ksid ++ leBytes 4 h.tag ++ leBytes 4 0 ++
    leBytes 8 h.digestPrefix ++ leBytes 20 0)

/-- Read a header's fields (R46). -/
def headerOf (b : List Byte) : Header :=
  let fl := field b 7 1
  { format := field b 0 1, version := field b 1 1, scheme := field b 2 1, log2n := field b 3 1, npoly := field b 4 1,
    level := field b 5 1, dclass := field b 6 1, eval := fl % 2 = 1, seeded := fl / 2 % 2 = 1, poisoned := fl / 4 % 2 = 1,
    releaseTagged := fl / 8 % 2 = 1, reservedFlags := fl / 16, scale := field b 8 2, budget := field b 10 2,
    poison := field b 12 1, rset := field b 13 1, job := field b 14 2, ksid := field b 16 8, tag := field b 24 4,
    digestPrefix := field b 32 8, reservedZero := allZero (slice b 28 4) && allZero (slice b 40 20) }

/-- Bits of a number. -/
def bitLength (n : Nat) : Nat := if n = 0 then 0 else Nat.log2 n + 1

/-- Product of a list. -/
def product (l : List Nat) : Nat := l.foldl (· * ·) 1

/-- Element width of a clear tensor's type code (R59); 0 for a reserved code. -/
def tensorWidth (ty : Nat) : Nat :=
  match ty with
  | 0x01 => 1
  | 0x02 => 2
  | 0x03 => 4
  | 0x11 => 2
  | 0x12 => 2
  | 0x13 => 4
  | _ => 0

/-- Elements of a clear tensor (R58). -/
def tensorCount (h : List Byte) : Nat := product ((List.range 4).map fun i => field h (4 + 4 * i) 4)

/-- A clear tensor's head passes R58. -/
def tensorOk (h : List Byte) : Bool :=
  let rank := field h 3 1
  field h 0 1 == 3 && field h 1 1 == 1 && tensorWidth (field h 2 1) != 0 && decide (1 ≤ rank ∧ rank ≤ 4) &&
  ((List.range 4).all fun i => decide (i < rank) || field h (4 + 4 * i) 4 == 1) &&
  allZero (slice h 20 40) && crc32c (slice h 0 60) == field h 60 4 && allZero (slice h 64 192) &&
  decide (256 + tensorCount h * tensorWidth (field h 2 1) ≤ 2 ^ 32)

/-- Condition 1 of R47: the header CRC and, for a seeded object, the seed CRC. -/
def headerCrcOk (b : List Byte) : Bool :=
  crc32c (slice b 0 60) == field b 60 4 &&
  (field b 7 1 / 2 % 2 == 0 || crc32c (slice b 64 32) == field b 96 4)

/-- Condition 2 of R47: every field in its range of R46, every reserved bit and byte zero. -/
def headerRangeOk (h : Header) : Bool :=
  (h.format == 1 || h.format == 2) && h.version == 1 && decide (1 ≤ h.scheme ∧ h.scheme ≤ 3) &&
  decide (12 ≤ h.log2n ∧ h.log2n ≤ 17) &&
  (if h.format = 1 then h.npoly == 2 || h.npoly == 3 else h.npoly == 1) && decide (1 ≤ h.level) && decide (h.dclass ≤ 1) &&
  h.reservedFlags == 0 && decide (h.poison ≤ 0x0E) && decide (h.rset ≤ 7) && h.reservedZero &&
  (h.releaseTagged || h.digestPrefix == 0) && (h.poisoned || ((h.scheme == 1 || h.scale == 0) && (h.scheme != 1 || h.budget == 0)))

/-- Condition 3 of R47, with the level's range in the named residue set; `jobKsid` is the program's key set. -/
def headerKeySetOk (ks : Option KeySet) (jobKsid : Option Nat) (h : Header) : Bool :=
  match ks with
  | none => false
  | some k =>
    k.ksid == h.ksid && k.scheme == h.scheme && (jobKsid.all fun i => i == h.ksid) &&
    (match k.rsets[h.rset]? with
     | none => false
     | some r => r.log2n == h.log2n && decide (h.level ≤ r.ordinary.length))

/-- The product q_0 … q_{ℓ−1} of a residue set (R35). -/
def ResidueSet.qProduct (r : ResidueSet) (l : Nat) : Nat := product (r.ordinary.take l)

/-- Conditions 4 to 8 of R47. -/
def headerRestOk (ks : KeySet) (intake : Bool) (h : Header) : Bool :=
  (!h.seeded || (h.eval && h.format == 1 && h.npoly == 2)) && (h.poisoned == (h.poison != 0)) &&
  (h.poisoned ||
    ((h.scheme != 1 || (h.scale != 0 &&
        decide (h.scale < 256 * bitLength ((ks.rsets.getD h.rset ⟨12, [], [], 1, 0⟩).qProduct h.level)))) &&
     (h.scheme == 1 || decide (h.budget ≤ ks.bounds.fresh.getD h.rset 0)))) &&
  (!intake || (!h.releaseTagged && h.job == 0))

/-- R47 over the 256-byte head of an object: the header, and whether every condition holds. -/
def headerCheck (ks : Option KeySet) (jobKsid : Option Nat) (intake : Bool) (b : List Byte) : Header × Bool :=
  let h := headerOf b
  (h, headerCrcOk b && headerRangeOk h && headerKeySetOk ks jobKsid h &&
      (match ks with | some k => headerRestOk k intake h | none => false))

/-- Bytes of an object under R42. -/
def objectBytes (h : Header) : Nat := 256 + (if h.seeded then 1 else h.npoly) * h.level * 4 * 2 ^ h.log2n

/-- Offset of plane (p, r) in an object at level ℓ (R42). -/
def planeOffset (h : Header) (p r : Nat) : Nat := 256 + (p * h.level + r) * 4 * 2 ^ h.log2n

/-- Byte offset of coefficient `i` within a plane spanning G clusters (R42). -/
def coeffOffset (n g i : Nat) : Nat := ((i % g) * (n / g) + i / g) * 4

/-! ### The job a cluster runs for -/

/-- What a command needs of the job that holds its cluster. -/
structure Ctx where
  job : Job
  prog : Program
  ks : Option KeySet
  logical : Nat
  /-- clusters an object spans (R40) -/
  span : Nat
  /-- this cluster's number among them -/
  index : Nat
  /-- words of a plane in one cluster (R102) -/
  share : Nat
deriving DecidableEq, Repr

/-- Logical groups of one block: a pair at N = 2^17, the largest refresh span, or one (R206). -/
def Program.block (p : Program) : Nat := if p.log2n = 17 then max 2 p.span else p.span

/-- The residue set of a command's RSET field (R179). -/
def Ctx.rset (x : Ctx) (i : Nat) : ResidueSet :=
  match x.ks with
  | some k => k.rsets.getD i ⟨12, [], [], 1, 0⟩
  | none => ⟨12, [], [], 1, 0⟩

/-- The modulus of a residue index of R80: ordinary i, or 64 + k for special k; 0 where the set has none. -/
def ResidueSet.modulus (r : ResidueSet) (i : Nat) : Nat :=
  if i < 64 then r.ordinary.getD i 0 else r.special.getD (i - 64) 0

/-- The context of physical cluster `k`; none when no job holds its group. -/
def State.ctx? (s : State) (k : Nat) : Option Ctx :=
  match s.jobOf (k / 32) with
  | none => none
  | some j =>
    let p := s.programOf j
    let g := s.group (k / 32)
    let span := if p.log2n = 17 then 64 else 32
    some { job := j, prog := p, ks := s.keySet? p.ksid, logical := g.logical, span := span,
           index := if span = 64 then (g.logical % 2) * 32 + k % 32 else k % 32,
           share := 2 ^ p.log2n / span }

/-- The physical groups of a transform's span, lower first (R18, R40). -/
def State.spanGroups (s : State) (p : Nat) : List Nat :=
  match s.jobOf p with
  | none => [p]
  | some j =>
    let prog := s.programOf j
    let g := s.group p
    if prog.log2n = 17 then
      let set := if g.set = 0 then j.set0 else j.set1
      let b := g.logical / 2 * 2
      [set.getD b p, set.getD (b + 1) p]
    else [p]

/-- The clusters of one physical group. -/
def groupClusters (p : Nat) : List Nat := (List.range 32).map fun c => 32 * p + c

/-- The physical clusters of a span in logical order. -/
def State.spanClusters (s : State) (p : Nat) : List Nat :=
  (s.spanGroups p).flatMap groupClusters

/-! ### Rows of rings (R212, R215 to R217) -/

/-- Device address of a scratchpad row of physical cluster `k` (R212). -/
def scratchRow (k row : Nat) : Nat := spBase + k * scratchpadBytes + row * 256

/-- The ring offset `i` rows after the head. -/
def Ring.at (r : Ring) (i : Nat) : Nat := if r.size.toNat = 0 then 0 else (r.head.toNat + i) % r.size.toNat
/-- The ring offset `i` rows after the tail. -/
def Ring.tailAt (r : Ring) (i : Nat) : Nat := if r.size.toNat = 0 then 0 else (r.tail.toNat + i) % r.size.toNat
/-- Device address of ring offset `o`. -/
def Ring.addr (r : Ring) (k o : Nat) : Nat := scratchRow k (r.base.toNat + o)

/-- A row on its way into a ring: its words, a poison mark on it, and its stamp, or the earliest stamp it can still receive
(R231). -/
structure ComingRow where
  data : Row
  marked : Bool
  stamp : Nat
deriving DecidableEq, Repr

/-- Cycles from a grant to its stamp (R221). -/
def slotBound (src : SlotSource) : Nat :=
  match src with
  | .hbm => 1536
  | .keyCache => 160
  | .groupBuffer => 16

/-- A number for a source, the key of tables. -/
def slotCode (src : SlotSource) : Nat :=
  match src with
  | .hbm => 0
  | .keyCache => 1
  | .groupBuffer => 2

/-- The rows a transfer of cluster `k` brings to its ring. -/
def State.rowsOfTransfer (s : State) (k : Nat) (t : Transfer) : List ComingRow :=
  let stamp := if t.tag.isSome then t.stamp
    else max t.eligible (max ((s.cluster k).nextGrant.at (slotCode t.src) 0) s.now) + slotBound t.src
  (List.range t.rows).map fun i =>
    { data := if t.code ≠ 0 then poisonRow else t.data.getD i poisonRow, stamp := stamp
      marked := t.code = 0 && t.marks.any fun m => decide (64 * i ≤ m ∧ m < 64 * i + 64) }

/-- Rows from one ring offset forward to another. -/
def ringGap (size a b : Nat) : Nat := if size = 0 then 0 else (b % size + size - a % size) % size

/-- The relay rows of cluster `k`'s job on the chain (R230). -/
def State.relayRows (s : State) (k : Nat) : List RelayRow :=
  let g := s.group (k / 32)
  s.units.flatMap fun e => e.2.relay.filter fun x => x.job == g.job.toNat && (s.group e.1).set == g.set

/-- The rows that have claimed a place in ring `r` of cluster `k` and not landed there: ring offset and row (R216). -/
def State.claimedRows (s : State) (k r : Nat) : List (Nat × ComingRow) :=
  let size := (s.ring k r).size.toNat
  let moved := ((s.cluster k).transfers.filter fun t => !t.out && !t.isHead && t.ring == r && t.tag.isSome).flatMap fun t =>
    ((s.rowsOfTransfer k t).zipIdx).map fun e => ((t.ringRow + e.2) % max size 1, e.1)
  let relayed := ((s.relayRows k).filter fun x => x.ring == r).flatMap fun x =>
    (x.places.filter fun e => e.1 == k).map fun e => (e.2, { data := x.data, marked := false, stamp := x.stamp })
  moved ++ relayed

/-- The rows issued commands will bring to ring `r` of cluster `k` that have claimed no place yet: relay rows before their
injection, transfers before their grants. -/
def State.waitingRows (s : State) (k r : Nat) : List ComingRow :=
  let g := s.group (k / 32)
  let relayed := (s.relayRows k).filter fun x => x.ring == r && !x.claimed &&
    (x.targetGroup == 0x7F || x.targetGroup == g.logical) && (x.targetCluster == 0x3F || x.targetCluster == k % 32)
  relayed.map (fun x => { data := x.data, marked := false, stamp := x.stamp }) ++
    ((s.cluster k).transfers.filter fun t => !t.out && !t.isHead && t.ring == r && t.tag.isNone).flatMap (s.rowsOfTransfer k)

/-- Rows from the head of ring `r` to its claim: those landed and those that have claimed a place, less the ones read ahead
(R216). -/
def State.placedRows (s : State) (k r : Nat) : Nat :=
  let g := s.ring k r
  g.ready.toNat + (s.claimedRows k r).length - g.ahead

/-- Where row `i` after the head of a ring is, if it has not landed: on its way to its place, or waiting for one. -/
def State.comingRow? (s : State) (k r i : Nat) : Option ComingRow :=
  let placed := s.placedRows k r
  if i < placed then ((s.claimedRows k r).find? fun e => e.1 == (s.ring k r).at i).map (·.2)
  else (s.waitingRows k r)[i - placed]?

/-- The row `i` rows after the head of a ring: in its place, or on its way. -/
def State.ringRow (s : State) (k r i : Nat) : Row :=
  match s.comingRow? k r i with
  | some c => c.data
  | none => s.mem.row ((s.ring k r).addr k ((s.ring k r).at i))

/-- The row `i` rows after the head as a read in cycle `x` finds it: an engine's push in that very cycle has not reached it
yet (R213, R233). -/
def State.ringRowAt (s : State) (k r i x : Nat) : Row :=
  let g := s.ring k r
  match g.before with
  | some (o, w) => if i < g.ready.toNat ∧ g.at i = o ∧ g.stamps.at o 0 = x then w else s.ringRow k r i
  | none => s.ringRow k r i

/-- A read of row `i` in cycle `at_` finds it ready (R231): its stamp has passed, or can still come in time. -/
def State.rowReady (s : State) (k r i at_ : Nat) : Bool :=
  let g := s.ring k r
  match s.comingRow? k r i with
  | some c => decide (c.stamp ≤ at_)
  | none => decide (i < s.placedRows k r) && decide (g.stamps.at (g.at i) 0 ≤ at_)

/-- A poison mark lies in the row (R213). -/
def State.rowMarked (s : State) (k r i : Nat) : Bool :=
  match s.comingRow? k r i with
  | some c => c.marked
  | none => s.mem.anyPoison ((s.ring k r).addr k ((s.ring k r).at i)) 256

/-- Rows and the cycles they are read in: row numbers from the head, one per cycle from `t`. -/
def oneByOne (t : Nat) (idx : List Nat) : List (Nat × Nat) := (idx.zipIdx).map fun e => (e.1, t + e.2)

/-- The reads among `rd` (rows from the head and their cycles) of rows not yet granted: judged at their grants (R231). -/
def State.awaitedReads (s : State) (k r : Nat) (rd : List (Nat × Nat)) (engine op word : Nat) : List AwaitedRead :=
  let placed := s.placedRows k r
  (rd.filter fun e => decide (placed ≤ e.1)).map fun e =>
    { row := (s.ring k r).claimed + (e.1 - placed), at_ := e.2, engine := engine, op := op, word := word }

/-- Ring offset of the first row of a segment not yet popped. -/
def Segment.next (g : Segment) (size : Nat) : Nat := if size = 0 then 0 else (g.first + (g.rows - g.left)) % size

/-- Take `n` rows popped from ring offset `head` on off the header queue's segments (R217); rows before a segment's, which
have no entry, leave it as it is. -/
def popSegments (size : Nat) : Nat → List Segment → Nat → List Segment
  | _, [], _ => []
  | head, g :: t, n =>
    let gap := ringGap size head (g.next size)
    if n ≤ gap then g :: t
    else if g.left ≤ n - gap then popSegments size (head + gap + g.left) t (n - gap - g.left)
    else { g with left := g.left - (n - gap) } :: t

/-- Rows of credit that reads up to cycle `t` return (R216: in the cycle of the read). -/
def Ring.returned (g : Ring) (t : Nat) : Nat := (g.returns.map fun e => min e.2 (t + 1 - e.1)).sum

/-- SU credit at cycle `t`. -/
def Ring.creditAt (g : Ring) (t : Nat) : Nat := g.credit.toNat + g.returned t

/-- What is left of returns after cycle `t`. -/
def returnsAfter (l : List (Nat × Nat)) (t : Nat) : List (Nat × Nat) :=
  (l.map fun e => let m := min e.2 (t + 1 - e.1); (e.1 + m, e.2 - m)).filter fun e => e.2 != 0

/-- Take the returns up to cycle `t` into the two counters (R227). -/
def Ring.settle (g : Ring) (t : Nat) : Ring :=
  let m := g.returned t
  { g with credit := BitVec.ofNat 13 (g.credit.toNat + m), occupancy := BitVec.ofNat 13 (g.occupancy.toNat - m), returns := returnsAfter g.returns t }

/-- Drop `n` rows from the first returns. -/
def dropReturns : List (Nat × Nat) → Nat → List (Nat × Nat)
  | [], _ => []
  | e :: t, n => if n = 0 then e :: t else if e.2 ≤ n then dropReturns t (n - e.2) else (e.1 + n, e.2 - n) :: t

/-- Spend the credit of `n` rows: what there is, then what earlier reads will have returned by the rows' write cycles. -/
def Ring.spend (g : Ring) (n : Nat) : Ring :=
  let later := n - g.credit.toNat
  { g with credit := BitVec.ofNat 13 (g.credit.toNat - n), occupancy := BitVec.ofNat 13 (g.occupancy.toNat + n - later),
           returns := dropReturns g.returns later }

/-- Pop `n` rows, the rows not yet landed among them (R216): head moves; each row's credit returns in the cycle of its
read, as `runs` gives: runs of rows read one per cycle from a first cycle on. -/
def Ring.popRuns (g : Ring) (n : Nat) (runs : List (Nat × Nat)) : Ring :=
  let m := min n g.ready.toNat
  { g with
    head := BitVec.ofNat 12 (g.at n)
    ready := BitVec.ofNat 13 (g.ready.toNat - m)
    ahead := g.ahead + (n - m)
    returns := g.returns ++ runs.filter fun e => e.2 != 0
    hq := popSegments g.size.toNat g.head.toNat g.hq n }

/-- Pop `n` rows read one per cycle from `at_`. -/
def Ring.pop (g : Ring) (n at_ : Nat) : Ring := g.popRuns n [(at_, n)]

/-- Note when rows of the ring are read, pops and peeks alike (R231): a later write must not come before. -/
def Ring.noteReads (g : Ring) (rd : List (Nat × Nat)) : Ring :=
  { g with reads := rd.foldl (fun t e => t.put (g.at e.1) (max e.2 (t.at (g.at e.1) 0))) g.reads
           uses := g.uses ++ rd.map fun e => (g.at e.1, e.2) }

/-- The claim position `i` rows on (R216). -/
def Ring.claimAt (r : Ring) (i : Nat) : Nat := if r.size.toNat = 0 then 0 else (r.claim.toNat + i) % r.size.toNat

/-- Push one engine row written in cycle `stamp` (R216): tail and claim advance together; its unit's last row is written
in cycle `last` (R236). -/
def Ring.push (g : Ring) (stamp last : Nat) : Ring :=
  { g.spend 1 with
    tail := BitVec.ofNat 12 (g.tailAt 1), claim := BitVec.ofNat 12 (g.claimAt 1)
    ready := BitVec.ofNat 13 (g.ready.toNat + 1), openRows := g.openRows + 1
    stamps := g.stamps.put g.tail.toNat stamp, ends := g.ends.put g.tail.toNat last, pushAt := stamp }

/-- Write the first `lanes` words of a row, keeping the words under inactive lanes (R103). -/
def Memory.storeRow (m : Memory) (a : Nat) (r : Row) (lanes : Nat) : Memory := m.store a (rowBytes (r.take lanes))

/-- Push rows to ring `r` of cluster `k`, row `i` written in cycle `stamp i`, `lanes` active in the last. -/
def State.pushRows (s : State) (k r : Nat) (stamp : Nat → Nat) (lanes : Nat) : Nat → List Row → State
  | _, [] => s
  | i, w :: ws =>
    let g := s.ring k r
    let n := if ws.isEmpty then lanes else 64
    let a := g.addr k g.tail.toNat
    let s := ({ s with mem := s.mem.storeRow a w n }).modRing k r fun g =>
      { g.push (stamp i) (stamp (i + ws.length)) with before := if ws.isEmpty then some (g.tail.toNat, s.mem.row a) else g.before }
    s.pushRows k r stamp lanes (i + 1) ws

/-- Append a header-queue entry, written in cycle `at_`, for the last `rows` rows pushed, from ring offset `first`
(R217). -/
def State.pushSegment (s : State) (k r first rows code at_ : Nat) (h : Header) (carried : Bool := false) : State :=
  s.modRing k r fun g => { g with
    hq := g.hq ++ [{ first := first, rows := rows, left := rows, hdr := h, code := code, at_ := at_, carried := carried }], openRows := 0 }

/-- The segment an input supplies: the first entry of the header queue, where the row at head is one of its rows; a raw
ring's rows without an entry read as a clean raw segment (R217). -/
def Ring.segment? (g : Ring) : Option Segment :=
  g.hq.head?.filter fun e => ringGap g.size.toNat g.head.toNat (e.next g.size.toNat) == 0

/-- The header of what an operand's first row belongs to is there in cycle `t` (R104, R122, R224): its entry's cycle has
come; without an entry, no head of the ring is on its way and the row is none of an object still being written. -/
def State.headReady (s : State) (k r i t : Nat) : Bool :=
  let g := s.ring k r
  match g.segment? with
  | some _ => g.hq.all fun e => decide (i < ringGap g.size.toNat g.head.toNat (e.next g.size.toNat)) || decide (e.at_ ≤ t)
  | none => (s.cluster k).transfers.all (fun x => x.ring != r || !x.isHead || x.out) &&
      (decide (g.ready.toNat ≤ i) || decide (i + g.openRows < g.ready.toNat))

/-- Row `i` of an operand, counted from its head, as a read in cycle `x` finds it (R180, R213). -/
def State.operandRow (s : State) (k : Nat) (o : Operand) (i x : Nat) : Row :=
  match o with
  | .ring r => s.ringRowAt k r i x
  | .peek r => s.ringRowAt k r i x
  | .handover => (s.cluster k).handover.getD i []
  | _ => []

/-- The rows that reads `rd` (rows from the head and their cycles) of an operand find. -/
def State.operandRows (s : State) (k : Nat) (o : Operand) (rd : List (Nat × Nat)) : List Row :=
  rd.map fun e => s.operandRow k o e.1 e.2

/-- Reads of the hand-over buffer, rows and cycles, find a row that leaves the read pipeline before the cycle after its push, or
one the producer has by then run more than 64 rows ahead of (R186). -/
def Cluster.handoverBreach (cl : Cluster) (rd : List (Nat × Nat)) : Bool :=
  rd.any fun e => (cl.handoverAt[e.1]?).all (fun x => decide (e.2 + 6 < x + 1)) ||
    (cl.handoverAt[e.1 + 64]?).any fun x => decide (x < e.2 + 6)

/-- The rows of the reads `rd` are ready in their cycles, and the header of the first at `t` (R104, R231). -/
def State.operandReady (s : State) (k : Nat) (o : Operand) (rd : List (Nat × Nat)) (t : Nat) : Bool :=
  match o, o.ringNo? with
  | .handover, _ => !(s.cluster k).handoverBreach rd
  | _, some r => rd.all (fun e => s.rowReady k r e.1 e.2) && (rd == [] || s.headReady k r ((rd.map (·.1)).foldl max 0) t)
  | _, none => true

/-- Some row an operand reads carries a poison mark (R213). -/
def State.operandMarked (s : State) (k : Nat) (o : Operand) (rd : List (Nat × Nat)) : Bool :=
  match o.ringNo? with
  | some r => rd.any fun e => s.rowMarked k r e.1
  | none => false

/-- The cluster reads of `rd` are noted in the operand's ring (R231). -/
def State.noteReads (s : State) (k : Nat) (o : Operand) (rd : List (Nat × Nat)) : State :=
  match o, o.ringNo? with
  | .handover, _ => s.modCluster k fun c => { c with handoverLate := c.handoverLate || c.handoverBreach rd }
  | _, some r => s.modRing k r fun g => g.noteReads rd
  | _, none => s

/-- A row of `rd` is read in the very cycle a stream write reaches it: the cycle before its stamp's (R223, R233). -/
def State.streamCollision (s : State) (k : Nat) (o : Operand) (rd : List (Nat × Nat)) : Bool :=
  match o.ringNo? with
  | some r =>
    let g := s.ring k r
    let claims := (s.cluster k).transfers.filter fun x => x.tag.isSome && !x.out && !x.isHead && x.ring == r
    rd.any fun e => claims.any fun x => e.2 + 1 == x.stamp &&
      decide (ringGap g.size.toNat x.ringRow (g.at e.1) < x.rows)
  | none => false

/-- Cut runs to `n` rows in all. -/
def cutRuns : List (Nat × Nat) → Nat → List (Nat × Nat)
  | [], _ => []
  | e :: t, n => (e.1, min e.2 n) :: cutRuns t (n - e.2)

/-- Pop the `n` rows of a ring-end operand or hand-over that reads in `runs` take (R180, R216). -/
def State.popOperandRuns (s : State) (k : Nat) (o : Operand) (n : Nat) (runs : List (Nat × Nat)) : State :=
  match o with
  | .ring r =>
    let have_ := s.placedRows k r + (s.waitingRows k r).length
    s.modRing k r fun g => g.popRuns (min n have_) (cutRuns runs (min n have_))
  | .handover => s.modCluster k fun c => { c with handover := c.handover.drop n }
  | _ => s

/-- Pop `n` rows read one per cycle from `at_`. -/
def State.popOperand (s : State) (k : Nat) (o : Operand) (n at_ : Nat) : State := s.popOperandRuns k o n [(at_, n)]

/-- The segment an input operand reads (R217); a hand-over carries its producer's. -/
def State.operandSegment (s : State) (k : Nat) (o : Operand) : Option Segment :=
  match o with
  | .ring r => (s.ring k r).segment?
  | .peek r => (s.ring k r).segment?
  | .handover => (s.cluster k).handoverHdr
  | _ => none

/-- The segments that `n` rows of an operand from row `a` on belong to (R217). -/
def State.operandSegments (s : State) (k : Nat) (o : Operand) (a n : Nat) : List Segment :=
  match o, o.ringNo? with
  | .handover, _ => (s.cluster k).handoverHdr.toList
  | _, some r =>
    let g := s.ring k r
    g.hq.filter fun e =>
      let off := ringGap g.size.toNat g.head.toNat (e.next g.size.toNat)
      decide (off < a + n) && decide (a < off + e.left)
  | _, none => []

/-- The operand is an object ring, whose header queue carries headers (R215). -/
def State.operandIsObject (s : State) (k : Nat) (o : Operand) : Bool :=
  match o with
  | .ring r => (s.ring k r).object
  | .peek r => (s.ring k r).object
  | .handover => (s.cluster k).handoverObj
  | _ => false

/-- Room for `n` more rows in an output ring, and no row still awaiting a scheduled read (R216, R231); row `i` is
written in cycle `stamp i`. -/
def State.outputFree (s : State) (k : Nat) (o : Operand) (n : Nat) (stamp : Nat → Nat) : Bool :=
  match o with
  | .ring r =>
    let g := s.ring k r
    (List.range n).all fun i => decide (i < g.creditAt (stamp i)) && decide (g.reads.at (g.tailAt i) 0 ≤ stamp i)
  | _ => true

/-- Push rows to an output operand. -/
def State.pushOperand (s : State) (k : Nat) (o : Operand) (stamp : Nat → Nat) (lanes : Nat) (rows : List Row) : State :=
  match o with
  | .ring r => s.pushRows k r stamp lanes 0 rows
  | .handover => s.modCluster k fun c =>
      { c with handover := c.handover ++ rows, handoverAt := c.handoverAt ++ (List.range rows.length).map stamp }
  | _ => s

/-- Words of rows, `n` of them. -/
def rowWords (rows : List Row) (n : Nat) : List Nat := ((rows.flatMap id).take n).map BitVec.toNat

/-- Words as rows of 64, the last one short. -/
def wordsRows (ws : List Nat) : List Row := chunks' ws.length (ws.map (BitVec.ofNat 32))
where
  /-- Pieces of 64. -/
  chunks' : Nat → List Word32 → List Row
    | 0, _ => []
    | _ + 1, [] => []
    | f + 1, l => l.take 64 :: chunks' f (l.drop 64)

/-- Lanes active in the last row of `n` elements (R103). -/
def lastLanes (n : Nat) : Nat := if n % 64 = 0 then 64 else n % 64
/-- Rows of `n` elements. -/
def rowsOf (n : Nat) : Nat := (n + 63) / 64

/-! ### Tile registers (R127, R181) -/

/-- Base position in units of 64 and first plane slot of tile window `t` of a group (R181): tile j of the register holds
positions B + 64j, row s plane slot s0 + s (R127). -/
def State.tileWindow (s : State) (p t : Nat) : Nat × Nat :=
  let w := ((s.unit p).tileWindows.toList.getD t 0).toNat
  (w % 1024, w / 1024)

/-- Device address of row `slot` of tile `j` of register `t` of physical group `p` (R127). -/
def tileRow (p t j slot : Nat) : Nat := gbBase + p * groupBufferBytes + t * 524288 + j * 16384 + slot * 256

/-- Unit ID of a cluster's engine (R295). -/
def clusterUnit (k engine sub : Nat) : Nat := groupUnit (k / 32) (k % 32) engine sub

end Sys2Proof.Machine
end

