-- ==== Sys2Proof/Machine/JobOps.lean ====
section
/-!
DEFINITION. JobOps: what a job's run is made of: its groups and streams, checkpoints (R280), release of its outputs (R30,
R313), its tokens (R351), and how it ends (R205, R320, R325).
-/
namespace Sys2Proof.Machine

/-! ### Groups and streams -/

/-- Every stream of the job has ended (R171). -/
def State.allEnded (s : State) (j : Job) : Bool :=
  j.groups.all fun p => (groupClusters p).all fun k => (s.cluster k).state == .ended

/-- Jobs in a phase. -/
def State.jobsIn (s : State) (ph : JobPhase) : List Nat := (s.work.jobs.filter fun e => e.2.phase == ph).map (·.1)

/-- The job's physical groups with set and logical number. -/
def Job.places (j : Job) : List (Nat × Nat × Nat) :=
  (j.set0.zipIdx.map fun e => (e.1, 0, e.2)) ++ (j.set1.zipIdx.map fun e => (e.1, 1, e.2))

/-! ### Checkpoints (R280) -/

/-- The key of a core in a checkpoint: set, logical group and cluster. -/
def coreKey (set logical c : Nat) : Nat := 4096 * set + 32 * logical + c

/-- What a checkpoint keeps of a core. -/
def Cluster.saved (c : Cluster) : SavedCore :=
  { sregs := c.sregs, loops := c.loops, pc := c.pc, state := c.state, sat := c.sat, nan := c.nan, grange := c.grange, rearm := c.rearm }

/-- The bytes of a saved core, and of its group's tile windows on a lead cluster. -/
def SavedCore.bytes (c : SavedCore) (windows : List (BitVec 16)) : List Byte :=
  c.sregs.toList.flatMap (fun w => leBytes 8 w.toNat) ++ c.loops.toList.flatMap (fun w => leBytes 3 w.toNat) ++ leBytes 4 c.pc.toNat ++
  leBytes 1 (if c.state = .ended then 3 else 1) ++ leBytes 4 c.sat.toNat ++ leBytes 4 c.nan.toNat ++ leBytes 4 c.grange.toNat ++
  leBytes 4 c.rearm.toNat ++ windows.flatMap (fun w => leBytes 2 w.toNat)

/-- CHECKPOINT_CAPTURE (R280): the job's cores and tile windows as they stand at cycle 0. -/
def State.capture (s : State) (j : Job) : Checkpoint :=
  let cores := j.places.flatMap fun e => (List.range 32).map fun c => (coreKey e.2.1 e.2.2 c, (s.cluster (32 * e.1 + c)).saved)
  { beat := j.jobBeat, cores := cores, windows := j.places.map fun e => (64 * e.2.1 + e.2.2, (s.unit e.1).tileWindows) }

/-- The windows a bank holds: those of its group, on the lead cluster. -/
def Checkpoint.windowsOf (c : Checkpoint) (key : Nat) : List (BitVec 16) :=
  if key % 32 = 0 then ((c.windows.find (64 * (key / 4096) + key % 4096 / 32)).map (·.toList)).getD [] else []

/-- A cluster's bank as it is copied: 508 bytes, and their CRC-32C (R280; the form is the model's, log entry 21). -/
def Checkpoint.bank (c : Checkpoint) (key : Nat) (v : SavedCore) : List Byte :=
  let b := leBytes 4 c.beat ++ v.bytes (c.windowsOf key)
  let b := b ++ List.replicate (508 - b.length) 0
  b ++ leBytes 4 (crc32c b)

/-- Device address of a bank's copy (log entry 21): above host HBM, by the job's area, the copy's half, and the bank's number. -/
def State.checkpointArea (s : State) (id : Nat) (half : Bool) (n : Nat) : Nat :=
  s.hostHbm + 0x40000000 + (s.run id).area * 0x400000 + half.toNat * 0x200000 + 512 * n

/-- The copy of a checkpoint is whole: no bank of it is poisoned or fails its CRC-32C (R280, kind 0x06). -/
def State.copyWhole (s : State) (id : Nat) (c : Checkpoint) : Bool :=
  (List.range c.cores.length).all fun n =>
    let a := s.checkpointArea id c.half n
    let b := s.mem.readN a 512
    !s.mem.anyPoison a 512 && crc32c (b.take 508) == leNat (b.drop 508)

/-- At a checkpoint job beat of a running job the pending bank takes the captured state (R280). -/
def State.captureAt (s : State) (id : Nat) : State :=
  match s.job? id with
  | none => s
  | some j =>
    if (s.programOf j).checkpoints.contains j.jobBeat then s.modRun id fun r => { r with pendingBank := some (s.capture j) } else s

/-- The checkpoint a restart uses: the committed one once it is copied, the previous one within its two beats (R280); a
LINKED job resumes from the last common one (R354). -/
def JobRun.restartFrom (r : JobRun) (linked : Bool) : Option Checkpoint :=
  if linked then r.commonBeat else if r.copied < 2 then r.previous else r.committed

/-! ### Release (R30, R313) -/

/-- The mark of a page that a job beat has stored to and whose beat is not released. -/
def Job.mark (j : Job) (beat : Nat) : Nat := j.seq * 2 ^ 32 + beat

/-- The job stored to some page in its current job beat and is owed its release. -/
def State.hasOutput (s : State) (j : Job) : Bool := s.host.unreleased.any fun u => u.2 == j.mark j.jobBeat

/-- The marks of a job's beats up to `b` are gone. -/
def State.clearMarks (s : State) (j : Job) (b : Nat) : State :=
  { s with host := { s.host with unreleased := s.host.unreleased.filter fun u => u.2 / 2 ^ 32 != j.seq || decide (b < u.2 % 2 ^ 32) } }

/-- OUTPUT_RELEASE of a running job whose beat was decided for release in the beat that ended (R30, R283, R325). -/
def State.releaseJob (s : State) (id : Nat) (ended : Nat) : State :=
  match s.job? id with
  | none => s
  | some j =>
    let out := s.hasOutput j
    let s := s.clearMarks j j.jobBeat
    let done := s.allEnded j
    let again := match j.releaseMark with
      | some m => decide (j.jobBeat ≤ m)
      | none => false
    let s := s.modJob id fun j => { j with
      releaseMark := some (max j.jobBeat (j.releaseMark.getD 0))
      lastOut := if out && !again then some j.jobBeat else j.lastOut
      phase := if done then .finished else j.phase
      jobBeat := if done then j.jobBeat else j.jobBeat + 1
      decision := none, withheld := false }
    let s := if out && !again then s.modRun id fun r =>
        { r with spans := j.groups.foldl (fun t p => t.put p ((r.spans.at p (ended, ended)).1, ended)) r.spans } else s
    { s with work := { s.work with completing := if out && !again then s.work.completing.put id (ended, 1) else s.work.completing } }

/-! ### Tokens (R351) -/

/-- The members of a LINKED job's domain that still owe CLEAR of a job beat. -/
def JobRun.owing (r : JobRun) (members beat : Nat) : List Nat :=
  (List.range members).filter fun m => !(r.clears.at beat []).contains m

/-- Settle a member's CLEAR (R351, R354): a checkpoint of that beat becomes common when all have settled. -/
def State.settle (s : State) (id pos beat : Nat) : State :=
  match s.job? id with
  | none => s
  | some j =>
    let members := match (s.programOf j).link with
      | some l => l.members
      | none => 0
    s.modRun id fun r =>
      let r := { r with clears := r.clears.modify beat [] fun l => insertSorted l pos }
      match r.committed with
      | some c => if c.beat = beat && r.owing members beat == [] then { r with commonBeat := some c } else r
      | none => r

/-- CHECK_CLEAR_TOKEN_SEND (R351): CLEAR or FAIL of the beat that ended. -/
def State.sendToken (s : State) (id : Nat) (j : Job) (clear : Bool) : State :=
  match s.linkKey? j with
  | none => s
  | some key =>
    if clear then (s.sendControl 1 0 j.jobBeat key 0).settle id s.link.position.toNat j.jobBeat
    else
      let kind := match (s.run id).faults.getLast? with
        | some w => recKind w
        | none => (s.run id).kind
      s.sendControl 2 kind j.jobBeat key 0

/-! ### How a job ends -/

/-- A job ends in this beat with nothing further released (R205, R320): its commands stop and its final status is set. -/
def State.endJob (s : State) (id : Nat) (f : Job → Job) : State :=
  (s.modJob id fun j => f (match j.phase with
    | .waiting => { j with phase := .finished }
    | .finished => j
    | .mapped => { j with phase := .fencedTerminate, withheld := true, decision := some false }
    | .running => { j with phase := .fencedTerminate, withheld := true, decision := some false }
    | .fencedRestart => { j with phase := .fencedTerminate }
    | .fencedTerminate => j)).modRun id fun r => { r with fencedAt := if r.fencedAt = 0 then s.now else r.fencedAt, episodeRestarting := false }

/-- The final status of a job's type 0x03 record (R204, R205, R324). -/
def State.finalStatus (s : State) (j : Job) : Nat :=
  if j.deadlineHit then 0x49 else if j.cancelled then 0x4B else if j.phase = .fencedTerminate || (s.run j.id.toNat).kind ≠ 0 then 0x4C else 0

end Sys2Proof.Machine
end

