-- ==== Sys2Proof/Machine/Flags.lean ====
section
/-!
DEFINITION. Flags: what a command writes into an output header: level, scale, budget, form, tag, class and poison
(R48 to R54, R101, R145 to R155), and the first refusal that applies (R154).
-/
namespace Sys2Proof.Machine

/-! ### Poison codes and their kinds (R53, R297) -/

/-- The fault kind a command's own refusal raises (R155, R297); none for a propagated code. -/
def refusalKind (code : Nat) : Nat :=
  match code with
  | 0x02 => 0x05
  | 0x03 => 0x37
  | 0x04 => 0x34
  | 0x05 => 0x33
  | 0x06 => 0x31
  | 0x07 => 0x32
  | 0x08 => 0x30
  | 0x09 => 0x70
  | 0x0A => 0x35
  | 0x0B => 0x36
  | _ => 0x10

/-! ### λ and the bound table -/

/-- λ_q of R147, the integer nearest to 256·log2 q: ⌊log2 q^512⌋ = ⌊512·log2 q⌋, rounded to the nearest half. -/
def lambdaOf (q : Nat) : Nat := (Nat.log2 (q ^ 512) + 1) / 2

/-- The entry of the bound table that applies (R152). -/
def boundEntry? (b : BoundTable) (cls rset level : Nat) : Option BoundEntry :=
  b.entries.find? fun e => e.cls = cls && e.rset = rset && decide (e.lo ≤ level ∧ level ≤ e.hi)

/-- One formula of R151 on the budget `x` before the decrement; TENSOR subtracts its width too. -/
def boundStep (b : BoundTable) (cls rset level : Nat) (x : Int) : Option Int :=
  (boundEntry? b cls rset level).map fun e =>
    let y := x - e.dec - (if cls = 5 then (e.width : Int) else 0)
    if e.cap = 0xFFFF then y else min y e.cap

/-! ### The rule a command applies -/

/-- The header rules: those of R101 with the exponent of MULCONST, and those of R145's other rows. -/
inductive HeadRule where
  | unary | add | mulpt | mulptAcc | mulconst (sk : Nat) | tensor | rescale (qt : Nat) | modsw
  | combine (relin : Bool) | auto | keep
deriving DecidableEq, Repr

/-- What a command requires of its inputs' form (R45, R106), and the form of its output. -/
inductive FormRule where
  | same | coef | eval | toEval | toCoef
deriving DecidableEq, Repr

/-- One input as the header check sees it: whether it carries a header, the header, the poison code it brings, and the code
with which its declaration refuses it (R143). -/
structure HeadInput where
  obj : Bool
  hdr : Header
  code : Nat
  decl : Nat := 0

/-- An operand that is not named or brings nothing. -/
def noInput : HeadInput := { obj := false, hdr := {}, code := 0 }

/-- What the check knows of the command and its job. -/
structure HeadCtx where
  ks : Option KeySet
  prog : Program
  jobId : Nat
  tag : Nat
  rset : Nat
  level : Nat
  npoly : Nat
  provisional : Bool := false

/-- The outcome of a header check: the output header, its code, and whether the command itself refused. -/
structure Verdict where
  hdr : Header
  code : Nat
  refused : Bool
deriving DecidableEq, Repr

/-- Set a header's poison (R53); a poisoned header keeps its other fields. -/
def Header.poison' (h : Header) (code : Nat) : Header := { h with poisoned := code != 0, poison := code }

/-- The header of R48 for a command with no object input: from its parameters; the scale exponent and form that no
rule gives are free values of the command's words, the same at every run of the command (R209; log entry 4). -/
def paramHeader (x : HeadCtx) (fr : Nat) : Header :=
  { format := 2, version := 1, scheme := x.prog.scheme, log2n := x.prog.log2n, npoly := 1, level := max 1 x.level,
    dclass := if x.prog.refreshed then 1 else 0, eval := fr / 2 ^ 16 % 2 = 1,
    scale := if x.prog.scheme = 1 then fr % 2 ^ 16 else 0, rset := x.rset, job := x.jobId, ksid := x.prog.ksid,
    tag := x.tag }

/-- The header of R54 where no input header met conditions 1 and 2 of R47. -/
def fallbackHeader (x : HeadCtx) : Header :=
  { format := 1, scheme := x.prog.scheme, log2n := x.prog.log2n, npoly := x.npoly, level := 1,
    dclass := if x.prog.refreshed then 1 else 0, rset := x.rset, job := x.jobId, ksid := x.prog.ksid, tag := x.tag }

/-- The header of an input counts as a ciphertext's. -/
def HeadInput.cipher (i : HeadInput) : Bool := i.obj && i.hdr.format == 1
/-- The header of an input counts as a plaintext's. -/
def HeadInput.plain (i : HeadInput) : Bool := i.obj && i.hdr.format == 2

/-- Conditions 2 to 7 of R47 on a header that the ring's queue holds; its CRC was formed with the entry (R48). -/
def ringHeaderOk (x : HeadCtx) (h : Header) : Bool :=
  h.poisoned ||
  (headerRangeOk h && headerKeySetOk x.ks (some x.prog.ksid) h &&
    (match x.ks with | some k => headerRestOk k false h | none => false))

/-- The base header of R48: the first ciphertext input, else the first object input. -/
def baseInput (ins : List HeadInput) : Option Header :=
  match ins.find? (·.cipher) with
  | some i => some i.hdr
  | none => (ins.find? (·.obj)).map (·.hdr)

/-- The rule's requirement on levels, scales and formats (R101, R109, R110, R113, R134, R148). -/
def ruleHolds (r : HeadRule) (scheme : Nat) (ins : List HeadInput) : Bool :=
  let a := ins.getD 0 noInput
  let b := ins.getD 1 noInput
  let c := ins.getD 2 noInput
  match r with
  | .unary => !b.obj && !c.obj
  | .add => a.obj && b.obj && a.hdr.level == b.hdr.level && a.hdr.scale == b.hdr.scale && a.hdr.rset == b.hdr.rset
  | .mulpt => a.obj && b.plain && a.hdr.level == b.hdr.level && a.hdr.rset == b.hdr.rset
  | .mulptAcc => a.obj && b.plain && a.hdr.level == b.hdr.level && a.hdr.rset == b.hdr.rset && c.cipher &&
      c.hdr.level == a.hdr.level && (c.hdr.scale == a.hdr.scale + b.hdr.scale)
  | .mulconst sk => a.obj && (scheme == 1 || sk == 0)
  | .tensor => a.cipher && b.cipher && a.hdr.npoly == 2 && b.hdr.npoly == 2 && a.hdr.level == b.hdr.level &&
      a.hdr.scale == b.hdr.scale && a.hdr.rset == b.hdr.rset
  | .rescale _ => a.cipher && scheme == 1
  | .modsw => a.cipher && scheme == 2
  | .combine relin => c.cipher && c.hdr.npoly == (if relin then 3 else 2)
  | .auto => a.obj
  | .keep => true

/-- Level out of R145. -/
def levelOut (r : HeadRule) (ins : List HeadInput) : Int :=
  let a := (ins.getD 0 noInput).hdr
  let c := (ins.getD 2 noInput).hdr
  match r with
  | .mulptAcc => c.level
  | .rescale _ => (a.level : Int) - 1
  | .modsw => (a.level : Int) - 1
  | .combine _ => c.level
  | _ => a.level

/-- Scale exponent out of R145 (CKKS). -/
def scaleOut (r : HeadRule) (ins : List HeadInput) : Int :=
  let a := (ins.getD 0 noInput).hdr
  let b := (ins.getD 1 noInput).hdr
  let c := (ins.getD 2 noInput).hdr
  match r with
  | .mulpt => (a.scale : Int) + b.scale
  | .mulptAcc => c.scale
  | .mulconst sk => (a.scale : Int) + sk
  | .tensor => (a.scale : Int) + b.scale
  | .rescale qt => (a.scale : Int) - lambdaOf qt
  | .combine _ => c.scale
  | _ => a.scale

/-- Budget out of R151 before the fresh limit; none where no entry applies (R152). -/
def budgetOut (t : BoundTable) (r : HeadRule) (ins : List HeadInput) : Option Int :=
  let a := (ins.getD 0 noInput)
  let b := (ins.getD 1 noInput)
  let c := (ins.getD 2 noInput)
  let first := ((ins.find? (·.cipher)).getD a).hdr
  let one := fun cls (x : Int) => boundStep t cls first.rset first.level x
  match r with
  | .unary => one 1 a.hdr.budget
  | .add =>
    if a.cipher && b.cipher then one 2 (min a.hdr.budget b.hdr.budget)
    else one 2 first.budget
  | .mulpt => one 3 a.hdr.budget
  | .mulptAcc =>
    let prod : Option Int := if a.cipher then boundStep t 3 a.hdr.rset a.hdr.level a.hdr.budget else some c.hdr.budget
    match prod with
    | none => none
    | some x => boundStep t 2 c.hdr.rset c.hdr.level (min x c.hdr.budget)
  | .mulconst _ => one 4 a.hdr.budget
  | .tensor => one 5 ((a.hdr.budget : Int) + b.hdr.budget)
  | .combine _ => boundStep t 6 c.hdr.rset c.hdr.level c.hdr.budget
  | .modsw => one 7 a.hdr.budget
  | _ => some first.budget

/-- The form requirement holds (R45, R106, R109, R110, R113). -/
def formHolds (f : FormRule) (ins : List HeadInput) : Bool :=
  let objs := ins.filter (·.obj)
  match f with
  | .same => match objs with
    | [] => true
    | i :: t => t.all fun j => j.hdr.eval == i.hdr.eval
  | .coef => objs.all fun i => !i.hdr.eval
  | .toEval => objs.all fun i => !i.hdr.eval
  | .eval => objs.all fun i => i.hdr.eval
  | .toCoef => objs.all fun i => i.hdr.eval

/-- The EVAL flag of the output. -/
def formOut (f : FormRule) (base : Header) : Bool :=
  match f with
  | .same => base.eval
  | .coef => false
  | .eval => true
  | .toEval => true
  | .toCoef => false

/-- Clamp an integer into [lo, hi] (R155). -/
def clampInt (lo hi : Nat) (x : Int) : Nat := if x < lo then lo else if x > hi then hi else x.toNat

/-- The subject tag of an output (R49): the program's register for a REFRESHED program or a command without
ciphertext input, else the ciphertext inputs' tag, tag 0 aside. -/
def tagOut (x : HeadCtx) (ins : List HeadInput) : Nat :=
  let cts := ins.filter (·.cipher)
  if x.prog.refreshed || cts.isEmpty then x.tag
  else match cts.find? fun i => i.hdr.tag != 0 with
    | some i => i.hdr.tag
    | none => 0

/-- R147 on a CKKS output of level ≥ 1. -/
def scaleValid (ks : Option KeySet) (rset level : Nat) (s : Int) : Bool :=
  decide (1 ≤ s ∧ s ≤ 65535) &&
  (match ks with
   | none => false
   | some k => decide (s < 256 * bitLength ((k.rsets.getD rset ⟨12, [], [], 1, 0⟩).qProduct level)))

/-- An output whose header check passed; what a LINKED job writes after a sender's check failed is PROVISIONAL_FAILED
(R54, R351). -/
def HeadCtx.passed (x : HeadCtx) (h : Header) : Verdict := if x.provisional then ⟨h.poison' 0x0E, 0x0E, false⟩ else ⟨h, 0, false⟩

/-- What a command adds to the conditions of its rule: a form that is wrong (item 3 of R154), and a scale, level or count
that is (item 4). -/
structure OwnRefusal where
  form : Bool := false
  scale : Bool := false
deriving DecidableEq, Repr

/-- The header check of R154 on objects: the outcomes in their order, the first that applies deciding, and the
output header of R48, R54, R145 and R155. `ins` are the inputs in operand order. Where no bound-table entry applies (R152)
the command has no budget to produce and the header's budget is 0 (DESIGN CHOICE, log entry 44). -/
def judge (x : HeadCtx) (r : HeadRule) (f : FormRule) (ins : List HeadInput) (fr : Nat) (own : OwnRefusal := {}) : Verdict :=
  match baseInput ins with
  | none =>
    let h := paramHeader x fr
    match ins.find? fun i => i.code != 0 with
    | some i => ⟨h.poison' i.code, i.code, false⟩
    | none => match r with
      | .unary => x.passed h
      | .mulconst _ => x.passed h
      | .keep => x.passed h
      | _ => ⟨(fallbackHeader x).poison' 5, 5, true⟩
  | some base =>
    let objs := ins.filter (·.obj)
    let fmt := if r = .tensor then 1 else base.format
    let plainOut := fmt == 2
    let common : Header :=
      { base with version := 1, format := fmt, npoly := if r = .tensor then 3 else match r with
                    | .combine _ => 2
                    | _ => base.npoly
                  dclass := if x.prog.refreshed then 1 else 0, eval := formOut f base, seeded := false,
                  poisoned := false, poison := 0, releaseTagged := false, reservedFlags := 0, job := x.jobId,
                  tag := tagOut x ins, digestPrefix := 0, reservedZero := true }
    if objs.any fun i => !ringHeaderOk x i.hdr then
      -- item 1 (R54): the fields of the first input whose header met conditions 1 and 2
      let h := match objs.find? fun i => headerRangeOk i.hdr with
        | some i => { common with scheme := i.hdr.scheme, log2n := i.hdr.log2n, ksid := i.hdr.ksid, rset := i.hdr.rset,
                                  format := i.hdr.format, npoly := i.hdr.npoly, level := i.hdr.level,
                                  scale := i.hdr.scale, budget := i.hdr.budget }
        | none => fallbackHeader x
      ⟨h.poison' 2, 2, true⟩
    else match ins.find? fun i => i.code != 0 with
    | some i =>
      -- item 2: level, scale and budget unchanged (R54)
      ⟨{ common with level := base.level, scale := base.scale, budget := base.budget }.poison' i.code, i.code, false⟩
    | none =>
      let lv := levelOut r ins
      let sc := if base.scheme = 1 then scaleOut r ins else 0
      let noBudget := base.scheme == 1 || plainOut || r == .keep || r == .auto
      let bd : Option Int :=
        if noBudget then some base.budget else match x.ks with
          | none => none
          | some k => (budgetOut k.bounds r ins).map fun b => min b (k.bounds.fresh.getD base.rset 0)
      let margin := match x.ks with
        | none => 0
        | some k => k.bounds.margin
      let out := { common with level := clampInt 1 255 lv, scale := clampInt 0 0xFFFF sc,
                               budget := if base.scheme == 1 || plainOut then 0 else clampInt 0 0xFFFF (bd.getD 0) }
      let refuse := fun code => (⟨out.poison' code, code, true⟩ : Verdict)
      if !x.prog.refreshed && objs.any fun i => i.hdr.dclass == 1 then refuse 0x0B
      else if !x.prog.refreshed && objs.any fun i => i.cipher && i.hdr.tag != 0 && i.hdr.tag != x.tag then refuse 0x0A
      else if own.form || !formHolds f ins || (r == .auto && base.format == 1) then refuse 0x04
      else if own.scale || objs.any (fun i => i.hdr.rset != x.rset) || !ruleHolds r base.scheme ins ||
        objs.any (fun i => i.decl == 5) ||
        (base.scheme == 1 && r != .keep && decide (1 ≤ lv) && !scaleValid x.ks base.rset lv.toNat sc) then refuse 0x05
      else if lv < 1 then refuse 0x06
      else if objs.any (fun i => i.decl == 7) || (!noBudget && (match bd with | none => true | some b => decide (b < margin))) then refuse 0x07
      else x.passed out

end Sys2Proof.Machine
end

