-- ==== Sys2Proof/Machine/Modular.lean ====
section
/-!
DEFINITION. Modular: residue arithmetic, the two forms of a ring element, the automorphism index maps, CRT, and the
conversions of clear elements (R37, R44, R45, R59 to R62, R79, R112, R113).
-/
namespace Sys2Proof.Machine

/-! ### Residues -/

/-- x + y, x − y and x·y modulo q on reduced residues (R37); a modulus of 0 gives 0. -/
def addMod (q x y : Nat) : Nat := if q = 0 then 0 else (x + y) % q
@[inherit_doc addMod] def subMod (q x y : Nat) : Nat := if q = 0 then 0 else (x + (q - y % q)) % q
@[inherit_doc addMod] def mulMod (q x y : Nat) : Nat := if q = 0 then 0 else x * y % q
/-- The check moduli of R33. -/
def checkModuli : List Nat := [8191, 131071]
/-- R33's check of a result `r` modulo `q` against the exact value, its quotient `k` and the operands' residues carried through
the operation: below q, and alike modulo both check moduli. The operations above pass it; a unit whose result does not is a
fault of the part, which FAULT_MESSAGE brings (R86, R98, R126). -/
def resultOk (q exact k r : Nat) : Bool := decide (r < q) && checkModuli.all fun m => exact % m == (k % m * (q % m) + r % m) % m
/-- A signed integer reduced into [0, q) (R60). -/
def intMod (q : Nat) (x : Int) : Nat := if q = 0 then 0 else (x % (q : Int)).toNat

/-- `x ^ n mod q` by the bits of `n`, `fuel` of them. -/
def powModAux (q : Nat) : Nat → Nat → Nat → Nat → Nat
  | 0, _, _, acc => acc
  | f + 1, x, n, acc => if n = 0 then acc else powModAux q f (x * x % q) (n / 2) (if n % 2 = 1 then acc * x % q else acc)

/-- `x ^ n mod q`. -/
def powMod (q x n : Nat) : Nat := if q ≤ 1 then 0 else powModAux q (Nat.log2 n + 1) (x % q) n (1 % q)

/-- The inverse of `x` modulo a prime. -/
def invMod (q x : Nat) : Nat := powMod q x (q - 2)

/-- The extended Euclidean step for a modulus that need not be prime: the inverse of `a` modulo `m`. -/
def invAux : Nat → Int → Int → Int → Int → Int
  | 0, _, _, _, t => t
  | f + 1, r0, r1, t0, t1 => if r1 = 0 then t0 else invAux f r1 (r0 % r1) t1 (t0 - r0 / r1 * t1)

/-- The inverse of `a` modulo `m`, 0 where there is none. -/
def invGen (m a : Nat) : Nat :=
  if Nat.gcd a m ≠ 1 then 0 else intMod m (invAux (2 * Nat.log2 (m + 1) + 4) m (a % m) 0 1)

/-- The value lifted centred into (−q/2, q/2] (R96, R109). -/
def centred (q x : Nat) : Int := if 2 * x ≤ q then x else (x : Int) - q

/-! ### Roots and forms (R44, R45) -/

/-- The smallest ψ from `x` on, within `fuel` tries, with ψ^N ≡ q − 1 (mod q). -/
def rootFrom (q n : Nat) : Nat → Nat → Nat
  | 0, x => x
  | f + 1, x => if powMod q x n = q - 1 then x else rootFrom q n f (x + 1)

/-- ψ_q of R44. -/
def psi (q n : Nat) : Nat := rootFrom q n (q - 2) 2

/-- The `k` low bits of `i` reversed (R45). -/
def brv : Nat → Nat → Nat
  | 0, _ => 0
  | k + 1, i => (i % 2) * 2 ^ k + brv k (i / 2)

/-- The value of a polynomial at `x` modulo q: coefficients from the highest down. -/
def evalAt (q x : Nat) (a : List Nat) : Nat := a.foldr (fun c acc => (c + acc * x) % (max q 1)) 0

/-- COEF to EVAL (R45): position i holds a(ψ^(2·brv(i)+1)). -/
def toEvalForm (q k : Nat) (a : List Nat) : List Nat :=
  let w := psi q (2 ^ k)
  (List.range (2 ^ k)).map fun i => evalAt q (powMod q w (2 * brv k i + 1)) a

/-- EVAL to COEF, the inverse of `toEvalForm`: a_j = N^−1 · Σ_i A_i · ψ^(−(2·brv(i)+1)·j). -/
def toCoefForm (q k : Nat) (a : List Nat) : List Nat :=
  let n := 2 ^ k
  let wi := invMod q (psi q n)
  let ni := invMod q n
  (List.range n).map fun j =>
    let s := (List.range n).foldl (fun acc i => (acc + a.getD i 0 * powMod q wi ((2 * brv k i + 1) * j)) % (max q 1)) 0
    mulMod q s ni

/-- The two sums a TE.FWD plane must satisfy (R120): the sums formed and the values they must equal. -/
def fwdSums (q k : Nat) (a out : List Nat) : (Nat × Nat) × (Nat × Nat) :=
  let n := 2 ^ k
  let wi := invMod q (psi q n)
  let s0 := out.foldl (fun acc x => (acc + x) % (max q 1)) 0
  let s1 := (List.range n).foldl (fun acc p => (acc + out.getD p 0 * powMod q wi (2 * brv k p + 1)) % (max q 1)) 0
  ((s0, mulMod q n (a.getD 0 0)), (s1, mulMod q n (a.getD 1 0)))

/-- The two identities of a TE.INV plane (R121). -/
def invSums (q k : Nat) (a out : List Nat) : (Nat × Nat) × (Nat × Nat) :=
  let n := 2 ^ k
  let w := psi q n
  ((evalAt q w out, a.getD 0 0), (evalAt q (invMod q w) out, a.getD (n - 1) 0))

/-! ### Automorphisms (R112, R113) -/

/-- π_g of R112. -/
def evalPerm (k g p : Nat) : Nat := brv k ((g * (2 * brv k p + 1) % 2 ^ (k + 1) - 1) / 2)

/-- Source of coefficient-form output (cluster `c2`, local `j2`) under g (R113): source cluster, source local index,
and whether the value is negated. `gc` clusters are spanned, ring degree 2^k. -/
def coefSource (k gc g c2 j2 : Nat) : Nat × Nat × Bool :=
  let n := 2 ^ k
  let m := 2 * n / gc
  let c := c2 * invGen gc g % gc
  let h := c * g / gc
  let t := (((j2 : Int) - h) % m).toNat * invGen m g % m
  if t < n / gc then (c, t, false) else (c, t - n / gc, true)

/-! ### Expansion (R79) -/

/-- `n` residues of an a-half plane modulo q. -/
def expand (seed : List Byte) (ksid kidx digit ridx q n : Nat) : List Nat :=
  let m := seed ++ leBytes 8 ksid ++ leBytes 2 kidx ++ leBytes 1 digit ++ leBytes 1 ridx
  let s := shake128 m (8 * n)
  (List.range n).map fun i => field s (8 * i) 8 % (max q 1)

/-! ### CRT (R62) -/

/-- The integer in [0, Q) with the given residues. -/
def crt (qs rs : List Nat) : Nat :=
  let q := qs.foldl (· * ·) 1
  ((qs.zip rs).foldl (fun acc e =>
    let h := q / max e.1 1
    acc + e.2 * invGen e.1 (h % max e.1 1) % max e.1 1 * h) 0) % max q 1

/-! ### Clear elements (R59 to R62) -/

/-- A value of the form ±m·2^e, an infinity or a NaN. -/
inductive ClearValue where
  | fin (m : Int) (e : Int) | inf (neg : Bool) | nan
deriving DecidableEq, Repr

/-- Width in bytes of a type index of R185: int8, int16, int32, fp16, bf16, fp32. -/
def typeBytes (ty : Nat) : Nat :=
  match ty with
  | 0 => 1
  | 1 => 2
  | 2 => 4
  | 3 => 2
  | 4 => 2
  | _ => 4

/-- Exponent and fraction widths of a float type index. -/
def floatBits (ty : Nat) : Nat × Nat := if ty = 3 then (5, 10) else if ty = 4 then (8, 7) else (8, 23)

/-- Two's complement value of `b` bits. -/
def twos (b x : Nat) : Int := if x % 2 ^ b < 2 ^ (b - 1) then (x % 2 ^ b : Nat) else ((x % 2 ^ b : Nat) : Int) - 2 ^ b

/-- The value of a float of `eb` exponent and `fb` fraction bits; subnormals at their exact value. -/
def floatValue (eb fb x : Nat) : ClearValue :=
    let frac := x % 2 ^ fb
    let ex := x / 2 ^ fb % 2 ^ eb
    let neg := x / 2 ^ (fb + eb) % 2 = 1
    let bias : Int := 2 ^ (eb - 1) - 1
    let sgn := fun (m : Nat) => if neg then -(m : Int) else (m : Int)
    if ex = 2 ^ eb - 1 then (if frac = 0 then .inf neg else .nan)
    else if ex = 0 then .fin (sgn frac) (1 - bias - fb)
    else .fin (sgn (2 ^ fb + frac)) ((ex : Int) - bias - fb)

/-- The exact value of an element (R59). -/
def clearValue (ty x : Nat) : ClearValue :=
  if ty < 3 then .fin (twos (8 * typeBytes ty) x) 0 else floatValue (floatBits ty).1 (floatBits ty).2 x

/-- Round `m·2^e` to an integer by a rounding mode of R60. -/
def roundTo (mode : Nat) (m e : Int) : Int :=
  if 0 ≤ e then m * 2 ^ e.toNat
  else
    let d : Int := 2 ^ (-e).toNat
    let fl := m.fdiv d
    let r := m - fl * d
    match mode with
    | 0 => if 2 * r < d then fl else if 2 * r > d then fl + 1 else if fl % 2 = 0 then fl else fl + 1
    | 1 => if 0 ≤ m then fl else if r = 0 then fl else fl + 1
    | 2 => fl
    | _ => if 2 * r < d then fl else if 2 * r > d then fl + 1 else if 0 ≤ m then fl + 1 else fl

/-- The saturation bound of R60. -/
def satLimit : Int := 2 ^ 63 - 1

/-- Clear element to the integer y of R60 and R61: y, saturated or not, NaN or not. -/
def clearToInt (ty mode : Nat) (s : Int) (x : Nat) : Int × Bool × Bool :=
  match clearValue ty x with
  | .nan => (0, false, true)
  | .inf neg => (if neg then -satLimit else satLimit, true, false)
  | .fin m e =>
    let y := roundTo mode m (e + s)
    if y > satLimit then (satLimit, true, false) else if y < -satLimit then (-satLimit, true, false) else (y, false, false)

/-- Encode the nonzero magnitude `m·2^e` in a float format, to nearest, ties to even; none past the largest finite
value (R62). -/
def encodeFloat (eb fb : Nat) (m : Nat) (e : Int) : Option Nat :=
  let bias : Int := 2 ^ (eb - 1) - 1
  let top : Int := (Nat.log2 m : Int) + e          -- exponent of the leading bit
  let emin : Int := 1 - bias
  let ex := if top < emin then emin else top        -- exponent of the binade rounded in
  let y := (roundTo 0 m (e - (ex - fb))).toNat      -- significand in units of the last place
  let bits : Int := if y < 2 ^ fb then y else (ex - emin + 1) * 2 ^ fb + ((y : Int) - 2 ^ fb)
  if bits < (2 ^ eb - 1) * 2 ^ fb then some bits.toNat else none

/-- A value in IEEE 754 binary64, to nearest, ties to even; the elements of R59 fit exactly. -/
def toBinary64 : ClearValue → Word64
  | .fin m e =>
    let sign := if m < 0 then 2 ^ 63 else 0
    if m = 0 then 0 else BitVec.ofNat 64 (sign + (encodeFloat 11 52 m.natAbs e).getD (2047 * 2 ^ 52))
  | .inf neg => BitVec.ofNat 64 ((if neg then 2 ^ 63 else 0) + 2047 * 2 ^ 52)
  | .nan => BitVec.ofNat 64 (2047 * 2 ^ 52 + 2 ^ 51)

/-- Coefficient `i` of a packed plaintext (R65): the embedding's, times 2^s and rounded by R60 mode 0. One that is not finite is
taken as R61 takes such an element (log entry 8). -/
def packCoefficient (k : Nat) (slots : List (Word64 × Word64)) (s : Int) (i : Nat) : Int :=
  match floatValue 11 52 (Config.ckksEmbedding k slots i).toNat with
  | .fin m e => roundTo 0 m (e + s)
  | .inf neg => if neg then -satLimit else satLimit
  | .nan => 0

/-- Residue to clear (R62) of the centred value z: the element's bits, and whether it saturated. -/
def intToClear (ty mode : Nat) (s : Int) (z : Int) : Nat × Bool :=
  if ty < 3 then
    let w := 8 * typeBytes ty
    let y := roundTo mode z (-s)
    let hi : Int := 2 ^ (w - 1) - 1
    let lo : Int := -(2 ^ (w - 1))
    let enc := fun (v : Int) => (v % 2 ^ w).toNat
    if y > hi then (enc hi, true) else if y < lo then (enc lo, true) else (enc y, false)
  else
    let (eb, fb) := floatBits ty
    let sign := if z < 0 then 2 ^ (eb + fb) else 0
    if z = 0 then (0, false)
    else match encodeFloat eb fb z.natAbs (-s) with
      | some b => (sign + b, false)
      | none => (sign + (2 ^ eb - 1) * 2 ^ fb - 1, true)

end Sys2Proof.Machine
end

