-- ==== Sys2Proof/Machine/KeySets.lean ====
section
/-!
DEFINITION. KeySets: manifests, bound tables and their checks, registration and removal of key sets (R67 to R78, R149 to
R153).
-/
namespace Sys2Proof.Machine

/-! ### The manifest (R70 to R73) -/

/-- Counts and lengths in a manifest's header. -/
def mfSets (b : List Byte) : Nat := field b 3 1
@[inherit_doc mfSets] def mfKeys (b : List Byte) : Nat := field b 4 2
@[inherit_doc mfSets] def mfBound (b : List Byte) : Nat := field b 6 2
/-- Offsets of the bound table, the directory, the key-object digests, the public key and the signature. -/
def mfBoundAt (b : List Byte) : Nat := 256 + 336 * mfSets b
@[inherit_doc mfBoundAt] def mfDirAt (b : List Byte) : Nat := mfBoundAt b + mfBound b
@[inherit_doc mfBoundAt] def mfDigestAt (b : List Byte) : Nat := mfDirAt b + 32 * mfKeys b
@[inherit_doc mfBoundAt] def mfKeyAt (b : List Byte) : Nat := mfDigestAt b + 32 * mfKeys b
@[inherit_doc mfBoundAt] def mfSigAt (b : List Byte) : Nat := mfKeyAt b + 1952

/-- Residue-set record `i` (R71). -/
def mfSet (b : List Byte) (i : Nat) : ResidueSet :=
  let r := slice b (256 + 336 * i) 336
  let l := field r 1 1
  let k := field r 2 1
  let w := fun j => field r (16 + 4 * j) 4
  { log2n := field r 0 1, ordinary := (List.range l).map w, special := (List.range k).map fun j => w (l + j),
    digit := field r 3 1, t := field r 4 4 }

/-- Directory entry `i` (R72). -/
def mfEntry (b : List Byte) (i : Nat) : KeyEntry :=
  let e := slice b (mfDirAt b + 32 * i) 32
  { index := field e 0 2, kind := field e 2 1, rset := field e 3 1, galois := field e 4 4, lo := field e 8 1, hi := field e 9 1,
    digits := field e 10 1, offset := field e 16 8, length := field e 24 8 }

/-- Field ranges of a residue-set record (R71). -/
def setFormatOk (scheme : Nat) (b : List Byte) (i : Nat) : Bool :=
  let r := slice b (256 + 336 * i) 336
  let l := field r 1 1
  let k := field r 2 1
  decide (12 ≤ field r 0 1 ∧ field r 0 1 ≤ 17) && decide (1 ≤ l ∧ l ≤ 64) && decide (k ≤ 16) && decide (l + k ≤ 80) &&
  decide (1 ≤ field r 3 1 ∧ field r 3 1 ≤ 64) && (scheme != 1 || field r 4 4 == 0) && allZero (slice r 8 8) &&
  allZero ((r.drop (16 + 4 * (l + k))))

/-- The Galois element suits the key kind (R72). -/
def galoisOk (e : KeyEntry) (n : Nat) : Bool :=
  match e.kind with
  | 1 => e.galois == 0
  | 2 => e.galois % 2 == 1 && decide (1 < e.galois ∧ e.galois < 2 * n - 1)
  | 3 => e.galois == 2 * n - 1
  | _ => false

/-- Field ranges of a directory entry (R72). -/
def entryFormatOk (b : List Byte) (i : Nat) : Bool :=
  let e := mfEntry b i
  let r := mfSet b e.rset
  let n := 2 ^ r.log2n
  decide (e.index ≤ 0xFFFE) && decide (e.rset < mfSets b) && decide (1 ≤ r.special.length) && galoisOk e n &&
  decide (1 ≤ e.lo ∧ e.lo ≤ e.hi ∧ e.hi ≤ r.ordinary.length) && e.digits == (e.hi + r.digit - 1) / max r.digit 1 &&
  allZero (slice b (mfDirAt b + 32 * i + 11) 5) && e.length == 256 + e.digits * (e.hi + r.special.length) * 4 * n &&
  (i == 0 || decide ((mfEntry b (i - 1)).index < e.index))

/-- Step 3 of R75 without the bound table: ranges, reserved bytes, lengths, order and positions. -/
def manifestFormatOk (b : List Byte) : Bool :=
  let s := mfSets b
  let n := mfKeys b
  field b 0 1 == 4 && field b 1 1 == 1 && decide (1 ≤ field b 2 1 ∧ field b 2 1 ≤ 3) && decide (1 ≤ s ∧ s ≤ 8) &&
  decide (1 ≤ n ∧ n ≤ 1024) && allZero (slice b 12 4) && allZero (slice b 88 168) && field b 8 4 == b.length &&
  decide (b.length ≤ 262144) && mfSigAt b + 3309 == b.length &&
  ((List.range s).all fun i => setFormatOk (field b 2 1) b i) && ((List.range n).all fun i => entryFormatOk b i)

/-! ### The bound table (R149 to R153) -/

/-- Entry `i` of a bound table at offset `o` (R150). -/
def boundEntryAt (b : List Byte) (o i : Nat) : BoundEntry :=
  let e := slice b (o + 32 * (i + 1)) 32
  { cls := field e 0 1, rset := field e 1 1, lo := field e 2 1, hi := field e 3 1, dec := field e 4 2, cap := field e 6 2, width := field e 8 2 }

/-- The bound table of a manifest. -/
def mfBounds (b : List Byte) : BoundTable :=
  if mfBound b = 0 then {}
  else
    let o := mfBoundAt b
    { margin := field b (o + 4) 2, fresh := (List.range 8).map fun i => field b (o + 8 + 2 * i) 2,
      entries := (List.range (field b (o + 2) 2)).map fun i => boundEntryAt b o i }

/-- Two entries overlap in level for one class and set. -/
def BoundEntry.overlaps (a c : BoundEntry) : Bool :=
  a.cls == c.cls && a.rset == c.rset && decide (a.lo ≤ c.hi ∧ c.lo ≤ a.hi)

/-- No two entries of a list overlap. -/
def noOverlap : List BoundEntry → Bool
  | [] => true
  | e :: t => (t.all fun x => !e.overlaps x) && noOverlap t

/-- One entry's ranges (R150, R153). -/
def boundEntryOk (b : List Byte) (o i : Nat) : Bool :=
  let e := boundEntryAt b o i
  decide (1 ≤ e.cls ∧ e.cls ≤ 7) && decide (e.rset < mfSets b) && decide (1 ≤ e.lo ∧ e.lo ≤ e.hi) &&
  decide (e.hi ≤ (mfSet b e.rset).ordinary.length) && (e.cls == 5 || e.width == 0) && allZero (slice b (o + 32 * (i + 1) + 10) 22)

/-- The bound table's length and content (R70, R149, R153). -/
def boundTableOk (b : List Byte) : Bool :=
  let len := mfBound b
  if field b 2 1 = 1 then len == 0
  else
    let o := mfBoundAt b
    let t := mfBounds b
    decide (32 ≤ len ∧ len ≤ 65504) && len % 32 == 0 && field b o 1 == 6 && field b (o + 1) 1 == 1 &&
    decide (1 ≤ t.entries.length ∧ t.entries.length ≤ 2046) && len == 32 * (t.entries.length + 1) && decide (t.margin ≤ 0x7FFF) &&
    allZero (slice b (o + 6) 2) && allZero (slice b (o + 24) 8) &&
    ((List.range t.entries.length).all fun i => boundEntryOk b o i) && noOverlap t.entries &&
    ((List.range 8).all fun i => if i < mfSets b then decide (t.margin ≤ t.fresh.getD i 0) else t.fresh.getD i 0 == 0)

/-! ### Residue sets (R32, R34, R36, R57, R71) -/

/-- No divisor from `d` on, `fuel` candidates, divides `q`. -/
def noDivisor (q : Nat) : Nat → Nat → Bool
  | 0, _ => true
  | f + 1, d => if q < d * d then true else q % d != 0 && noDivisor q f (d + 1)

/-- `q` is prime; every modulus is below 2^30. -/
def isPrime (q : Nat) : Bool := decide (2 ≤ q) && noDivisor q 32768 2

/-- The bound M of R32. -/
def modulusBound : Nat := 1073602561

/-- R32 and R34 on a set's moduli. -/
def moduliOk (r : ResidueSet) : Bool :=
  let qs := r.ordinary ++ r.special
  (qs.all fun q => isPrime q && q % 2 ^ (r.log2n + 1) == 1 && decide (2 ^ 20 < q ∧ q < modulusBound)) && decide qs.Nodup

/-- The limit of R36 on log2 of the product of all moduli. -/
def securityLimit (log2n : Nat) : Nat := [109, 218, 438, 881, 1772, 3576].getD (log2n - 12) 0

/-- R36. -/
def securityOk (r : ResidueSet) : Bool := decide (product (r.ordinary ++ r.special) ≤ 2 ^ securityLimit r.log2n)

/-- R57. -/
def plainModulusOk (scheme : Nat) (r : ResidueSet) : Bool :=
  scheme == 1 || (isPrime r.t && decide (r.t < modulusBound) && !(r.ordinary ++ r.special).contains r.t)

/-- The digit rule of R71: where K ≥ 1 the special product exceeds every digit's product. -/
def digitsOk (r : ResidueSet) : Bool :=
  r.special.isEmpty || (List.range r.ordinary.length).all fun d =>
    let part := (r.ordinary.drop (d * r.digit)).take r.digit
    part.isEmpty || decide (product part < product r.special)

/-- The first failing status of step 5 on one residue set. -/
def residueSetStatus (scheme : Nat) (r : ResidueSet) : Nat :=
  if !moduliOk r then 0x04 else if !securityOk r then 0x05 else if !plainModulusOk scheme r then 0x06 else if !digitsOk r then 0x07 else 0

/-! ### Key objects (R74, step 7 of R75) -/

/-- Device reads return the poison pattern for a poisoned line (R255). -/
def Memory.fetch (m : Memory) (a n : Nat) : List Byte := (List.range n).map fun i => if m.linePoisoned (a + i) then 0xFF else m.read (a + i)

/-- The header of a key object agrees with its entry and key-set ID (R74). -/
def keyHeaderOk (r : ResidueSet) (ksid : Nat) (e : KeyEntry) (h : List Byte) : Bool :=
  crc32c (slice h 0 60) == field h 60 4 && field h 0 1 == 5 && field h 1 1 == 1 && field h 2 1 == e.kind && field h 3 1 == r.log2n &&
  field h 4 1 == e.lo && field h 5 1 == e.hi && field h 6 1 == e.digits && field h 7 1 == e.rset && field h 8 2 == e.index &&
  allZero (slice h 10 2) && field h 12 4 == e.galois && field h 16 8 == ksid && allZero (slice h 24 36)

/-- Every word of plane (d, r) is below the modulus of residue r. -/
def keyWordsOk (r : ResidueSet) (e : KeyEntry) (obj : List Byte) : Bool :=
  let n := 2 ^ r.log2n
  let rows := e.hi + r.special.length
  (List.range (e.digits * rows)).all fun i =>
    let x := i % rows
    let q := if x < e.hi then r.ordinary.getD x 0 else r.special.getD (x - e.hi) 0
    (List.range n).all fun j => decide (field obj (256 + (i * n + j) * 4) 4 < q)

/-- The walk of one key object: KEY_AREA, KEY_HEADER, KEY_DIGEST, KEY_RANGE, or 0. -/
def keyStatus (m : Memory) (b : List Byte) (base len : Nat) (i : Nat) : Nat :=
  let e := mfEntry b i
  let r := mfSet b e.rset
  let ksid := field (digest32 (b.take (mfDigestAt b))) 0 8
  let others := (List.range (mfKeys b)).filter (· != i)
  if e.offset % 256 ≠ 0 || len < e.offset + e.length ||
     others.any (fun j => rangesOverlap e.offset e.length (mfEntry b j).offset (mfEntry b j).length) then 0x0B
  else
    let obj := m.fetch (base + e.offset) e.length
    if !keyHeaderOk r ksid e (obj.take 64) || !allZero (slice obj 64 192) then 0x0C
    else if digest32 obj != slice b (mfDigestAt b + 32 * i) 32 then 0x0D
    else if !keyWordsOk r e obj then 0x0E else 0

/-! ### REGISTER_KEYSET, KEYSET_COMMIT -/

/-- What the walk of a registration decides: a failing status, an existing slot (R77), or a key set to commit. -/
inductive KeySetVerdict where
  | fail (status : Nat) | same (slot : Nat) | commit (slot : Nat) (k : KeySet)
deriving DecidableEq, Repr

/-- The first nonzero status. -/
def firstStatus (l : List Nat) : Nat := (l.find? (· != 0)).getD 0

/-- The key set a manifest describes. -/
def keySetOf (b : List Byte) (base len : Nat) : KeySet :=
  let d := digest32 (b.take (mfDigestAt b))
  { digest := d, ksid := field d 0 8, scheme := field b 2 1, seed := slice b 16 32, ownerKey := slice b 48 32,
    rsets := (List.range (mfSets b)).map (mfSet b), bounds := mfBounds b, keys := (List.range (mfKeys b)).map (mfEntry b),
    regionBase := base, regionLen := len,
    ownerPub := slice b (mfKeyAt b) 1952 }

/-- An owner key digest is admitted (R75 step 4). -/
def State.ownerAdmitted (s : State) (d : List Byte) : Bool :=
  !s.mode.sealedTrust || (chunks 32 64 (s.cfgBytes 0x0002)).contains d

/-- The lowest free key-set slot (R68). -/
def State.freeKeySlot (s : State) : Option Nat := (List.range 16).find? fun i => (s.work.keySets.find i).isNone

/-- Steps 3 to 8 of R75. -/
def State.keySetVerdict (s : State) (r : Registration) : KeySetVerdict :=
  let b := s.mem.fetch r.manifest r.manifestLen
  let k := keySetOf b r.region r.regionLen
  let pub := slice b (mfKeyAt b) 1952
  let sets := firstStatus (k.rsets.map (residueSetStatus k.scheme))
  if !manifestFormatOk b then .fail 0x01
  else if !boundTableOk b then .fail 0x08
  else if digest32 pub != k.ownerKey || !s.ownerAdmitted k.ownerKey then .fail 0x02
  else if !Config.mldsaVerify pub [] (b.take (mfSigAt b)) (slice b (mfSigAt b) 3309) then .fail 0x03
  else if sets ≠ 0 then .fail sets
  else match s.work.keySets.find? fun e => e.2.digest == k.digest with
    | some e => .same e.1
    | none =>
      if s.work.keySets.any fun e => e.2.ksid == k.ksid then .fail 0x09
      else
        let walk := firstStatus ((List.range (mfKeys b)).map (keyStatus s.mem b r.region r.regionLen))
        if walk ≠ 0 then .fail walk
        else match s.freeKeySlot with
          | none => .fail 0x0A
          | some i => .commit i k

/-- The KEYSET event (R446): 1 registration or 2 removal, slot, digest. -/
def keySetEvent (kind slot : Nat) (digest : List Byte) : List Byte := leBytes 1 kind ++ leBytes 1 slot ++ digest

/-- REGISTER_KEYSET (R75 steps 1 and 2): the first visible registration entry, none other in progress. -/
def execRegisterKeyset (s : State) : Out :=
  live s <|
    if s.host.registration.isSome then s
    else s.onControl 1 fun s e =>
      let m := field e.raw 16 8
      let ml := field e.raw 24 4
      let base := field e.raw 32 8
      let len := field e.raw 40 8
      if s.memSys.hbmFailed then s.completeControl e 0x61 0 0 0
      else if !s.inIntake 0 m ml || ml = 0 then s.completeControl e 0x01 0 0 0
      else match s.host.areas.find? fun x => x.2.base == base && x.2.length == len && !x.2.release && x.2.owner == 0 with
        | none => s.completeControl e 0x0B 0 0 0
        | some x =>
          let r : Registration := { fn := e.fn, tag := e.tag, manifest := m, manifestLen := ml, region := base, regionLen := len,
                                    areaNo := x.1, seq := e.seq }
          ((({ s with host := { s.host with registration := some r } }).lock .registration m ml).lock .registration base len)

/-- End a registration: locks drop and the completion is written. -/
def State.endRegistration (s : State) (r : Registration) (status slot : Nat) : State :=
  let s := ({ s with host := { s.host with registration := none } }).unlock .registration
  s.complete r.fn 5 status r.tag (controlBody 1 slot 0 0)

/-- KEYSET_COMMIT (R75 steps 3 to 8, R77): the walk ends. -/
def execKeysetCommit (s : State) : Out :=
  live s <| match s.host.registration with
    | none => s
    | some r => match s.keySetVerdict r with
      | .fail status => s.endRegistration r status 0
      | .same slot => s.endRegistration r 0 slot
      | .commit slot k =>
        let s := { s with work := { s.work with keySets := s.work.keySets.put slot k }
                          host := { s.host with areas := s.host.areas.del r.areaNo } }
        (s.endRegistration r 0 slot).event 0x06 (keySetEvent 1 slot k.digest)

/-! ### REMOVE_KEYSET (R78) -/

/-- The key set is referenced by an installed program, a job's program or a key-cache extent (R78). -/
def State.keySetInUse (s : State) (k : KeySet) : Bool :=
  (s.work.programs.any fun e => e.2.ksid == k.ksid) || (s.work.jobs.any fun e => (s.programOf e.2).ksid == k.ksid && e.2.checked) ||
  (s.work.kcDir.any fun e => e.ksid == k.ksid)

/-- Remove a registered key set: its storage is filled and returns to host allocation; a share of it is erased (R378). -/
def State.removeKeySet (s : State) (slot : Nat) (k : KeySet) : State :=
  let s := if s.sec.share.any fun h => h.ksid == k.ksid then s.eraseShare else s
  let mem := (s.mem.fill k.regionBase 0xFF k.regionLen).unmark k.regionBase k.regionLen
  ({ s with mem := mem, work := { s.work with keySets := s.work.keySets.del slot } }).event 0x06 (keySetEvent 2 slot k.digest)

/-- REMOVE_KEYSET (R78). -/
def execRemoveKeyset (s : State) : Out :=
  live s <| s.onControl 2 fun s e =>
    let slot := field e.raw 9 1
    match s.work.keySets.find slot with
    | none => s.completeControl e 0x10 slot 0 0
    | some k =>
      if s.keySetInUse k then s.completeControl e 0x0F slot 0 0
      else (s.removeKeySet slot k).completeControl e 0 slot 0 0

end Sys2Proof.Machine
end

