-- ==== Sys2Proof/Machine/Submission.lean ====
section
/-!
DEFINITION. Submission: the aperture (R315, R316), areas (R312), transfers (R319, R321), cancelling and markers (R319,
R320), removal of programs (R200), ENCODE (R65, R66), and the draining of the backlogs (R323).
-/
namespace Sys2Proof.Machine

/-! ### The aperture -/

/-- SUBMISSION_WRITE (R308, R315, R316, R330): the write is an entry, or it is dropped and counted. -/
def execSubmissionWrite (fn : Fin 17) (offset : BitVec 16) (data : List Byte) (tlps : Nat) (onStream : Bool) (s : State) : Out :=
  live s <|
    if !s.rst.hostReady || s.host.pcieHeld then s
    else if data.length ≠ 64 || offset.toNat % 64 ≠ 0 || tlps ≠ 1 || (s.func fn).d3hot || (s.ideRequired && !onStream) then
      s.modFunc fn fun f => { f with droppedMalformed := satInc f.droppedMalformed }
    else if s.freeEntries fn = 0 then s.modFunc fn fun f => { f with droppedCredit := satInc f.droppedCredit }
    else
      let e : Entry := { fn := fn, raw := data, seq := s.host.nextSeq, visible := 0 }
      { s with host := { s.host with fifo := s.host.fifo ++ [e], nextSeq := s.host.nextSeq + 1 } }

/-- SUBMISSION_READ (R315): all ones, counted as malformed. -/
def execSubmissionRead (fn : Fin 17) (length : Nat) (s : State) : Out :=
  live s <|
    if !s.rst.hostReady || s.host.pcieHeld then s
    else
      let s := { s with host := { s.host with lastRead := List.replicate length 0xFF } }
      s.modFunc fn fun f => { f with droppedMalformed := satInc f.droppedMalformed }

/-! ### Areas (R312) -/

/-- The range lies where a function's area may lie: host HBM, and for a VF inside its allotment too (R312). -/
def State.areaBounds (s : State) (fn base len : Nat) : Bool :=
  let f := s.func fn
  decide (base + len ≤ s.hostHbm) &&
  (fn == 0 || rangeInside base len (f.allotBase.toNat * 65536) (f.allotLen.toNat * 65536))

/-- DEFINE_AREA's checks (R312, R324). -/
def State.areaStatus (s : State) (fn kind num base len : Nat) : Nat :=
  if 1 < kind || base % 65536 ≠ 0 || len % 65536 ≠ 0 || len = 0 || 2 ^ 36 < len || !s.areaBounds fn base len ||
     (s.host.areas.any fun e => rangesOverlap base len e.2.base e.2.length) ||
     (s.work.keySets.any fun e => rangesOverlap base len e.2.regionBase e.2.regionLen) ||
     (s.memSys.retiredPages.any fun p => inRange base len (2048 * p)) then 0x50
  else if (s.host.areas.find num).isSome then 0x52 else 0

/-- DEFINE_AREA (R312, R313): the pages of the new area count as released. -/
def execDefineArea (s : State) : Out :=
  live s <| s.onControl 4 fun s e =>
    let kind := field e.raw 9 1
    let num := field e.raw 10 1
    let base := field e.raw 16 8
    let len := field e.raw 24 8
    let st := s.areaStatus e.fn kind num base len
    if st ≠ 0 then s.completeControl e st num 0 0
    else
      let a : Area := { release := kind == 1, owner := e.fn, base := base, length := len }
      let s := { s with host := { s.host with
        areas := s.host.areas.put num a, unreleased := s.host.unreleased.filter fun u => !inRange base len (2048 * u.1) } }
      s.completeControl e 0 num 0 0

/-- A job extent, registration lock or transfer touches the area (R312). -/
def State.areaBusy (s : State) (a : Area) : Bool :=
  (s.host.locks.any fun l => rangesOverlap a.base a.length l.2.1 l.2.2 && match l.1 with
    | .registration => true
    | .job _ => true
    | .mailbox => false
    | .staging => false) ||
  (s.host.transfers.any fun t => rangesOverlap a.base a.length t.devAddr t.length)

/-- DELETE_AREA (R312). -/
def execDeleteArea (s : State) : Out :=
  live s <| s.onControl 5 fun s e =>
    let num := field e.raw 10 1
    match s.host.areas.find num with
    | none => s.completeControl e 0x52 num 0 0
    | some a =>
      if a.owner ≠ e.fn then s.completeControl e 0x61 num 0 0
      else if s.areaBusy a then s.completeControl e 0x51 num 0 0
      else ({ s with host := { s.host with areas := s.host.areas.del num } }).completeControl e 0 num 0 0

/-! ### Transfers (R319, R321) -/

/-- Check 5 of a transfer: alignment, length, and one area or a lock's own range that it lies in wholly. -/
def State.transferRange (s : State) (dev host len : Nat) : Bool :=
  host % 64 == 0 && dev % 256 == 0 && len % 256 == 0 && decide (256 ≤ len ∧ len ≤ 2 ^ 30) &&
  ((s.areaOf dev len).isSome || s.host.locks.any fun l => l.1 == .registration && rangeInside dev len l.2.1 l.2.2)

/-- An earlier transfer of the function has not completed (R319). -/
def State.transferWaits (s : State) (e : Entry) : Bool := s.host.transfers.any fun t => t.fn == e.fn

/-- The first transfer entry whose function has none under way. -/
def State.nextTransfer (s : State) : Option Entry := s.visibleEntry fun e => e.type == 4 && !s.transferWaits e

/-- The completion body of a transfer (R324). -/
def transferBody (moved poisoned : Nat) : List Byte := leBytes 8 moved ++ leBytes 4 poisoned

/-- TRANSFER (R319, R321): the next transfer starts, or fails its range rule. -/
def execTransfer (s : State) : Out :=
  live s <| match s.nextTransfer with
    | none => s
    | some e =>
      let h := field e.raw 16 8
      let d := field e.raw 24 8
      let n := field e.raw 32 4
      let s := s.dropEntry e
      if !s.transferRange d h n then s.complete e.fn 4 0x58 e.tag (transferBody 0 0)
      else
        let t : HostTransfer := { fn := e.fn, tag := e.tag, toHost := e.flags % 2 == 1, hostAddr := h, devAddr := d, length := n, seq := e.seq }
        { s with host := { s.host with transfers := s.host.transfers ++ [t] } }

/-- The bytes of a transfer move (R313, R314, R321). Answers status, bytes moved, poisoned lines. -/
def State.moveTransfer (s : State) (t : HostTransfer) : Nat × Nat × Nat × State :=
  if t.toHost then
    let (data, refused, bad) := s.hostRead t.fn t.devAddr t.length
    let s := { s with host := { s.host with hostRam := ramWriteN s.host.hostRam t.hostAddr data } }
    let s := if refused then s.countRefused t.fn else s
    (if bad = 0 then 0 else 0x5A, t.length, bad, if bad = 0 then s else s.countPoison t.fn)
  else
    let (refused, s) := s.hostWrite t.fn t.devAddr (s.host.ramRead t.hostAddr t.length)
    (0, t.length, 0, if refused then s.countRefused t.fn else s)

/-- A transfer whose host read failed: the bytes already moved stand; how many they are is a free value (R321; log entry
4). -/
def State.partTransfer (s : State) (t : HostTransfer) : Nat × State :=
  let (w, s) := s.takeFree 1
  let n := (w.headD 0).toNat % (t.length + 1)
  let (refused, s) := s.hostWrite t.fn t.devAddr (s.host.ramRead t.hostAddr n)
  (n, if refused then s.countRefused t.fn else s)

/-- TRANSFER_COMPLETE (R321): the function's transfer ends. -/
def execTransferComplete (fn : Fin 17) (hostOk : Bool) (s : State) : Out :=
  live s <| match s.host.transfers.find? fun t => t.fn == fn.val with
    | none => s
    | some t =>
      if t.toHost && !s.canSend fn then s
      else
      let s := { s with host := { s.host with transfers := s.host.transfers.filter fun x => x.seq != t.seq } }
      if !hostOk && !t.toHost then
        let (n, s) := s.partTransfer t
        s.complete fn 4 0x59 t.tag (transferBody n 0)
      else
        let (st, moved, bad, s) := s.moveTransfer t
        s.complete fn 4 st t.tag (transferBody moved bad)

/-! ### CANCEL_JOB, MARKER -/

/-- CANCEL_JOB (R320). -/
def execCancelJob (s : State) : Out :=
  live s <| s.onControl 6 fun s e =>
    let id := field e.raw 12 2
    match s.job? id with
    | none => s.completeControl e 0x53 0 id 0
    | some j =>
      if j.fn ≠ e.fn then s.completeControl e 0x53 0 id 0
      else if j.phase = .finished then s.completeControl e 0x54 0 id 0
      else (s.endJob id fun j => { j with cancelled := true }).completeControl e 0 0 id 0

/-- MARKER (R319): the first marker whose function's earlier entries have all completed. -/
def execMarker (s : State) : Out :=
  live s <| match s.visibleEntry fun e => e.type == 5 && e.sub == 7 && !s.earlierOpen e.fn e.seq with
    | none => s
    | some e => (s.dropEntry e).completeControl e 0 0 0 0

/-! ### REMOVE_PROGRAM (R200) -/

/-- A queued or running job names the program (R200): mapped ones by slot, waiting ones by the digest of their record. -/
def State.programInUse (s : State) (slot : Nat) : Bool :=
  s.work.jobs.any fun e =>
    if e.2.checked then e.2.program == slot
    else slice (s.mem.readN e.2.recordAddr 64) 8 32 == (s.work.programs.at slot {}).digest

/-- Device addresses of an install slot's store and data area (log entry 22): 32 MiB each, above host HBM. -/
def State.programStore (s : State) (slot : Nat) : Nat := s.hostHbm + 0x80000000 + slot * 0x4000000
@[inherit_doc State.programStore] def State.programData (s : State) (slot : Nat) : Nat := s.programStore slot + 0x2000000

/-- REMOVE_PROGRAM (R197, R200): the slot's store and data area are filled with ones and the slot is free. -/
def execRemoveProgram (s : State) : Out :=
  live s <| s.onControl 3 fun s e =>
    let slot := field e.raw 9 1
    match s.work.programs.find slot with
    | none => s.completeControl e 0x25 slot 0 0
    | some _ =>
      if s.programInUse slot then s.completeControl e 0x24 slot 0 0
      else
        let a := s.programStore slot
        let n := s.programData slot - a + dataAreaBytes
        let mem := (s.mem.fill a 0xFF n).unmark a n
        ({ s with mem := mem, work := { s.work with programs := s.work.programs.del slot } }).completeControl e 0 slot 0 0

/-! ### ENCODE (R58, R65, R66) -/

/-- A tensor supplies (real, imaginary) pairs: its innermost dimension is 2 (R65). -/
def tensorPairs (h : List Byte) : Bool := field h (4 * field h 3 1) 4 == 2

/-- Values a tensor supplies (R65). -/
def tensorSlots (h : List Byte) : Nat := if tensorPairs h then tensorCount h / 2 else tensorCount h

/-- The type index of a tensor type (R59, R185). -/
def tensorTypeIndex (ty : Nat) : Nat := if ty < 0x10 then ty - 1 else ty - 0x11 + 3

/-- The slot values of a tensor, slot j the value at ζ^(5^j mod 2N), in binary64; slots past the tensor's are 0 (R65). -/
def slotValues (log2n : Nat) (input : List Byte) : List (Word64 × Word64) :=
  let ty := field input 2 1
  let el := fun i => toBinary64 (clearValue (tensorTypeIndex ty) (field input (256 + tensorWidth ty * i) (tensorWidth ty)))
  let given := (List.range (tensorSlots input)).map fun j => if tensorPairs input then (el (2 * j), el (2 * j + 1)) else (el j, 0)
  given ++ List.replicate (2 ^ log2n / 2 - given.length) (0, 0)

/-- The plaintext object of an encode (R65, R66). It has no seed: bytes 96 to 99, for which R42 lists the CRC of a seed at bytes
64 to 95, are zero as they are (DESIGN CHOICE, log entry 130). -/
def encodeObject (k : KeySet) (rset level : Nat) (sc : Int) (input : List Byte) : List Byte :=
  let r := k.rsets.getD rset ⟨12, [], [], 1, 0⟩
  let n := 2 ^ r.log2n
  let slots := slotValues r.log2n input
  let g := if r.log2n = 17 then 64 else 32
  let hd : Header := { format := 2, scheme := 1, log2n := r.log2n, npoly := 1, level := level, scale := clampInt 0 0xFFFF (sc * 256),
                       rset := rset, ksid := k.ksid }
  let word := fun q a => let c := a % (n / g) * g + a / (n / g)
                         intMod q (packCoefficient r.log2n slots sc c)
  hd.bytes ++ List.replicate 192 0 ++
    (List.range level).flatMap fun i => (List.range n).flatMap fun a => leBytes 4 (word (r.ordinary.getD i 0) a)

/-- ENCODE (R65, R319): the management cores take the first visible entry, none other in progress. -/
def execEncode (s : State) : Out :=
  live s <|
    if s.host.encode.isSome then s
    else s.onControl 8 fun s e => { s with host := { s.host with encode := some e } }

/-- ENCODE_COMPLETE (R65, R66, R324): the packing ends, or the entry fails. -/
def State.finishEncode (s : State) (e : Entry) : State :=
  let inp := field e.raw 16 8
  let out := field e.raw 24 8
  let rset := field e.raw 32 1
  let level := field e.raw 33 1
  let sc := signedOf 8 (field e.raw 34 1)
  let s := { s with host := { s.host with encode := none } }
  let h := s.mem.fetch inp 256
  let len := 256 + tensorCount h * tensorWidth (field h 2 1)
  match s.keySet? (field e.raw 40 8) with
  | none => s.completeControl e 0x55 0 0 0
  | some k =>
    match k.rsets[rset]? with
    | none => s.completeControl e 0x55 0 0 0
    | some r =>
      let size := 256 + level * 4 * 2 ^ r.log2n
      if k.scheme ≠ 1 || level = 0 || r.ordinary.length < level || sc < -32 || 63 < sc || inp % 256 ≠ 0 || out % 256 ≠ 0 || !tensorOk h ||
         !s.inIntake 0 inp len || 2 ^ r.log2n / 2 < tensorSlots h ||
         !((s.areaOf out size).any fun a => a.2.owner == 0) then s.completeControl e 0x55 0 0 0
      else
        let obj := encodeObject k rset level sc (s.mem.fetch inp len)
        ({ s with mem := s.mem.store out obj }).completeControl e 0 0 0 out

/-- ENCODE_COMPLETE (R65). -/
def execEncodeComplete (s : State) : Out :=
  live s <| match s.host.encode with
    | none => s
    | some e => s.finishEncode e

/-! ### BACKLOG_DRAIN (R323) -/

/-- Completion records drain in order while the ring takes them. -/
def drainCompletions (fn : Nat) : Nat → State → State
  | 0, s => s
  | n + 1, s =>
    match (s.func fn).cqBacklog with
    | [] => s
    | b :: t =>
      if (s.func fn).cq.enabled && s.canSend fn && decide (0 < (s.func fn).cq.space 6 16) then
        drainCompletions fn n ((s.modFunc fn fun f => { f with cqBacklog := t }).writeCompletion fn b.bytes)
      else s

/-- Receipt items drain in order while the ring takes them; a receipt waits for its job's completion (R31). -/
def drainReceipts (fn : Nat) : Nat → State → State
  | 0, s => s
  | n + 1, s =>
    match (s.func fn).rqBacklog with
    | [] => s
    | b :: t =>
      if !(s.func fn).completionWaits b.job && (s.func fn).rq.enabled && s.canSend fn && decide (receiptSlots b.bytes.length ≤ (s.func fn).rq.space 4 12) then
        drainReceipts fn n ((s.modFunc fn fun f => { f with rqBacklog := t }).writeReceipt fn b.kind b.bytes)
      else s

/-- The first waiting notice of a function leaves the waiting line when a receipt item is free (R323). -/
def drainNotices (fn : Nat) : Nat → State → State
  | 0, s => s
  | n + 1, s =>
    match s.work.noticesDue.find? fun e => e.2.contains fn with
    | none => s
    | some e =>
      if s.noticeRoom fn e.1.length then
        let rest := (s.work.noticesDue.map fun x => if x == e then (x.1, x.2.filter (· != fn)) else x).filter fun x => x.2 != []
        drainNotices fn n (({ s with work := { s.work with noticesDue := rest } }).receiptItem fn 2 e.1)
      else s

/-- Notices that waited for the DRBG are signed and delivered (R366). -/
def State.signWaiting (s : State) : State :=
  if s.sec.drbgOk then
    let l := s.work.unsigned
    l.foldl (fun s e => s.issueNotice e.1 e.2) { s with work := { s.work with unsigned := [] } }
  else s

/-- A function's backlogs and waiting notices drain as far as its rings take them (R323). -/
def State.drainBacklog (s : State) (fn : Nat) : State :=
  let s := s.signWaiting
  let s := drainCompletions fn ((s.func fn).cqBacklog.length) s
  let s := drainReceipts fn ((s.func fn).rqBacklog.length) s
  drainNotices fn s.work.noticesDue.length s

/-- BACKLOG_DRAIN (R323). -/
def execBacklogDrain (fn : Fin 17) (s : State) : Out := live s (s.drainBacklog fn)

end Sys2Proof.Machine
end

