-- ==== Sys2Proof/Machine/JobMap.lean ====
section
/-!
DEFINITION. JobMap: job records and their check (R202 to R204), the mapping of logical groups and key-cache extents (R88,
R206, R207), and what mapping does to the groups (R29, R129, R201, R218, R219).
-/
namespace Sys2Proof.Machine

/-! ### Job records (R202, R203) -/

/-- A record's bytes. -/
def State.jobRecord (s : State) (j : Job) : List Byte := s.mem.fetch j.recordAddr j.recordLen

/-- Patch count of a record. -/
def recPatches (b : List Byte) : Nat := field b 6 2
/-- Group count of a record. -/
def recGroups (b : List Byte) : Nat := field b 4 1
/-- Patch `i` as register, scope and value. -/
def recPatch (b : List Byte) (i : Nat) : Nat × Nat × Nat :=
  let o := 64 + 16 * i
  (field b o 1, field b (o + 1) 1, field b (o + 8) 8)

/-- The patches of a record. -/
def recPatchList (b : List Byte) : List (Nat × Nat × Nat) := (List.range (recPatches b)).map (recPatch b)

/-- No two patches share register and scope. -/
def patchesDistinct : List (Nat × Nat × Nat) → Bool
  | [] => true
  | p :: t => (t.all fun q => q.1 != p.1 || q.2.1 != p.2.1) && patchesDistinct t

/-- JOB_FORMAT's conditions (R202, R203, R204). -/
def recordFormatOk (b : List Byte) : Bool :=
  let n := recPatches b
  field b 0 1 == 9 && field b 1 1 == 1 && decide (field b 5 1 ≤ 1) && decide (n ≤ 4092) && b.length == 64 + 16 * n &&
  decide (1 ≤ recGroups b ∧ recGroups b ≤ 64) && allZero (slice b 48 12) && crc32c (slice b 0 60) == field b 60 4 &&
  ((List.range n).all fun i => allZero (slice b (64 + 16 * i + 2) 6)) &&
  ((recPatchList b).all fun p => decide (p.1 ≤ 63) && (p.2.1 == 0xFF || decide (p.2.1 < recGroups b))) && patchesDistinct (recPatchList b)

/-- The patch that reaches register `r` of logical group `g` (R203). -/
def patchOf (l : List (Nat × Nat × Nat)) (g r : Nat) : Option Nat :=
  match l.find? fun p => p.1 == r && p.2.1 == g with
  | some p => some p.2.2
  | none => (l.find? fun p => p.1 == r && p.2.1 == 0xFF).map (·.2.2)

/-- The installed program with a digest (R204). -/
def State.programBy? (s : State) (digest : List Byte) : Option (Nat × Program) := s.work.programs.find? fun e => e.2.digest == digest

/-- Usable groups of the device (R4, R5). -/
def State.usableGroups (s : State) : List Nat :=
  (List.range 68).filter fun p => (s.group p).role == .usable && !(s.group p).failed

/-- A register's value is within its role's range (R190, R204). -/
def valueOk (d : ParamDecl) (v : Nat) : Bool :=
  if d.role = 0 then v == 0
  else if d.role ≤ 3 then decide (d.lo ≤ v ∧ v ≤ d.hi) && (d.role != 3 || decide (v < 2 ^ 32)) else true

/-- An address register's value suits its role (R204 status 0x46). -/
def State.addressOk (s : State) (fn slot : Nat) (d : ParamDecl) (v : Nat) : Bool :=
  match d.role with
  | 4 => v % 256 == 0 && s.inIntake fn v d.extent
  | 5 => v % 256 == 0 && s.inRelease fn v d.extent
  | 6 => v % 256 == 0 && s.inRelease fn v d.extent
  | 7 => v == s.programData slot
  | _ => true

/-- The values of a job's registers: key 64·group + register. -/
def paramTable (l : List (Nat × Nat × Nat)) (groups : Nat) : Table Word64 :=
  (List.range groups).flatMap fun g => (List.range 64).map fun r => (64 * g + r, BitVec.ofNat 64 ((patchOf l g r).getD 0))

/-- The groups that hold a USE program's model CONFIRMED with its R (R207, R219). -/
def State.holds (s : State) (p : Nat) (prog : Program) : Bool :=
  let g := s.group p
  g.residency == .confirmed && g.model == prog.model && g.resRows.toNat * 256 == prog.residentBytes

/-- The first failing status of R204, or 0; the deadline is JOB_DEADLINE's. -/
def State.jobStatus (s : State) (j : Job) : Nat :=
  let b := s.jobRecord j
  let l := recPatchList b
  let n := recGroups b
  if !s.inIntake j.fn j.recordAddr j.recordLen || !recordFormatOk b then 0x40
  else match s.programBy? (slice b 8 32) with
    | none => 0x41
    | some (slot, p) =>
      let usable := s.usableGroups.length
      let every := fun (f : Nat → Nat → ParamDecl → Bool) => (List.range n).all fun g => (List.range 64).all fun r => f g r (p.params.getD r {})
      if field b 2 2 = 0 || field b 2 2 ≠ j.id.toNat then 0x42
      else if n ≠ p.groups || usable < n then 0x43
      else if !every (fun g r d => !d.required || (patchOf l g r).isSome) then 0x44
      else if l.any (fun q => (p.params.getD q.1 {}).role == 0) || !every (fun g r d => valueOk d ((patchOf l g r).getD 0)) then 0x45
      else if !every (fun g r d => s.addressOk j.fn slot d ((patchOf l g r).getD 0)) then 0x46
      else if (field b 5 1 % 2 = 1 || s.mode.twinAll) && usable < 2 * n then 0x47
      else if p.use && (s.usableGroups.filter fun q => s.holds q p).length < n then 0x48
      else 0

/-! ### Choosing groups (R206, R207, R208) -/

/-- A block of the group has been asked to go idle and is not yet back (R429). -/
def State.idling (s : State) (p : Nat) : Bool := s.rst.idleAsked.contains (2 * p) || s.rst.idleAsked.contains (2 * p + 1)

/-- A group may be taken by a job now; an adoption that writes its tables holds it out for that beat (R404). -/
def State.groupFree (s : State) (prog : Program) (p : Nat) : Bool :=
  let g := s.group p
  g.role == .usable && !g.failed && !g.proving && !g.quarantine && !g.retireDue && g.job == 0 && s.powered p && !s.idling p && (s.unit p).heldBeat != some s.beat.toNat &&
  (!prog.use || s.holds p prog)

/-- The lowest groups of one die that a block of `b` takes, pairs at N = 2^17 in adjacent fields. -/
def placeOnDie (pairs : Bool) (b : Nat) (free : List Nat) : Option (List Nat) :=
  let l := if pairs then takePairs free else free
  if b ≤ l.length then some (l.take b) else none
where
  /-- Disjoint adjacent pairs, lowest first. -/
  takePairs : List Nat → List Nat
    | p :: q :: t => if q = p + 1 then p :: q :: takePairs t else takePairs (q :: t)
    | _ => []

/-- The lowest die of those on which a block fits, among candidates. -/
def placeBlock (pairs : Bool) (b : Nat) (free : List Nat) : Option (List Nat) :=
  (List.range 4).findSome? fun d => placeOnDie pairs b (free.filter fun p => p / 17 == d)

/-- Place blocks covering `n` logical groups, groups without residency first (R206, R207). -/
def State.placeAll (s : State) (prog : Program) : Nat → Nat → List Nat → Option (List Nat)
  | 0, n, _ => if n = 0 then some [] else none
  | fuel + 1, n, free =>
    if n = 0 then some []
    else
      let b := min prog.block n
      let pairs := prog.log2n == 17
      let bare := if prog.use || prog.load then free else free.filter fun p => (s.group p).residency == .none
      match placeBlock pairs b bare with
      | some l => (s.placeAll prog fuel (n - b) (free.filter fun p => !l.contains p)).map (l ++ ·)
      | none => match placeBlock pairs b free with
        | some l => (s.placeAll prog fuel (n - b) (free.filter fun p => !l.contains p)).map (l ++ ·)
        | none => none

/-- Both sets of a mapping from a list of candidates. -/
def State.placeSets (s : State) (prog : Program) (twin : Bool) (free : List Nat) : Option (List Nat × List Nat) :=
  match s.placeAll prog 64 prog.groups free with
  | none => none
  | some a =>
    if !twin then some (a, [])
    else (s.placeAll prog 64 prog.groups (free.filter fun p => !a.contains p)).map fun b => (a, b)

/-- The mapping of a job: the groups its faults named are avoided where others satisfy the rules (R208). -/
def State.place (s : State) (prog : Program) (twin : Bool) (excluded : List Nat) : Option (List Nat × List Nat) :=
  let free := (List.range 68).filter fun p => s.groupFree prog p
  match s.placeSets prog twin (free.filter fun p => !excluded.contains p) with
  | some m => some m
  | none => if excluded == [] then none else s.placeSets prog twin free

/-! ### Key-cache extents (R87, R88, R90) -/

/-- Extents a key of `len` bytes takes. -/
def keyExtents (len : Nat) : Nat := (len - 256 + extentBytes - 1) / extentBytes

/-- Free extents, lowest first. -/
def State.freeExtents (s : State) : List Nat := (List.range 512).filter fun x => s.work.kcDir.all fun e => !e.extents.contains x

/-- Grant one declared key to a job: a shared entry, or a new one with its extents. -/
def grantKey (id ksid len : Nat) (d : KeyDecl) (s : State) : Option State :=
  if s.work.kcDir.any fun e => e.ksid == ksid && e.index == d.index && e.hi == d.hi then
    let dir := s.work.kcDir.map fun e => if e.ksid == ksid && e.index == d.index && e.hi == d.hi then { e with jobs := insertNew e.jobs id } else e
    some { s with work := { s.work with kcDir := dir } }
  else
    let n := keyExtents len
    let free := s.freeExtents
    if s.work.kcDir.length < 128 ∧ n ≤ free.length then
      let e : KcEntry := { ksid := ksid, index := d.index, hi := d.hi, extents := free.take n, jobs := [id], filled := false, bad := false, repairing := [] }
      some { s with work := { s.work with kcDir := s.work.kcDir ++ [e] } }
    else none

/-- Grant every key a program declares for the key cache; none where extents or entries are short (R88). -/
def State.grantKeys (s : State) (id : Nat) (p : Program) : Option State :=
  (p.keys.filter fun d => !d.fromHbm).foldl (fun (o : Option State) d => match o with
    | none => none
    | some s => match (s.keySet? p.ksid).bind fun k => k.keys.find? fun e => e.index == d.index with
      | some e => grantKey id p.ksid e.length d s
      | none => some s) (some s)

/-! ### LINKED jobs (R344, R353) -/

/-- Ports a LINKED program's plan uses. -/
def LinkPlan.usedPorts (l : LinkPlan) : List Nat := (List.range 16).filter fun n => l.ports.getD n 0xFF != 0xFF

/-- A LINKED job can be mapped: the device is LINKED and aligned at its plan's position, and the plan's ports are up. -/
def State.linkOpen (s : State) (p : Program) : Bool :=
  match p.link with
  | none => true
  | some l => s.mode.linked && (s.link.position == 0 || s.link.aligned) && s.link.position.toNat == l.position &&
      l.usedPorts.all fun n => (s.port n).isUp && (s.port n).peerPosition.toNat == l.ports.getD n 0xFF

/-! ### What mapping does (R29, R129, R201, R218) -/

/-- The residue sets a program declares (R129): those of its INPUTS, KEYS and descriptors and of its commands' RSET. -/
def Program.declaredSets (p : Program) : List Nat :=
  let cmds := p.images.flatMap fun im => imageRsets 32768 im
  ((p.inputs.map (·.rset)) ++ (p.keys.map (·.rset)) ++ (p.descriptors.map fun d => field d 2 1) ++ cmds).foldl insertSorted []
where
  /-- RSET of every VE, TE, RME and REF command of an image. -/
  imageRsets : Nat → List Word32 → List Nat
    | 0, _ => []
    | _, [] => []
    | f + 1, w :: t =>
      if w.toNat / 2 ^ 30 = 3 then
        let e := w.toNat / 2 ^ 26 % 16
        let rest := imageRsets f (t.drop 3)
        if e = 1 || e = 2 || e = 6 || e = 8 then w.toNat % 8 :: rest else rest
      else imageRsets f t

/-- Montgomery form of a residue (R38). -/
def montgomery (q x : Nat) : Word32 := BitVec.ofNat 32 (mulMod q (x % max q 1) (2 ^ 32 % max q 1))

/-- The words of one digit variant in the conversion store, a level and the digit's moduli there: its matrix, whose outputs are
the level's residues outside the digit and the special ones, and its scalars (R129). -/
def digitWords (r : ResidueSet) (v : Nat × List Nat) : List Word32 :=
  let part := v.2
  let q := product part
  let outside := ((r.ordinary.take v.1).filter fun x => !part.contains x) ++ r.special
  (part.flatMap fun x => outside.map fun m => montgomery m (q / max x 1)) ++
  part.map fun x => montgomery x (invMod x (q / max x 1 % max x 1))

/-- Full digits at the top level, then the truncated last digits some level produces, each at its level (R71, R129). -/
def digitVariants (r : ResidueSet) : List (Nat × List Nat) :=
  let size := max r.digit 1
  let l := r.ordinary.length
  ((List.range ((l + size - 1) / size)).map fun d => (l, (r.ordinary.drop (d * size)).take size)) ++
  ((List.range l).filterMap fun lv =>
    if (lv + 1) % size = 0 || lv + 1 = l then none
    else some (lv + 1, (r.ordinary.drop (lv / size * size)).take (lv % size + 1)))

/-- The words of one residue set: ModUp, ModDown, scalars (R129). -/
def conversionWords (scheme : Nat) (r : ResidueSet) : List Word32 :=
  if r.special.isEmpty then []
  else
    let p := product r.special
    (digitVariants r).flatMap (digitWords r) ++
    (r.special.flatMap fun k => r.ordinary.map fun q => montgomery q (p / max k 1)) ++
    (r.special.map fun k => montgomery k (invMod k (p / max k 1 % max k 1))) ++
    (r.ordinary.map fun q => montgomery q (invMod q (p % max q 1))) ++
    (if scheme = 2 then r.special.map fun k => montgomery k (invMod k (r.t % max k 1)) else [])

/-- The conversion store's contents for a program (R129). -/
def State.conversionStore (s : State) (p : Program) : List Word32 :=
  match s.keySet? p.ksid with
  | none => []
  | some k => p.declaredSets.flatMap fun i => conversionWords k.scheme (k.rsets.getD i ⟨12, [], [], 1, 0⟩)

/-- A ring as its image declares it, reset (R215, R218). -/
def RingDecl.fresh (d : RingDecl) : Ring :=
  { base := BitVec.ofNat 12 (d.base / 256), size := BitVec.ofNat 13 (d.size / 256), resident := d.resident, object := d.object,
    credit := BitVec.ofNat 13 (d.size / 256) }

/-- Set up the rings of one cluster; a USE job keeps its resident rings (R218, R219). -/
def State.setRings (s : State) (p : Program) (k image : Nat) : State :=
  s.forAll (List.range 16) fun s r =>
    let d := (p.rings.getD image []).getD r ⟨0, 0, false, false⟩
    if image < 0xFFFF && p.use && d.resident then s.modRing k r fun g => { g with desc := {} }
    else s.modRing k r fun _ => if image < 0xFFFF then d.fresh else {}

/-- Set up one cluster of logical group `l`: parameters, image, everything else cleared (R29, R100, R177, R201). -/
def State.setCluster (s : State) (p : Program) (params : Table Word64) (l k : Nat) : State :=
  let image := p.streamMap.getD (32 * l + k % 32) 0xFFFF
  let regs := Vector.ofFn fun (i : Fin 64) => params.at (64 * l + i.val) 0
  let c : Cluster := { params := regs, image := p.images.getD image [], imageIndex := image, state := if image = 0xFFFF then .ended else .idle }
  (s.modCluster k fun _ => c).setRings p k image

/-- Set up one physical group as logical group `l` of a set. -/
def State.setGroup (s : State) (id : Nat) (p : Program) (params : Table Word64) (set l q : Nat) : State :=
  let store := s.conversionStore p
  let s := s.modGroup q fun g => (if p.use then g else g.unload) |> fun g =>
    { g with job := BitVec.ofNat 16 id, logical := l, set := set }
  let s := s.modUnit q fun u => { u with
    tileWindows := Vector.replicate 16 0, tileFree := none, tileWritten := [], rmeRows := [], rmeResidues := [], feedHbmUntil := 0,
    feedKcUntil := 0, lastSlot := [], convStore := store, pipSets := [], gbTaken := [], feeds := [], tileWrites := [], tileReads := [], tileNote := none, refresh := none, teVerdicts := [], relay := [],
    sdViolations := 0, sdFirstAt := 0, sdCluster := 0, sdEngine := 0, sdRing := 0, sdCheck := 0 }
  s.forAll (groupClusters q) fun s k => s.setCluster p params l k

/-- Set up both sets of a mapping. -/
def State.setGroups (s : State) (id : Nat) (p : Program) (params : Table Word64) (a b : List Nat) : State :=
  let s := (a.zipIdx).foldl (fun s e => s.setGroup id p params 0 e.2 e.1) s
  (b.zipIdx).foldl (fun s e => s.setGroup id p params 1 e.2 e.1) s

/-- TABLE_CRC of a refresh descriptor whose CRC fails when the mapping reads it (R158). -/
def State.checkDescriptors (s : State) (id : Nat) (p : Program) (a : List Nat) : State :=
  if p.descriptors.all fun d => crc32c (slice d 0 60) == field d 60 4 then s
  else s.raise (groupUnit (a.headD 0) 0 6 3) 0x06 opManagement 0 0 s.now (BitVec.ofNat 16 id) false

/-- The extents of roles 4 to 6 of every logical group: role, group, register, address, length. -/
def jobExtents (p : Program) (params : Table Word64) (out : Bool) : List (Nat × Nat × Nat × Nat × Nat) :=
  (List.range p.groups).flatMap fun g => (List.range 64).filterMap fun r =>
    let d := p.params.getD r {}
    if (!out && d.role == 4) || (out && (d.role == 5 || d.role == 6)) then some (d.role, g, r, (params.at (64 * g + r) 0).toNat, d.extent) else none

end Sys2Proof.Machine
end

