-- ==== Sys2Proof/Machine/Jobs.lean ====
section
/-!
DEFINITION. Jobs: a job's life from its entry to its receipt (R29 to R31, R204 to R208, R211, R273, R282, R287, R319,
R320, R325, R384, R385).
-/
namespace Sys2Proof.Machine

/-! ### JOB_ENTRY -/

/-- The body of a job's record (R324). -/
def jobBody (id last restarts kind serial : Nat) (tag : Word32) : List Byte :=
  leBytes 2 id ++ leBytes 2 0 ++ leBytes 4 tag.toNat ++ leBytes 4 last ++ leBytes 2 restarts ++ leBytes 1 kind ++ leBytes 9 0 ++ leBytes 8 serial

/-- The job an entry asks for, its ID and completion tag taken from its record as it stands. -/
def State.newJob (s : State) (e : Entry) : Job :=
  let a := field e.raw 8 8
  let n := field e.raw 16 4
  let b := s.mem.fetch a 64
  { id := BitVec.ofNat 16 (field b 2 2), fn := e.fn, tag := e.tag, recordAddr := a, recordLen := n, visible := e.visible, seq := e.seq,
    complTag := BitVec.ofNat 32 (field b 44 4), deadline := field b 40 4 }

/-- The lowest checkpoint area that no job has (R280). -/
def State.freeArea (s : State) : Nat := ((List.range 256).find? fun n => s.work.runs.all fun e => e.2.area != n).getD 0

/-- JOB_ENTRY (R202, R317, R320): the first visible job entry enters the table; a full table, a record outside the
function's intake areas, or an ID that cannot enter ends it at once (log entry 23). -/
def execJobEntry (s : State) : Out :=
  live s <| match s.visibleEntry fun e => e.type == 3 with
    | none => s
    | some e =>
      let j := s.newJob e
      let id := j.id.toNat
      let s := s.dropEntry e
      let refuse := fun st => s.complete e.fn 3 st e.tag (jobBody id 0 0 0 0 j.complTag)
      if s.memSys.hbmFailed then refuse 0x61
      else if 256 ≤ s.work.jobs.length then refuse 0x4A
      else if !s.inIntake e.fn j.recordAddr j.recordLen || j.recordLen < 64 || 65536 < j.recordLen then refuse 0x40
      else if id = 0 || (s.job? id).isSome then
        let st := s.jobStatus { j with id := 0 }
        refuse (if st = 0 then 0x42 else st)
      else { s with work := { s.work with jobs := s.work.jobs.put id j, runs := s.work.runs.put id { area := s.freeArea } } }

/-! ### JOB_MAPPING -/

/-- An earlier job has waited 64 beats (R320). -/
def State.starved (s : State) (j : Job) : Bool :=
  s.work.jobs.any fun e => e.2.phase == .waiting && decide (e.2.seq < j.seq) && decide (e.2.visible + 64 ≤ s.beat.toNat)

/-- LINKED jobs that hold groups: at most eight run at once (R351). -/
def State.linkedJobs (s : State) : Nat :=
  (s.work.jobs.filter fun e => e.2.groups != [] && (s.programOf e.2).linked).length

/-- A refused job ends at once with its status (R204). -/
def State.refuseMapping (s : State) (id : Nat) (j : Job) (st : Nat) : State :=
  let s := { s with work := { s.work with jobs := s.work.jobs.del id, runs := s.work.runs.del id } }
  s.complete j.fn 3 st j.tag (jobBody id 0 0 0 0 j.complTag)

/-- Digests of a job's input extents as they stand (R385). -/
def State.inputDigests (s : State) (p : Program) (params : Table Word64) : List (List Byte) :=
  (jobExtents p params false).map fun e => digest32 (s.mem.fetch e.2.2.2.1 e.2.2.2.2)

/-- Lock a job's extents (R281, R313). -/
def State.lockJob (s : State) (id : Nat) (p : Program) (params : Table Word64) : State :=
  (jobExtents p params false ++ jobExtents p params true).foldl (fun s e => s.lock (.job id) e.2.2.2.1 e.2.2.2.2) s

/-- Map a checked job onto its groups (R29, R88, R206, R207, R218). -/
def State.mapJob (s : State) (id : Nat) (j : Job) (slot : Nat) (p : Program) (b : List Byte) (a c : List Nat) : State :=
  let params := paramTable (recPatchList b) (recGroups b)
  let s := s.setGroups id p params a c
  let s := s.checkDescriptors id p a
  let s := s.lockJob id p params
  let digests := s.inputDigests p params
  let twin := c != []
  let s := s.modRun id fun r => { r with
    inputDigests := digests, configDigest := s.cfg.appliedDigest
    linkReady := [], linkStart := none }
  let s := { s with work := { s.work with jobs := s.work.jobs.put id { j with
    checked := true, complTag := BitVec.ofNat 32 (field b 44 4), deadline := field b 40 4, program := slot, groupCount := recGroups b, twin := twin,
    phase := .mapped, mapBeat := s.beat.toNat, set0 := a, set1 := c, params := params, jobBeat := 0 } } }
  match p.link with
  | some l => (s.sendControl 3 0 s.beat.toNat l.key (leNat (l.digest.take 4))).modRun id fun r => { r with linkReady := [s.link.position.toNat] }
  | none => s

/-- One try to map a waiting job (R206, R320). -/
def State.tryMap (s : State) (id : Nat) (j : Job) : State :=
  let b := s.jobRecord j
  let st := s.jobStatus j
  if st ≠ 0 then s.refuseMapping id j st
  else match s.programBy? (slice b 8 32) with
    | none => s
    | some (slot, p) =>
      if s.starved j || !s.linkOpen p || (p.linked && 8 ≤ s.linkedJobs) then s
      else match s.place p (field b 5 1 % 2 == 1 || s.mode.twinAll) [] with
        | none => s
        | some (a, c) => match s.grantKeys id p with
          | none => s
          | some s => s.mapJob id j slot p b a c

/-- JOB_MAPPING (R204, R206): while beats run and no halt has begun. -/
def execJobMapping (job : BitVec 16) (s : State) : Out :=
  live s <|
    if !s.beating || s.rst.haltStarted then s
    else match s.job? job.toNat with
      | some j => if j.phase = .waiting then s.tryMap job.toNat j else s
      | none => s

/-! ### JOB_FIRST_ISSUE -/

/-- A cluster's stream starts or resumes at cycle 0 of the beat (R29, R211). -/
def State.startCore (s : State) (k : Nat) : State :=
  s.modCluster k fun c => if c.state = .ended then c else { c with state := .issuing, nextAt := s.beat.toNat * beatCycles }

/-- A mapped job issues its first command (R29, R280, R287). -/
def State.firstIssue (s : State) (id : Nat) (j : Job) : State :=
  let s := s.forAll (j.groups.flatMap groupClusters) State.startCore
  let s := s.modJob id fun j => { j with
    phase := .running, decision := none, withheld := false
    jobBeat0 := if (s.run id).restarts = 0 then s.beat.toNat else j.jobBeat0 }
  let s := s.modRun id fun r => { r with episode := false, episodeRestarting := false, excluded := [], fills := 0, fencedAt := 0, linkSig := 0 }
  s.captureAt id

/-- JOB_FIRST_ISSUE (R29): in the beat after the mapping; a LINKED job waits for its members (R353). -/
def execJobFirstIssue (job : BitVec 16) (s : State) : Out :=
  live s <|
    if !s.beating then s
    else match s.job? job.toNat with
      | some j =>
        if j.phase = .mapped && decide (j.mapBeat < s.beat.toNat) && !(s.programOf j).linked then s.firstIssue job.toNat j else s
      | none => s

/-! ### JOB_RESTART (R208, R211, R282) -/

/-- Let a job's groups go: nothing of the job stays in them but a USE program's residency. -/
def State.freeGroups (s : State) (j : Job) : State :=
  s.forAll j.groups fun s p =>
    let s := s.modGroup p fun g => { g with job := 0, logical := 0, set := 0 }
    s.forAll (groupClusters p) fun s k => s.modCluster k fun c => { c with state := .idle, transfers := [], due := [] }

/-- Restore a core and its group's tile windows from a checkpoint (R211). -/
def SavedCore.restore (v : SavedCore) (c : Cluster) : Cluster :=
  { c with sregs := v.sregs, loops := v.loops, pc := v.pc, state := if v.state = .ended then .ended else c.state, sat := v.sat, nan := v.nan,
           grange := v.grange, rearm := v.rearm }

/-- Restore every core of a job. -/
def State.restoreJob (s : State) (places : List (Nat × Nat × Nat)) (cp : Checkpoint) : State :=
  places.foldl (fun s e =>
    let s := s.modUnit e.1 fun u => { u with tileWindows := cp.windows.at (64 * e.2.1 + e.2.2) u.tileWindows }
    s.forAll (List.range 32) fun s c => match cp.cores.find (coreKey e.2.1 e.2.2 c) with
      | some v => s.modCluster (32 * e.1 + c) v.restore
      | none => s) s

/-- The fills of a fenced job have run in an earlier beat (R282). -/
def State.filled (s : State) (id : Nat) : Bool := decide (1 ≤ (s.run id).fills) && decide (beatOf (s.run id).fencedAt < s.beat.toNat)

/-- Remap a restarting job and restore it (R208, R211); nothing changes while it does not fit. -/
def State.restartJob (s : State) (id : Nat) (j : Job) : State :=
  let p := s.programOf j
  let r := s.run id
  let t := s.freeGroups j
  match t.place p j.twin r.excluded with
  | none => s
  | some (a, c) =>
    let cp := r.restartFrom p.linked
    let t := (t.setGroups id p j.params a c).checkDescriptors id p a
    let j := { j with set0 := a, set1 := c, phase := .mapped, mapBeat := s.beat.toNat, jobBeat := (cp.map (·.beat)).getD 0, withheld := false, decision := none }
    let t := { t with work := { t.work with jobs := t.work.jobs.put id j } }
    let t := match cp with
      | some x => t.restoreJob j.places x
      | none => t
    let t := t.modRun id fun r => { r with
      pendingBank := none, restartNo := r.restartNo + 1, linkReady := [], linkStart := none, provisionalFailed := false
      windfall := [], badFrames := [], spoiled := [] }
    let t := t.count 0x002 1
    match p.link with
    | some l => (t.sendControl 3 (r.restartNo + 1) t.beat.toNat l.key (leNat (l.digest.take 4))).modRun id fun r =>
        { r with linkReady := [t.link.position.toNat] }
    | none => t

/-- An extent of the job still waits for its repair (R91). -/
def State.underRepair (s : State) (id : Nat) : Bool := s.work.kcDir.any fun e => e.jobs.contains id && e.repairing != []

/-- The checkpoint's copy fails when it is read (kind 0x06): the restart meets a restarting fault and counts as one (R285, R287;
DEDUCED, log entry 21). -/
def State.badCopy (s : State) (id : Nat) : State :=
  let s := s.raise managementUnit 0x06 0x804 0 0 s.now (BitVec.ofNat 16 id) false
  if 16 ≤ (s.run id).restarts then s.fenceTerminate id 0x06 else s.modRun id fun r => { r with restarts := r.restarts + 1 }

/-- JOB_RESTART (R91, R282). -/
def execJobRestart (job : BitVec 16) (s : State) : Out :=
  live s <|
    if !s.beating || s.rst.haltStarted then s
    else match s.job? job.toNat with
      | some j =>
        let id := job.toNat
        if j.phase = .fencedRestart && s.filled id && !s.underRepair id then
          let r := s.run id
          -- an older common checkpoint of a LINKED job is no longer in either half
          let kept := fun c => r.committed == some c || r.previous == some c
          if (r.restartFrom (s.programOf j).linked).any fun c => kept c && !s.copyWhole id c then s.badCopy id else s.restartJob id j
        else s
      | none => s

/-! ### JOB_DEADLINE -/

/-- JOB_DEADLINE (R204, R205, R287): the job has not finished by beat v + d. -/
def execJobDeadline (job : BitVec 16) (s : State) : Out :=
  live s <| match s.job? job.toNat with
    | some j =>
      if j.deadline ≠ 0 && decide (j.visible + j.deadline ≤ s.beat.toNat) && j.phase != .finished then
        s.endJob job.toNat fun j => { j with deadlineHit := true }
      else s
    | none => s

/-! ### JOB_COMPLETION (R325) -/

/-- Delete the areas a function-level reset left to their jobs (R308). -/
def State.reapAreas (s : State) : State :=
  { s with host := { s.host with areas := s.host.areas.filter fun e => !e.2.doomed || s.areaBusy e.2 } }

/-- A LOAD job that completed without fault leaves its groups PENDING with the model digest and R (R207, R219, R273). -/
def State.markResident (s : State) (j : Job) (p : Program) : State :=
  s.forAll j.groups fun s q => s.modGroup q fun g =>
    { g with residency := .pending, model := p.model, resRows := BitVec.ofNat 13 (p.residentBytes / 256),
             walkCounts := false, walkDone := false, absorbed := [] }

/-- Enter a receipt in the logs of the groups its job released on, the last 4,096 kept (R276). -/
def State.logReceipt (s : State) (r : JobRun) (serial fn : Nat) : State :=
  r.spans.foldl (fun s e =>
    let l := s.work.jobLogs.at e.1 [] ++ [⟨e.2.1, e.2.2, serial, fn⟩]
    { s with work := { s.work with jobLogs := s.work.jobLogs.put e.1 (l.drop (l.length - 4096)) } }) s

/-- A job lets go of its groups, extents and locks (R88, R313). -/
def State.releaseAll (s : State) (id : Nat) (j : Job) : State :=
  let dir := (s.work.kcDir.map fun e => { e with jobs := e.jobs.filter (· != id) }).filter fun e => e.jobs != []
  let s := { s with work := { s.work with
    kcDir := dir, jobs := s.work.jobs.del id, runs := s.work.runs.del id, completing := s.work.completing.del id } }
  ((s.freeGroups j).unlock (.job id)).reapAreas

/-- The final record of a job, and its receipt's serial where it released anything (R31, R325); a job that a function-level reset
cancelled gets no record (R308). -/
def State.finishJob (s : State) (id : Nat) (j : Job) : State :=
  let r := s.run id
  let st := s.finalStatus j
  let p := s.programOf j
  let receipt := j.lastOut.isSome
  let ks := ((s.keySet? p.ksid).map (·.digest)).getD (List.replicate 32 0)
  let (serial, s) := if receipt then s.nextSerial else (0, s)
  let s := if st = 0 && p.load then s.markResident j p else s
  let s := s.releaseAll id j
  let s := if receipt then
      let s := s.logReceipt r serial j.fn
      { s with work := { s.work with receiptsDue := s.work.receiptsDue ++ [{ job := j, run := r, status := st, serial := serial, prog := p, ksDigest := ks }] } }
    else s
  if j.silent then s
  else s.complete j.fn 3 st j.tag (jobBody id (j.releaseMark.getD 0) r.restarts (if st = 0x4C then r.kind else 0) serial j.complTag) receipt id

/-- JOB_COMPLETION (R325): the final record of a job that has ended, else the release record of a beat. -/
def execJobCompletion (job : BitVec 16) (s : State) : Out :=
  live s <| match s.job? job.toNat with
    | none => s
    | some j =>
      let id := job.toNat
      if j.phase = .finished || (j.phase = .fencedTerminate && 1 ≤ (s.run id).fills) then s.finishJob id j
      else match s.work.completing.find id with
        | some _ =>
          let s := { s with work := { s.work with completing := s.work.completing.del id } }
          if j.silent then s else s.complete j.fn 0x13 0 j.tag (jobBody id (j.releaseMark.getD 0) (s.run id).restarts 0 0 j.complTag) false id
        | none => s

/-! ### EXTENT_DIGEST_DONE: the Kentia receipt (R384, R385) -/

/-- One input or output entry. -/
def receiptEntry (e : Nat × Nat × Nat × Nat × Nat) (digest : List Byte) : List Byte :=
  leBytes 1 e.2.1 ++ leBytes 1 e.2.2.1 ++ leBytes 1 e.1 ++ leBytes 5 0 ++ leBytes 8 e.2.2.2.1 ++ digest

/-- The receipt's flags. -/
def State.receiptFlags (s : State) (d : ReceiptDue) (p : Program) : Nat :=
  s.mode.sealedTrust.toNat + 2 * s.mode.factory.toNat + 4 * d.job.twin.toNat + 8 * p.linked.toNat +
  16 * (d.run.faults.any fun w => recWord w 1 / 2 ^ 61 % 2 == 1).toNat + 32 * d.run.faultsTruncated.toNat

/-- The receipt before its signature. -/
def State.receiptBytes (s : State) (d : ReceiptDue) : List Byte :=
  let p := d.prog
  let ins := jobExtents p d.job.params false
  let outs := jobExtents p d.job.params true
  let ie := (ins.zipIdx).flatMap fun e => receiptEntry e.1 (d.run.inputDigests.getD e.2 (List.replicate 32 0))
  let oe := outs.flatMap fun e => receiptEntry e (digest32 (s.mem.fetch e.2.2.2.1 e.2.2.2.2))
  let f := d.run.faults
  let r := d.run.recalls
  let len := 256 + 48 * (ins.length + outs.length) + 32 * f.length + 8 * r.length + 3309
  leBytes 1 0x0C ++ leBytes 1 1 ++ leBytes 2 (s.receiptFlags d p) ++ leBytes 4 len ++ leBytes 8 d.serial ++ identityDigest ++ s.ownerDigest ++
  slice p.digest 0 32 ++ d.ksDigest ++ slice p.model 0 32 ++ slice d.run.configDigest 0 32 ++ leBytes 2 d.job.id.toNat ++ leBytes 1 d.job.fn ++
  leBytes 1 d.status ++ leBytes 4 d.job.complTag.toNat ++ leBytes 6 d.job.jobBeat0 ++ leBytes 2 d.run.restarts ++ leBytes 4 (d.job.releaseMark.getD 0) ++
  leBytes 1 d.job.groupCount ++ leBytes 1 s.fuses.ownerEpoch.toNat ++ leBytes 1 s.fuses.securityVersion.toNat ++ leBytes 1 s.fuses.retired.length ++
  leBytes 1 s.fuses.grade.toNat ++ leBytes 1 s.fuses.stepping.toNat ++ leBytes 1 s.fuses.sealDisabled.toNat ++ leBytes 1 0 ++
  leBytes 2 ins.length ++ leBytes 2 outs.length ++ leBytes 2 f.length ++ leBytes 2 r.length ++ leBytes 12 0 ++ ie ++ oe ++
  f.flatMap wordsBytes ++ wordsBytes r

/-- EXTENT_DIGEST_DONE (R31, R366, R385): a finished job's receipt is signed and delivered; without a healthy DRBG it waits. -/
def execExtentDigestDone (job : BitVec 16) (s : State) : Out :=
  live s <| match s.work.receiptsDue.find? fun d => d.job.id == job with
    | none => s
    | some d =>
      if !s.sec.drbgOk then s.restartTests
      else
      let body := s.receiptBytes d
      let (sig, s) := s.sign "LNM-KENTIA" body
      let s := { s with work := { s.work with receiptsDue := s.work.receiptsDue.filter fun x => x.serial != d.serial } }
      s.receiptItem d.job.fn 1 (body ++ sig) job.toNat

end Sys2Proof.Machine
end

