-- ==== Sys2Proof/Machine/HostPort.lean ====
section
/-!
DEFINITION. HostPort: the PCI Express side of the host attachment (R307 to R314, R322, R327 to R330, R333, R334): BAR2,
configuration requests, function-level resets, power states, events, rings and the write-to-clear registers.
-/
namespace Sys2Proof.Machine

/-! ### Register accesses (R310) -/

/-- The bits of a 64-bit register that an access writes. -/
def accessMask (w : AccessWidth) : Word64 :=
  match w with
  | .full => 0xFFFFFFFFFFFFFFFF
  | .lowHalf => 0x00000000FFFFFFFF
  | .highHalf => 0xFFFFFFFF00000000

/-- The value an access carries, in register position. -/
def accessValue (w : AccessWidth) (v : Word64) : Word64 :=
  match w with
  | .full => v
  | .lowHalf => v &&& 0xFFFFFFFF
  | .highHalf => v <<< 32

/-- A register of old value `old` after an access. -/
def accessWrite (w : AccessWidth) (old v : Word64) : Word64 := (old &&& ~~~accessMask w) ||| accessValue w v

/-- The access reaches a function: host-ready and the attachment not in reset; the PF's blocks are the PF's only (R308,
R310). -/
def State.hostOpen (s : State) : Bool := s.rst.hostReady && !s.host.pcieHeld

/-! ### BAR2 (R309, R311, R314) -/

/-- The HBM address of a BAR2 byte and whether the window holds it. -/
def State.bar2Addr (s : State) (fn o : Nat) : Nat × Bool :=
  let f := s.func fn
  if fn = 0 then (s.host.bar2Base.toNat * 2 ^ 30 + o, true)
  else (f.allotBase.toNat * 65536 + o, decide (o < f.allotLen.toNat * 65536))

/-- Bytes of an access from offset `o` that the window holds. -/
def State.bar2Span (s : State) (fn o n : Nat) : Nat := ((List.range n).takeWhile fun i => (s.bar2Addr fn (o + i)).2).length

/-- BAR2_WRITE (R311, R313, R314, R330). -/
def execBar2Write (fn : Fin 17) (offset : BitVec 36) (data : List Byte) (onStream : Bool) (s : State) : Out :=
  live s <|
    if !s.hostOpen then s
    else if s.ideRequired && !onStream then s.countRefused fn
    else
      let n := s.bar2Span fn offset.toNat data.length
      let (refused, t) := s.hostWrite fn (s.bar2Addr fn offset.toNat).1 (data.take n)
      if refused || n < data.length then t.countRefused fn else t

/-- BAR2_READ (R311, R313, R314, R330). -/
def execBar2Read (fn : Fin 17) (offset : BitVec 36) (length : Nat) (onStream : Bool) (s : State) : Out :=
  live s <|
    if !s.hostOpen then s
    else
      let n := if s.ideRequired && !onStream then 0 else s.bar2Span fn offset.toNat length
      let (data, refused, bad) := s.hostRead fn (s.bar2Addr fn offset.toNat).1 n
      let s := { s with host := { s.host with lastRead := data ++ List.replicate (length - n) 0xFF } }
      let s := if refused || n < length then s.countRefused fn else s
      if bad = 0 then s else s.countPoison fn

/-! ### Configuration requests (R308) -/

/-- CONFIG_REQUEST (R308, R422, R423): request retry until host-ready, and while tripped or halted; then a reply whose
content no rule gives (log entry 4). -/
def execConfigRequest (fn : Fin 17) (a : ConfigAccess) (s : State) : Out :=
  live s <|
    if s.host.pcieHeld then s
    else if !s.rst.hostReady || s.rst.tripped || s.rst.halted then s.modFunc fn fun f => { f with cfgRetry := true }
    else match a.write with
      | some _ => s.modFunc fn fun f => { f with cfgRetry := false }
      | none =>
        let (w, s) := s.takeFree 1
        s.modFunc fn fun f => { f with cfgRetry := false, cfgReply := w.headD 0 }

/-! ### Function-level resets (R308) -/

/-- The event block, rings and sequences of a function after its reset; its counters, quota, allotment and backlogs stay. -/
def Func.flr (f : Func) : Func :=
  { f with
    cq := { f.cq with enabled := false }, rq := { f.rq with enabled := false }, seq := 0, rqSeq := 0
    evPending := 0, evActive := 0, evMask := 0xFFFF, evVector := Vector.replicate 16 0, msixPending := 0
    msixMask := 0xFFFFFFFFFFFFFFFF, msixTable := [], d3hot := false }

/-- The effect of a function-level reset on one function: its jobs are cancelled without a completion, those queued too that have
not entered the table, its entries in the FIFO are discarded, its areas go as soon as no job holds them. -/
def State.flr (s : State) (fn : Nat) : State :=
  let ids := (s.work.jobs.filter fun e => e.2.fn == fn).map (·.1)
  let s := s.forAll ids fun s id => (s.endJob id fun j => if j.phase = .finished then j else { j with cancelled := true }).modJob id fun j =>
    { j with silent := true }
  let areas := s.host.areas.map fun e => if e.2.owner = fn then (e.1, { e.2 with doomed := true }) else e
  let s := { s with host := { s.host with
    fifo := s.host.fifo.filter fun e => e.fn != fn, areas := areas
    visible := s.host.visible.filter fun e => e.fn != fn || e.type != 3 } }
  (s.modFunc fn Func.flr).reapAreas

/-- VF_FUNCTION_LEVEL_RESET (R308). -/
def execVfFunctionLevelReset (vf : Fin 16) (s : State) : Out := live s (if !s.hostOpen then s else s.flr (vf + 1))

/-- The PF and every VF. -/
def State.flrAll (s : State) : State := s.forAll (List.range 17) State.flr

/-- PF_FUNCTION_LEVEL_RESET (R308): key sets, programs, residency and checkpoints are kept. -/
def execPfFunctionLevelReset (s : State) : Out := live s (if !s.hostOpen then s else s.flrAll)

/-- A filtered input's level (R462, R468). -/
def State.setPin (s : State) (i : Nat) (active : Bool) : State :=
  { s with pins := { s.pins with active := if active then setBit s.pins.active i else clearBit s.pins.active i } }

/-- What the link trained to: width, rate and mode that no rule fixes are free values (log entry 4); FLIT mode is used at
64 GT/s and above (R307). -/
def State.trainHost (s : State) : State :=
  let (w, s) := s.takeFree 1
  let x := (w.headD 0).toNat
  let rate := 1 + x / 4 % 7
  { s with host := { s.host with
      linkWidth := BitVec.ofNat 4 (2 ^ (x % 4)), linkRate := BitVec.ofNat 4 rate, flit := decide (6 ≤ rate) || x / 64 % 2 == 1 } }

/-- The host attachment is reset and held while PE_PERST_N is active (R308, R463). -/
def State.pePerst (s : State) (active : Bool) : State :=
  let s := s.setPin 1 active
  if active then
    let s := s.flrAll
    { s with host := { s.host with pcieHeld := true, linkWidth := 0, linkRate := 0, flit := false } }
  else if s.host.pcieHeld then ({ s with host := { s.host with pcieHeld := false } }).trainHost
  else s

/-- PE_PERST_N (R308, R463). -/
def execPePerstN (active : Bool) (s : State) : Out := live s (s.pePerst active)

/-! ### MSI-X (R328) -/

/-- A message of a vector: it waits in the pending-bit array while the vector is masked or nothing can be sent. -/
def State.message (s : State) (fn v : Nat) : State :=
  let f := s.func fn
  if f.msixMask.getLsbD v || !s.canSend fn then s.modFunc fn fun f => { f with msixPending := setBit f.msixPending v }
  else
    let a := (f.msixTable.at (2 * v) 0).toNat
    let d := (f.msixTable.at (2 * v + 1) 0).toNat % 2 ^ 32
    { s with host := { s.host with hostRam := ramWriteN s.host.hostRam a (leBytes 4 d) } }

/-- A waiting message whose vector is unmasked goes out. -/
def State.releaseMessage (s : State) (fn v : Nat) : State :=
  let f := s.func fn
  if f.msixPending.getLsbD v && !f.msixMask.getLsbD v && s.canSend fn then
    (s.modFunc fn fun f => { f with msixPending := clearBit f.msixPending v }).message fn v
  else s

/-- MSIX_VECTOR_UNMASK (R328). -/
def execMsixVectorUnmask (fn : Fin 17) (vector : Fin 64) (s : State) : Out :=
  live s <|
    if !s.hostOpen then s
    else
      let s := s.modFunc fn fun f => { f with msixMask := clearBit f.msixMask vector
                                              msixTable := f.msixTable.modify (2 * vector.val + 1) 0 fun x => x &&& 0xFFFFFFFEFFFFFFFF }
      s.releaseMessage fn vector

/-! ### The event controller (R327 to R329) -/

/-- Sources a function has: a VF's are 0 to 3 (R329). -/
def sourcesOf (fn : Nat) : Nat := if fn = 0 then 10 else 4

/-- A source that is pending, unmasked and not active is taken: it becomes active and its message is sent. -/
def State.take (s : State) (fn src : Nat) : State :=
  let f := s.func fn
  if f.evPending.getLsbD src && !f.evMask.getLsbD src && !f.evActive.getLsbD src then
    (s.modFunc fn fun f => { f with evPending := clearBit f.evPending src, evActive := setBit f.evActive src }).message fn
      (f.evVector.toList.getD src 0).toNat
  else s

/-- The completion of a source is written (R327). -/
def State.completeSource (s : State) (fn src : Nat) : State :=
  let f := s.func fn
  if !f.evActive.getLsbD src then s.modFunc fn fun f => { f with evStray := satInc f.evStray }
  else (s.modFunc fn fun f => { f with evActive := clearBit f.evActive src }).take fn src

/-- The sources of a function among the bits of a value. -/
def sourceBits (fn : Nat) (v : Word64) : List Nat := (List.range (sourcesOf fn)).filter fun i => v.getLsbD i

/-- EVENT_SOURCE_FIRE (R327). -/
def execEventSourceFire (fn : Fin 17) (source : Fin 10) (s : State) : Out :=
  live s (if source.val < sourcesOf fn then s.fire fn source else s)

/-- EVENT_TAKEN (R327, R328). -/
def execEventTaken (fn : Fin 17) (source : Fin 10) (s : State) : Out :=
  live s (if source.val < sourcesOf fn then s.take fn source else s)

/-- EV_SET (R310, R334): a write-only field, so a full write only. -/
def execEvSet (fn : Fin 17) (v : Word64) (w : AccessWidth) (s : State) : Out :=
  live s (if !s.hostOpen || w != .full then s else s.forAll (sourceBits fn v) fun s i => s.fire fn i)

/-- EV_COMPLETE (R310, R327). -/
def execEvComplete (fn : Fin 17) (v : Word64) (w : AccessWidth) (s : State) : Out :=
  live s (if !s.hostOpen || w != .full then s else s.forAll (sourceBits fn v) fun s i => s.completeSource fn i)

/-- The mask after a write; bits of no source are reserved. -/
def writeMask (fn : Nat) (old : BitVec 16) (v : Word64) (w : AccessWidth) : BitVec 16 :=
  let x := (accessWrite w (old.zeroExtend 64) v).truncate 16
  let used : BitVec 16 := if fn = 0 then 0x3FF else 0xF
  (x &&& used) ||| (old &&& ~~~used)

/-- EV_MASK_WRITE (R327, R334). -/
def execEvMaskWrite (fn : Fin 17) (v : Word64) (w : AccessWidth) (s : State) : Out :=
  live s <|
    if !s.hostOpen then s
    else
      let s := s.modFunc fn fun f => { f with evMask := writeMask fn f.evMask v w }
      s.forAll (List.range (sourcesOf fn)) fun s i => s.take fn i

/-! ### Rings (R333) -/

/-- A write of a ring's LOG2 and EN word. -/
def HostRing.control (r : HostRing) (v : Word64) (bits : Nat) : HostRing :=
  let log2 := if r.enabled then r.log2 else BitVec.ofNat 5 (v.toNat % 2 ^ bits)
  let on := v.getLsbD 8
  if on && !r.enabled then { r with log2 := log2, enabled := true, head := 0, tail := 0, phase := true }
  else { r with log2 := log2, enabled := on }

/-- RING_ENABLE (R333). -/
def execRingEnable (fn : Fin 17) (receipts : Bool) (v : Word64) (s : State) : Out :=
  live s <|
    if !s.hostOpen then s
    else s.modFunc fn fun f => if receipts then { f with rq := f.rq.control v 4 } else { f with cq := f.cq.control v 5 }

/-! ### Sticky bits and the log (R293, R306) -/

/-- Keys of `severe` whose sticky bit is clear. -/
def FaultUnit.sticking (f : FaultUnit) (key : Nat) : Bool :=
  if key < 100 then f.stickyGroups.getLsbD key else if key < 200 then f.stickyMsd.getLsbD (key - 100) else f.stickyIo.getLsbD (key - 200)

/-- Clear sticky bits; FAULT_N rises when the last severe source is cleared. -/
def FaultUnit.clear (f : FaultUnit) (reg : Nat) (v : Word64) : FaultUnit :=
  let x := v.toNat
  let f := match reg with
    | 0 => { f with stickyGroups := f.stickyGroups &&& ~~~BitVec.ofNat 68 (x % 2 ^ 64) }
    | 1 => { f with stickyGroups := f.stickyGroups &&& ~~~BitVec.ofNat 68 (x % 16 * 2 ^ 64) }
    | _ => { f with stickyMsd := f.stickyMsd &&& ~~~BitVec.ofNat 4 x, stickyIo := f.stickyIo &&& ~~~BitVec.ofNat 10 (x / 256) }
  let left := f.severe.filter f.sticking
  { f with severe := left, faultN := f.faultN || left == [] }

/-- STICKY_CLEAR (R293, R306, R310). -/
def execStickyClear (reg : Fin 3) (v : Word64) (w : AccessWidth) (s : State) : Out :=
  live s (if !s.hostOpen || w != .full then s else { s with faults := s.faults.clear reg v })

/-- LOG_TAIL_WRITE (R306). -/
def execLogTailWrite (v : Word32) (s : State) : Out :=
  live s <|
    let f := s.faults
    if !s.hostOpen then s
    else if (f.logHead - v).toNat ≤ (f.logHead - f.logTail).toNat then { s with faults := { f with logTail := v } } else s

/-! ### Power states (R308) -/

/-- D3HOT_ENTRY (R308). -/
def execD3hotEntry (fn : Fin 17) (s : State) : Out := live s (if !s.hostOpen then s else s.modFunc fn fun f => { f with d3hot := true })

/-- D0_RETURN (R308, R323, R328): waiting messages go out and the backlog drains. -/
def State.returnD0 (s : State) (fn : Nat) : State :=
  let s := s.modFunc fn fun f => { f with d3hot := false }
  let s := s.forAll (List.range 64) fun s v => s.releaseMessage fn v
  s.drainBacklog fn

/-- D0_RETURN (R308). -/
def execD0Return (fn : Fin 17) (s : State) : Out := live s (if !s.hostOpen then s else s.returnD0 fn)

/-! ### IDE (R330) -/

/-- IDE_KM (R330, R357, R359): a stream of the function gets its keys; the response is signed with the identity key. -/
def execIdeKm (fn : Fin 17) (stream : BitVec 8) (s : State) : Out :=
  live s <|
    if !s.hostOpen then s
    else if !s.sec.drbgOk then s.restartTests
    else
      let limit := if fn.val = 0 then 8 else 1
      let s := s.draw 32
      s.modFunc fn fun f => if f.streams.contains stream || limit ≤ f.streams.length then f else { f with streams := f.streams ++ [stream] }

end Sys2Proof.Machine
end

