-- ==== Sys2Proof/Machine/Issue.lean ====
section
/-!
DEFINITION. Issue: the issue port of a cluster core (R170 to R173), the issue check of a command (R179 to R185,
R470), engine occupancy, and Sheepdog's record of a violation (R231, R232).
-/
namespace Sys2Proof.Machine

/-! ### Faults of a cluster -/

/-- The job holding a physical group, as a job ID. -/
def State.jobId (s : State) (p : Nat) : BitVec 16 := (s.group p).job

/-- A unit of a cluster raises a fault (R289, R290, R295): engine and sub-unit codes, kind, OP, TAG, the address it
stands for and the cycle of the fire. -/
def State.clusterFault (s : State) (k engine sub kind op tag addr at_ : Nat) (poisoned : Bool) : State :=
  s.raise (clusterUnit k engine sub) kind op tag addr at_ (s.jobId (k / 32)) poisoned

/-- A fault of a group's RME, Pip expander or group buffer (R295: the cluster field is 0). -/
def State.groupFault (s : State) (p engine sub kind op tag addr at_ : Nat) (poisoned : Bool) : State :=
  s.raise (groupUnit p 0 engine sub) kind op tag addr at_ (s.jobId p) poisoned

/-- Engine code of a record from a command's ENGINE field (R179, R295); 9 stands for the RME's store path (R130). -/
def engineCode (e : Nat) : Nat :=
  match e with
  | 1 => 1
  | 2 => 2
  | 3 => 3
  | 4 => 4
  | 6 => 6
  | 8 => 6
  | 9 => 6
  | _ => 0

/-- The issue port's own fault (R174, R175, R183): ISSUE_CHECK or WAITC_LATE, TAG the item's word index. -/
def State.issueFault (s : State) (k kind op : Nat) : State :=
  let c := s.cluster k
  s.clusterFault k 0 2 kind op c.pc.toNat c.pc.toNat c.nextAt false

/-- Sheepdog notes a violation of check `check` by the item at `word` (R231); its verdict falls two cycles after `at_`
(R232). -/
def State.violateBy (s : State) (k word check engine ring op at_ addr : Nat) (refused : Bool) : State :=
  s.modCluster k fun c => { c with due := c.due ++ [{ at_ := at_ + 2, check := check, engine := engine, ring := ring,
                                                      op := op, addr := addr, refusedIssue := refused, word := word }] }

/-- A violation by the item cluster `k` issued last. -/
def State.violate (s : State) (k check engine ring op at_ addr : Nat) (refused : Bool) : State :=
  s.violateBy k (s.cluster k).lastItem check engine ring op at_ addr refused

/-! ### The issue port -/

/-- A job runs on the group: mapped, started and not fenced (R29, R300). -/
def State.jobRuns (s : State) (p : Nat) : Bool :=
  match s.jobOf p with
  | some j => j.phase == .running
  | none => false

/-- The core's stream stands in the current beat and its job runs (R170, R300). -/
def State.streamLive (s : State) (k : Nat) : Bool :=
  (s.cluster k).state == .issuing && s.jobRuns (k / 32) && beatOf (s.cluster k).nextAt == s.beat.toNat

/-- The next item may issue: `cost` cycles of the stream fit before cycle 59,392 (R171). -/
def State.canIssue (s : State) (k cost : Nat) : Bool :=
  s.streamLive k && decide (s.cycle.toNat < windowEnd) && decide (cycleOf (s.cluster k).nextAt + cost ≤ windowEnd)

/-- The item lies within the image: its last word is not past the image's last (R174). -/
def State.fetches (s : State) (k words : Nat) : Bool :=
  decide ((s.cluster k).pc.toNat + words ≤ (s.cluster k).image.length)

/-- The stream moves past an item of `words` words that took `cost` issue cycles. -/
def State.advance (s : State) (k words cost : Nat) : State :=
  s.modCluster k fun c => { c with lastItem := c.pc.toNat, pc := c.pc + BitVec.ofNat 32 words, nextAt := c.nextAt + cost }

/-- Stamp the issue of a command (R172). -/
def State.stamp (s : State) (k at_ : Nat) : State := s.modCluster k fun c => { c with issueAt := at_, issued := true }

/-- Run an item of the stream: nothing where the port is not issuing; a fetch past the image raises ISSUE_CHECK. -/
def State.item (s : State) (k words cost op : Nat) (f : State → State) : State :=
  if !s.canIssue k cost then s else if !s.fetches k words then s.issueFault k 0x23 op else f s

/-- OP of an instruction (R296). -/
def instrOp (major : Nat) : Nat := 0x400 + major

/-- A scalar register; s0 reads 0 (R167). -/
def Cluster.sreg (c : Cluster) (i : Nat) : Word64 := if i = 0 then 0 else c.sregs.toList.getD i 0
/-- Write a scalar register; a write to s0 is discarded (R167). -/
def Cluster.setSreg (c : Cluster) (i : Nat) (v : Word64) : Cluster :=
  if i = 0 then c else if h : i < 32 then { c with sregs := c.sregs.set i v h } else c
/-- A parameter register (R167). -/
def Cluster.param (c : Cluster) (i : Nat) : Word64 := c.params.toList.getD i 0

/-! ### What a command may name (R185) -/

/-- Which operand kinds a position allows. -/
structure Kinds where
  ring : Bool := false
  peek : Bool := false
  tile : Bool := false
  hand : Bool := false
  none : Bool := false
deriving DecidableEq, Repr

/-- Kinds of R185, in its letters. -/
def kR : Kinds := { ring := true }
@[inherit_doc kR] def kP : Kinds := { peek := true }
@[inherit_doc kR] def kRH : Kinds := { ring := true, hand := true }
@[inherit_doc kR] def kRT : Kinds := { ring := true, tile := true }
@[inherit_doc kR] def kNone : Kinds := { none := true }

/-- An operand is of an allowed kind. -/
def Kinds.allows (k : Kinds) : Operand → Bool
  | .none => k.none
  | .handover => k.hand
  | .ring _ => k.ring
  | .peek _ => k.peek
  | .tile _ => k.tile
  | .reserved => false

/-- The fields of R185 a command uses: COUNT's range, the SPEC values, whether it walks residues, its word 3. -/
structure Shape where
  countLo : Nat := 1
  countHi : Nat := 65536
  spec : Nat → Bool := fun x => x == 0
  walk : Bool := false
  noW : Bool := false
  anyWalk : Bool := false
  flagF : Bool := false
  word3 : Bool := false
  objFlags : Bool := false
  tagp : Bool := false
  rset : Bool := false
  lead : Bool := false
  a : Kinds := kNone
  b : Kinds := kNone
  c : Kinds := kNone
  d : Kinds := kNone
  e : Kinds := kNone

/-- Every operand of the command names a tile register or not. -/
def usesTile (c : CmdWord) : Bool :=
  [cmdA c, cmdB c, cmdC c, cmdD c, cmdE c].any fun o => match o with
    | .tile _ => true
    | _ => false

/-- The walk of R102: every index named has a modulus in the set. -/
def walkOk (r : ResidueSet) (r0 w : Nat) : Bool :=
  decide (1 ≤ w ∧ w ≤ 80) && (List.range w).all fun i => r.modulus (r0 + i) != 0

/-- The fields agree with the command's shape (R179 to R183, R185, R470), its residue set is one of the key set. -/
def shapeOk (x : Ctx) (sh : Shape) (c : CmdWord) (lead : Bool) : Bool :=
  decide (sh.countLo ≤ cmdCount c ∧ cmdCount c ≤ sh.countHi) && sh.spec (cmdSpec c) && cmdW3mode c != 3 &&
  (if sh.anyWalk then true else if sh.walk then walkOk (x.rset (cmdRset c)) (cmdR0 c) (cmdW c)
   else if sh.noW then cmdW c == 0 else cmdR0 c == 0 && cmdW c == 0) &&
  (sh.flagF || !cmdF c) && (sh.word3 || (cmdW3mode c == 0 && c.w3 == 0)) &&
  (cmdW3mode c != 2 || !c.w3.getLsbD 5) &&
  (sh.objFlags || (!cmdObjStart c && !cmdObjEnd c)) && (sh.tagp || cmdTagp c == 0) &&
  (if sh.rset then (match x.ks with | some k => decide (cmdRset c < k.rsets.length) | none => false)
   else cmdRset c == 0) &&
  sh.a.allows (cmdA c) && sh.b.allows (cmdB c) && sh.c.allows (cmdC c) && sh.d.allows (cmdD c) &&
  sh.e.allows (cmdE c) && decide (c.w1.toNat < 2 ^ 30) && (lead || !(sh.lead || usesTile c))

/-- The rings a command names. -/
def cmdRings (c : CmdWord) : List Nat := [cmdA c, cmdB c, cmdC c, cmdD c, cmdE c].filterMap Operand.ringNo?

/-- The first ring a command names that its image does not declare (R215, R231). -/
def State.undeclared (s : State) (k : Nat) (c : CmdWord) : Option Nat :=
  (cmdRings c).find? fun r => (s.ring k r).size == 0

/-- The engine of a cluster is free at `t` (R172). -/
def State.engineFree (s : State) (k engine t : Nat) : Bool := decide ((s.cluster k).busy.at engine 0 ≤ t)
/-- Occupy an engine of a cluster until `t`. -/
def State.occupy (s : State) (k engine t : Nat) : State :=
  s.modCluster k fun c => { c with busy := c.busy.put engine (max t (c.busy.at engine 0)) }

/-- A USE job's resident rings are only peeked (R219): the ring a command would push or pop there. -/
def State.residentBreach (s : State) (k : Nat) (x : Ctx) (c : CmdWord) : Bool :=
  x.prog.use && [cmdA c, cmdB c, cmdC c, cmdD c, cmdE c].any fun o => match o with
    | .ring r => (s.ring k r).resident
    | _ => false

/-- The outcome of the checks at the issue port. -/
inductive Guard where
  | pass | issueCheck | range (ring : Nat) | occupied
deriving DecidableEq, Repr

/-- The checks before a command's own: fields and kinds (R183), declared rings (R231), engine occupancy (R172). -/
def State.guard (s : State) (k : Nat) (x : Ctx) (sh : Shape) (c : CmdWord) (engine t : Nat) : Guard :=
  if !shapeOk x sh c (k % 32 == 0) || s.residentBreach k x c then .issueCheck
  else match s.undeclared k c with
    | some r => .range r
    | none => if s.engineFree k engine t then .pass else .occupied

/-- What a command's own checks by Sheepdog find before it is issued: check, engine and ring (R231). -/
abbrev Barred := Option (Nat × Nat × Nat)

/-- A command at the port: refused with ISSUE_CHECK, refused by Sheepdog (address range, occupancy, and what `bar` adds), or
run. -/
def State.command (s : State) (k : Nat) (c : CmdWord) (sh : Shape) (engine : Nat) (own : State → Ctx → Bool)
    (run : State → Ctx → Nat → State) (bar : State → Ctx → Nat → Barred := fun _ _ _ => none) : State :=
  s.item k 4 1 (cmdOp c) fun s =>
    let t := (s.cluster k).nextAt
    match s.ctx? k with
    | none => s
    | some x =>
      let next := s.advance k 4 1
      match s.guard k x sh c engine t with
      | .issueCheck => (s.issueFault k 0x23 (cmdOp c)).advance k 4 1
      | .range r => next.violate k 2 (engineCode engine) r (cmdOp c) t 0 true
      | .occupied => next.violate k 5 (engineCode engine) 0 (cmdOp c) t 0 true
      | .pass => if own s x then match bar s x t with
          | some b => next.violate k b.1 b.2.1 b.2.2 (cmdOp c) t 0 true
          | none => run (next.stamp k t) x t
        else (s.issueFault k 0x23 (cmdOp c)).advance k 4 1

/-- The four words of the item cluster `k` stands at. -/
def State.itemWords (s : State) (k words : Nat) : List Word32 := ((s.cluster k).image.drop (s.cluster k).pc.toNat).take words

/-- The clusters of `ks` that stand at an item of `words` words and can issue it in cycle `t`, `cost` cycles of the port. -/
def State.ready (s : State) (ks : List Nat) (words cost t : Nat) : List Nat :=
  ks.filter fun k => s.canIssue k cost && s.fetches k words && (s.cluster k).nextAt == t

/-- The clusters issue the item together: all of them, in one cycle, with the same words (R187, R225, R231). -/
def State.together (s : State) (ks : List Nat) (words cost t : Nat) : Bool :=
  s.ready ks words cost t == ks && ks.all fun k => s.itemWords k words == s.itemWords (ks.headD 0) words

/-- The engines a command takes, and whether the clusters `ks` have them free at `t` (R109, R172). -/
def State.enginesFree (s : State) (ks engines : List Nat) (t : Nat) : Bool :=
  ks.all fun k => engines.all fun e => s.engineFree k e t

/-- A group command (R187, R225): the clusters `ks` issue it together, in the first core's cycle. An issue that differs is a
lockstep violation at the first core; the command then runs with its outputs poisoned (R232), as the code `run` is given
says. `engines` are those it takes, the first the one it names; `bar` adds what Sheepdog refuses. -/
def State.clustersCommand (s : State) (ks : List Nat) (p : Nat) (c : CmdWord) (sh : Shape) (engines : List Nat)
    (own : State → Ctx → Bool) (run : State → Ctx → Nat → List Nat → Nat → State)
    (bar : State → Ctx → Nat → Barred := fun _ _ _ => none) : State :=
  let k0 := ks.headD (32 * p)
  let engine := engines.headD 0
  s.item k0 4 1 (cmdOp c) fun s =>
    let t := (s.cluster k0).nextAt
    match s.ctx? k0 with
    | none => s
    | some x =>
      let issuing := s.ready ks 4 1 t
      let passed := issuing.foldl (fun s k => s.advance k 4 1) s
      let next := issuing.foldl (fun s k => s.stamp k t) passed
      if !shapeOk x sh c (k0 % 32 == 0 || !sh.lead) || s.residentBreach k0 x c || !own s x then
        (s.issueFault k0 0x23 (cmdOp c)).advance k0 4 1
      else match ks.find? fun k => (s.undeclared k c).isSome with
        | some k => passed.violate k 2 (engineCode engine) ((s.undeclared k c).getD 0) (cmdOp c) t 0 true
        | none =>
          match engines.find? fun e => !s.enginesFree ks [e] t with
          | some e => passed.violate k0 5 (engineCode e) 0 (cmdOp c) t 0 true
          | none => match bar s x t with
            | some b => passed.violate k0 b.1 b.2.1 b.2.2 (cmdOp c) t 0 true
            | none => if s.together ks 4 1 t then run next x t ks 0 else run (next.violate k0 4 engine 0 (cmdOp c) t 0 false) x t ks 0x0C

/-- A group command of a transform's span (R40). -/
def State.groupCommand (s : State) (p : Nat) (c : CmdWord) (sh : Shape) (engines : List Nat) (own : State → Ctx → Bool)
    (run : State → Ctx → Nat → List Nat → Nat → State) : State :=
  s.clustersCommand (s.spanClusters p) p c sh engines own run

/-- The header context of a command (R48, R49, R179). -/
def State.headCtx (s : State) (k : Nat) (x : Ctx) (c : CmdWord) (npoly : Nat) : HeadCtx :=
  { ks := x.ks, prog := x.prog, jobId := x.job.id.toNat, tag := ((s.cluster k).param (cmdTagp c)).toNat % 2 ^ 32,
    rset := cmdRset c, level := cmdW c, npoly := npoly, provisional := (s.run x.job.id.toNat).provisionalFailed }

/-- A segment of an operand as the header check sees it. -/
def State.segmentInput (s : State) (k : Nat) (o : Operand) (g : Segment) : HeadInput :=
  if s.operandIsObject k o then { obj := true, hdr := g.hdr, code := g.hdr.poison, decl := g.decl }
  else { noInput with code := g.code }

/-- An input operand as the header check sees it (R217): a raw ring without an entry reads clean. -/
def State.headInput (s : State) (k : Nat) (o : Operand) : HeadInput :=
  match s.operandSegment k o with
  | some g => s.segmentInput k o g
  | none => noInput

/-- An input that `rows` rows of the clusters `ks` make up (R54, R135): the first cluster's, with the first poison code that any
segment of it brings. -/
def State.spanInput (s : State) (ks : List Nat) (o : Operand) (rows : Nat) : HeadInput :=
  let i := s.headInput (ks.headD 0) o
  { i with code := ((i.code :: ks.flatMap fun k => (s.operandSegments k o 0 rows).map fun g => (s.segmentInput k o g).code).find? (· != 0)).getD 0 }

/-- An input of VE.TENSOR in a BFV product: a raw segment counts with the header it carries (R148). -/
def State.productInput (s : State) (k : Nat) (o : Operand) : HeadInput :=
  match s.operandSegment k o with
  | some g => if g.carried then { obj := true, hdr := g.hdr, code := g.code } else s.headInput k o
  | none => noInput

/-- Operand rows were loaded from an intake area (R39): the ring's descriptor loads through a register of role 4. -/
def State.fromIntake (s : State) (k : Nat) (o : Operand) : Bool :=
  match o with
  | .ring r => (s.ring k r).desc.role == 4
  | .peek r => (s.ring k r).desc.role == 4
  | _ => false

/-- Row index in its scratchpad of row `i` of an operand, the TAG of a record (R296). -/
def State.operandTag (s : State) (k : Nat) (o : Operand) (i : Nat) : Nat :=
  match o.ringNo? with
  | some r => (s.ring k r).base.toNat + (s.ring k r).at i
  | none => 0

/-- The kind recorded when a job consumes an object that was stored poisoned (R53): a restarting code restarts it, a
deterministic one terminates it. -/
def consumedKind (code : Nat) : Nat :=
  match code with
  | 0x01 => 0x08
  | 0x0C => 0x08
  | 0x0D => 0x08
  | 0x0E => 0x53
  | _ => refusalKind code

/-- A command consumes an object that was loaded poisoned: the job meets its code (R53, log entry 17). -/
def State.consumeLoaded (s : State) (k engine : Nat) (o : Operand) (code op t : Nat) : State :=
  match o.ringNo? with
  | some r =>
    if code ≠ 0 && (match (s.ring k r).segment? with | some sg => sg.loaded && sg.hdr.poison == code | none => false) then
      let tag := s.operandTag k o 0
      s.clusterFault k engine 0 (consumedKind code) op tag (scratchRow k tag) t true
    else s
  | none => s

/-- The free words a command consumed are spent. -/
def State.spend (s : State) (n : Nat) : State := { s with free := s.free + n }

/-- The data check of R39 on operand words: MALFORMED_RESIDUE for an intake object, else OPERAND_RANGE. Answers the
poison code and the faulted state; `bad` says a word was at or above its modulus. -/
def State.operandRange (s : State) (k engine : Nat) (o : Operand) (op at_ : Nat) (bad : Bool) : Nat × State :=
  if !bad then (0, s)
  else
    let tag := s.operandTag k o 0
    let addr := scratchRow k tag
    if s.fromIntake k o then (3, s.clusterFault k engine 0 0x37 op tag addr at_ true)
    else (0x0C, s.clusterFault k engine 0 0x19 op tag addr at_ true)

/-- The cluster's group was retired while its job runs: its engines are absent (R184). -/
def State.absent (s : State) (k : Nat) : Bool := (s.group (k / 32)).role == .retired

/-- A command reaches an engine that is absent: ABSENT_TARGET (R184). -/
def State.meetAbsent (s : State) (k engine op t : Nat) : Nat × State := (0x09, s.clusterFault k engine 0 0x70 op 0 0 t true)

/-- The reads `rd` of an operand, rows from its head and their cycles, of a command that issues at `t` (R213, R231, R255): a
read of a row not ready, or of an object whose header is not there yet (R104), is a Sheepdog violation (CHECK_FAILED), a
marked row raises POISON_CONSUMED (MEMORY_UNCORRECTABLE), an absent engine answers ABSENT_TARGET (R184); a command with DEP
set that reads a row in the cycle of a stream write to it breaks its declared dependency (R233). Answers the code. -/
def State.readRows (s : State) (k engine : Nat) (o : Operand) (rd : List (Nat × Nat)) (op t : Nat) (dep : Bool) : Nat × State :=
  let s0 := s
  let s := s.noteReads k o rd
  if s.absent k then s.meetAbsent k engine op t
  else if !s0.operandReady k o rd t then
    (0x0C, s.violate k 0 engine ((o.ringNo?).getD 16) op t 0 false)
  else if dep && s.streamCollision k o rd then (0x0C, s.violate k 6 engine ((o.ringNo?).getD 0) op t 0 false)
  else if s.operandMarked k o rd then
    let tag := s.operandTag k o ((rd.headD (0, 0)).1)
    (1, s.clusterFault k engine 0 0x08 op tag (scratchRow k tag) t true)
  else match o.ringNo? with
    | some r => match s.awaitedReads k r rd engine op (s.cluster k).lastItem with
      | [] => (0, s)
      | l => (0, s.modRing k r fun g => { g with awaited := g.awaited ++ l })
    | none => (0, s)

/-- Reads of the rows of `idx` one per cycle from `t`. -/
def State.readCheck (s : State) (k engine : Nat) (o : Operand) (idx : List Nat) (c : CmdWord) (t : Nat) : Nat × State :=
  s.readRows k engine o (oneByOne t idx) (cmdOp c) t (cmdDep c)

/-- The writes of an output (R216, R231): a row still awaiting a read, or no room, is a violation. -/
def State.writeCheck (s : State) (k engine : Nat) (o : Operand) (n op t : Nat) (stamp : Nat → Nat) : Nat × State :=
  if s.outputFree k o n stamp then (0, s) else (0x0C, s.violate k 1 engine ((o.ringNo?).getD 0) op t 0 false)

/-- The first nonzero code. -/
def firstCode (l : List Nat) : Nat := (l.find? (· != 0)).getD 0

/-- Ring offset of the first of the last `rows` rows pushed. -/
def Ring.lastRows (g : Ring) (rows : Nat) : Nat :=
  if g.size = 0 then 0 else (g.tail.toNat + g.size.toNat - rows % g.size.toNat) % g.size.toNat

/-- Append the header-queue entry of an output whose last `rows` rows were just pushed (R217), written in cycle `at_`: a
header for an object ring, the poison code alone for a raw one, beside the header it carries (R148); a ninth entry cannot be
appended. -/
def State.closeOutput (s : State) (k : Nat) (o : Operand) (rows code at_ : Nat) (h : Option Header) (carried : Bool := false) : State :=
  match o with
  | .ring r =>
    let g := s.ring k r
    if g.hq.length < 8 then s.pushSegment k r (g.lastRows rows) rows code at_ (h.getD {}) carried else s
  | .handover => s.modCluster k fun c =>
      { c with handoverHdr := some { first := 0, rows := rows, left := rows, hdr := h.getD {}, code := code, carried := carried }
               handoverObj := h.isSome && !carried }
  | _ => s

/-- Note what a command of `engine` issued at `t` wrote to an output, `rows` rows, and the last cycle of its work (R25,
R53). -/
def State.noteWork (s : State) (k engine : Nat) (o : Operand) (rows t last : Nat) : State :=
  let s := s.modCluster k fun c => { c with lastWork := c.lastWork.put engine (max last (c.lastWork.at engine 0)) }
  match o with
  | .ring r => s.modRing k r fun g => { g with note := some { engine := engine, at_ := t, first := g.lastRows rows, rows := rows } }
  | _ => s

/-- Overwrite `n` rows of a ring from offset `first` with the poison pattern, and poison the header of each object they
belong to with `code` (R53, R98, R122, R126). -/
def State.poisonOut (s : State) (k r first n code : Nat) : State :=
  let g := s.ring k r
  let size := g.size.toNat
  let s := (List.range n).foldl (fun s i =>
    { s with mem := s.mem.storeRow (g.addr k (if size = 0 then 0 else (first + i) % size)) poisonRow 64 }) s
  let spoil := fun (e : Segment) =>
    if (decide (ringGap size e.first first < e.rows) || decide (ringGap size first e.first < n)) && e.hdr.poison == 0 && e.code == 0
    then { e with code := code, hdr := if g.object then e.hdr.poison' code else e.hdr } else e
  s.modRing k r fun g => { g with hq := g.hq.map spoil }

/-- The tail position of an output ring. -/
def State.outTail (s : State) (k : Nat) (o : Operand) : Nat :=
  match o with
  | .ring r => (s.ring k r).tail.toNat
  | _ => 0

/-- Rows of poison for `n` elements (R53, R103). -/
def poisonRows (n : Nat) : List Row := List.replicate (rowsOf n) poisonRow

end Sys2Proof.Machine
end

