-- ==== Sys2Proof/Machine/Vector.lean ====
section
/-!
DEFINITION. Vector: the vector engine's commands (R95 to R113): chain programs, tensor products, rescaling and modulus
switching, conversions, gathers, automorphisms, fills and table loads.
-/
namespace Sys2Proof.Machine

/-! ### Chain programs (R96, R97, R99 to R101) -/

/-- The fields of a stage word (R99): function, Y source, constant slot, tap, LIFT source. -/
structure Stage where
  fn : Nat
  ysrc : Nat
  slot : Nat
  tap : Nat
  src : Nat
  rest : Nat
deriving DecidableEq, Repr

/-- Read a stage word. -/
def stageOf (w : Word32) : Stage :=
  let v := w.toNat
  { fn := v % 16, ysrc := v / 2 ^ 4 % 8, slot := v / 2 ^ 7 % 8, tap := v / 2 ^ 10 % 8, src := v / 2 ^ 13 % 128,
    rest := v / 2 ^ 20 }

/-- A chain program's header word (R99). -/
structure ChainHead where
  inA : Bool
  inB : Bool
  inC : Bool
  outD : Bool
  outE : Bool
  tapE : Nat
  rule : Nat
  bc : Nat
  rest : Nat
deriving DecidableEq, Repr

/-- Read a chain program's header word. -/
def chainHead (w : Word32) : ChainHead :=
  let v := w.toNat
  { inA := w.getLsbD 0, inB := w.getLsbD 1, inC := w.getLsbD 2, outD := w.getLsbD 3, outE := w.getLsbD 4,
    tapE := v / 2 ^ 5 % 8, rule := v / 2 ^ 8 % 16, bc := v / 2 ^ 12 % 8, rest := v / 2 ^ 15 }

/-- The six stages of a program of eight words. -/
def chainStages (p : List Word32) : List Stage := ((p.drop 1).take 6).map stageOf

/-- A stage is one R96 and R97 list for stage number `i` (1 to 6) under residue set `r`. -/
def stageOk (r : ResidueSet) (i : Nat) (g : Stage) : Bool :=
  decide (g.fn ≤ 8) && decide (g.ysrc ≤ 5) && g.rest == 0 &&
  (!(g.fn == 5 || g.fn == 6) || i == 2 || i == 5) &&
  (if g.fn = 8 then i == 1 && r.modulus g.src != 0 else g.src == 0) &&
  (g.ysrc != 5 || decide (1 ≤ g.tap ∧ g.tap < i))

/-- An operand is named. -/
def Operand.named (o : Operand) : Bool := o != .none

/-- The chain program in a slot of the table in cycle `t`; none where the slot is empty (R100, R106). -/
def Cluster.prog? (cl : Cluster) (slot t : Nat) : Option (List Word32) :=
  ((cl.progs.find slot).map fun e => e.at t).filter fun p => p != []

/-- The residue set a residue index of the constant bank was loaded for, in cycle `t` (R100). -/
def Cluster.constSet? (cl : Cluster) (i t : Nat) : Option Nat := (cl.constSets.find i).bind fun e => e.at t

/-- A chain program by itself is one R96, R97, R99 and R101 list, under residue set `r`. -/
def programOk (r : ResidueSet) (p : List Word32) : Bool :=
  let h := chainHead (p.getD 0 0)
  h.rest == 0 && decide (1 ≤ h.rule ∧ h.rule ≤ 5) && (!h.outE || decide (1 ≤ h.tapE ∧ h.tapE ≤ 6)) &&
  (((chainStages p).zipIdx).all fun e => stageOk r (e.2 + 1) e.1)

/-- The steps of the walk that a command of `n` elements reaches when it stands `done` elements into its object (R102). -/
def walkReached (share w done n : Nat) (j : Nat) : Bool :=
  let first := done / max share 1
  let last := (done + n - 1) / max share 1
  decide (w ≤ last - first) || decide ((j + w - first % max w 1) % max w 1 ≤ last - first)

/-- Elements of its object that a VE command on the cluster continues after (R104). -/
def Cluster.doneOf (cl : Cluster) (c : CmdWord) : Nat :=
  if cmdObjStart c then 0 else ((cl.objects.find (cmdOpcode c)).map (·.done)).getD 0

/-- The chain program's part of the issue check in cycle `t` (R100); word 3 is zero where the program uses none of it (R183). -/
def chainOk (cl : Cluster) (r : ResidueSet) (share : Nat) (c : CmdWord) (t : Nat) : Bool :=
  match cl.prog? (cmdSpec c) t with
  | none => false
  | some p =>
    let h := chainHead (p.getD 0 0)
    let gs := chainStages p
    programOk r p && h.inA == (cmdA c).named && h.inB == (cmdB c).named && h.inC == (cmdC c).named && h.outD == (cmdD c).named &&
    h.outE == (cmdE c).named &&
    (h.rule == 5 || (gs.any fun g => g.ysrc == 4) || (cmdW3mode c == 0 && c.w3 == 0)) &&
    (!(gs.any fun g => g.ysrc == 3) || (List.range (cmdW c)).all fun j =>
      !walkReached share (cmdW c) (cl.doneOf c) (cmdCount c) j || cl.constSet? (cmdR0 c + j) t == some (cmdRset c))

/-- One stage's result (R96) on X and Y modulo q; `qs` is the LIFT source modulus. -/
def stageResult (q qs : Nat) (g : Stage) (x y : Nat) : Nat :=
  match g.fn with
  | 1 => addMod q x y
  | 2 => subMod q x y
  | 3 => subMod q y x
  | 4 => subMod q 0 x
  | 5 => mulMod q x y
  | 6 => mulMod q x x
  | 7 => if y ≠ 0 then x % max q 1 else 0
  | 8 => intMod q (centred qs (x % max qs 1))
  | _ => x % max q 1

/-- The six stage outputs of one element (R95 to R97). `xs` are its operand words, none where not read; `k` gives the
constants; a Y that nothing supplies is the free word `fr`. -/
def runStages (q imm fr : Nat) (qsOf : Nat → Nat) (k : Nat → Nat) (xs : List (Option Nat)) :
    List Stage → List Nat → Nat → List Nat
  | [], outs, _ => outs
  | g :: gs, outs, x =>
    let y := match g.ysrc with
      | 1 => (xs.getD 1 none).getD fr
      | 2 => (xs.getD 2 none).getD fr
      | 3 => k g.slot
      | 4 => imm % max q 1
      | 5 => outs.getD (g.tap - 1) 0
      | _ => fr
    let v := stageResult q (qsOf g.src) g x (y % max q 1)
    runStages q imm fr qsOf k xs gs (outs ++ [v]) v

/-! ### Objects of the VE (R104, R470) -/

/-- The open object of an opcode: opened at OBJSTART with the header check, or continued; a continuation with none open
is an object-state violation (R470). -/
def State.veOpen (s : State) (k : Nat) (x : Ctx) (c : CmdWord) (t : Nat) (rule : HeadRule) (form : FormRule)
    (ins : List Operand) (npoly : Nat) (own : OwnRefusal := {}) : OpenObject × State :=
  let hx := s.headCtx k x c npoly
  if cmdObjStart c then
    let inputs := ins.map (if rule = .tensor && x.prog.scheme == 3 then s.productInput k else s.headInput k)
    let heads := fun o => match o with
      | Operand.ring _ => s.operandIsObject k o
      | .handover => ins.isEmpty
      | _ => false
    let wantsHeader := inputs.any (·.obj) || heads (cmdD c) || heads (cmdE c)
    if !wantsHeader then
      ({ opcode := cmdOpcode c, done := 0, hdr := {}, code := firstCode (inputs.map (·.code)),
         outRows := 0, headed := false }, s)
    else
      let v := judge hx rule form inputs (Config.fillHeader (cmdWords c)) own
      let tag := s.operandTag k (ins.headD .none) 0
      let s := if v.refused then s.clusterFault k 1 0 (refusalKind v.code) (cmdOp c) tag (scratchRow k tag) t true
        else ins.foldl (fun s o => s.consumeLoaded k 1 o v.code (cmdOp c) t) s
      ({ opcode := cmdOpcode c, done := 0, hdr := v.hdr, code := v.code, outRows := 0, headed := true }, s)
  else
    match (s.cluster k).objects.find (cmdOpcode c) with
    | some o => (o, s)
    | none =>
      ({ opcode := cmdOpcode c, done := 0, hdr := fallbackHeader hx, code := 0x0C, outRows := 0, headed := true },
       s.violate k 7 1 0 (cmdOp c) t 0 false)

/-- After a command of an object that issued at `t` and pushes last in cycle `last`: kept open, or closed at OBJEND with the
output's header, written in that cycle (R104). -/
def State.veClose (s : State) (k : Nat) (c : CmdWord) (o : OpenObject) (n rows code t last : Nat) : State :=
  let s := (s.noteWork k 1 (cmdD c) rows t last).noteWork k 1 (cmdE c) rows t last
  let o := { o with done := o.done + n, code := code, outRows := o.outRows + rows }
  if cmdObjEnd c then
    let h := if code ≠ 0 then o.hdr.poison' code else o.hdr
    let hd := fun d => if (d == .handover && o.headed) || (d != .handover && s.operandIsObject k d) then some h else none
    -- a product's header goes with its rows (R148)
    let product := cmdOpcode c == 2 && o.headed && cmdD c != .handover && !s.operandIsObject k (cmdD c)
    let s := if product then s.closeOutput k (cmdD c) o.outRows code last (some h) true
      else s.closeOutput k (cmdD c) o.outRows code last (hd (cmdD c))
    let s := if (cmdE c).named then s.closeOutput k (cmdE c) o.outRows code last (hd (cmdE c)) else s
    s.modCluster k fun cl => { cl with objects := cl.objects.del (cmdOpcode c) }
  else s.modCluster k fun cl => { cl with objects := cl.objects.put (cmdOpcode c) o }

/-- A partial row only ends an object (R103). -/
def tailOk (c : CmdWord) : Bool := cmdCount c % 64 == 0 || cmdObjEnd c

/-! ### VE.CHAIN -/

/-- The shape of VE.CHAIN (R185). -/
def shChain : Shape :=
  { spec := fun _ => true, walk := true, word3 := true, objFlags := true, tagp := true, rset := true,
    a := { ring := true, peek := true, hand := true, none := true }, b := { ring := true, peek := true, none := true },
    c := { ring := true, peek := true, none := true }, d := { ring := true, hand := true, none := true },
    e := { ring := true, none := true } }

/-- The rows an operand supplies to a command that stands `done` elements into its object: a broadcast operand returns
to its start every `bw` rows, a peek reads on from the offset, a ring or hand-over has been popped up to here. -/
def feedRows (o : Operand) (broadcast : Bool) (bw done rows : Nat) : List Nat :=
  if broadcast then (List.range rows).map fun r => (done / 64 + r) % max bw 1
  else match o with
    | .peek _ => (List.range rows).map fun r => done / 64 + r
    | _ => List.range rows

/-- The words of an operand in element order, its rows read one per cycle from `t`; none when it is not named. -/
def State.feedWords (s : State) (k : Nat) (o : Operand) (idx : List Nat) (n t : Nat) : Option (List Nat) :=
  if o.named then some (rowWords (s.operandRows k o (oneByOne t idx)) n) else none

/-- The header rule of a program's code and the exponent that MULCONST takes from word 3 (R101, R185). -/
def chainRule (rule imm : Nat) : HeadRule :=
  match rule with
  | 1 => .unary
  | 2 => .add
  | 3 => .mulpt
  | 4 => .mulptAcc
  | _ => .mulconst (imm % 2 ^ 16)

/-- The outputs D and E of `n` elements: the last stage's output and the tapped one. -/
def chainWords (q : Nat → Nat) (imm tapE : Nat) (fr : Nat → Nat) (qsOf : Nat → Nat) (k : Nat → Nat → Nat)
    (w : Nat → Nat) (gs : List Stage) (a b c : Option (List Nat)) (n : Nat) : List (Nat × Nat) :=
  (List.range n).map fun e =>
    let xs := [a, b, c].map fun l => l.map fun l => l.getD e 0
    let j := w e
    let outs := runStages (q j) imm (fr e % max (q j) 1) qsOf (k j) xs gs [] ((xs.getD 0 none).getD (fr e % max (q j) 1))
    (outs.getD 5 0, outs.getD (tapE - 1) 0)

/-- VE.CHAIN's effect (R95 to R106) from cycle `t`. -/
def State.chainRun (s : State) (k : Nat) (c : CmdWord) (x : Ctx) (t : Nat) : State :=
  let cl := s.cluster k
  let prog := (cl.prog? (cmdSpec c) t).getD []
  let h := chainHead (prog.getD 0 0)
  let gs := chainStages prog
  let r := x.rset (cmdRset c)
  let imm := wordValue cl c % 2 ^ 32
  let n := cmdCount c
  let rows := rowsOf n
  let ops := [cmdA c, cmdB c, cmdC c]
  let bw := cmdW c * x.share / 64
  let (o, s) := s.veOpen k x c t (chainRule h.rule imm) .same ops 2
  let bc := fun i => h.bc / 2 ^ i % 2 == 1
  let idx := fun i => feedRows (ops.getD i .none) (bc i) bw o.done rows
  let (ca, s) := if h.inA then s.readCheck k 1 (cmdA c) (idx 0) c t else (0, s)
  let (cb, s) := if h.inB then s.readCheck k 1 (cmdB c) (idx 1) c t else (0, s)
  let (cc, s) := if h.inC then s.readCheck k 1 (cmdC c) (idx 2) c t else (0, s)
  let stamp := fun i => t + 28 + i
  let (cd, s) := s.writeCheck k 1 (cmdD c) rows (cmdOp c) t stamp
  let (ce, s) := s.writeCheck k 1 (cmdE c) rows (cmdOp c) t stamp
  let code := firstCode [o.code, ca, cb, cc, cd, ce]
  let w := fun e => cmdR0 c + (o.done + e) / x.share % max (cmdW c) 1
  let a := s.feedWords k (cmdA c) (idx 0) n t
  let b := s.feedWords k (cmdB c) (idx 1) n t
  let cw := s.feedWords k (cmdC c) (idx 2) n t
  -- the operand check of R39; a LIFT in S1 reads A under its source modulus
  let qa := fun e => if (gs.getD 0 ⟨0, 0, 0, 0, 0, 0⟩).fn = 8 then r.modulus (gs.getD 0 ⟨0, 0, 0, 0, 0, 0⟩).src else r.modulus (w e)
  let bad := fun (l : Option (List Nat)) (q : Nat → Nat) =>
    code == 0 && ((l.getD []).zipIdx).any fun e => decide (q e.2 ≤ e.1)
  let (ra, s) := s.operandRange k 1 (cmdA c) (cmdOp c) t (bad a qa)
  let (rb, s) := s.operandRange k 1 (cmdB c) (cmdOp c) t (bad b fun e => r.modulus (w e))
  let (rc, s) := s.operandRange k 1 (cmdC c) (cmdOp c) t (bad cw fun e => r.modulus (w e))
  let code := firstCode [code, ra, rb, rc]
  let outs := chainWords r.modulus imm h.tapE (fun e => (Config.absentWord (cmdWords c) (o.done + e)).toNat) r.modulus
    (fun j slot => ((cl.consts.find (8 * j + slot)).map fun e => e.at t).getD 0) w gs a b cw n
  let lanes := lastLanes n
  let dRows := if code ≠ 0 then poisonRows n else wordsRows (outs.map (·.1))
  let eRows := if code ≠ 0 then poisonRows n else wordsRows (outs.map (·.2))
  let s := if (cmdD c).named then s.pushOperand k (cmdD c) stamp lanes dRows else s
  let s := if (cmdE c).named then s.pushOperand k (cmdE c) stamp lanes eRows else s
  let pop := fun (s : State) (i : Nat) =>
    let op := ops.getD i .none
    if bc i then (if cmdObjEnd c then s.popOperand k op bw t else s) else s.popOperand k op rows t
  let s := pop (pop (pop s 0) 1) 2
  (s.veClose k c o n rows code t (t + 27 + rows)).occupy k 1 (t + rows)

/-- VE.CHAIN (R95 to R106). -/
def execVeChain (k : ClusterId) (c : CmdWord) (s : State) : Out :=
  live s (s.command k.num c shChain 1
    (fun s x => tailOk c && chainOk (s.cluster k.num) (x.rset (cmdRset c)) x.share c (s.cluster k.num).nextAt)
    fun s x t => s.chainRun k.num c x t)

/-! ### VE.TENSOR -/

@[inherit_doc shChain] def shTensor : Shape :=
  { walk := true, objFlags := true, tagp := true, rset := true, a := kR, b := kR, d := kRH }

/-- Write row `off` rows past the tail of a ring, the tail where it is. -/
def State.placeRow (s : State) (k r off stamp : Nat) (w : Row) (lanes : Nat) : State :=
  let g := s.ring k r
  let o := g.tailAt off
  ({ s with mem := s.mem.storeRow (g.addr k o) w lanes }).modRing k r fun g =>
    { g with stamps := g.stamps.put o stamp, ends := g.ends.put o stamp, pushAt := stamp }

/-- Move tail and claim over `n` rows that have been written (R216). -/
def Ring.cover (g : Ring) (n : Nat) : Ring :=
  { g.spend n with
    tail := BitVec.ofNat 12 (g.tailAt n), claim := BitVec.ofNat 12 (g.claimAt n), ready := BitVec.ofNat 13 (g.ready.toNat + n)
    openRows := g.openRows + n }

/-- The three products of a position (R110). -/
def tensorOf (q a0 a1 b0 b1 : Nat) : Nat × Nat × Nat :=
  (mulMod q a0 b0, addMod q (mulMod q a0 b1) (mulMod q a1 b0), mulMod q a1 b1)

/-- VE.TENSOR's effect (R110). Polynomials 0 and 1 of an input lie one after the other in its ring; the output takes
the place of a whole three-polynomial object. The rings advance by the command's rows (R103), and at OBJEND over the rest
of their objects (log entry 14). -/
def State.tensorRun (s : State) (k : Nat) (c : CmdWord) (x : Ctx) (t : Nat) : State :=
  let r := x.rset (cmdRset c)
  let n := cmdCount c
  let rows := rowsOf n
  let (o, s) := s.veOpen k x c t .tensor .eval [cmdA c, cmdB c] 3
  let per := cmdW c * x.share / 64                    -- rows of one polynomial
  let rd := (List.range rows).flatMap fun i => [(i, t + 2 * i), (per + i, t + 2 * i)]
  let (ca, s) := s.readRows k 1 (cmdA c) rd (cmdOp c) t (cmdDep c)
  let (cb, s) := s.readRows k 1 (cmdB c) rd (cmdOp c) t (cmdDep c)
  let stamp := fun i => t + 29 + 2 * i
  let (cd, s) := if cmdObjStart c then s.writeCheck k 1 (cmdD c) (3 * per) (cmdOp c) t (fun _ => t + 29) else (0, s)
  let code := firstCode [o.code, ca, cb, cd]
  let words := fun op p => rowWords ((List.range rows).map fun i => s.operandRow k op (p * per + i) (t + 2 * i)) n
  let a0 := words (cmdA c) 0
  let a1 := words (cmdA c) 1
  let b0 := words (cmdB c) 0
  let b1 := words (cmdB c) 1
  let q := fun e => r.modulus (cmdR0 c + (o.done + e) / x.share % max (cmdW c) 1)
  let bad := fun (l : List Nat) => code == 0 && (l.zipIdx).any fun e => decide (q e.2 ≤ e.1)
  let (ra, s) := s.operandRange k 1 (cmdA c) (cmdOp c) t (bad a0 || bad a1)
  let (rb, s) := s.operandRange k 1 (cmdB c) (cmdOp c) t (bad b0 || bad b1)
  let code := firstCode [code, ra, rb]
  let prods := (List.range n).map fun e => tensorOf (q e) (a0.getD e 0) (a1.getD e 0) (b0.getD e 0) (b1.getD e 0)
  let lanes := lastLanes n
  let out := fun (l : List Nat) => if code ≠ 0 then poisonRows n else wordsRows l
  let d := [out (prods.map (·.1)), out (prods.map (·.2.1)), out (prods.map (·.2.2))]
  let s := match cmdD c with
    | .ring rg => (d.zipIdx).foldl (fun (s : State) (e : List Row × Nat) => (e.1.zipIdx).foldl (fun (s : State) (w : Row × Nat) =>
        s.placeRow k rg (e.2 * per + w.2) (stamp w.2) w.1 (if w.2 + 1 = rows then lanes else 64)) s) s
    | _ => s.pushOperand k (cmdD c) stamp lanes (d.flatMap id)
  -- polynomial 0's rows leave as they are read, the rest of the object with its last command (R103)
  let now := (List.range rows).map fun i => (t + 2 * i, 1)
  let rest := if cmdObjEnd c then 2 * per - (o.done / 64 + rows) else 0
  let pop := fun (s : State) op => s.popOperandRuns k op (rows + rest) (now ++ [(t + 2 * (rows - 1), rest)])
  let s := pop (pop s (cmdA c)) (cmdB c)
  let s := match cmdD c with
    | .ring rg => s.modRing k rg fun g => g.cover (if cmdObjEnd c then 3 * per - o.done / 64 else rows)
    | _ => s
  let s := s.veClose k c { o with outRows := 3 * per - 3 * rows } n (3 * rows) code t (t + 27 + 2 * rows)
  s.occupy k 1 (t + 2 * rows)

/-- VE.TENSOR (R110). -/
def execVeTensor (k : ClusterId) (c : CmdWord) (s : State) : Out :=
  live s (s.command k.num c shTensor 1 (fun _ _ => tailOk c) fun s x t => s.tensorRun k.num c x t)

/-! ### Planes across a span (R40) -/

/-- Reads of `n` planes of `per` rows each: plane `i`'s from cycle `start i` on, `rate` rows a cycle. -/
def planeReads (n per rate : Nat) (start : Nat → Nat) : List (Nat × Nat) :=
  (List.range n).flatMap fun i => (List.range per).map fun r => (i * per + r, start i + r / max rate 1)

/-- The same reads as runs of one row a cycle, in plane order. -/
def planeRuns (n per rate : Nat) (start : Nat → Nat) : List (Nat × Nat) :=
  (List.range n).flatMap fun i => (List.range rate).map fun j => (start i, (per + rate - 1 - j) / max rate 1)

/-- The words of plane `i` of an operand across the clusters `ks`, in ring position order (R40); its rows are read from
cycle `t` on, `rate` a cycle. -/
def State.spanPlane (s : State) (ks : List Nat) (o : Operand) (share i t rate : Nat) : List Nat :=
  let per := share / 64
  let cols := ks.map fun k => rowWords ((List.range per).map fun r => s.operandRow k o (i * per + r) (t + r / max rate 1)) share
  (List.range (share * ks.length)).map fun p => (cols.getD (p % max ks.length 1) []).getD (p / max ks.length 1) 0

/-- A cluster's rows of a plane in ring position order (R40, R41). -/
def planeShare (plane : List Nat) (gc c share : Nat) : List Row :=
  wordsRows ((List.range share).map fun j => plane.getD (j * gc + c) 0)

/-- Push a plane to an output operand of every cluster of the span, its last row in cycle `last`. -/
def State.pushPlane (s : State) (ks : List Nat) (o : Operand) (share last : Nat) (plane : List Nat) (code : Nat) : State :=
  let per := share / 64
  (ks.zipIdx).foldl (fun s e =>
    let rows := if code ≠ 0 then poisonRows share else planeShare plane ks.length e.2 share
    s.pushOperand e.1 o (fun i => last - (per - 1 - i)) 64 rows) s

/-- Occupancy per plane, last push of one plane, and the verdict's delay after it, of the TE at a ring degree (R117). -/
def teCosts (log2n : Nat) : Nat × Nat × Nat :=
  match log2n with
  | 12 => (12, 55, 22)
  | 13 => (13, 60, 22)
  | 14 => (28, 85, 22)
  | 15 => (60, 135, 22)
  | 16 => (128, 240, 22)
  | _ => (136, 264, 34)

/-- Read and write checks of a span command: the first nonzero code. -/
def State.spanChecks (s : State) (ks : List Nat) (engine : Nat) (c : CmdWord) (rd : List (Nat × Nat)) (rowsOut t stamp : Nat) :
    Nat × State :=
  ks.foldl (fun (acc : Nat × State) k =>
    let (ca, s) := acc.2.readRows k engine (cmdA c) rd (cmdOp c) t (cmdDep c)
    let (cd, s) := s.writeCheck k engine (cmdD c) rowsOut (cmdOp c) t (fun _ => stamp)
    (firstCode [acc.1, ca, cd], s)) (0, s)

/-- Raise a refusal at the span's first cluster. -/
def State.refuseSpan (s : State) (k engine : Nat) (c : CmdWord) (t : Nat) (v : Verdict) : State :=
  let tag := s.operandTag k (cmdA c) 0
  if v.refused then s.clusterFault k engine 0 (refusalKind v.code) (cmdOp c) tag (scratchRow k tag) t true
  else s.consumeLoaded k engine (cmdA c) v.code (cmdOp c) t

/-! ### VE.RESCALE and VE.MODSW (R109) -/

@[inherit_doc shChain] def shRescale : Shape := { countHi := 3, tagp := true, rset := true, a := kR, d := kR }

/-- Planes of one polynomial after a rescale (R109): the top plane in COEF form lifted into each modulus and taken back,
then out_i = (a_i − [a_t]_{q_i})·q_t⁻¹. -/
def rescalePlanes (k : Nat) (qs : List Nat) (planes : List (List Nat)) : List (List Nat) :=
  let qt := qs.getLastD 1
  let top := toCoefForm qt k (planes.getLastD [])
  ((qs.dropLast).zip planes).map fun e =>
    let lifted := toEvalForm e.1 k (top.map fun v => intMod e.1 (centred qt v))
    let inv := invMod e.1 (qt % max e.1 1)
    (e.2.zip lifted).map fun w => mulMod e.1 (subMod e.1 w.1 w.2) inv

/-- Planes of one polynomial after a modulus switch with plaintext modulus `tau` (R109): u = [q_t]_τ lifted centred and
y = [u·a_t·τ⁻¹]_{q_t} in COEF form; out_i = (u·a_i − τ·y)·q_t⁻¹. -/
def modswPlanes (k tau : Nat) (qs : List Nat) (planes : List (List Nat)) : List (List Nat) :=
  let qt := qs.getLastD 1
  let u := centred tau (qt % max tau 1)
  let top : List Nat := toCoefForm qt k (planes.getLastD [])
  let y : List Nat := top.map fun (v : Nat) => mulMod qt (intMod qt (u * (v : Int))) (invMod qt (tau % max qt 1))
  ((qs.dropLast).zip planes).map fun e =>
    let lifted := toEvalForm e.1 k (y.map fun v => intMod e.1 (centred qt v))
    let inv := invMod e.1 (qt % max e.1 1)
    (e.2.zip lifted).map fun w => mulMod e.1 (subMod e.1 (intMod e.1 (u * (w.1 : Int))) (mulMod e.1 tau w.2)) inv

/-- The shared course of VE.RESCALE and VE.MODSW (R106, R109): header check at issue, arithmetic, header at the last push. A
command that a level of 1 leaves without output planes pushes no row, and its header carries level 1 (R155); how many rows
such an output has the spec does not say (DESIGN CHOICE, log entry 44). `pre` poisons the outputs (R232). -/
def State.switchRun (s : State) (c : CmdWord) (x : Ctx) (t : Nat) (ks : List Nat) (pre : Nat) (modsw : Bool) : State :=
  let k0 := ks.headD 0
  let r := x.rset (cmdRset c)
  let n := cmdCount c
  let lead := s.headInput k0 (cmdA c)
  let lvl := if lead.obj then lead.hdr.level else 1
  let input := s.spanInput ks (cmdA c) (n * lvl * (x.share / 64))
  let qs := r.ordinary.take lvl
  let rule := if modsw then HeadRule.modsw else HeadRule.rescale (qs.getLastD 1)
  -- COUNT must equal the header's polynomial count, else SCALE_MISMATCH (R109)
  let v := judge (s.headCtx k0 x c n) rule .eval [input] 0 { scale := input.hdr.npoly != n }
  let s := s.refuseSpan k0 1 c t v
  let per := x.share / 64
  let (occ, _, _) := teCosts x.prog.log2n
  let teFree := t + 300 + occ * n * (lvl - 1)
  let last := t + 440 + occ * n * (lvl - 1)
  let inRows := n * lvl * per
  let outRows := n * (lvl - 1) * per
  -- the TE reads a top plane as its own, the VE the other planes as they meet the transformed ones (log entry 121)
  let start := fun pl => if pl % lvl + 1 = lvl then t + occ * (pl / lvl) else t + 413 - per + occ * (pl / lvl * (lvl - 1) + pl % lvl + 1)
  let rate := fun pl => if pl % lvl + 1 = lvl then 4 else 1
  let rd := (List.range (n * lvl)).flatMap fun pl => (List.range per).map fun i => (pl * per + i, start pl + i / rate pl)
  let (cr, s) := s.spanChecks ks 1 c rd outRows t last
  let planes := (List.range n).map fun p => (List.range lvl).map fun i =>
    s.spanPlane ks (cmdA c) x.share (p * lvl + i) (start (p * lvl + i)) (rate (p * lvl + i))
  let bad := pre == 0 && v.code == 0 && cr == 0 && planes.any fun pl => (pl.zip qs).any fun e => e.1.any fun w => decide (e.2 ≤ w)
  let (rr, s) := s.operandRange k0 1 (cmdA c) (cmdOp c) t bad
  let code := firstCode [v.code, pre, cr, rr]
  let outs := planes.flatMap fun pl => if modsw then modswPlanes x.prog.log2n r.t qs pl else rescalePlanes x.prog.log2n qs pl
  let s := if code ≠ 0 then (List.range (n * (lvl - 1))).foldl (fun s _ => s.pushPlane ks (cmdD c) x.share last [] code) s
    else outs.foldl (fun s pl => s.pushPlane ks (cmdD c) x.share last pl 0) s
  let hdr := if code ≠ 0 then v.hdr.poison' code else v.hdr
  ks.foldl (fun s k =>
    let s := s.popOperandRuns k (cmdA c) inRows ((List.range (n * lvl)).flatMap fun pl =>
      (List.range (rate pl)).map fun j => (start pl, (per + rate pl - 1 - j) / rate pl))
    let s := (s.noteWork k 1 (cmdD c) outRows t last).closeOutput k (cmdD c) outRows code last
      (if s.operandIsObject k (cmdD c) then some hdr else none)
    (s.occupy k 1 last).occupy k 2 teFree) s

/-- VE.RESCALE (R106, R109, R147): it takes the TE with the VE from its issue. -/
def execVeRescale (g : Fin 68) (c : CmdWord) (s : State) : Out :=
  live s (s.groupCommand g c shRescale [1, 2] (fun _ _ => true) fun s x t ks pre => s.switchRun c x t ks pre false)

/-- VE.MODSW (R106, R109). -/
def execVeModsw (g : Fin 68) (c : CmdWord) (s : State) : Out :=
  live s (s.groupCommand g c shRescale [1, 2] (fun _ _ => true) fun s x t ks pre => s.switchRun c x t ks pre true)

/-! ### Conversions (R108) -/

@[inherit_doc shChain] def shCvtin : Shape :=
  { spec := fun v => decide (v / 4 % 8 ≤ 5) && decide (v < 32), walk := true, word3 := true, objFlags := true,
    tagp := true, rset := true, a := kRH, d := kRH }
@[inherit_doc shChain] def shCvtout : Shape := { shCvtin with a := kR }

/-- Element `e` of rows of packed clear elements of `b` bytes. -/
def clearElements (rows : List Row) (b n : Nat) : List Nat :=
  let bytes := rows.flatMap rowBytes
  (List.range n).map fun e => field bytes (b * e) b

/-- Rows of `n` clear elements of `b` bytes (R108). -/
def clearRows (n b : Nat) : Nat := (n * b + 255) / 256

/-- The integer of a clear element for a scheme (R60, R63): BGV and BFV take s = 0 and reduce modulo t, centred. -/
def schemeInt (scheme t ty mode : Nat) (sc : Int) (x : Nat) : Int × Bool × Bool :=
  if scheme = 1 then clearToInt ty mode sc x
  else
    let (y, sat, nan) := clearToInt ty mode 0 x
    (centred t (intMod t y), sat, nan)

/-- VE.CVTIN's effect (R60, R61, R63, R66, R108): k runs of rows, one for each residue index of the walk. -/
def State.cvtinRun (s : State) (k : Nat) (c : CmdWord) (x : Ctx) (t : Nat) : State :=
  let r := x.rset (cmdRset c)
  let n := cmdCount c
  let w := cmdW c
  let ty := cmdSpec c / 4 % 8
  let mode := cmdSpec c % 4
  let sc := signedOf 8 (wordValue (s.cluster k) c % 256)
  let hx := s.headCtx k x c 1
  let inRows := clearRows n (typeBytes ty)
  let inCode := (s.headInput k (cmdA c)).code
  -- the header of R66: scale s × 256 for CKKS
  let base : Header := { format := 2, scheme := x.prog.scheme, log2n := x.prog.log2n, npoly := 1, level := max 1 w,
                         dclass := if x.prog.refreshed then 1 else 0, rset := cmdRset c, job := x.job.id.toNat,
                         ksid := x.prog.ksid, tag := hx.tag }
  let exp := if x.prog.scheme = 1 then sc * 256 else 0
  let badScale := s.operandIsObject k (cmdD c) && x.prog.scheme == 1 && !scaleValid x.ks (cmdRset c) w exp
  let opened := cmdObjStart c || ((s.cluster k).objects.find 5).isSome
  let s := if opened then s else s.violate k 7 1 0 (cmdOp c) t 0 false
  let s := if badScale && inCode == 0 && cmdObjStart c then s.clusterFault k 1 0 0x33 (cmdOp c) (s.operandTag k (cmdA c) 0)
    (scratchRow k (s.operandTag k (cmdA c) 0)) t true else s
  let o : OpenObject := if cmdObjStart c then
      { opcode := 5, done := 0, hdr := { base with scale := clampInt 0 0xFFFF exp },
        code := firstCode [inCode, if badScale then 5 else 0], outRows := 0, headed := true }
    else (s.cluster k).objects.at 5 { opcode := 5, done := 0, hdr := fallbackHeader hx, code := 0x0C,
                                      outRows := 0, headed := true }
  let (ca, s) := s.readCheck k 1 (cmdA c) (List.range inRows) c t
  let outRows := rowsOf n * w
  let stamp := fun i => t + 28 + i
  let (cd, s) := s.writeCheck k 1 (cmdD c) outRows (cmdOp c) t stamp
  let code := firstCode [o.code, ca, cd]
  let els := clearElements (s.operandRows k (cmdA c) (oneByOne t (List.range inRows))) (typeBytes ty) n
  let ys := els.map (schemeInt x.prog.scheme r.t ty mode sc)
  let sats := (ys.filter (·.2.1)).length
  let nans := (ys.filter (·.2.2)).length
  let s := if code ≠ 0 then s else s.modCluster k fun cl => { cl with sat := satAdd cl.sat sats, nan := satAdd cl.nan nans }
  let s := (List.range w).foldl (fun s j =>
    let q := r.modulus (cmdR0 c + j)
    let rows := if code ≠ 0 then poisonRows n else wordsRows (ys.map fun y => intMod q y.1)
    s.pushOperand k (cmdD c) (fun i => t + 28 + j * rowsOf n + i) (lastLanes n) rows) s
  let s := s.popOperand k (cmdA c) inRows t
  (s.veClose k c o n outRows code t (t + 27 + outRows)).occupy k 1 (t + outRows)

/-- VE.CVTIN (R60, R61, R108): the scale exponent lies in −32 to 63. -/
def execVeCvtin (k : ClusterId) (c : CmdWord) (s : State) : Out :=
  live s (s.command k.num c shCvtin 1
    (fun s _ => tailOk c &&
      let v := wordValue (s.cluster k.num) c % 2 ^ 32
      decide (v < 256) && decide (-32 ≤ signedOf 8 v ∧ signedOf 8 v ≤ 63))
    fun s x t => s.cvtinRun k.num c x t)

/-- Rows of packed clear elements of `b` bytes; the last word's bytes past them are those of `old` (R103). -/
def packClear (els : List Nat) (b : Nat) (old : Word32) : List Row :=
  let bs := els.flatMap (leBytes b)
  wordsRows ((bytesToWords (if bs.length % 4 = 0 then bs else bs ++ (leBytes 4 old.toNat).drop (bs.length % 4))).map BitVec.toNat)

/-- The word of an output ring that word `i` of the rows pushed next overwrites; 0 for a hand-over. -/
def State.oldWord (s : State) (k : Nat) (o : Operand) (i : Nat) : Word32 :=
  match o with
  | .ring r => s.mem.word ((s.ring k r).addr k ((s.ring k r).tailAt (i / 64)) + 4 * (i % 64))
  | _ => 0

/-- VE.CVTOUT's effect (R62, R108): the first k residues of each element of the plane share by CRT, lifted, scaled and
rounded. The ring advances by the command's rows (R103), and at OBJEND over the rest of its object (log entry 14). A k above
the header's level has no code of its own: SCALE_MISMATCH (DESIGN CHOICE, log entry 36). -/
def State.cvtoutRun (s : State) (k : Nat) (c : CmdWord) (x : Ctx) (t : Nat) : State :=
  let r := x.rset (cmdRset c)
  let n := cmdCount c
  let w := cmdW c
  let ty := cmdSpec c / 4 % 8
  let mode := cmdSpec c % 4
  let sc := signedOf 8 (wordValue (s.cluster k) c % 256)
  let input := s.headInput k (cmdA c)
  -- k ≤ ℓ (R62)
  let (o, s) := s.veOpen k x c t .keep .coef [cmdA c] 1 { scale := input.obj && decide (input.hdr.level < w) }
  let per := x.share / 64
  let rows := rowsOf n
  let rd := (List.range rows).flatMap fun i => (List.range w).map fun j => (j * per + i, t + 2 * w * i + j)
  let (ca, s) := s.readRows k 1 (cmdA c) rd (cmdOp c) t (cmdDep c)
  let outRows := clearRows n (typeBytes ty)
  let stamp := fun i => t + 27 + rows * 2 * w - (outRows - 1 - i)
  let (cd, s) := s.writeCheck k 1 (cmdD c) outRows (cmdOp c) t stamp
  let code := firstCode [o.code, ca, cd]
  let qs := (List.range w).map r.modulus
  let cols := (List.range w).map fun j =>
    rowWords ((List.range rows).map fun i => s.operandRow k (cmdA c) (j * per + i) (t + 2 * w * i + j)) n
  let bad := code == 0 && (cols.zip qs).any fun e => e.1.any fun v => decide (e.2 ≤ v)
  let (rr, s) := s.operandRange k 1 (cmdA c) (cmdOp c) t bad
  let code := firstCode [code, rr]
  let outs := (List.range n).map fun e =>
    intToClear ty mode sc (centred (product qs) (crt qs (cols.map fun l => l.getD e 0)))
  let s := if code ≠ 0 then s else s.modCluster k fun cl => { cl with sat := satAdd cl.sat (outs.filter (·.2)).length }
  let old := s.oldWord k (cmdD c) (n * typeBytes ty / 4)
  let rowsOut := if code ≠ 0 then List.replicate outRows poisonRow else packClear (outs.map (·.1)) (typeBytes ty) old
  let s := s.pushOperand k (cmdD c) stamp (lastLanes ((n * typeBytes ty + 3) / 4)) rowsOut
  let popRows := if input.obj then input.hdr.npoly * input.hdr.level * per else w * per
  let rest := if cmdObjEnd c then popRows - (o.done / 64 + rows) else 0
  let s := s.popOperandRuns k (cmdA c) (rows + rest) (((List.range rows).map fun i => (t + 2 * w * i, 1)) ++ [(t + 2 * w * (rows - 1), rest)])
  (s.veClose k c o n outRows code t (t + 27 + rows * 2 * w)).occupy k 1 (t + rows * 2 * w)

/-- VE.CVTOUT (R62, R108): r0 is 0 and k is 1 to 4. -/
def execVeCvtout (k : ClusterId) (c : CmdWord) (s : State) : Out :=
  live s (s.command k.num c shCvtout 1
    (fun s _ => tailOk c && cmdR0 c == 0 && decide (cmdW c ≤ 4) &&
      decide (wordValue (s.cluster k.num) c % 2 ^ 32 < 256))
    fun s x t => s.cvtoutRun k.num c x t)

/-! ### VE.GATHER (R111) -/

@[inherit_doc shChain] def shGather : Shape := { word3 := true, a := kR, b := kP, d := kRH, rset := true }

/-- One gathered word: the source word, or 0 for an index outside it. -/
def gatherWord (src : List Nat) (ix : Nat) : Nat × Bool :=
  let v := twos 32 ix
  if 0 ≤ v ∧ v < src.length then (src.getD v.toNat 0, false) else (0, true)

/-- VE.GATHER's effect. -/
def State.gatherRun (s : State) (k : Nat) (c : CmdWord) (t : Nat) : State :=
  let v := wordValue (s.cluster k) c % 2 ^ 32
  let n := cmdCount c
  let len := v % 4096 + 1
  let base := v / 4096 % 2 ^ 19
  let first := base / 64
  let srcRows := (base % 64 + len + 63) / 64
  let idx := (List.range srcRows).map fun i => first + i
  let (cb, s) := s.readCheck k 1 (cmdB c) idx c t
  -- indices are taken 16 a cycle once the buffer is loaded
  let rd := (List.range (rowsOf n)).map fun i => (i, t + rowsOf len + 4 * i)
  let (ca, s) := s.readRows k 1 (cmdA c) rd (cmdOp c) t (cmdDep c)
  let rows := rowsOf n
  let last := t + rowsOf len + (n + 15) / 16 + 27
  let stamp := fun i => min last (t + rowsOf len + 27 + 4 * (i + 1))
  let (cd, s) := s.writeCheck k 1 (cmdD c) rows (cmdOp c) t stamp
  let code := firstCode [(s.headInput k (cmdA c)).code, (s.headInput k (cmdB c)).code, ca, cb, cd]
  let src := ((rowWords (s.operandRows k (cmdB c) (oneByOne t idx)) (64 * srcRows)).drop (base % 64)).take len
  let ix := rowWords (s.operandRows k (cmdA c) rd) n
  let outs := ix.map (gatherWord src)
  let s := if code ≠ 0 then s else s.modCluster k fun cl => { cl with grange := satAdd cl.grange (outs.filter (·.2)).length }
  let s := s.pushOperand k (cmdD c) stamp (lastLanes n) (if code ≠ 0 then poisonRows n else wordsRows (outs.map (·.1)))
  let s := s.popOperandRuns k (cmdA c) rows (rd.map fun e => (e.2, 1))
  ((s.noteWork k 1 (cmdD c) rows t last).closeOutput k (cmdD c) rows code last (if s.operandIsObject k (cmdD c) && (match cmdD c with | .ring _ => true | _ => false)
    then some {} else none)).occupy k 1 (t + rowsOf len + (n + 15) / 16)

/-- VE.GATHER (R111): word 3's bit 31 is zero. -/
def execVeGather (k : ClusterId) (c : CmdWord) (s : State) : Out :=
  live s (s.command k.num c shGather 1
    (fun s _ => decide (wordValue (s.cluster k.num) c % 2 ^ 32 < 2 ^ 31))
    fun s _ t => s.gatherRun k.num c t)

/-! ### VE.AUTO (R113) -/

@[inherit_doc shChain] def shAuto : Shape :=
  { walk := true, word3 := true, objFlags := true, tagp := true, rset := true, a := kR, d := kR }

/-- A plane in COEF form under X ↦ X^g (R113), in ring position order. -/
def autoPlane (k gc g q : Nat) (a : List Nat) : List Nat :=
  (List.range (2 ^ k)).map fun p =>
    let (c, j, neg) := coefSource k gc g (p % gc) (p / gc)
    let v := a.getD (j * gc + c) 0
    if neg then subMod q 0 v else v

/-- VE.AUTO's effect on the span. -/
def State.autoRun (s : State) (c : CmdWord) (x : Ctx) (t : Nat) (ks : List Nat) (pre : Nat) : State :=
  let k0 := ks.headD 0
  let r := x.rset (cmdRset c)
  let n := cmdCount c
  let g := wordValue (s.cluster k0) c % 2 ^ 18
  let per := x.share / 64
  let so := (s.spanInput ks (cmdA c) (n * per)).code
  let (o, s) := s.veOpen k0 x c t .auto .coef [cmdA c] 1
  let occ := max 1 (x.share / 16)
  let last := t + occ * n + 70
  let start := fun i => t + occ * i
  let (cr, s) := s.spanChecks ks 1 c (planeReads n per 1 start) (n * per) t last
  let planes := (List.range n).map fun i => s.spanPlane ks (cmdA c) x.share i (start i) 1
  let q := fun i => r.modulus (cmdR0 c + (o.done + i) % max (cmdW c) 1)
  let bad := pre == 0 && o.code == 0 && so == 0 && cr == 0 && (planes.zipIdx).any fun e => e.1.any fun w => decide (q e.2 ≤ w)
  let (rr, s) := s.operandRange k0 1 (cmdA c) (cmdOp c) t bad
  let code := firstCode [o.code, so, pre, cr, rr]
  let s := (planes.zipIdx).foldl (fun s e =>
    s.pushPlane ks (cmdD c) x.share last (if code ≠ 0 then [] else autoPlane x.prog.log2n x.span g (q e.2) e.1) code) s
  ks.foldl (fun s k =>
    let s := s.popOperandRuns k (cmdA c) (n * per) (planeRuns n per 1 start)
    (s.veClose k c o n (n * per) code t last).occupy k 1 (t + occ * n)) s

/-- VE.AUTO (R113): g is odd and below 2N. -/
def execVeAuto (g : Fin 68) (c : CmdWord) (s : State) : Out :=
  live s (s.groupCommand g c shAuto [1]
    (fun s x =>
      let v := wordValue (s.cluster ((s.spanClusters g).headD 0)) c % 2 ^ 32
      v % 2 == 1 && decide (v < 2 ^ (x.prog.log2n + 1)))
    fun s x t ks pre => s.autoRun c x t ks pre)

/-! ### VE.FILL (R107) -/

@[inherit_doc shChain] def shFill : Shape :=
  { walk := true, word3 := true, objFlags := true, tagp := true, rset := true, d := kR }

/-- VE.FILL's effect: the immediate reduced modulo each element's q. -/
def State.fillRun (s : State) (k : Nat) (c : CmdWord) (x : Ctx) (t : Nat) : State :=
  let r := x.rset (cmdRset c)
  let n := cmdCount c
  let rows := rowsOf n
  let imm := wordValue (s.cluster k) c % 2 ^ 32
  let (o, s) := s.veOpen k x c t .unary .same [] 1
  let stamp := fun i => t + 10 + i
  let (ca, s) := if s.absent k then s.meetAbsent k 1 (cmdOp c) t else (0, s)
  let (cd, s) := s.writeCheck k 1 (cmdD c) rows (cmdOp c) t stamp
  let code := firstCode [o.code, ca, cd]
  let words := (List.range n).map fun e => imm % max (r.modulus (cmdR0 c + (o.done + e) / x.share % max (cmdW c) 1)) 1
  let s := s.pushOperand k (cmdD c) stamp (lastLanes n) (if code ≠ 0 then poisonRows n else wordsRows words)
  (s.veClose k c o n rows code t (t + 9 + rows)).occupy k 1 (t + rows)

/-- VE.FILL (R107). -/
def execVeFill (k : ClusterId) (c : CmdWord) (s : State) : Out :=
  live s (s.command k.num c shFill 1 (fun _ _ => tailOk c) fun s x t => s.fillRun k.num c x t)

/-! ### Table loads (R100) -/

@[inherit_doc shChain] def shLdprog : Shape := { countHi := 64, spec := fun _ => true, a := kR, rset := true }
@[inherit_doc shChain] def shLdconst : Shape := { countHi := 640, noW := true, a := kR, rset := true }

/-- A chain program's CRC holds (R99). -/
def progCrcOk (p : List Word32) : Bool :=
  crc32c ((p.take 7).flatMap fun w => leBytes 4 w.toNat) == (p.getD 7 0).toNat

/-- VE.LDPROG's effect: each program whose CRC holds enters its slot, eight cycles after the command's occupancy (R106); one
that fails is a TABLE_CRC fault. -/
def State.ldprogRun (s : State) (k : Nat) (c : CmdWord) (t : Nat) : State :=
  let n := cmdCount c
  let rows := (n + 7) / 8
  let (ca, s) := s.readCheck k 1 (cmdA c) (List.range rows) c t
  let words := (s.operandRows k (cmdA c) (oneByOne t (List.range rows))).flatMap id
  let progs := (List.range n).map fun i => (words.drop (8 * i)).take 8
  let ok := ca == 0 && (s.headInput k (cmdA c)).code == 0
  let bad := !ok || progs.any fun p => !progCrcOk p
  let tag := s.operandTag k (cmdA c) 0
  let s := if bad then s.clusterFault k 1 0 0x06 (cmdOp c) tag (scratchRow k tag) (t + rows) false else s
  let s := if ok then s.modCluster k fun cl => { cl with progs := (progs.zipIdx).foldl (fun tb e =>
      if progCrcOk e.1 then Table.load tb (cmdSpec c + e.2) (t + rows + 8) t [] e.1 else tb) cl.progs } else s
  (s.popOperand k (cmdA c) rows t).occupy k 1 (t + rows)

/-- VE.LDPROG (R100): first slot plus count at most 64. -/
def execVeLdprog (k : ClusterId) (c : CmdWord) (s : State) : Out :=
  live s (s.command k.num c shLdprog 1 (fun _ _ => decide (cmdSpec c + cmdCount c ≤ 64)) fun s _ t => s.ldprogRun k.num c t)

/-- VE.LDCONST's effect: words of the bank from 8·r0 on, each below its modulus, or zero where the set has none; each
residue index it loads is marked with the residue set, all valid eight cycles after the occupancy (R100, R106). -/
def State.ldconstRun (s : State) (k : Nat) (c : CmdWord) (x : Ctx) (t : Nat) : State :=
  let n := cmdCount c
  let rows := rowsOf n
  let r := x.rset (cmdRset c)
  let (ca, s) := s.readCheck k 1 (cmdA c) (List.range rows) c t
  let ws := rowWords (s.operandRows k (cmdA c) (oneByOne t (List.range rows))) n
  let okWord := fun (i w : Nat) => let q := r.modulus ((8 * cmdR0 c + i) / 8); if q = 0 then w == 0 else decide (w < q)
  let ok := ca == 0 && (s.headInput k (cmdA c)).code == 0
  let bad := !ok || (ws.zipIdx).any fun e => !okWord e.2 e.1
  let tag := s.operandTag k (cmdA c) 0
  let s := if bad then s.clusterFault k 1 0 0x06 (cmdOp c) tag (scratchRow k tag) (t + rows) false else s
  let valid := t + rows + 8
  let s := if ok then s.modCluster k fun cl =>
      { cl with consts := (ws.zipIdx).foldl (fun tb e =>
                  if okWord e.2 e.1 then Table.load tb (8 * cmdR0 c + e.2) valid t 0 e.1 else tb) cl.consts
                constSets := (List.range ((n + 7) / 8)).foldl (fun tb i => Table.load tb (cmdR0 c + i) valid t none (some (cmdRset c)))
                  cl.constSets } else s
  (s.popOperand k (cmdA c) rows t).occupy k 1 (t + rows)

/-- VE.LDCONST (R100): 8·r0 plus the word count at most 640. -/
def execVeLdconst (k : ClusterId) (c : CmdWord) (s : State) : Out :=
  live s (s.command k.num c shLdconst 1 (fun _ _ => decide (8 * cmdR0 c + cmdCount c ≤ 640))
    fun s x t => s.ldconstRun k.num c x t)

end Sys2Proof.Machine
end

