-- ==== Sys2Proof/Machine/Rme.lean ====
section
/-!
DEFINITION. Rme: the residue matrix engine, its feeds and the tile registers, and the key binding (R79 to R93, R123 to
R140).
-/
namespace Sys2Proof.Machine

/-! ### Tile registers and the group buffer (R127) -/

/-- Row number in the group buffer of row `slot` of tile `j` of register `t`. -/
def tileRowNo (t j slot : Nat) : Nat := t * 2048 + j * 64 + slot

/-- Device address of row `row` of the group buffer of physical group `p`. -/
def gbRowAddr (p row : Nat) : Nat := gbBase + p * groupBufferBytes + 256 * row

/-- Words of a group-buffer row in memory; after REF.RUN the tile registers are undefined until written (R161): free
values. -/
def State.gbStored (s : State) (p row : Nat) : Row :=
  match (s.unit p).tileFree with
  | some f => if (s.unit p).tileWritten.contains row then s.mem.row (gbRowAddr p row)
      else (List.range 64).map fun i => Config.freeWord (f + 64 * row + i)
  | none => s.mem.row (gbRowAddr p row)

/-- The write of a row that stands last among those before cycle `x` (R128, R235). -/
def lastWrite (l : List TileWrite) (row x : Nat) : Option TileWrite :=
  (l.filter fun w => w.row == row && decide (w.at_ < x)).foldl (fun best w => match best with
    | some b => if b.at_ ≤ w.at_ then some w else best
    | none => some w) none

/-- A group-buffer row as a read in cycle `x` finds it: a store in that very cycle has not reached it (R128). -/
def State.gbRow (s : State) (p row x : Nat) : Row :=
  match lastWrite (s.unit p).tileWrites row x with
  | some w => w.data
  | none => s.gbStored p row

/-- Write a row of the group buffer of physical group `p` in memory. -/
def State.gbStore (s : State) (p row : Nat) (w : Row) : State :=
  let s := { s with mem := s.mem.storeRow (gbRowAddr p row) w 64 }
  s.modUnit p fun u => if u.tileFree.isSome then { u with tileWritten := insertNew u.tileWritten row } else u

/-- Put a tile write behind those of its cycle or before. -/
def insertWrite : List TileWrite → TileWrite → List TileWrite
  | [], w => [w]
  | v :: t, w => if v.at_ ≤ w.at_ then v :: insertWrite t w else w :: v :: t

/-- A row is written to the group buffer in cycle `at_` (R235). -/
def State.gbWrite (s : State) (p row at_ : Nat) (w : Row) : State :=
  s.modUnit p fun u => { u with tileWrites := insertWrite u.tileWrites { at_ := at_, row := row, data := w } }

/-- The tile writes up to cycle `x` reach the memory, in their order (R235). -/
def State.gbSettle (s : State) (p x : Nat) : State :=
  let due := (s.unit p).tileWrites.filter fun w => decide (w.at_ ≤ x)
  if due == [] then s
  else
    let s := due.foldl (fun s w => s.gbStore p w.row w.data) s
    s.modUnit p fun u => { u with tileWrites := u.tileWrites.filter fun w => decide (x < w.at_) }

/-- A tile operand's register holds `n` tiles and its window `count` plane slots (R127, R231). The window's base B names
the positions tile 0 holds and moves no row. -/
def State.tileFits (s : State) (p : Nat) (o : Operand) (count n : Nat) : Bool :=
  match o with
  | .tile t => decide (n ≤ 32) && decide ((s.tileWindow p t).2 + count ≤ 64)
  | _ => true

/-- The base position, in tiles, that a tile operand's window names; none for another operand (R127, R181). -/
def State.tileBase? (s : State) (p : Nat) (o : Operand) : Option Nat :=
  match o with
  | .tile t => some (s.tileWindow p t).1
  | _ => none

/-- Rows of a tile operand: row of tile `j` for plane `i`, for `count` planes of `n` tiles, each with a cycle. -/
def State.tileRowsAt (s : State) (p t count n : Nat) (at_ : Nat → Nat → Nat) : List (Nat × Nat) :=
  let s0 := (s.tileWindow p t).2
  (List.range count).flatMap fun i => (List.range n).map fun j => (tileRowNo t j (s0 + i), at_ i j)

/-! ### The feeds (R125) -/

/-- Latency of an RME operand: I of R125 inward, W outward. -/
def rmeInLatency (o : Operand) : Nat := match o with
  | .tile _ => 15
  | _ => 23
@[inherit_doc rmeInLatency] def rmeOutLatency (o : Operand) : Nat := match o with
  | .tile _ => 12
  | _ => 22

/-- The operand is a tile register. -/
def Operand.isTile : Operand → Bool
  | .tile _ => true
  | _ => false

/-- The feed an operand's rows come in by, and those its rows leave by (R125). -/
def inFeed (o : Operand) (from_ cycles rows : Nat) : List Feed := [⟨if o.isTile then 1 else 0, from_, cycles, rows⟩]
@[inherit_doc inFeed] def outFeeds (o : Operand) (from_ cycles rows : Nat) : List Feed :=
  ⟨2, from_, cycles, rows⟩ :: if o.isTile then [⟨3, from_, cycles, rows⟩] else []

/-- Rows per cycle that a feed carries at most (R125). -/
def feedLimit (kind : Nat) : Nat :=
  match kind with
  | 1 => 8
  | 3 => 8
  | 4 => 1
  | _ => 16

/-- Rows per cycle on a feed in cycle `x`, as a fraction. A command's rows count as spread evenly over its cycles: the rules
give its totals (DESIGN CHOICE, log entry 34). -/
def feedRate (l : List Feed) (kind x : Nat) : Nat × Nat :=
  (l.filter fun f => f.kind == kind && decide (f.from_ ≤ x) && decide (x < f.from_ + f.cycles)).foldl
    (fun a f => (a.1 * f.cycles + f.rows * a.2, a.2 * f.cycles)) (0, 1)

/-- Some cycle of the feeds `new` carries more rows than its limit, with those already in use. -/
def feedsOver (l new : List Feed) : Bool :=
  new.any fun f => (l ++ new).any fun g =>
    let x := max f.from_ g.from_
    let r := feedRate (l ++ new) f.kind x
    g.kind == f.kind && decide (x < f.from_ + f.cycles) && decide (feedLimit f.kind * r.2 < r.1)

/-- Use feeds from an issue at `t` on. -/
def State.useFeeds (s : State) (p t : Nat) (new : List Feed) : State :=
  s.modUnit p fun u => { u with feeds := (u.feeds.filter fun f => decide (t ≤ f.from_ + f.cycles)) ++ new }

/-- The tile feeds and the store path take slots of the group buffer, runs of cycles (R221). -/
def State.takeSlots (s : State) (p t : Nat) (runs : List (Nat × Nat)) : State :=
  s.modUnit p fun u => { u with gbTaken := (u.gbTaken.filter fun e => decide (t ≤ e.1 + e.2)) ++ runs }

/-! ### Reading and writing planes: 64·n words in the group's position order (R40, R127) -/

/-- Rows of a cluster's ring that `n` tiles of one plane take. -/
def tileRows (n : Nat) : Nat := (n + 31) / 32

/-- The reads of a cluster's ring for `count` planes of `n` tiles, tile `j` of plane `i` read in cycle `at_ i j`: a row holds
32 tiles and is read with its first. -/
def ringReads (count n : Nat) (at_ : Nat → Nat → Nat) : List (Nat × Nat) :=
  (List.range count).flatMap fun i => (List.range (tileRows n)).map fun r => (i * tileRows n + r, at_ i (32 * r))

/-- The cycle in which row `q` of a ring's `n`-tile planes is written: that of its last tile. -/
def ringStamp (n : Nat) (at_ : Nat → Nat → Nat) (q : Nat) : Nat :=
  at_ (q / max (tileRows n) 1) (min (32 * (q % max (tileRows n) 1) + 31) (n - 1))

/-- `count` planes of `n` tiles of an operand of group `p`. -/
def State.rmeIn (s : State) (p : Nat) (o : Operand) (count n : Nat) (at_ : Nat → Nat → Nat) : List (List Nat) :=
  match o with
  | .tile t =>
    let s0 := (s.tileWindow p t).2
    (List.range count).map fun i => (List.range n).flatMap fun j =>
      (s.gbRow p (tileRowNo t j (s0 + i)) (at_ i j)).map BitVec.toNat
  | _ =>
    (List.range count).map fun i =>
      let cols := (List.range 32).map fun c =>
        rowWords ((List.range (tileRows n)).map fun r => s.operandRow (32 * p + c) o (i * tileRows n + r) (at_ i (32 * r))) (2 * n)
      (List.range (64 * n)).map fun q => (cols.getD (q % 32) []).getD (q / 32) 0

/-- Write planes of `n` tiles to an operand of group `p`, tile `j` of plane `i` of the output in cycle `at_ i j`, plane 0 here
being number `i0`; `code` poisons them. -/
def State.rmeOut (s : State) (p : Nat) (o : Operand) (n i0 : Nat) (at_ : Nat → Nat → Nat) (planes : List (List Nat)) (code : Nat) :
    State :=
  match o with
  | .tile t =>
    let s0 := (s.tileWindow p t).2
    (planes.zipIdx).foldl (fun s e => (List.range n).foldl (fun s j =>
      let row := (e.1.drop (64 * j)).take 64
      s.gbWrite p (tileRowNo t j (s0 + i0 + e.2)) (at_ (i0 + e.2) j) (if code ≠ 0 then poisonRow else row.map (BitVec.ofNat 32))) s) s
  | _ =>
    (planes.zipIdx).foldl (fun s e => (List.range 32).foldl (fun s c =>
      let ws := (List.range (2 * n)).map fun l => e.1.getD (32 * l + c) 0
      s.pushOperand (32 * p + c) o (fun r => ringStamp n at_ ((i0 + e.2) * tileRows n + r)) (lastLanes (2 * n))
        (if code ≠ 0 then poisonRows (2 * n) else wordsRows ws)) s) s

/-- An SU's transfer that waits for its grant will write the row, and cannot reach its stamp by cycle `x` any more (R231). -/
def State.tileAwaits (s : State) (p row x : Nat) : Bool :=
  (groupClusters p).any fun k => (s.cluster k).transfers.any fun t => t.out && t.tag.isNone && t.src == .groupBuffer &&
    inRange t.addr (256 * t.rows) (gbRowAddr p row) &&
    decide (x < max t.eligible (max ((s.cluster k).nextGrant.at (slotCode t.src) 0) s.now) + slotBound t.src)

/-- The ingress reads of a tile operand (R23, R128, R184, R213): a row whose store is still to come is not ready, one stored
in the very cycle breaks a declared dependency, a marked one is poison. -/
def State.tileReadCheck (s : State) (p : Nat) (rd : List (Nat × Nat)) (c : CmdWord) (t : Nat) : Nat × State :=
  let u := s.unit p
  let s := s.modUnit p fun u => { u with tileReads := rd.foldl (fun tb e => tb.put e.1 (max e.2 (tb.at e.1 0))) u.tileReads }
  if s.absent (32 * p) then (9, s.groupFault p 6 0 0x70 (cmdOp c) 0 0 t true)
  else if rd.any fun e => s.tileAwaits p e.1 e.2 || u.tileWrites.any fun w => w.row == e.1 && decide (e.2 < w.at_) then
    (0x0C, s.violate (32 * p) 0 6 0 (cmdOp c) t 0 false)
  else if cmdDep c && rd.any fun e => u.tileWrites.any fun w => w.row == e.1 && w.at_ == e.2 then
    (0x0C, s.violate (32 * p) 6 6 0 (cmdOp c) t 0 false)
  else match rd.find? fun e => (lastWrite u.tileWrites e.1 e.2).isNone && s.mem.anyPoison (gbRowAddr p e.1) 256 with
    | some e => (1, s.groupFault p 6 0 0x08 (cmdOp c) e.1 (gbRowAddr p e.1) t true)
    | none => (0, s)

/-- Read check of an RME operand over group `p`: tile `j` of plane `i` is read in cycle `at_ i j`. -/
def State.rmeReadCheck (s : State) (p : Nat) (o : Operand) (count n : Nat) (at_ : Nat → Nat → Nat) (c : CmdWord) (t : Nat) :
    Nat × State :=
  match o with
  | .tile tr => s.tileReadCheck p (s.tileRowsAt p tr count n at_) c t
  | _ => (groupClusters p).foldl (fun (acc : Nat × State) k =>
      let (e, s) := acc.2.readRows k 6 o (ringReads count n at_) (cmdOp c) t (cmdDep c)
      (firstCode [acc.1, e], s)) (0, s)

/-- Write check of an RME operand over group `p`: a tile row still awaiting a read is a violation too (R231). -/
def State.rmeWriteCheck (s : State) (p : Nat) (o : Operand) (count n : Nat) (at_ : Nat → Nat → Nat) (c : CmdWord) (t : Nat) :
    Nat × State :=
  match o with
  | .tile tr =>
    if (s.tileRowsAt p tr count n at_).any fun e => decide (e.2 < (s.unit p).tileReads.at e.1 0) then
      (0x0C, s.violate (32 * p) 1 6 0 (cmdOp c) t 0 false)
    else (0, s)
  | _ => (groupClusters p).foldl (fun (acc : Nat × State) k =>
      let (e, s) := acc.2.writeCheck k 6 o (count * tileRows n) (cmdOp c) t (ringStamp n at_)
      (firstCode [acc.1, e], s)) (0, s)

/-- Pop an RME operand on every cluster of group `p`. -/
def State.rmePop (s : State) (p : Nat) (o : Operand) (count n : Nat) (at_ : Nat → Nat → Nat) : State :=
  (groupClusters p).foldl (fun s k =>
    s.popOperandRuns k o (count * tileRows n) ((ringReads count n at_).map fun e => (e.2, 1))) s

/-- Append the entry of an RME output, written in the cycle of its last store: the poison code alone on a raw ring (R135),
beside the header of the BFV product the planes are part of (R148); a header on an object ring. -/
def State.rmeClose (s : State) (p : Nat) (o : Operand) (rows code last : Nat) (h : Header) (carried : Bool) : State :=
  (groupClusters p).foldl (fun s k =>
    let object := s.operandIsObject k o
    s.closeOutput k o rows code last (if object || carried then some (h.poison' code) else none) (carried && !object)) s

/-- Note an RME command's work on every cluster, and the tile rows it wrote (R25, R53). -/
def State.rmeNote (s : State) (p engine : Nat) (o : Operand) (count n t last : Nat) : State :=
  let s := (groupClusters p).foldl (fun s k => s.noteWork k engine o (count * tileRows n) t last) s
  match o with
  | .tile tr =>
    let rows := (s.tileRowsAt p tr count n fun _ _ => 0).map (·.1)
    s.modUnit p fun u => { u with tileNote := some (engine, rows) }
  | _ => s

/-- The first poison code that rows of an operand bring, of any cluster and any segment of theirs (R54, R135). -/
def State.rmeCode (s : State) (p : Nat) (o : Operand) (a rows : Nat) : Nat :=
  firstCode ((groupClusters p).flatMap fun k => (s.operandSegments k o a rows).map fun g => (s.segmentInput k o g).code)

/-- Array rows `first` on are free of MACs at `mac` (R130). -/
def State.rowsFree (s : State) (p first n mac : Nat) : Bool :=
  (List.range n).all fun i => decide ((s.unit p).rmeRows.at (first + i) 0 < mac)

/-- Hold array rows until their last MAC, each with its residue index and modulus (R123). -/
def State.holdRows (s : State) (p first last : Nat) (residues : List (Nat × Nat)) : State :=
  s.modUnit p fun u => { u with
    rmeRows := (residues.zipIdx).foldl (fun t e => t.put (first + e.2) last) u.rmeRows
    rmeResidues := (residues.zipIdx).foldl (fun t e => t.put (first + e.2) e.1) u.rmeResidues }

/-- A holder's rows or a feed's limit broken at issue is a schedule violation (R130). -/
def State.rmeClash (s : State) (p k first n mac : Nat) (feeds : List Feed) (c : CmdWord) (t : Nat) : Nat × State :=
  let clash := !s.rowsFree p first n mac || feedsOver (s.unit p).feeds feeds
  let s := if clash then s.violate k 5 6 0 (cmdOp c) t 0 false else s
  (if clash then 0x0C else 0, s.useFeeds p t feeds)

/-! ### RME.BCONV (R129, R131) -/

/-- The shape of RME.BCONV (R185). -/
def shBconv : Shape :=
  { countHi := 1024, spec := fun v => decide (v < 64), word3 := true, rset := true, lead := true,
    a := { ring := true, tile := true, hand := true }, b := { tile := true, none := true }, d := kRT }

/-- Ordinary indices of digit `d` at level `l` (R71). -/
def digitOwn (r : ResidueSet) (d l : Nat) : List Nat :=
  ((List.range l).filter fun i => decide (d * r.digit ≤ i ∧ i < (d + 1) * r.digit))

/-- Residue indices (R80) of the inputs and outputs of a basis conversion at digit and level. Where K' is below the number of
a conversion's outputs, a ModUp gives the first K' in list order and a ModDown those from digit × K' on (DESIGN CHOICE, log
entry 15). -/
def convInputs (r : ResidueSet) (down : Bool) (d l : Nat) : List Nat :=
  if down then (List.range r.special.length).map (64 + ·) else digitOwn r d l
@[inherit_doc convInputs] def convOutputs (r : ResidueSet) (down : Bool) (d l kk : Nat) : List Nat :=
  if down then ((List.range l).drop (d * kk)).take kk
  else (((List.range l).filter fun i => !(digitOwn r d l).contains i) ++ (List.range r.special.length).map (64 + ·)).take kk

/-- The port scalers and the matrix of a conversion from the conversion store (R129): for inputs with moduli `ms` the
scalers [m̂_j⁻¹]_{m_j}, times [t⁻¹]_{p_k} in a BGV ModDown, and entries m̂_j. -/
def convScaler (ms : List Nat) (tInv : Option Nat) (j : Nat) : Nat :=
  let m := ms.getD j 1
  let hat := product ms / max m 1
  let v := invMod m (hat % max m 1)
  match tInv with
  | some t => mulMod m v (invMod m (t % max m 1))
  | none => v

/-- One output plane of a conversion: Σ_j (m̂_j mod q)·x_j mod q on scaled inputs `xs`. -/
def convPlane (q : Nat) (entries : List Nat) (xs : List (List Nat)) (len : Nat) : List Nat :=
  (List.range len).map fun i =>
    (entries.zip xs).foldl (fun acc e => (acc + e.1 % max q 1 * e.2.getD i 0) % max q 1) 0

/-- The fields of RME.BCONV's word 3. -/
structure ConvFields where
  j : Nat
  kk : Nat
  digit : Nat
  level : Nat
  down : Bool
  rest : Nat
deriving DecidableEq, Repr

/-- Read them (R185). -/
def convFields (v : Nat) : ConvFields :=
  { j := v % 64 + 1, kk := v / 2 ^ 6 % 64 + 1, digit := v / 2 ^ 12 % 64, level := v / 2 ^ 18 % 128, down := v / 2 ^ 25 % 2 = 1,
    rest := v / 2 ^ 26 }

/-- `n` entries of a list, begun again at its end. -/
def cycled (l : List Nat) (n : Nat) : List Nat := (List.range n).map fun i => l.getD (i % max l.length 1) 0

/-- The residue indices a command's inputs and rows work in. With a tile-register matrix of any size up to 64 × 64 they are
those of the digit, level and direction the command names, taken in turn (DESIGN CHOICE, log entry 15). -/
def ConvFields.inputs (f : ConvFields) (r : ResidueSet) (c : CmdWord) : List Nat :=
  let l := convInputs r f.down f.digit f.level
  if (cmdB c).isTile then cycled l f.j else l
@[inherit_doc ConvFields.inputs] def ConvFields.outputs (f : ConvFields) (r : ResidueSet) (c : CmdWord) : List Nat :=
  let l := convOutputs r f.down f.digit f.level f.kk
  if (cmdB c).isTile then cycled l f.kk else l

/-- RME.BCONV's own checks: its rows are the array's, and the conversion exists at that digit and level, of that size where
the conversion store holds its matrix. -/
def bconvOk (r : ResidueSet) (c : CmdWord) (f : ConvFields) : Bool :=
  f.rest == 0 && decide (cmdSpec c + f.kk ≤ 64) && decide (1 ≤ f.level ∧ f.level ≤ r.ordinary.length) &&
  convInputs r f.down f.digit f.level != [] && convOutputs r f.down f.digit f.level f.kk != [] &&
  (f.inputs r c).length == f.j && (f.outputs r c).length == f.kk

/-- A tile window that does not hold the command's planes, tiles or matrix is an address-range violation (R231). The matrix
is tile 0 of its window, plane slots s0 to s0 + 63 (R181). -/
def State.bconvBar (s : State) (k : Nat) (c : CmdWord) : Barred :=
  let p := k / 32
  let f := convFields (wordValue (s.cluster k) c % 2 ^ 32)
  let n := cmdCount c
  if s.tileFits p (cmdA c) f.j n && s.tileFits p (cmdD c) f.kk n && s.tileFits p (cmdB c) 64 1 then none else some (2, 6, 0)

/-- The header of what an RME command writes beside a poison code: its first input's, level, scale and budget unchanged
(R54), else the command's own. -/
def rmeHeader (hx : HeadCtx) (sg : Option Segment) (object : Bool) : Header :=
  match sg with
  | some g => if object || g.carried then
      { g.hdr with job := hx.jobId, tag := tagOut hx [{ obj := true, hdr := g.hdr, code := 0 }]
                   dclass := if hx.prog.refreshed then 1 else 0, seeded := false, releaseTagged := false, digestPrefix := 0 }
    else fallbackHeader hx
  | none => fallbackHeader hx

/-- RME.BCONV's effect (R129 to R131, R148): matrix row r of a tile register stands in plane slot s0 + r of its tile 0 (log
entry 15). A conversion of BFV planes hands on the header of their product; the one that writes an object ring is the
product's last command. -/
def State.bconvRun (s : State) (k : Nat) (c : CmdWord) (x : Ctx) (t : Nat) : State :=
  let p := k / 32
  let r := x.rset (cmdRset c)
  let f := convFields (wordValue (s.cluster k) c % 2 ^ 32)
  let n := cmdCount c
  let mac := t + rmeInLatency (cmdA c)
  let lastMac := mac + f.j * n - 1
  let last := lastMac + rmeOutLatency (cmdD c)
  let inAt := fun i j => t + j * f.j + i
  let outAt := fun (_ j : Nat) => mac + (j + 1) * f.j - 1 + rmeOutLatency (cmdD c)
  let feeds := inFeed (cmdA c) mac (f.j * n) (f.j * n) ++
    outFeeds (cmdD c) (mac + rmeOutLatency (cmdD c)) (f.j * n) (f.kk * n)
  let (cf, s) := s.rmeClash p k (cmdSpec c) f.kk mac feeds c t
  let input := s.headInput k (cmdA c)
  let sg := s.operandSegment k (cmdA c)
  let ci := s.rmeCode p (cmdA c) 0 (f.j * tileRows n)
  let (ca, s) := s.rmeReadCheck p (cmdA c) f.j n inAt c t
  let matrix := match cmdB c with
    | .tile tb => s.tileRowsAt p tb f.kk 1 fun _ _ => t
    | _ => []
  let (cb, s) := if matrix == [] then (0, s) else s.tileReadCheck p matrix c t
  let (cd, s) := s.rmeWriteCheck p (cmdD c) f.kk n outAt c t
  let inM := (f.inputs r c).map r.modulus
  let outM := (f.outputs r c).map r.modulus
  let xs := s.rmeIn p (cmdA c) f.j n inAt
  let rows := matrix.map fun e => ((s.gbRow p e.1 e.2).map BitVec.toNat).take f.j
  let pre := firstCode [ci, cf, ca, cb, cd]
  let bad := pre == 0 && (xs.zip inM).any fun e => e.1.any fun w => decide (e.2 ≤ w)
  let (ra, s) := s.operandRange k 6 (cmdA c) (cmdOp c) t bad
  let badB := pre == 0 && (rows.zip outM).any fun e => e.1.any fun w => decide (e.2 ≤ w)
  let (rb, s) := s.operandRange k 6 (cmdB c) (cmdOp c) t badB
  let code := firstCode [pre, ra, rb]
  let tInv := if f.down && x.prog.scheme == 2 then some r.t else none
  let outs := if (cmdB c).isTile then (rows.zip outM).map fun e => convPlane e.2 e.1 xs (64 * n)
    else
      let scaled := (xs.zipIdx).map fun e => e.1.map fun w => mulMod (inM.getD e.2 0) w (convScaler inM tInv e.2)
      let hats := inM.map fun m => product inM / max m 1
      outM.map fun q => convPlane q hats scaled (64 * n)
  let hdr := rmeHeader (s.headCtx k x c 1) sg input.obj
  let carried := x.prog.scheme == 3 && (input.obj || (sg.map (·.carried)).getD false)
  let s := s.rmeOut p (cmdD c) n 0 outAt outs code
  let s := s.rmePop p (cmdA c) f.j n inAt
  let s := s.rmeClose p (cmdD c) (f.kk * tileRows n) code last { hdr with eval := false } carried
  let stores := (List.range n).map fun j => (outAt 0 j + 1 - (f.kk + 7) / 8, (f.kk + 7) / 8)
  let s := s.takeSlots p t ((if (cmdA c).isTile then [(t, f.j * n)] else []) ++ (if (cmdD c).isTile then stores else []))
  (s.rmeNote p 6 (cmdD c) f.kk n t last).holdRows p (cmdSpec c) lastMac ((f.outputs r c).zip outM)

/-- RME.BCONV (R131). -/
def execRmeBconv (k : ClusterId) (c : CmdWord) (s : State) : Out :=
  live s (s.command k.num c shBconv 6
    (fun s x => bconvOk (x.rset (cmdRset c)) c (convFields (wordValue (s.cluster k.num) c % 2 ^ 32)))
    (fun s x t => s.bconvRun k.num c x t) fun s _ _ => s.bconvBar k.num c)

/-! ### Keys (R74, R88 to R93) -/

/-- The key header of R74 as a directory entry describes it, with its CRC. -/
def keyHeaderBytes (ks : KeySet) (e : KeyEntry) : List Byte :=
  withCrc32c (leBytes 1 5 ++ leBytes 1 1 ++ leBytes 1 e.kind ++ leBytes 1 (ks.rsets.getD e.rset ⟨12, [], [], 1, 0⟩).log2n ++
    leBytes 1 e.lo ++ leBytes 1 e.hi ++ leBytes 1 e.digits ++ leBytes 1 e.rset ++ leBytes 2 e.index ++ leBytes 2 0 ++
    leBytes 4 e.galois ++ leBytes 8 ks.ksid ++ List.replicate 36 0)

/-- A key header as the RME reads it (R74, R92). -/
structure KeyHead where
  kind : Nat
  log2n : Nat
  lo : Nat
  hi : Nat
  rset : Nat
  index : Nat
  galois : Nat
  ksid : Nat
  crcOk : Bool
deriving DecidableEq, Repr

/-- Read one from its 64 bytes. -/
def keyHeadOf (b : List Byte) : KeyHead :=
  { kind := field b 2 1, log2n := field b 3 1, lo := field b 4 1, hi := field b 5 1, rset := field b 7 1, index := field b 8 2
    galois := field b 12 4, ksid := field b 16 8, crcOk := crc32c (slice b 0 60) == field b 60 4 }

/-- Offset of plane (d, r) of a key object from its first plane (R74). -/
def keyPlaneOffset (rs : ResidueSet) (hi d r : Nat) : Nat := (d * (hi + rs.special.length) + r) * 4 * 2 ^ rs.log2n

/-- Key-cache address of byte `o` of an entry's planes (R87). -/
def kcAddr (extents : List Nat) (o : Nat) : Nat := kcBase + extents.getD (o / extentBytes) 0 * extentBytes + o % extentBytes

/-- The directory entry of the key cache that a declaration of a job reads (R88, R90). -/
def State.kcEntry? (s : State) (job : Nat) (ksid : Nat) (d : KeyDecl) : Option KcEntry :=
  s.work.kcDir.find? fun e => e.ksid = ksid && e.index = d.index && e.hi = d.hi && e.jobs.contains job

/-- The key directory entry of a key set by index. -/
def KeySet.key? (ks : KeySet) (index : Nat) : Option KeyEntry := ks.keys.find? fun e => e.index = index

/-- A key as a command of a job finds it: its header, and why it gives none (R89, R91, R92): the extents of a failed fill
(HEADER_INVALID), an extent not filled (no stamp, R231), a header line that is poison (MEMORY_UNCORRECTABLE), or a CRC that
fails (HEADER_INVALID). `at_` is the address of a byte of its planes. -/
structure KeyRead where
  head : KeyHead
  code : Nat
  unfilled : Bool
  crcBad : Bool
  at_ : Nat → Nat

/-- The key of a declaration, from the key cache or, `hbm`, from the key object in HBM (R88, R92). -/
def State.keyRead (s : State) (x : Ctx) (ks : KeySet) (e : KeyEntry) (d : KeyDecl) (hbm : Bool) : KeyRead :=
  if hbm then
    let a := ks.regionBase + e.offset
    let h := keyHeadOf (s.mem.readN a 64)
    let lost := s.mem.linePoisoned a
    { head := h, code := if lost then 1 else if h.crcOk then 0 else 2, unfilled := false, crcBad := !lost && !h.crcOk
      at_ := fun o => a + 256 + o }
  else
    let kc := s.kcEntry? x.job.id.toNat x.prog.ksid d
    let h := keyHeadOf ((kc.map (·.header)).getD [])
    let bad := (kc.map (·.bad)).getD false
    let unfilled := !((kc.map (·.filled)).getD false)
    { head := h, code := if unfilled then 0x0C else if bad || !h.crcOk then 2 else 0, unfilled := unfilled
      crcBad := !unfilled && !bad && !h.crcOk, at_ := kcAddr ((kc.map (·.extents)).getD []) }

/-- The conditions of R92 on a key header, for a command of residue set `rset` and the headers it must match (R93); a command
whose operands carry no header stands with its own level. -/
def keyBinds (h : KeyHead) (d : KeyDecl) (x : Ctx) (rset level : Nat) (members : List Header) : Bool :=
  h.ksid == x.prog.ksid && h.kind == d.kind && h.index == d.index && h.rset == rset && h.log2n == x.prog.log2n &&
  decide (h.lo ≤ level ∧ level ≤ h.hi) &&
  members.all fun m => m.ksid == h.ksid && m.rset == h.rset && m.log2n == h.log2n && decide (h.lo ≤ m.level ∧ m.level ≤ h.hi)

/-! ### RME.KIP (R132, R133) -/

/-- The fields of RME.KIP's word 3 (R185). -/
structure KipFields where
  b : Nat
  d : Nat
  t : Nat
  first : Nat
  decl : Nat
  hbm : Bool
  rest : Nat
deriving DecidableEq, Repr

/-- Read them. -/
def kipFields (v : Nat) : KipFields :=
  { b := v % 8 + 1, d := v / 2 ^ 3 % 64 + 1, t := v / 2 ^ 9 % 128 + 1, first := v / 2 ^ 16 % 128, decl := v / 2 ^ 23 % 64,
    hbm := v / 2 ^ 29 % 2 = 1, rest := v / 2 ^ 30 }

/-- The shape of RME.KIP: W carries the level (R182, R185). -/
def shKip : Shape :=
  { countHi := 1024, spec := fun v => v % 2 == 0 && decide (v < 64), word3 := true, rset := true, lead := true,
    a := kRT, d := kRT }

/-- The parts of the key declaration that a KIP names. -/
def Ctx.keyDecl? (x : Ctx) (i : Nat) : Option KeyDecl := x.prog.keys[i]?

/-- The command with its level taken out of W, for the field check of shapes without a walk. -/
def withoutW (c : CmdWord) : CmdWord := { c with w2 := c.w2 &&& 0x80FFFFFF }

/-- RME.KIP's own checks: level, targets, rows and the declaration (R185). -/
def kipOk (x : Ctx) (c : CmdWord) (f : KipFields) : Bool :=
  let r := x.rset (cmdRset c)
  let l := cmdW c
  f.rest == 0 && decide (cmdSpec c + 2 * f.b ≤ 64) && decide (1 ≤ l ∧ l ≤ r.ordinary.length) && decide (f.t ≤ 80) &&
  decide (f.first + f.t ≤ l + r.special.length) && (x.keyDecl? f.decl).isSome &&
  ((x.keyDecl? f.decl).map (·.fromHbm) == some f.hbm)

/-- The residue index (R80) of a target ordinal at level ℓ (R185). -/
def targetIndex (l o : Nat) : Nat := if o < l then o else 64 + (o - l)

/-- The plane of a key object for a target ordinal at level ℓ (R74): special residues follow the key's level high. -/
def keyPlane (hi l o : Nat) : Nat := if o < l then o else hi + (o - l)

/-- Tiles of a plane in one group (R127). -/
def Ctx.tiles (x : Ctx) : Nat := 2 ^ x.prog.log2n / (64 * (x.span / 32))

/-- The plane position of word `q` of tile `j` counted from tile `b` of a group's order (R40, R127). -/
def tilePosition (x : Ctx) (b j q : Nat) : Nat := (2 * (b + j) + q / 32) * x.span + (x.index / 32 * 32 + q % 32)

/-- The tile a KIP begins at: its tile window's base, else where the Pip set it names was suspended (R132). -/
def State.kipFrom (s : State) (p : Nat) (c : CmdWord) (f : KipFields) : Nat :=
  let resumed := ((s.unit p).pipSets.find? fun u => u.decl == f.decl && u.level == cmdW c && u.firstTarget == f.first &&
    u.targets == f.t && u.digits == f.d).map (·.nextTile)
  ((s.tileBase? p (cmdA c)).orElse fun _ => s.tileBase? p (cmdD c)).getD (resumed.getD 0)

/-- What a KIP must find before it is issued: its windows, its key extents, and tiles within the plane (R88, R127, R231). -/
def State.kipBar (s : State) (k : Nat) (c : CmdWord) (x : Ctx) : Barred :=
  let p := k / 32
  let f := kipFields (wordValue (s.cluster k) c % 2 ^ 32)
  let decl := (x.keyDecl? f.decl).getD ⟨0, 0, 0, 0, false⟩
  let n := cmdCount c
  if s.tileFits p (cmdA c) (f.b * f.d * f.t) n && s.tileFits p (cmdD c) (2 * f.b * f.t) n &&
     (f.hbm || (s.kcEntry? x.job.id.toNat x.prog.ksid decl).isSome) && decide (s.kipFrom p c f + n ≤ x.tiles) then none
  else some (2, 6, 0)

/-- The cadence of key rows: the cycle of row `i` after the first (R130, R133). -/
def kipCadence (x : Ctx) (hbm : Bool) (i : Nat) : Nat :=
  if x.prog.log2n = 17 then 2 * i else if hbm then (i * 256 + 244) / 245 else i

/-- The piece of an SU.KFILL that brings byte `o` of a key's planes: the head is piece 0 (R87, R89). -/
def fillPiece (o : Nat) : Nat := 1 + o / 2048

/-- The earliest stamp of a piece of a fill not granted by now (R221, R231). -/
def State.pieceSoonest (s : State) (f : KcFill) (piece : Nat) : Nat := max (f.first + piece) s.now + slotBound .hbm

/-- A read of a piece in cycle `x` comes before its stamp, or before the earliest it can still get (R231). -/
def State.pieceLate (s : State) (e : KcEntry) (r : Nat × Nat) : Bool :=
  match e.landing.find r.1, e.fill with
  | some stamp, _ => decide (r.2 < stamp)
  | none, some f => decide (f.next ≤ r.1) && decide (r.2 < s.pieceSoonest f r.1)
  | none, none => false

/-- The reads, pieces and their cycles, that are judged when their pieces are granted (R231). -/
def KcEntry.awaits (e : KcEntry) (k op word : Nat) (reads : List (Nat × Nat)) : KcEntry :=
  { e with fill := e.fill.map fun f => { f with awaited := f.awaited ++ (reads.filter fun r => decide (f.next ≤ r.1)).map fun r =>
      { piece := r.1, at_ := r.2, cluster := k, op := op, word := word } } }

/-- Two directory entries name the same key. -/
def KcEntry.same (e f : KcEntry) : Bool := f.ksid == e.ksid && f.index == e.index && f.hi == e.hi

/-- Change the directory entry of the key that `e` names. -/
def State.modKc (s : State) (e : KcEntry) (g : KcEntry → KcEntry) : State :=
  { s with work := { s.work with kcDir := s.work.kcDir.map fun f => if e.same f then g f else f } }

/-- One member's own outcome (R54, R140, R155): the code its rows bring, else SCALE_MISMATCH where its level is not the
command's; and the header that its comparison takes, if it carries one. -/
def State.kipMember (s : State) (p : Nat) (c : CmdWord) (a rows : Nat) : Nat × Option Header :=
  let k := 32 * p
  let code := s.rmeCode p (cmdA c) a rows
  let hdr := if s.operandIsObject k (cmdA c) then (s.operandSegments k (cmdA c) a rows).head?.map (·.hdr) else none
  (firstCode [code, if hdr.any fun h => h.level != cmdW c then 5 else 0], hdr)

/-- RME.KIP's effect. Extended planes come in member, digit, target order; accumulators leave in member, half, target
order (log entry 15). -/
def State.kipRun (s : State) (k : Nat) (c : CmdWord) (x : Ctx) (t : Nat) : State :=
  let p := k / 32
  let rs := x.rset (cmdRset c)
  let l := cmdW c
  let f := kipFields (wordValue (s.cluster k) c % 2 ^ 32)
  let n := cmdCount c
  let inPlanes := f.b * f.d * f.t
  let outPlanes := 2 * f.b * f.t
  let decl := (x.keyDecl? f.decl).getD ⟨0, 0, 0, 0, false⟩
  let entry := x.ks.bind fun ks => ks.key? decl.index
  let work := f.d * f.t * n
  let occ := kipCadence x f.hbm work
  let mac := t + (if f.hbm then 1556 else 164)
  let lastMac := mac + occ - 1
  let last := lastMac + rmeOutLatency (cmdD c)
  let row := fun j i d => (j * f.t + i) * f.d + d
  let inAt := fun pl j => mac - rmeInLatency (cmdA c) + kipCadence x f.hbm (row j (pl % f.t) (pl / f.t % f.d))
  let outAt := fun pl j => mac + kipCadence x f.hbm (row j (pl % f.t) f.d) - 1 + rmeOutLatency (cmdD c)
  let feeds := inFeed (cmdA c) mac occ (f.b * work) ++ [⟨4, mac, occ, occ⟩] ++
    outFeeds (cmdD c) (mac + rmeOutLatency (cmdD c)) occ (2 * f.b * f.t * n)
  let (cf, s) := s.rmeClash p k (cmdSpec c) (2 * f.b) mac feeds c t
  let per := f.d * f.t * tileRows n
  let members := (List.range f.b).map fun m => s.kipMember p c (m * per) per
  let s := members.foldl (fun s m => if m.1 = 5 && (m.2.any fun h => !h.poisoned) then s.groupFault p 6 5 0x33 (cmdOp c) 0 0 t true else s) s
  let heads := members.filterMap fun m => if m.1 = 0 then m.2 else none
  let sg := s.operandSegment k (cmdA c)
  let obj := s.operandIsObject k (cmdA c)
  let (ca, s) := s.rmeReadCheck p (cmdA c) inPlanes n inAt c t
  let (cd, s) := s.rmeWriteCheck p (cmdD c) outPlanes n outAt c t
  let hdr := rmeHeader (s.headCtx k x c 1) sg obj
  let bindAt := t + (if f.hbm then 1540 else 6)
  let from_ := s.kipFrom p c f
  let ks := x.ks.getD ⟨[], 0, 0, [], [], [], {}, [], 0, 0, []⟩
  let e := entry.getD ⟨0, 0, 0, 0, 0, 0, 0, 0, 0⟩
  let key := s.keyRead x ks e decl f.hbm
  -- the header first (R89, R91, R92), then the binding of the members that are not poisoned (R93)
  let live := members.any fun m => m.1 == 0
  let bad := live && (entry.isNone || (key.code == 0 && !keyBinds key.head decl x (cmdRset c) l heads))
  let word := fun d i q => keyPlaneOffset rs e.hi d (keyPlane e.hi l (f.first + i)) + coeffOffset (2 ^ rs.log2n) x.span q
  -- the pieces of a fill still landing that the command reads (R89, R231)
  let kc := if f.hbm then none else (s.kcEntry? x.job.id.toNat x.prog.ksid decl).filter fun e => e.fill.isSome || e.landing.any fun l => decide (t < l.2)
  let pieces := if kc.isNone then [] else (0, t + 6) :: (List.range f.d).flatMap fun d => (List.range f.t).flatMap fun i =>
    (List.range n).flatMap fun j => (List.range 32).map fun q =>
      (fillPiece (word d i (tilePosition x from_ j q)), mac - 16 + kipCadence x f.hbm (row j i d))
  let late := entry.isSome && !key.unfilled && kc.any fun e => pieces.any (s.pieceLate e)
  let s := match kc with
    | some e => if late then s else s.modKc e fun e => e.awaits k (cmdOp c) (s.cluster k).lastItem pieces
    | none => s
  let keyCode := if entry.isNone then 8 else firstCode [key.code, if bad then 8 else 0, if late then 0x0C else 0]
  let s := if key.crcBad && entry.isSome then s.groupFault p 6 5 0x05 (cmdOp c) 0 0 bindAt true else s
  let s := if entry.isSome && key.code == 1 then s.groupFault p 6 5 0x08 (cmdOp c) 0 (ks.regionBase + e.offset) bindAt true else s
  let s := if entry.isSome && (key.unfilled || late) then s.violate k 0 6 0 (cmdOp c) t 0 false else s
  let s := if bad then s.groupFault p 6 5 0x30 (cmdOp c) 0 0 bindAt true else s
  -- a poisoned word of a key row that a streamed tile takes (R91, R133)
  let clean := s.mem.poisonLines == [] && s.mem.poisonWords == []
  let keyMarked := keyCode == 0 && !clean && (List.range f.d).any fun d => (List.range f.t).any fun i =>
    (List.range n).any fun j => (List.range 64).any fun q => s.mem.anyPoison (key.at_ (word d i (tilePosition x from_ j q))) 4
  let s := if keyMarked then s.groupFault p 6 0 0x08 (cmdOp c) 0 0 t true else s
  let shared := firstCode [keyCode, if keyMarked then 1 else 0, cf, ca, cd]
  let ext := s.rmeIn p (cmdA c) inPlanes n inAt
  let modOf := fun i => rs.modulus (targetIndex l (f.first + i))
  let codeOf := fun m => (members.getD m (0, none)).1
  let malformed := shared == 0 && (ext.zipIdx).any fun e => codeOf (e.2 / (f.d * f.t)) == 0 &&
    e.1.any fun w => decide (modOf (e.2 % f.t) ≤ w)
  let (rr, s) := s.operandRange k 6 (cmdA c) (cmdOp c) t malformed
  let keyWord := fun d i w => (s.mem.word (key.at_ (word d i (tilePosition x from_ (w / 64) (w % 64))))).toNat
  let keyRange := shared == 0 && live && (List.range f.d).any fun d => (List.range f.t).any fun i =>
    (List.range (64 * n)).any fun w => decide (modOf i ≤ keyWord d i w)
  let s := if keyRange then s.groupFault p 6 0 0x19 (cmdOp c) 0 0 t true else s
  let aHalf := fun d i => expand ks.seed ks.ksid key.head.index d (targetIndex l (f.first + i)) (modOf i) (2 ^ rs.log2n)
  let acc := fun m half i =>
    let q := modOf i
    let ah := (List.range f.d).map fun d => aHalf d i
    (List.range (64 * n)).map fun w => (List.range f.d).foldl (fun a d =>
      let u := if half = 0 then keyWord d i w else (ah.getD d []).getD (tilePosition x from_ (w / 64) (w % 64)) 0
      (a + (ext.getD ((m * f.d + d) * f.t + i) []).getD w 0 * u) % max q 1) 0
  let total := fun m => firstCode [codeOf m, shared, rr, if keyRange then 0x0C else 0]
  let s := (List.range f.b).foldl (fun s m =>
    let planes := if total m ≠ 0 then List.replicate (2 * f.t) [] else
      (List.range 2).flatMap fun h => (List.range f.t).map fun i => acc m h i
    let s := s.rmeOut p (cmdD c) n (2 * f.t * m) outAt planes (total m)
    s.rmeClose p (cmdD c) (2 * f.t * tileRows n) (total m) last hdr false) s
  let s := s.rmePop p (cmdA c) inPlanes n inAt
  let named : PipSet → Bool := fun u =>
    u.decl == f.decl && u.level == l && u.firstTarget == f.first && u.targets == f.t && u.digits == f.d
  let held : PipSet := { decl := f.decl, level := l, firstTarget := f.first, targets := f.t, digits := f.d, nextTile := from_ + n }
  let s := if keyCode ≠ 0 then s else s.modUnit p fun u =>
    { u with pipSets := (u.pipSets.filter fun u => !named u) ++ if from_ + n < x.tiles then [held] else [] }
  let stores := (List.range n).flatMap fun j => (List.range f.t).map fun i => (outAt i j + 1 - (2 * f.b + 7) / 8, (2 * f.b + 7) / 8)
  let s := s.takeSlots p t ((if (cmdA c).isTile then [(mac - 15, occ)] else []) ++ (if (cmdD c).isTile then stores else []))
  let residues := (List.replicate (2 * f.b) 0).map fun _ => (targetIndex l (f.first + f.t - 1), modOf (f.t - 1))
  let s := (s.rmeNote p 6 (cmdD c) outPlanes n t last).holdRows p (cmdSpec c) lastMac residues
  -- the key stream takes every slot of its source while it runs (R221)
  s.modUnit p fun u => if f.hbm then { u with feedHbmUntil := max u.feedHbmUntil (lastMac + 1) }
    else { u with feedKcUntil := max u.feedKcUntil (lastMac + 1) }

/-- RME.KIP (R132, R133): a key-cache read needs the job's extents, else it is not issued (R231). -/
def execRmeKip (k : ClusterId) (c : CmdWord) (s : State) : Out :=
  live s (s.command k.num (withoutW c) shKip 6
    (fun s x => kipOk x c (kipFields (wordValue (s.cluster k.num) c % 2 ^ 32)))
    (fun s x t => s.kipRun k.num c x t) fun s x _ => s.kipBar k.num c x)

/-! ### RME.COMBINE (R134) -/

/-- The shape of RME.COMBINE (R185). -/
def shCombine : Shape :=
  { countHi := 256, spec := fun v => decide (v < 2), word3 := true, tagp := true, rset := true, lead := true, a := kRT,
    b := kRT, c := kR, d := kR }

/-- One output word of RME.COMBINE: (A − f·B)·c + C modulo q. -/
def combineWord (q f c a b add : Nat) : Nat := addMod q (mulMod q (subMod q a (mulMod q (f % max q 1) b)) c) add

/-- Where ring position `pos` of a plane stands in the tiles of its group: the group of the pair, tile and lane (R127). -/
def tilePlace (span pos : Nat) : Nat × Nat × Nat :=
  if span = 64 then (pos % 64 / 32, pos / 128, pos % 128 / 64 * 32 + pos % 32) else (0, pos / 64, pos % 64)

/-- Plane `i` of an operand over the groups `ps`, in ring position order, its rows read from cycle `t` on, one every 16 cycles
(R125, R134). A tile register supplies the positions and plane slots its window holds; what it does not hold nothing supplies:
a free value of the command's words modulo `q` (log entry 34). -/
def State.combinePlane (s : State) (ps : List Nat) (o : Operand) (x : Ctx) (c : CmdWord) (q i t : Nat) : List Nat :=
  match o with
  | .tile tr => (List.range (2 ^ x.prog.log2n)).map fun pos =>
      let (h, tile, lane) := tilePlace x.span pos
      let p := ps.getD h 0
      let (b, s0) := s.tileWindow p tr
      if b ≤ tile ∧ tile < b + 32 ∧ s0 + i < 64 then ((s.gbRow p (tileRowNo tr (tile - b) (s0 + i)) t).getD lane 0).toNat
      else (Config.absentWord (cmdWords c) (i * 2 ^ x.prog.log2n + pos)).toNat % max q 1
  | _ =>
    let ks := ps.flatMap groupClusters
    let cols := ks.map fun k => rowWords ((List.range (x.share / 64)).map fun r => s.operandRow k o (i * (x.share / 64) + r) (t + 16 * r)) x.share
    (List.range (x.share * ks.length)).map fun pos => (cols.getD (pos % max ks.length 1) []).getD (pos / max ks.length 1) 0

/-- The reads of `count` planes of an operand by RME.COMBINE on the clusters of `ps`, plane `i` from cycle `start i` on. -/
def State.combineReads (s : State) (ps : List Nat) (o : Operand) (x : Ctx) (c : CmdWord) (count t : Nat) (start : Nat → Nat) :
    Nat × State :=
  let per := x.share / 64
  match o with
  | .tile tr => ps.foldl (fun (acc : Nat × State) p =>
      let s0 := (acc.2.tileWindow p tr).2
      let rd := (List.range (min count (64 - s0))).flatMap fun i => (List.range 32).map fun j => (tileRowNo tr j (s0 + i), start i)
      let (e, s) := acc.2.tileReadCheck p rd c t
      (firstCode [acc.1, e], s)) (0, s)
  | _ => (ps.flatMap groupClusters).foldl (fun (acc : Nat × State) k =>
      let rd := (List.range count).flatMap fun i => (List.range per).map fun r => (i * per + r, start i + 16 * r)
      let (e, s) := acc.2.readRows k 6 o rd (cmdOp c) t (cmdDep c)
      (firstCode [acc.1, e], s)) (0, s)

/-- Pop those reads. -/
def State.combinePop (s : State) (ps : List Nat) (o : Operand) (x : Ctx) (count : Nat) (start : Nat → Nat) : State :=
  let per := x.share / 64
  (ps.flatMap groupClusters).foldl (fun s k => s.popOperandRuns k o (count * per)
    ((List.range count).flatMap fun i => (List.range per).map fun r => (start i + 16 * r, 1))) s

/-- Store-path cycles of one plane: N′/128 (R130). -/
def Ctx.combineCycles (x : Ctx) : Nat := max 1 (x.tiles / 2)

/-- RME.COMBINE's effect over the groups of the span (R40, R134, R135): the operands' planes permuted by π_g. The command's
level is COUNT / 2, its planes being two polynomials (DESIGN CHOICE, log entry 34); an odd COUNT is of no level. -/
def State.combineRun (s : State) (c : CmdWord) (x : Ctx) (t : Nat) (leads : List Nat) (pre0 : Nat) : State :=
  let k := leads.headD 0
  let ps := leads.map (· / 32)
  let r := x.rset (cmdRset c)
  let n := cmdCount c
  let g := wordValue (s.cluster k) c % 2 ^ 18
  let relin := cmdSpec c == 0
  let lvl := n / 2
  let per := x.share / 64
  let cyc := x.combineCycles
  let start := fun i => t + i * cyc
  let cPlanes := (if relin then 3 else 2) * lvl
  let codeOf := fun o rows => firstCode (ps.map fun p => s.rmeCode p o 0 rows)
  let ia := { s.headInput k (cmdA c) with code := codeOf (cmdA c) (n * per) }
  let ib := { s.headInput k (cmdB c) with code := codeOf (cmdB c) (n * per) }
  let ic0 := s.headInput k (cmdC c)
  let ic := { ic0 with code := firstCode [ic0.code, codeOf (cmdC c) (cPlanes * per)] }
  let hx := s.headCtx k x c 2
  -- poison in operand order A, B, C (R135); the check itself is C's (R134)
  let own : OwnRefusal := { form := (ia.obj && !ia.hdr.eval) || (ib.obj && !ib.hdr.eval)
                            scale := ic.obj && (ic.hdr.level != lvl || n % 2 == 1) }
  let v := judge hx (.combine relin) .eval [{ noInput with code := ia.code }, { noInput with code := ib.code }, ic] 0 own
  let s := if v.refused then s.groupFault (k / 32) 6 3 (refusalKind v.code) (cmdOp c) 0 0 t true
    else s.consumeLoaded k 6 (cmdC c) v.code (cmdOp c) t
  let last := t + 23 + n * cyc - 1 + 22
  -- C's polynomials in operand order; AUTO adds its polynomial 0 only
  let cStart := fun i => t + (i % max n 1) * cyc
  let feeds := inFeed (cmdA c) (t + 23) (n * cyc) (2 * n * cyc) ++ inFeed (cmdB c) (t + 23) (n * cyc) (2 * n * cyc) ++
    inFeed (cmdC c) (t + 23) (n * cyc) (2 * n * cyc) ++ outFeeds (cmdD c) (t + 45) (n * cyc) (2 * n * cyc)
  let excess := ps.any fun p => feedsOver (s.unit p).feeds feeds
  let s := if excess then s.violate k 5 6 0 (cmdOp c) t 0 false else s
  let s := ps.foldl (fun s p => s.useFeeds p t feeds) s
  let (ca, s) := s.combineReads ps (cmdA c) x c n t start
  let (cb, s) := s.combineReads ps (cmdB c) x c n t start
  let (cc, s) := s.combineReads ps (cmdC c) x c cPlanes t cStart
  let stamp := fun q => t + 45 + q / max per 1 * cyc + 16 * (q % max per 1) + min 15 (cyc - 1)
  let clusters := ps.flatMap groupClusters
  let (cd, s) := clusters.foldl (fun (acc : Nat × State) k =>
    let (e, s) := acc.2.writeCheck k 6 (cmdD c) (n * per) (cmdOp c) t stamp
    (firstCode [acc.1, e], s)) (0, s)
  let pre := firstCode [v.code, pre0, if excess then 0x0C else 0, ca, cb, cc, cd]
  let q := fun i => r.modulus (i % max lvl 1)
  let s0 := s
  let bad := fun o count (st : Nat → Nat) => pre == 0 && (List.range count).any fun i =>
    (s0.combinePlane ps o x c (q i) i (st i)).any fun w => decide (q i ≤ w)
  let (ra, s) := s.operandRange k 6 (cmdA c) (cmdOp c) t (bad (cmdA c) n start)
  let (rb, s) := s.operandRange k 6 (cmdB c) (cmdOp c) t (bad (cmdB c) n start)
  let (rc, s) := s.operandRange k 6 (cmdC c) (cmdOp c) t (bad (cmdC c) cPlanes cStart)
  let code := firstCode [pre, ra, rb, rc]
  let f := if x.prog.scheme = 2 then r.t else 1
  let pInv := fun i => invMod (q i) (product r.special % max (q i) 1)
  let out := fun i =>
    let a := s0.combinePlane ps (cmdA c) x c (q i) i (start i)
    let b := s0.combinePlane ps (cmdB c) x c (q i) i (start i)
    let add := if i < lvl || relin then s0.combinePlane ps (cmdC c) x c (q i) i (cStart i) else []
    (List.range (2 ^ x.prog.log2n)).map fun pos =>
      let src := if g = 1 then pos else evalPerm x.prog.log2n g pos
      combineWord (q i) f (pInv i) (a.getD src 0) (b.getD src 0) (add.getD src 0)
  let s := (List.range n).foldl (fun s i =>
    let pl := if code ≠ 0 then [] else out i
    (clusters.zipIdx).foldl (fun s e =>
      s.pushOperand e.1 (cmdD c) (fun j => stamp (i * per + j)) 64
        (if code ≠ 0 then poisonRows x.share else planeShare pl x.span e.2 x.share)) s) s
  let s := ((s.combinePop ps (cmdA c) x n start).combinePop ps (cmdB c) x n start).combinePop ps (cmdC c) x cPlanes cStart
  let hdr := if code ≠ 0 then v.hdr.poison' code else v.hdr
  let s := clusters.foldl (fun s k =>
    (s.noteWork k 6 (cmdD c) (n * per) t last).closeOutput k (cmdD c) (n * per) code last
      (if s.operandIsObject k (cmdD c) then some hdr else none)) s
  let tiles := (cmdA c).isTile || (cmdB c).isTile
  ps.foldl (fun s p => (if tiles then s.takeSlots p t [(t + 8, n * cyc)] else s).occupy (32 * p) 9 (t + n * cyc)) s

/-- RME.COMBINE (R130, R134) of a whole ring: at N = 2^17 the lead clusters of the pair issue it together (R40); it takes the
store path, engine number 9 here, for its occupancy. g is odd and below 2N. -/
def execRmeCombine (k : ClusterId) (c : CmdWord) (s : State) : Out :=
  live s (s.clustersCommand (if k.num % 32 = 0 then (s.spanGroups (k.num / 32)).map (32 * ·) else [k.num]) (k.num / 32) c shCombine [6, 9]
    (fun s x =>
      let v := wordValue (s.cluster k.num) c % 2 ^ 32
      v % 2 == 1 && decide (v < 2 ^ (x.prog.log2n + 1)))
    fun s x t ks pre => s.combineRun c x t ks pre)

end Sys2Proof.Machine
end

