-- ==== Sys2Proof/Machine/Refresh.lean ====
section
/-!
DEFINITION. Refresh: the refresh sequencer (R157 to R166).
-/
namespace Sys2Proof.Machine

/-! ### Store orders (R127, R162) -/

/-- The store orders of the RME's store path over a tile: TILE64 (R127) and the sequencer's transpose of it (R162). -/
inductive TileOrder where
  | tile64 | tile64T
deriving DecidableEq, Repr

/-- Plane slot and ring position that word (tile `j`, row `s`, lane `c`) holds, for a base position `b` and a first slot `s0`:
in TILE64 slot s0 + s at position B + 64j + c, in TILE64-T slot s0 + c at position B + 64j + s (R127, R162). -/
def TileOrder.word (o : TileOrder) (b s0 j s c : Nat) : Nat × Nat :=
  match o with
  | .tile64 => (s0 + s, b + 64 * j + c)
  | .tile64T => (s0 + c, b + 64 * j + s)

/-- The word of a tile that holds a plane slot at a position: row and lane. -/
def TileOrder.place (o : TileOrder) (b s0 slot pos : Nat) : Nat × Nat :=
  match o with
  | .tile64 => (slot - s0, (pos - b) % 64)
  | .tile64T => ((pos - b) % 64, slot - s0)

/-- C64-H (R162): row `i` of half `h` among the C64 rows of the two halves that the slot transform leaves, `n` rows each. -/
def c64HalfRow (n h i : Nat) : Nat := h * n + i

/-! ### Descriptors (R158 to R160) -/

/-- The shape of REF.RUN (R185). -/
def shRef : Shape :=
  { countHi := 1, spec := fun v => decide (v < 16), tagp := true, rset := true, lead := true, a := kR, d := kR }

/-- Levels the reduction profile takes (R159). -/
def profileLevels (p : Nat) : Nat := if p = 1 then 9 else 11

/-- Output level of a descriptor (R160). -/
def refreshLevel (d : List Byte) : Nat :=
  field d 7 1 - field d 4 1 - profileLevels (field d 6 1) - field d 5 1

/-- The RS-16 descriptor of R158 with the residue-set index of `d`. -/
def isRs16Descriptor (x : Ctx) (d : List Byte) : Bool :=
  x.prog.log2n == 16 && slice d 3 9 == [15, 3, 3, 1, 48, 0, 0x1E, 0, 0x1E]

/-- Program-window cycles of a refresh (R166); another descriptor's count is not given (log entry 9). -/
def refreshCyclesOf (x : Ctx) (d : List Byte) (span : Nat) : Nat :=
  if isRs16Descriptor x d then
    (match span with | 1 => 2220000 | 2 => 1155000 | 4 => 610000 | _ => 336000)
  else Config.refreshCycles d span

/-- Groups a REF.RUN spans (R185). -/
def refSpan (c : CmdWord) : Nat := 2 ^ (cmdSpec c / 4)

/-- The descriptor a REF.RUN names. -/
def Ctx.descriptor (x : Ctx) (c : CmdWord) : List Byte := x.prog.descriptors.getD (cmdSpec c % 4) []

/-- REF.RUN's own checks: a REFRESHED-class program, a declared descriptor of the command's residue set, and a span that
lies in the job and in one of the blocks its groups were mapped in (R157, R163, R165, R206). -/
def refOk (x : Ctx) (c : CmdWord) : Bool :=
  x.prog.refreshed && decide (cmdSpec c % 4 < x.prog.descriptors.length) && decide (x.logical + refSpan c ≤ x.job.groupCount) &&
  field (x.descriptor c) 2 1 == cmdRset c && x.logical / max 1 x.prog.block == (x.logical + refSpan c - 1) / max 1 x.prog.block

/-- The physical groups a refresh spans: consecutive logical groups of the same set from the issuing one on (R165). -/
def State.refreshGroups (s : State) (p span : Nat) : List Nat :=
  match s.jobOf p with
  | none => [p]
  | some j =>
    let g := s.group p
    let set := if g.set = 0 then j.set0 else j.set1
    (List.range span).map fun i => set.getD (g.logical + i) p

/-! ### Time (R164, R166) -/

/-- Cycles of the program window left from cycle `t`. -/
def windowLeft (t : Nat) : Nat := windowEnd - cycleOf t

/-- Last cycle, absolute, of `r` window cycles counted from `t` (R164). -/
def windowSpan (t r : Nat) : Nat :=
  if r ≤ windowLeft t then t + r
  else
    let rest := r - windowLeft t
    let beats := (rest + windowEnd - 1) / windowEnd
    (beatOf t + beats) * beatCycles + (rest - (beats - 1) * windowEnd)

/-- The engines of a group's lead cluster that a refresh holds beside VE, TE and GX: SU, RME, sequencer and store path. -/
def leadHeld : List Nat := [3, 6, 8, 9]

/-- What a refresh holds is free (R157, R172): VE, TE and GX of every cluster, the lead's units and every RME row. -/
def State.refreshFree (s : State) (groups : List Nat) (t : Nat) : Bool :=
  groups.all fun p => s.enginesFree (groupClusters p) [1, 2, 4] t && s.enginesFree [32 * p] leadHeld t && s.rowsFree p 0 64 (t + 1)

/-- The engines a refresh holds of each group it spans until its last store (R157). -/
def State.holdForRefresh (s : State) (groups : List Nat) (last : Nat) : State :=
  groups.foldl (fun s p =>
    let s := (groupClusters p).foldl (fun s k => [1, 2, 4].foldl (fun s e => s.occupy k e last) s) s
    (leadHeld.foldl (fun s e => s.occupy (32 * p) e last) s).holdRows p 0 last (List.replicate 64 (0, 0))) s

/-! ### Keys (R160, R163) -/

/-- The Galois elements and levels of a refresh's key switches, and the relinearization, element 0 and no level (R160). -/
def refreshNeeds (d : List Byte) : List (Nat × Option Nat) := (0, none) :: (Config.refreshGalois d).map fun g => (g.1, some g.2)

/-- The declaration of the key cache, with its directory entry, that serves a need. -/
def refreshKey? (x : Ctx) (d : List Byte) (need : Nat × Option Nat) : Option (KeyDecl × KeyEntry) :=
  x.ks.bind fun ks => x.prog.keys.findSome? fun k => (ks.key? k.index).bind fun e =>
    if !k.fromHbm && e.kind == k.kind && e.rset == field d 2 1 && (match need.2 with
      | none => e.kind == 1
      | some l => e.galois == need.1 && decide (e.lo ≤ l ∧ l ≤ e.hi)) then some (k, e) else none

/-- The keys a refresh needs are declared in the key cache and cover their levels (R160, R163). -/
def refreshKeysOk (x : Ctx) (d : List Byte) : Bool := (refreshNeeds d).all fun n => (refreshKey? x d n).isSome

/-- The poison code of one internal key switch's binding (R92, R160, R163): a key that is not there or does not bind is
KEY_MISMATCH. -/
def State.refreshBinding (s : State) (x : Ctx) (c : CmdWord) (need : Nat × Option Nat) : Nat :=
  match refreshKey? x (x.descriptor c) need, x.ks with
  | some (d, e), some ks =>
    let key := s.keyRead x ks e d false
    let rs := x.rset (cmdRset c)
    if key.code ≠ 0 then key.code
    else if !keyBinds key.head d x (cmdRset c) (need.2.getD key.head.lo) [] then 8
    else if (List.range (e.digits * (e.hi + rs.special.length))).any fun i =>
      (List.range ((4 * 2 ^ rs.log2n + 2047) / 2048)).any fun j => s.mem.anyPoison (key.at_ (i * 4 * 2 ^ rs.log2n + 2048 * j)) 2048
      then 1
    else 0
  | _, _ => 8

/-- The fault that a failed binding raises at the sequencer. -/
def bindingKind (code : Nat) : Nat :=
  match code with
  | 8 => 0x30
  | 2 => 0x05
  | _ => 0x08

/-! ### REF.RUN -/

/-- The refresh's last store in cycle `last` (R163): planes, header, and undefined tile registers (R161). -/
def State.refreshFinish (s : State) (p : Nat) (x : Ctx) (f : Refresh) (last : Nat) : State :=
  let ks := s.spanClusters p
  let lvl := f.hdr.level
  let per := x.share / 64
  let (cd, s) := ks.foldl (fun (acc : Nat × State) k =>
    let (e, s) := acc.2.writeCheck k 6 (cmdD f.cmd) (2 * lvl * per) (cmdOp f.cmd) last fun _ => last
    (firstCode [acc.1, e], s)) (0, s)
  let code := firstCode [f.code, cd]
  let s := (List.range (2 * lvl)).foldl (fun s i =>
    let q := (x.rset (cmdRset f.cmd)).modulus (i % max lvl 1)
    let pl := if code ≠ 0 then [] else
      (List.range (2 ^ x.prog.log2n)).map fun w => Config.refreshWord f.words f.descriptor (i / max lvl 1) (i % max lvl 1) w % max q 1
    s.pushPlane ks (cmdD f.cmd) x.share last pl code) s
  let s := ks.foldl (fun s k => (s.noteWork k 6 (cmdD f.cmd) (2 * lvl * per) last 0).closeOutput k (cmdD f.cmd) (2 * lvl * per)
    code last (if s.operandIsObject k (cmdD f.cmd) then some (if code ≠ 0 then f.hdr.poison' code else f.hdr) else none)) s
  let groups := s.refreshGroups p (refSpan f.cmd)
  groups.foldl (fun s g => (s.modUnit g fun u =>
    { u with refresh := none, tileFree := some s.free, tileWritten := [], tileWrites := [] }).spend (32768 * 64)) s

/-- REF.RUN's effect at issue (R154, R157, R160, R163): only plane 0 of each polynomial is read. -/
def State.refRunRun (s : State) (k : Nat) (c : CmdWord) (x : Ctx) (t : Nat) : State :=
  let p := k / 32
  let d := x.descriptor c
  let span := refSpan c
  let ks := s.spanClusters p
  let per := x.share / 64
  let lead := s.headInput k (cmdA c)
  let inRows := lead.hdr.npoly * lead.hdr.level * per
  let input := s.spanInput ks (cmdA c) inRows
  let hx := s.headCtx k x c 2
  let lvl := refreshLevel d
  -- CKKS, two polynomials, the descriptor's scale and set, and a valid output scale (R147, R148, R163)
  let fits := input.cipher && input.hdr.npoly == 2 && x.prog.scheme == 1 && input.hdr.scale == field d 8 2 &&
    input.hdr.rset == field d 2 1 && decide (1 ≤ input.hdr.level) && scaleValid x.ks (cmdRset c) lvl (field d 10 2)
  let v := if input.obj then judge hx .keep .eval [input] 0 { scale := !fits }
    else if input.code ≠ 0 then ⟨(fallbackHeader hx).poison' input.code, input.code, false⟩ else ⟨(fallbackHeader hx).poison' 5, 5, true⟩
  let s := if v.refused then s.groupFault p 6 6 (refusalKind v.code) (cmdOp c) 0 0 t true
    else s.consumeLoaded k 6 (cmdA c) v.code (cmdOp c) t
  let rd := (List.range 2).flatMap fun i => (List.range per).map fun r => (i * input.hdr.level * per + r, t + i * per + r)
  let (cr, s) := ks.foldl (fun (acc : Nat × State) kk =>
    let (e, s) := acc.2.readRows kk 6 (cmdA c) rd (cmdOp c) t (cmdDep c)
    (firstCode [acc.1, e], s)) (0, s)
  let words := (List.range 2).flatMap fun i => s.spanPlane ks (cmdA c) x.share (i * input.hdr.level) (t + i * per) 1
  let pre := firstCode [v.code, cr]
  let q0 := (x.rset (cmdRset c)).modulus 0
  let (rr, s) := s.operandRange k 6 (cmdA c) (cmdOp c) t (pre == 0 && words.any fun w => decide (q0 ≤ w))
  let pre := firstCode [pre, rr]
  let bind := if pre = 0 then firstCode ((refreshNeeds d).map (s.refreshBinding x c)) else 0
  let s := if bind = 0 then s else if bind = 0x0C then s.violate k 0 6 0 (cmdOp c) t 0 false
    else s.groupFault p 6 6 (bindingKind bind) (cmdOp c) 0 0 t true
  let code := firstCode [pre, bind]
  let hdr : Header := { v.hdr with level := max 1 lvl, scale := field d 10 2, budget := 0, dclass := 1, eval := true,
                                   tag := hx.tag, npoly := 2 }
  let hdr := if v.code ≠ 0 && !v.refused then v.hdr else hdr.poison' code
  let total := refreshCyclesOf x d span
  let f : Refresh := { cmd := c, hdr := hdr, code := code, words := words, descriptor := d,
                       remaining := total - windowLeft t, suspended := false }
  let last := windowSpan t total
  let s := ks.foldl (fun s kk => s.popOperand kk (cmdA c) inRows t) s
  let s := s.holdForRefresh (s.refreshGroups p span) last
  if total ≤ windowLeft t then s.refreshFinish p x f last
  else s.modUnit p fun u => { u with refresh := some f }

/-- REF.RUN (R157 to R166): an engine it would hold that is not free bars it (R172). -/
def execRefRun (k : ClusterId) (c : CmdWord) (s : State) : Out :=
  live s (s.command k.num c shRef 8 (fun _ x => refOk x c) (fun s x t => s.refRunRun k.num c x t)
    fun s _ t => if s.refreshFree (s.refreshGroups (k.num / 32) (refSpan c)) t then none else some (5, 6, 0))

/-- REFRESH_RESUME (R164): at cycle 0 of a beat a suspended refresh runs on, to its last store when that falls in this
window. -/
def execRefreshResume (g : Fin 68) (s : State) : Out :=
  live s <| match (s.unit g).refresh, s.ctx? (32 * g) with
    | some f, some x =>
      if f.suspended && s.jobRuns g then
        let t := s.beat.toNat * beatCycles
        if f.remaining ≤ windowEnd then s.refreshFinish g x { f with suspended := false } (t + f.remaining)
        else s.modUnit g fun u => { u with refresh := some { f with suspended := false, remaining := f.remaining - windowEnd } }
      else s
    | _, _ => s

end Sys2Proof.Machine
end

