-- ==== Sys2Proof/Machine/Stream.lean ====
section
/-!
DEFINITION. Stream: the stream unit's commands and their transfers (R220, R224 to R226), key-cache fills (R87 to R91) and
seeded planes (R52, R83).
-/
namespace Sys2Proof.Machine

/-! ### Addresses of SU commands (R182, R185, R190, R231) -/

/-- The source or destination a SPEC code names (R185). -/
def sourceOf (v : Nat) : SlotSource := if v = 0 then .hbm else if v = 1 then .keyCache else .groupBuffer

/-- Bytes a register's role lets the program touch from its value (R190): the slot's data area for role 7 (log entry 51). -/
def Ctx.regExtent (x : Ctx) (i : Nat) : Nat :=
  let d := x.prog.params.getD i {}
  if d.role = 7 then dataAreaBytes else d.extent

/-- The role of the register that permits an access to `n` bytes at `a` (R182): the register word 3 names, or else the
lowest-numbered one whose extent contains the range. -/
def Ctx.addressRole (x : Ctx) (cl : Cluster) (c : CmdWord) (write : Bool) (a n : Nat) : Option Nat :=
  let role := fun i => (x.prog.params.getD i {}).role
  let ok := fun i => (if write then role i == 5 || role i == 6 else decide (4 ≤ role i ∧ role i ≤ 7)) &&
    rangeInside a n (cl.param i).toNat (x.regExtent i)
  if cmdW3mode c = 1 then (let i := c.w3.toNat % 64; if ok i then some (role i) else none)
  else ((List.range 64).find? ok).map role

/-- Every extent of the key cache that the range touches is one the job was granted (R88). -/
def State.kcGranted (s : State) (job a n : Nat) : Bool :=
  let mine := (s.work.kcDir.filter fun e => e.jobs.contains job).flatMap (·.extents)
  let e0 := (a - kcBase) / extentBytes
  decide (kcBase ≤ a) && (List.range ((a + n - 1 - kcBase) / extentBytes - e0 + 1)).all fun i => mine.contains (e0 + i)

/-- Base address of the group buffer an SU of group `p` reads: a set-1 group of a TWIN job reads what set 0 wrote
(R278). -/
def State.readBuffer (s : State) (p : Nat) : Nat :=
  let g := s.group p
  let q := if g.set = 1 then (match s.jobOf p with | some j => j.set0.getD g.logical p | none => p) else p
  gbBase + q * groupBufferBytes

/-- The device address an SU command's word 3 gives: V[47:0], or the group buffer's base plus its offset (R185). -/
def State.suAddress (s : State) (k : Nat) (c : CmdWord) (src : SlotSource) : Nat :=
  let v := wordValue (s.cluster k) c % 2 ^ 48
  if src = .groupBuffer then gbBase + k / 32 * groupBufferBytes + v % 2 ^ 23 else v

/-- Word 3's own form: 256-byte aligned, and V[47:23] zero for a group-buffer offset (R182, R185). -/
def State.suAligned (s : State) (k : Nat) (c : CmdWord) (src : SlotSource) : Bool :=
  let v := wordValue (s.cluster k) c % 2 ^ 48
  v % 256 == 0 && (src != .groupBuffer || decide (v < 2 ^ 23))

/-- The role of a permitted range of `n` bytes at `a`; none fails Sheepdog's address-range check (R231). -/
def State.rangeRole (s : State) (k : Nat) (x : Ctx) (c : CmdWord) (src : SlotSource) (write : Bool) (a n : Nat) :
    Option Nat :=
  match src with
  | .hbm => if a + n ≤ hbmSize then x.addressRole (s.cluster k) c write a n else none
  | .keyCache => if s.kcGranted x.job.id.toNat a n then some 0 else none
  | .groupBuffer => if rangeInside a n (gbBase + k / 32 * groupBufferBytes) groupBufferBytes then some 0 else none

/-! ### The transfers of a command (R220, R224) -/

/-- One piece of a walk: device address and rows. -/
structure Piece where
  addr : Nat
  rows : Nat
deriving DecidableEq, Repr

/-- COUNT rows, contiguous. -/
def rawPieces (a n : Nat) : List Piece :=
  (List.range ((n + 7) / 8)).map fun i => ⟨a + 2048 * i, min 8 (n - 8 * i)⟩

/-- Rows of a plane in one cluster (R224). -/
def Ctx.perPlane (x : Ctx) : Nat := x.share / 64

/-- The cluster's shares of the planes from plane row `cur` on, `n` plane rows, for the object at `base`. -/
def objectPieces (x : Ctx) (base cur n : Nat) : List Piece :=
  let per := x.perPlane
  let plane := 4 * 2 ^ x.prog.log2n
  (List.range (n / max per 1)).flatMap fun j => (List.range ((per + 7) / 8)).map fun i =>
    ⟨base + 256 + (cur / max per 1 + j) * plane + x.index * (plane / x.span) + 2048 * i, min 8 (per - 8 * i)⟩

/-- What an SU command moves: its direction, ring and source, where it starts, and its object flags. -/
structure SuMove where
  op : SuOp
  out : Bool
  src : SlotSource
  ring : Nat
  base : Nat
  cursor : Nat
  rows : Nat
  start : Bool
  finish : Bool
  object : Bool
deriving DecidableEq, Repr

/-- The device range of a move, for the address check: the rows, or the planes with the head a flag adds. -/
def SuMove.range (m : SuMove) (x : Ctx) : Nat × Nat :=
  if m.object then
    let plane := 4 * 2 ^ x.prog.log2n
    let first := m.base + 256 + m.cursor / max x.perPlane 1 * plane
    let last := first + m.rows / max x.perPlane 1 * plane
    if (m.start && !m.out) || (m.finish && m.out) then (m.base, last - m.base) else (first, last - first)
  else (m.cursor, 256 * m.rows)

/-- The transfers of a move in their order, the first eligible at `t0`; `code` poisons them. A head opens a segment of as many
rows as the object has, when the command that ends the object says so. -/
def SuMove.transfers (m : SuMove) (x : Ctx) (opc t0 role code word : Nat) : List Transfer :=
  let head : List (Piece × Bool) := [(⟨m.base, 0⟩, true)]
  let body := (if m.object then objectPieces x m.base m.cursor m.rows else rawPieces m.cursor m.rows).map fun p => (p, false)
  let all := if m.object && m.start && !m.out then head ++ body
    else if m.object && m.finish && m.out then body ++ head else body
  (all.zipIdx).map fun e =>
    { op := m.op, src := m.src, ring := m.ring, index := e.2, addr := e.1.1.addr, rows := e.1.1.rows,
      bytes := if e.1.2 then 256 else 256 * e.1.1.rows, ringRow := 0, eligible := t0 + e.2, isHead := e.1.2,
      isLast := e.2 + 1 == all.length, job := x.job.id.toNat, role := role, code := code, out := m.out, opc := opc,
      segRows := if m.finish then m.cursor + m.rows else 0, word := word }

/-- An object's last SU.LOAD fixes the rows of the segment that its head opened, or is to open (R217, R224). -/
def State.endLoad (s : State) (k r rows : Nat) : State :=
  let waiting : Transfer → Bool := fun t => t.isHead && !t.out && t.ring == r
  if (s.cluster k).transfers.any waiting then
    s.modCluster k fun cl => { cl with transfers := cl.transfers.map fun t => if waiting t && t.segRows == 0 then { t with segRows := rows } else t }
  else s.modRing k r fun g =>
    match g.hq.reverse with
    | e :: rest => if e.loaded then { g with hq := (({ e with rows := rows, left := e.left + rows - e.rows } : Segment) :: rest).reverse } else g
    | [] => g

/-! ### What a load reads, at its grant -/

/-- Rows that `n` elements of `b` bytes fill. -/
def strideRows (n b : Nat) : Nat := (n * b + 255) / 256

/-- Rows whose last element source transfer `j` delivers. -/
def strideDone (n b span j : Nat) : List Nat :=
  (List.range (strideRows n b)).filter fun r => ((min ((r + 1) * (256 / b)) n - 1) * span * b) / 2048 == j

/-- A word read from device memory is delivered poisoned: its line, its own word, or its page is (R213, R254, R255). -/
def State.wordPoisoned (s : State) (a : Nat) : Bool :=
  (decide (a < hbmSize) && (s.mem.linePoisoned a || s.memSys.retiredPages.contains (a / 2048))) ||
  s.mem.poisonWords.contains (a / 4)

/-- Nothing in the device memory is marked. -/
def State.unmarked (s : State) : Bool := s.mem.poisonLines == [] && s.mem.poisonWords == [] && s.memSys.retiredPages == []

/-- The group whose buffer an SU of group `p` reads. -/
def State.bufferGroup (s : State) (p : Nat) : Nat := (s.readBuffer p - gbBase) / groupBufferBytes

/-- The row of its group's buffer that device address `a` is for an SU of group `p`; none outside the buffer's window. -/
def bufferRow? (p a : Nat) : Option Nat :=
  if gbBase ≤ a ∧ a < spBase then some ((a - (gbBase + p * groupBufferBytes)) / 256) else none

/-- A row of 64 words at device address `a` as the SU of group `p` reads it in cycle `x`. -/
def State.suReadRow (s : State) (p a x : Nat) : Row :=
  match bufferRow? p a with
  | some row => s.gbRow (s.bufferGroup p) row x
  | none => s.mem.row a

/-- The words of `n` rows at `a` that arrive poisoned, as word numbers of the transfer. -/
def State.poisonedAt (s : State) (p a n x : Nat) : List Nat :=
  if s.unmarked then []
  else (List.range (64 * n)).filter fun i =>
    match bufferRow? p (a + 4 * i) with
    | some row => (lastWrite (s.unit (s.bufferGroup p)).tileWrites row x).isNone && s.wordPoisoned (a + 4 * i)
    | none => s.wordPoisoned (a + 4 * i)

/-- The key-cache extent read is one whose fill failed (R89). -/
def State.badExtent (s : State) (job a : Nat) : Bool :=
  s.work.kcDir.any fun e => e.jobs.contains job && e.bad && e.extents.contains ((a - kcBase) / extentBytes)

/-- Device addresses of the elements of row `r` of cluster `x.index` in an SU.LOADS whose data begin at `base` (R225). -/
def loadsBytes (x : Ctx) (els width base r : Nat) : List (Option Nat) :=
  (List.range (256 / width)).map fun i =>
    let e := r * (256 / width) + i
    if e < els then some (base + (e * x.span + x.index) * width) else none

/-- The rows of an SU.LOADS that transfer `t` completes in a cluster, zeros beyond the elements (R225, R234). -/
def State.loadsRows (s : State) (x : Ctx) (t : Transfer) : List Row :=
  (strideDone t.els t.width x.span t.index).map fun r =>
    bytesToWords ((loadsBytes x t.els t.width (t.addr - 2048 * t.index) r).flatMap fun a => match a with
      | some a => s.mem.readN a t.width
      | none => List.replicate t.width 0)

/-- The words of those rows in which an element arrives poisoned. -/
def State.loadsMarks (s : State) (x : Ctx) (t : Transfer) : List Nat :=
  if s.unmarked then []
  else ((strideDone t.els t.width x.span t.index).zipIdx).flatMap fun e =>
    ((loadsBytes x t.els t.width (t.addr - 2048 * t.index) e.1).zipIdx).filterMap fun a =>
      if a.1.any s.wordPoisoned then some (64 * e.2 + a.2 * t.width / 4) else none

/-- A load's transfer takes what its source holds in cycle `at_`. -/
def State.takeLoad (s : State) (k : Nat) (x : Ctx) (t : Transfer) (at_ : Nat) : Transfer :=
  let p := k / 32
  if t.op = .loads then { t with data := s.loadsRows x t, marks := s.loadsMarks x t }
  else
    let n := if t.isHead then 1 else t.rows
    { t with data := (List.range n).map fun i => s.suReadRow p (t.addr + 256 * i) at_, marks := s.poisonedAt p t.addr n at_ }

/-- The store ranges of a job that a read overlaps while a later stamp will write them (R231, pending stores). -/
def State.pendingStore (s : State) (job a n : Nat) : Bool :=
  (s.run job).stores.any fun r => !r.done && rangesOverlap a n r.addr r.length

/-- The header-queue entry that a store with OBJSTART issued in cycle `t` finds for its segment, behind the rows that earlier
stores still waiting take (R217, R224). -/
def State.storeSegment? (s : State) (k r t : Nat) : Option Segment :=
  let g := s.ring k r
  let skip := (((s.cluster k).transfers.filter fun t => t.ring == r && t.out && t.tag.isNone).map (·.rows)).sum
  (popSegments g.size.toNat g.head.toNat g.hq skip).head?.filter fun e =>
    ringGap g.size.toNat (g.at skip) (e.next g.size.toNat) == 0 && decide (e.at_ ≤ t)

/-- An SU command reaches its stream unit in cycle `t`: the code an absent group answers with (R184). -/
def State.suAbsent (s : State) (k : Nat) (c : CmdWord) (t : Nat) : Nat × State :=
  if s.absent k then s.meetAbsent k 3 (cmdOp c) t else (0, s)

/-- What a job meets when it stores an object loaded poisoned, or one its declaration refuses, as a release (R53, R143). -/
def State.releasePoison (s : State) (k role : Nat) (sg : Segment) (opc a t : Nat) : State :=
  if sg.hdr.poison ≠ 0 then
    if sg.loaded && role == 6 then s.clusterFault k 3 1 (consumedKind sg.hdr.poison) opc 0 a t true else s
  else if sg.decl ≠ 0 then s.clusterFault k 3 1 (refusalKind sg.decl) opc 0 a t true
  else s

/-- Issue a move at cycle `t`, its first transfer eligible at `t0` (R220, R224, R226): an object-state or pending-store
violation lets it run poisoned. What its loads will read is looked up at once for the commands that read ahead of their
landing, and again at each grant. A stored segment's poison fills every row written and stands in the head (R53, R54). -/
def State.suMove (s : State) (k : Nat) (c : CmdWord) (x : Ctx) (t t0 word : Nat) (m : SuMove) (unset : Bool) : State :=
  let (a, n) := m.range x
  match s.rangeRole k x c m.src m.out a n with
  | none => s.violateBy k word 2 3 m.ring (cmdOp c) t a true
  | some role =>
    let (absent, s) := s.suAbsent k c t
    let opens := m.object && m.out && m.start
    let seg := if opens then s.storeSegment? k m.ring t else none
    let noHead := opens && seg.isNone
    let s := if unset || noHead then s.violateBy k word 7 3 m.ring (cmdOp c) t a false else s
    let pend := !m.out && m.src == .hbm && s.pendingStore x.job.id.toNat a n
    let s := if pend then s.violateBy k word 3 3 m.ring (cmdOp c) t a false else s
    let s := match seg with
      | some g => s.releasePoison k role g (cmdOp c) a t
      | none => s
    let old := (s.ring k m.ring).desc
    let segCode := match seg with
      | some g => firstCode [g.hdr.poison, g.decl]
      | none => 0
    -- an object's poison lasts to its head
    let code := firstCode [absent, if unset || noHead || pend then 0x0C else 0, segCode, if m.object && !m.start then old.code else 0]
    let fallback := fallbackHeader (s.headCtx k x c 2)
    let hdr := if opens then some ((seg.map (·.hdr)).getD fallback) else if unset then some fallback else old.hdr
    let trs := m.transfers x (cmdOp c) t0 role code word
    let desc : StreamDesc := { old with
        last := some (m.op, c), base := m.base, outstanding := old.outstanding + trs.length,
        cursor := if m.object then m.cursor + m.rows else m.cursor + 256 * m.rows, role := role, hdr := hdr, code := code,
        noHeader := noHead || (!m.start && old.noHeader) }
    let trs := if m.out then trs else trs.map fun tr => s.takeLoad k x tr t
    let s := (s.modCluster k fun cl => { cl with transfers := cl.transfers ++ trs }).modRing k m.ring fun g => { g with desc := desc }
    let s := if m.object && m.finish && !m.out && !m.start then s.endLoad k m.ring (m.cursor + m.rows) else s
    if m.out && m.src == .hbm then s.modRun x.job.id.toNat fun r => { r with stores := r.stores ++
      [{ addr := a, length := n, jobBeat := x.job.jobBeat, done := false, role := role, base := m.base, object := m.object,
         hdr := hdr.getD {} }] } else s

/-- A move whose range no register, grant or window permits is not issued (R183, R231). -/
def State.suBar (s : State) (k : Nat) (c : CmdWord) (x : Ctx) (m : SuMove) : Barred :=
  if (s.rangeRole k x c m.src m.out (m.range x).1 (m.range x).2).isSome then none else some (2, 3, m.ring)

/-- The ring an operand names, 0 for none. -/
def ringNo (o : Operand) : Nat := (o.ringNo?).getD 0

/-- The move an SU.LOAD or SU.STORE makes: a new walk from V, or the descriptor's continued (R224). -/
def State.suPlan (s : State) (k : Nat) (c : CmdWord) (out : Bool) : SuMove × Bool :=
  let r := ringNo (if out then cmdA c else cmdD c)
  let g := s.ring k r
  let src := sourceOf (cmdSpec c)
  let v := s.suAddress k c src
  let cont := g.object && !cmdObjStart c
  let unset := cont && g.desc.last.isNone
  ({ op := if out then .store else .load, out := out, src := src, ring := r,
     base := if cont && !unset then g.desc.base else v,
     cursor := if g.object then (if cont && !unset then g.desc.cursor else 0) else v,
     rows := cmdCount c, start := g.object && cmdObjStart c, finish := g.object && cmdObjEnd c, object := g.object }, unset)

/-- The issue checks of an SU.LOAD or SU.STORE that its shape does not hold (R224, R470). -/
def State.suOk (s : State) (k : Nat) (x : Ctx) (c : CmdWord) (out : Bool) : Bool :=
  let g := s.ring k (ringNo (if out then cmdA c else cmdD c))
  s.suAligned k c (sourceOf (cmdSpec c)) &&
  (if g.object then cmdCount c % max x.perPlane 1 == 0 else !cmdObjStart c && !cmdObjEnd c)

/-- The shapes of SU commands (R185). -/
def shLoad : Shape := { spec := fun v => decide (v < 3), word3 := true, objFlags := true, d := kR }
@[inherit_doc shLoad] def shStore : Shape := { spec := fun v => v == 0 || v == 2, word3 := true, objFlags := true, a := kR }
@[inherit_doc shLoad] def shLoads : Shape := { spec := fun v => decide (v < 3), word3 := true, d := kR }
@[inherit_doc shLoad] def shArm : Shape := { countHi := 1, spec := fun v => decide (v < 16) }
@[inherit_doc shLoad] def shRelay : Shape := { word3 := true, a := kR, d := kR }
@[inherit_doc shLoad] def shKfill : Shape := { countHi := 1, spec := fun v => decide (v < 64), lead := true }
@[inherit_doc shLoad] def shPip : Shape :=
  { anyWalk := true, lead := true, a := kP, d := { tile := true, hand := true } }
@[inherit_doc shLoad] def shTile : Shape := { spec := fun v => decide (v < 2), a := kRT, d := kRT }
@[inherit_doc shLoad] def shMove : Shape := { spec := fun v => decide (v < 64), a := kR, d := kR }
@[inherit_doc shLoad] def shBcast : Shape := { spec := fun v => decide (v < 32), a := kR, d := kR }

/-- SU.LOAD's and SU.STORE's effect. -/
def State.suRun (s : State) (k : Nat) (c : CmdWord) (x : Ctx) (t : Nat) (out : Bool) : State :=
  let (m, unset) := s.suPlan k c out
  s.suMove k c x t (t + 1) (s.cluster k).lastItem m unset

/-- SU.LOAD (R220 to R224). -/
def execSuLoad (k : ClusterId) (c : CmdWord) (s : State) : Out :=
  live s (s.command k.num c shLoad 3 (fun s x => s.suOk k.num x c false) (fun s x t => s.suRun k.num c x t false)
    fun s x _ => s.suBar k.num c x (s.suPlan k.num c false).1)

/-- SU.STORE (R220 to R224, R199). -/
def execSuStore (k : ClusterId) (c : CmdWord) (s : State) : Out :=
  live s (s.command k.num c shStore 3 (fun s x => s.suOk k.num x c true) (fun s x t => s.suRun k.num c x t true)
    fun s x _ => s.suBar k.num c x (s.suPlan k.num c true).1)

/-! ### SU.LOADS (R225) -/

/-- Where the head of the declared clear tensor lies that tensor data at `a` belong to: the last that begins at or before them
in the register's extent (R58, R191). -/
def Ctx.clearHead? (x : Ctx) (cl : Cluster) (a : Nat) : Option Nat :=
  ((x.prog.inputs.filter fun d => d.format == 3 && rangeInside a 1 (cl.param d.reg).toNat (x.regExtent d.reg)).map fun d =>
    (cl.param d.reg).toNat + d.offset).foldl (fun best b => if b + 256 ≤ a ∧ (best.all fun y => decide (y ≤ b)) then some b else best) none

/-- The tensor's head fails R58's check: every row loaded from it is poisoned with HEADER_INVALID. -/
def State.clearHeadBad (s : State) (k : Nat) (x : Ctx) (a : Nat) : Bool :=
  (x.clearHead? (s.cluster k) a).any fun h => !tensorOk (s.mem.readN h 256)

/-- Bytes an SU.LOADS reads. -/
def loadsLength (x : Ctx) (c : CmdWord) : Nat := cmdCount c * x.span * 2 ^ cmdSpec c

/-- One cluster's part of an SU.LOADS: a transfer for each 2,048 source bytes, which takes its slot with those of the other
clusters (R220, R225). -/
def State.loadsPart (s : State) (k : Nat) (c : CmdWord) (x : Ctx) (t t0 base word pre : Nat) : State :=
  let b := 2 ^ cmdSpec c
  let n := cmdCount c
  let bytes := loadsLength x c
  let r := ringNo (cmdD c)
  match s.rangeRole k x c .hbm false base bytes with
  | none => s.violateBy k word 2 3 r (cmdOp c) t base true
  | some role =>
    let (absent, s) := s.suAbsent k c t
    let pend := s.pendingStore x.job.id.toNat base bytes
    let s := if pend then s.violateBy k word 3 3 r (cmdOp c) t base false else s
    let code := firstCode [pre, absent, if pend then 0x0C else 0, if s.clearHeadBad k x base then 2 else 0]
    let count := (bytes + 2047) / 2048
    let trs : List Transfer := (List.range count).map fun j =>
      { op := .loads, src := .hbm, ring := r, index := j, addr := base + 2048 * j,
        rows := (strideDone n b x.span j).length, bytes := min 2048 (bytes - 2048 * j), ringRow := 0, eligible := t0 + j,
        isHead := false, isLast := j + 1 == count, job := x.job.id.toNat, role := role, code := code, opc := cmdOp c, els := n,
        width := b, word := word }
    let trs := trs.map fun tr => s.takeLoad k x tr t
    (s.modCluster k fun cl => { cl with transfers := cl.transfers ++ trs }).modRing k r fun g => { g with desc := { g.desc with
      last := some (.loads, c), base := base, cursor := base + bytes, role := role, hdr := none, code := 0, noHeader := false
      outstanding := g.desc.outstanding + count } }

/-- SU.LOADS's effect over the clusters of the group. -/
def State.loadsRun (s : State) (c : CmdWord) (x : Ctx) (t base : Nat) (ks : List Nat) (pre : Nat) : State :=
  ks.foldl (fun s k => s.loadsPart k c ((s.ctx? k).getD x) t (t + 1) base (s.cluster k).lastItem pre) s

/-- SU.LOADS's source range must be permitted, else it is not issued (R225, R231). -/
def State.loadsBar (s : State) (k : Nat) (x : Ctx) (c : CmdWord) : Barred :=
  if (s.rangeRole k x c .hbm false (s.suAddress k c .hbm) (loadsLength x c)).isSome then none else some (2, 3, ringNo (cmdD c))

/-- SU.LOADS (R225). -/
def execSuLoads (g : Fin 68) (c : CmdWord) (s : State) : Out :=
  live s (s.clustersCommand (groupClusters g) g c shLoads [3] (fun s _ => s.suAligned (32 * g) c .hbm)
    (fun s x t ks pre => s.loadsRun c x t (s.suAddress (32 * g) c .hbm) ks pre) fun s x _ => s.loadsBar (32 * g) x c)

/-! ### SU.TILE -/

/-- The tile and the ring of an SU.TILE, and whether the direction bit fits them. -/
def tileOperands (c : CmdWord) : Option (Nat × Nat × Bool) :=
  match cmdSpec c, cmdA c, cmdD c with
  | 0, .ring r, .tile t => some (r, t, true)
  | 1, .tile t, .ring r => some (r, t, false)
  | _, _, _ => none

/-- The move of an SU.TILE: consecutive rows of the register from the window's first plane slot (log entry 16). -/
def State.tilePlan (s : State) (k : Nat) (c : CmdWord) (r t : Nat) (out : Bool) : SuMove :=
  let a := gbBase + k / 32 * groupBufferBytes + 256 * tileRowNo t 0 (s.tileWindow (k / 32) t).2
  { op := .tile, out := out, src := .groupBuffer, ring := r, base := a, cursor := a, rows := cmdCount c, start := false,
    finish := false, object := false }

/-- A window that passes the register's end is an address-range violation (R231). -/
def State.tileBar (s : State) (k : Nat) (c : CmdWord) : Barred :=
  match tileOperands c with
  | some (r, t, _) => if (s.tileWindow (k / 32) t).2 + cmdCount c ≤ 2048 then none else some (2, 3, r)
  | none => none

/-- SU.TILE's effect. -/
def State.tileRun (s : State) (k : Nat) (c : CmdWord) (x : Ctx) (t : Nat) : State :=
  match tileOperands c with
  | some (r, tr, out) => s.suMove k c x t (t + 1) (s.cluster k).lastItem (s.tilePlan k c r tr out) false
  | none => s

/-- SU.TILE (R185, R181): exactly one operand is a tile register. -/
def execSuTile (k : ClusterId) (c : CmdWord) (s : State) : Out :=
  live s (s.command k.num c shTile 3 (fun _ _ => (tileOperands c).isSome) (fun s x t => s.tileRun k.num c x t)
    fun s _ _ => s.tileBar k.num c)

/-! ### SU.ARM and the shadow (R226) -/

/-- The command a descriptor repeats, and its move, which for an SU.LOADS is its own: the same COUNT from the cursor, with
neither OBJSTART nor OBJEND. -/
def State.repeatPlan (s : State) (k r : Nat) : Option (CmdWord × Option SuMove) :=
  let g := s.ring k r
  g.desc.last.map fun e =>
    let (op, c) := e
    let out := match op with
      | .store => true
      | .tile => (tileOperands c).any fun e => e.2.2
      | _ => false
    (c, if op = .loads then none else some
      { op := op, out := out, src := if op = .tile then .groupBuffer else sourceOf (cmdSpec c), ring := r, base := g.desc.base
        cursor := g.desc.cursor, rows := cmdCount c, start := false, finish := false, object := g.object && op != .tile })

/-- Repeat the descriptor's command, its first transfer eligible at `t0`; an SU.LOADS's repeat is the cluster's own part. -/
def State.repeatDesc (s : State) (k r t t0 word : Nat) (x : Ctx) : State :=
  match s.repeatPlan k r with
  | none => s
  | some (c, none) => s.loadsPart k c x t t0 (s.ring k r).desc.cursor word 0
  | some (c, some m) => s.suMove k c x t t0 word m false

/-- The stamp of a descriptor's last transfer; none while one waits for its grant. -/
def State.lastStampOf (s : State) (k r : Nat) : Option Nat :=
  let own := (s.cluster k).transfers.filter fun t => t.ring == r
  if own.any fun t => t.tag.isNone then none
  else some (own.foldl (fun m t => max m t.stamp) (s.ring k r).desc.lastStamp)

/-- A repeat whose range is not permitted is not issued (R231). -/
def State.armBar (s : State) (k : Nat) (c : CmdWord) (x : Ctx) : Barred :=
  let r := cmdSpec c % 16
  match s.repeatPlan k r with
  | some (c', none) => if (s.rangeRole k x c' .hbm false (s.ring k r).desc.cursor (loadsLength x c')).isSome then none else some (2, 3, r)
  | some (c', some m) => s.suBar k c' x m
  | none => none

/-- SU.ARM's effect: repeated now, held in the shadow, refused and counted, or a lockstep violation. -/
def State.armRun (s : State) (k : Nat) (c : CmdWord) (x : Ctx) (t : Nat) : State :=
  let r := cmdSpec c % 16
  let d := (s.ring k r).desc
  if d.last.isNone then s.violate k 4 3 r (cmdOp c) t 0 false
  else if (s.lastStampOf k r).any fun m => decide (m ≤ t) then s.repeatDesc k r t (t + 1) (s.cluster k).lastItem x
  else if d.shadow then s.modCluster k fun cl => { cl with rearm := satInc cl.rearm }
  else s.modRing k r fun g => { g with desc := { g.desc with shadow := true, armWord := (s.cluster k).lastItem } }

/-- SU.ARM (R226). -/
def execSuArm (k : ClusterId) (c : CmdWord) (s : State) : Out :=
  live s (s.command k.num c shArm 3 (fun _ _ => true) (fun s x t => s.armRun k.num c x t) fun s x _ => s.armBar k.num c x)

/-- SHADOW_REPEAT (R226): in the stamp's cycle of the descriptor's last transfer the held repeat takes effect. -/
def execShadowRepeat (k : ClusterId) (ring : Fin 16) (s : State) : Out :=
  live s <| match s.ctx? k.num, s.lastStampOf k.num ring with
    | some x, some last =>
      let d := (s.ring k.num ring).desc
      if d.shadow && decide (last ≤ s.now) && s.jobRuns (k.num / 32) then
        (s.modRing k.num ring fun g => { g with desc := { g.desc with shadow := false } }).repeatDesc k.num ring last last d.armWord x
      else s
    | _, _ => s

/-! ### SU.KFILL (R87 to R91) -/

/-- A key's planes copied from HBM to its extents (R87). -/
def copyKey (m : Memory) (src : Nat) (extents : List Nat) (len : Nat) : Memory :=
  ((List.range ((len + extentBytes - 1) / extentBytes)).foldl (fun m i =>
    let n := min extentBytes (len - extentBytes * i)
    let dst := kcBase + extents.getD i 0 * extentBytes
    (List.range (n / 256)).foldl (fun m j =>
      let a := src + extentBytes * i + 256 * j
      let d := dst + 256 * j
      let poisoned := (List.range 64).filter fun w => m.linePoisoned (a + 4 * w)
      poisoned.foldl (fun m w => m.markWord (d + 4 * w)) (m.store d (m.readN a 256))) m) m)

/-- The key header at `b` names the declared identity (R89). -/
def fillHeaderOk (ks : KeySet) (d : KeyDecl) (b : List Byte) : Bool :=
  crc32c (slice b 0 60) == field b 60 4 && field b 0 1 == 5 && field b 16 8 == ks.ksid && field b 8 2 == d.index &&
  field b 5 1 == d.hi

/-- The directory entry and key that an SU.KFILL names, with its key set and declaration; none is an address-range violation
(R231). -/
def State.kfillOf (s : State) (x : Ctx) (c : CmdWord) : Option (KeySet × KeyDecl × KcEntry × KeyEntry) :=
  x.ks.bind fun ks => (x.keyDecl? (cmdSpec c)).bind fun d =>
    (s.kcEntry? x.job.id.toNat x.prog.ksid d).bind fun e => (ks.key? d.index).map fun key => (ks, d, e, key)

/-- SU.KFILL's effect: the key's header goes to the directory and its planes to the extents, by pieces that take slots of HBM
(R89); a bad header poisons the extents; an entry already filled or being filled reads nothing (R90). -/
def State.kfillRun (s : State) (k : Nat) (c : CmdWord) (x : Ctx) (t : Nat) : State :=
  let (absent, s) := s.suAbsent k c t
  match s.kfillOf x c with
  | none => s
  | some (ks, d, e, key) =>
    if absent ≠ 0 || (e.filled && !e.bad) || e.fill.isSome then s
    else
      let a := ks.regionBase + key.offset
      let head := s.mem.readN a 64
      let ok := fillHeaderOk ks d head && !(s.mem.anyPoison a 64)
      let s := if ok then { s with mem := copyKey s.mem (a + 256) e.extents (key.length - 256) } else s
      let fill : KcFill := { job := x.job.id.toNat, cluster := k, first := t + 1, next := 0
                             count := 1 + (key.length - 256 + 2047) / 2048, opc := cmdOp c, word := (s.cluster k).lastItem }
      s.modKc e fun e => { e with filled := true, bad := !ok, header := head, fill := some fill, landing := [] }

/-- SU.KFILL (R89): of a key the program declares for the key cache. -/
def execSuKfill (k : ClusterId) (c : CmdWord) (s : State) : Out :=
  live s (s.command k.num c shKfill 3 (fun _ x => (x.keyDecl? (cmdSpec c)).any fun d => !d.fromHbm)
    (fun s x t => s.kfillRun k.num c x t) fun s x _ => if (s.kfillOf x c).isSome then none else some (2, 3, 0))

/-! ### SU.PIP (R52, R83 to R85) -/

/-- A plane slot window that does not hold the planes is an address-range violation (R231). -/
def State.pipBar (s : State) (k : Nat) (c : CmdWord) (x : Ctx) : Barred :=
  if s.tileFits (k / 32) (cmdD c) (cmdCount c) (min 32 (x.tiles - ((s.tileBase? (k / 32) (cmdD c)).getD 0))) then none else some (2, 7, 0)

/-- SU.PIP's effect: each plane of polynomial 1 is expanded from the seed and key-set ID of the object's head and goes
to a plane slot of the tile window, or to the hand-over of the group's clusters; a tile of every plane before the next tile
(R83). -/
def State.pipRun (s : State) (k : Nat) (c : CmdWord) (x : Ctx) (t : Nat) : State :=
  let p := k / 32
  let n := cmdCount c
  let len := 2 ^ x.prog.log2n
  let ring := ringNo (cmdA c)
  let (absent, s) := if s.absent k then (9, s.groupFault p 7 0 0x70 (cmdOp c) 0 0 t true) else (0, s)
  let sg := (s.operandSegment k (cmdA c)).filter fun g => decide (g.at_ ≤ t)
  let s := if sg.isNone then s.violate k 0 7 ring (cmdOp c) t 0 false else s
  let hdr := (sg.map (·.hdr)).getD {}
  let seeded := sg.isSome && s.operandIsObject k (cmdA c) && hdr.seeded
  let plain := sg.isSome && hdr.poison = 0 && !seeded
  let s := if plain then s.groupFault p 7 4 0x34 (cmdOp c) 0 0 t true else s
  let b := (s.tileBase? p (cmdD c)).getD 0
  let tiles := min 32 (x.tiles - b)
  let at_ := fun i j => t + 16 + j * n + i
  let (cd, s) := s.rmeWriteCheck p (cmdD c) n tiles at_ c t
  let code := firstCode [hdr.poison, if plain then 4 else 0, if sg.isNone then 0x0C else 0, absent, cd]
  let r := x.rset hdr.rset
  let idx := fun i => cmdR0 c + i % max (cmdW c) 1
  let plane := fun i => expand ((sg.map (·.seed)).getD []) hdr.ksid 0xFFFF 0xFF (idx i) (r.modulus (idx i)) len
  let last := t + 16 + (n * len + 63) / 64 - 1
  match cmdD c with
  | .tile _ =>
    let planes := (List.range n).map fun i =>
      if code ≠ 0 then [] else
        let pl := plane i
        (List.range (64 * tiles)).map fun w => pl.getD (tilePosition x b (w / 64) (w % 64)) 0
    (s.rmeOut p (cmdD c) tiles 0 at_ planes code).rmeNote p 7 (cmdD c) n tiles t last
  | o =>
    let s := (List.range n).foldl (fun s i =>
      let pl := if code ≠ 0 then List.replicate len poisonWord.toNat else plane i
      (groupClusters p).foldl (fun s k' =>
        let words := (List.range x.share).map fun l => pl.getD (l * x.span + x.index / 32 * 32 + k' % 32) 0
        s.pushOperand k' o (fun _ => last) 64 (wordsRows words)) s) s
    (groupClusters p).foldl (fun s k' => (s.closeOutput k' o (n * x.perPlane) code last none).noteWork k' 7 o 0 t last) s

/-- SU.PIP (R83, R85): every index of its walk is a residue of the object's set. -/
def execSuPip (k : ClusterId) (c : CmdWord) (s : State) : Out :=
  live s (s.command k.num c shPip 3
    (fun s x => walkOk (x.rset (((s.operandSegment k.num (cmdA c)).map fun g => g.hdr.rset).getD 0)) (cmdR0 c) (cmdW c))
    (fun s x t => s.pipRun k.num c x t) fun s x _ => s.pipBar k.num c x)

end Sys2Proof.Machine
end

