-- ==== Sys2Proof/Machine/Landing.lean ====
section
/-!
DEFINITION. Landing: the slots of the sources, grants, stamps and landings of transfers and of key-cache fills (R89, R216,
R220 to R227, R231, R235, R246, R247).
-/
namespace Sys2Proof.Machine

/-! ### What a late judgement or a failed check poisons (R53, R232) -/

/-- The outputs of the last command a unit had taken by cycle `by_` are poisoned with `code` where they stand: the rows it
pushed and their headers, an object it has open, a tile it stored, a refresh it runs (R53, R86, R98, R126, R163). -/
def State.poisonEngine (s : State) (k engine code by_ : Nat) : State :=
  let p := k / 32
  let ks := if 6 ≤ engine then groupClusters p else [k]
  let notes := ks.flatMap fun k => (List.range 16).filterMap fun r =>
    ((s.ring k r).note.filter fun n => n.engine == engine && decide (n.at_ ≤ by_)).map fun n => (k, r, n)
  let last := notes.foldl (fun m e => max m e.2.2.at_) 0
  let s := (notes.filter fun e => e.2.2.at_ == last).foldl (fun s e => s.poisonOut e.1 e.2.1 e.2.2.first e.2.2.rows code) s
  let s := ks.foldl (fun s k =>
    if engine = 1 then s.modCluster k fun c =>
      { c with objects := c.objects.map fun e => (e.1, if e.2.code = 0 then { e.2 with code := code } else e.2) }
    else s) s
  match (s.unit p).tileNote with
  | some (e, rows) =>
    if e = engine then
      let s := rows.foldl (fun s row => { s with mem := s.mem.storeRow (gbRowAddr p row) poisonRow 64 }) s
      s.modUnit p fun u => { u with tileWrites := u.tileWrites.map fun w => if rows.contains w.row then { w with data := poisonRow } else w }
    else s
  | none => s
  |> fun s => if engine = 6 then s.modUnit p fun u => { u with refresh := u.refresh.map fun r => if r.code = 0 then { r with code := code } else r }
    else s

/-! ### Slots (R221) -/

/-- Cycle `c` of a program window carries a slot of the source (R221). -/
def slotCycle (src : SlotSource) (c : Nat) : Bool :=
  decide (c < windowEnd) && match src with
    | .hbm => decide (c * 245 / 2048 < (c + 1) * 245 / 2048)
    | .keyCache => c % 8 == 0
    | .groupBuffer => true

/-- The slot at `t` is the SU's: it lies after the group's last slot, and neither the RME's key feed nor its tile feeds
and store path take it (R221, R222). -/
def State.slotOpen (s : State) (p : Nat) (src : SlotSource) (t : Nat) : Bool :=
  let u := s.unit p
  slotCycle src (cycleOf t) && decide (u.lastSlot.at (slotCode src) 0 < t + 1) && match src with
    | .hbm => decide (u.feedHbmUntil ≤ t)
    | .keyCache => decide (u.feedKcUntil ≤ t)
    | .groupBuffer => u.gbTaken.all fun e => decide (t < e.1 ∨ e.1 + e.2 ≤ t)

/-! ### Eligibility (R220, R222) -/

/-- The lowest free tag of a cluster's SU (R220). -/
def Cluster.freeTag? (cl : Cluster) : Option Nat :=
  (List.range 64).find? fun i => cl.transfers.all fun t => t.tag != some i

/-- The first cycle in which a ring has credit for `n` rows (R216, R220); none while no issued read returns it. -/
def Ring.creditFrom (g : Ring) (n : Nat) : Option Nat :=
  let need := n - g.credit.toNat
  let cycles := g.returns.flatMap fun e => (List.range (min e.2 need)).map (e.1 + ·)
  if need = 0 then some 0
  else (cycles.filter fun x => decide (need ≤ (cycles.filter fun y => decide (y ≤ x)).length)).foldl
    (fun best x => match best with
      | some b => some (min b x)
      | none => some x) none

/-- The eligibility cycle of a transfer that waits in cluster `k` (R220); none while no tag or no credit is free. -/
def State.eligibleAt (s : State) (k : Nat) (t : Transfer) : Option Nat :=
  let cl := s.cluster k
  let credit := if t.out then some 0 else (s.ring k t.ring).creditFrom t.rows
  if cl.freeTag?.isNone then none
  else credit.map fun c => max (max t.eligible (cl.nextGrant.at (slotCode t.src) 0)) (max cl.tagFreeAt c)

/-- The transfers of cluster `k` that wait for a slot of the source, the first of each ring: those of one ring move in the order
of their commands (DEDUCED, log entry 127). -/
def State.waitingFor (s : State) (k : Nat) (src : SlotSource) : List Transfer :=
  let wait := (s.cluster k).transfers.filter fun x => x.tag.isNone && x.src == src
  (List.range 16).filterMap fun r => wait.find? fun x => x.ring == r

/-- The clusters whose transfers one slot serves: the parts of an SU.LOADS in every cluster that waits for the same source
bytes (R225), else the transfer's own. -/
def State.slotClusters (s : State) (k : Nat) (t : Transfer) : List Nat :=
  if t.op = .loads then (groupClusters (k / 32)).filter fun k' =>
    (s.waitingFor k' t.src).any fun x => x.op == .loads && x.ring == t.ring && x.addr == t.addr && x.index == t.index
  else [k]

/-- What bids for a slot: a cluster's transfer, or the next piece of a key's fill. -/
inductive Bidder where
  | transfer (k : Nat) (t : Transfer)
  | fill (e : KcEntry)
deriving DecidableEq, Repr

/-- The source it takes a slot of. -/
def Bidder.source : Bidder → SlotSource
  | .transfer _ t => t.src
  | .fill _ => .hbm

/-- A bid: eligibility cycle, cluster within the group and k of R220 (R222). -/
structure Bid where
  elig : Nat
  cluster : Nat
  index : Nat
  by_ : Bidder
deriving DecidableEq, Repr

/-- The bids of cluster `k`. An SU.LOADS's transfer is eligible when it is in every cluster it serves. -/
def State.clusterBids (s : State) (k : Nat) (src : SlotSource) : List Bid :=
  (s.waitingFor k src).filterMap fun t =>
    let es := (s.slotClusters k t).map fun k' => s.eligibleAt k' t
    if es.all (·.isSome) then
      some { elig := es.foldl (fun m e => max m (e.getD 0)) 0, cluster := k % 32, index := t.index, by_ := .transfer k t }
    else none

/-- The bids of key-cache fills for a slot of HBM of group `p`: those of its job, whose groups' slots they all may take (R89);
they hold no tag (log entry 126). -/
def State.fillBids (s : State) (p : Nat) (src : SlotSource) : List Bid :=
  if src ≠ .hbm then []
  else s.work.kcDir.filterMap fun e => match e.fill with
    | some f => if f.job = (s.jobId p).toNat ∧ f.next < f.count then
        some { elig := f.first + f.next, cluster := f.cluster % 32, index := f.next, by_ := .fill e } else none
    | none => none

/-- Of two bids, the first goes before the second (R222). -/
def Bid.before (a b : Bid) : Bool :=
  if a.elig ≠ b.elig then decide (a.elig < b.elig) else if a.cluster ≠ b.cluster then decide (a.cluster < b.cluster)
  else decide (a.index ≤ b.index)

/-- The bid a slot of group `p` in cycle `t` goes to. -/
def State.chosen (s : State) (p : Nat) (src : SlotSource) (t : Nat) : Option Bid :=
  (((groupClusters p).flatMap fun k => s.clusterBids k src) ++ s.fillBids p src).foldl (fun best x =>
    if t < x.elig then best
    else match best with
      | none => some x
      | some y => if y.before x then best else some x) none

/-! ### Claims (R216, R231) -/

/-- Claim ring rows for a row granted or injected at cycle `t` (R216). -/
def Ring.claimRows (g : Ring) (n stamp : Nat) : Ring :=
  { g.spend n with
    claim := BitVec.ofNat 12 (g.claimAt n)
    claimed := g.claimed + n
    awaited := g.awaited.filter fun e => decide (g.claimed + n ≤ e.row)
    stamps := (List.range n).foldl (fun tb i => tb.put (g.claimAt i) stamp) g.stamps
    ends := (List.range n).foldl (fun tb i => tb.put (g.claimAt i) stamp) g.ends }

/-- A claim of rows of ring `r` at cycle `t`: reads issued ahead of it are judged against the stamp it fixes; one that comes
too late poisons what its command has written (R231, R232). -/
def State.claimAt (s : State) (k r n t stamp : Nat) : State :=
  let g := s.ring k r
  let late := g.awaited.filter fun e => decide (e.row < g.claimed + n) && decide (e.at_ < stamp)
  let s := match late.head? with
    | some e => (s.violateBy k e.word 0 e.engine r e.op t 0 false).poisonEngine k e.engine 0x0C e.at_
    | none => s
  s.modRing k r fun g => g.claimRows n stamp

/-- The rows from ring offset `first` on come with a poison code, as a raw segment of their own (R54, R89, R135, R217); rows
that follow ones of the same code are of the same segment. -/
def Ring.bringCode (g : Ring) (first n code stamp : Nat) : Ring :=
  if g.object || n = 0 then g
  else match g.hq.reverse with
    | e :: rest =>
      if e.code = code ∧ ringGap g.size.toNat (e.next g.size.toNat) first = e.left then
        { g with hq := (({ e with rows := e.rows + n, left := e.left + n } : Segment) :: rest).reverse }
      else if g.hq.length < 8 then { g with hq := g.hq ++ [{ first := first, rows := n, left := n, hdr := {}, code := code, at_ := stamp }] }
      else g
    | [] => { g with hq := [{ first := first, rows := n, left := n, hdr := {}, code := code, at_ := stamp }] }

/-! ### Grants (R220 to R223, R277) -/

/-- The address a stored row is signed under (R277): its device address; rows of a group buffer under the buffer's
window base plus their offset, alike in both sets of a TWIN job (log entry 18). -/
def signedAddress (a : Nat) : Nat := if gbBase ≤ a ∧ a < spBase then gbBase + (a - gbBase) % groupBufferBytes else a

/-- The CRC-64 signature over rows stored from `a` on (R277). -/
def signRows (sig : Nat) (a : Nat) (rows : List Row) : Nat :=
  (rows.zipIdx).foldl (fun sg e => crc64From sg (leBytes 8 (signedAddress (a + 256 * e.2)) ++ rowBytes e.1)) sig

/-- A program whose release stage is attested: its digest with its key set (R198, R371). -/
def State.attestedProgram (s : State) (p : Program) : Bool := s.sec.attested.contains (p.digest, p.ksid)

/-- A store through a register of role 6 is a release: the program has the release stage flag, attested where trust is
sealed (R198, R199). -/
def State.releases (s : State) (x : Ctx) (role : Nat) : Bool :=
  role == 6 && x.prog.releaseStage && (!s.mode.sealedTrust || s.attestedProgram x.prog)

/-- The head an SU.STORE writes at OBJEND (R50, R199, R224). -/
def storedHead (x : Ctx) (d : StreamDesc) (release : Bool) (code : Nat) : Header :=
  let h := (d.hdr.getD {})
  let h := if code ≠ 0 then h.poison' code else h
  { h with seeded := false, releaseTagged := release, digestPrefix := if release then leNat (x.prog.digest.take 8) else 0 }

/-- The command at word `word` of a cluster's image has DEP set (R179). -/
def Cluster.depAt (cl : Cluster) (word : Nat) : Bool := ((cl.image.getD word 0).getLsbD 15)

/-- The writes of a store are dropped after signing: set 1 of a TWIN job (R278), and a replay's beats at or below the
release mark (R283). -/
def State.writesDropped (s : State) (p : Nat) (j : Job) : Bool :=
  (j.twin && (s.group p).set == 1) || (match j.releaseMark with | some m => decide (j.jobBeat ≤ m) | none => false)

/-- Rows granted to the group buffer of group `p` are written in the cycle before their stamp (R223, R235); a row still awaiting
a read is a violation (R231). -/
def State.bufferStore (s : State) (k : Nat) (x : Ctx) (t : Transfer) (at_ : Nat) : State :=
  let p := k / 32
  match bufferRow? p t.addr with
  | some row =>
    let held := (List.range t.rows).any fun i => decide (t.stamp ≤ (s.unit p).tileReads.at (row + i) 0)
    let s := if held then s.violateBy k t.word 1 3 t.ring t.opc at_ t.addr false else s
    if s.writesDropped p x.job then s
    else (t.data.zipIdx).foldl (fun s e => s.gbWrite p (row + e.2) (t.stamp - 1) (if held then poisonRow else e.1)) s
  | none => s

/-- A store's transfer reads and pops its rows at the grant `t` and folds them into the signature (R223, R277). -/
def State.grantStore (s : State) (k : Nat) (x : Ctx) (tr : Transfer) (t : Nat) : Transfer × State :=
  let g := s.ring k tr.ring
  let sign := fun (s : State) (rows : List Row) =>
    s.modCluster k fun cl => { cl with storeSig := BitVec.ofNat 64 (signRows cl.storeSig.toNat tr.addr rows) }
  if tr.isHead then
    let h := storedHead x g.desc (s.releases x tr.role) (firstCode [if g.desc.noHeader then 0x0C else 0, g.desc.code])
    let row := bytesToWords (h.bytes ++ List.replicate 192 0)
    ({ tr with data := [row], stored := some h }, sign s [row])
  else
    let rd := (List.range tr.rows).map fun i => (i, t)
    let ready := rd.all fun e => s.rowReady k tr.ring e.1 t
    let clash := ready && (s.cluster k).depAt tr.word && s.streamCollision k (.ring tr.ring) rd
    let s := if ready && !clash then s else s.violateBy k tr.word (if clash then 6 else 0) 3 tr.ring tr.opc t tr.addr false
    let late := if ready && !clash then 0 else 0x0C
    let code := firstCode [tr.code, late]
    let rows := rd.map fun e => if code ≠ 0 then poisonRow else s.ringRowAt k tr.ring e.1 t
    let marks := if code ≠ 0 then [] else ((List.range tr.rows).filter fun i => s.rowMarked k tr.ring i).flatMap fun i =>
      (List.range 64).filterMap fun w => if s.wordPoisoned (g.addr k (g.at i) + 4 * w) then some (64 * i + w) else none
    let s := s.modRing k tr.ring fun g =>
      { (g.noteReads rd).popRuns tr.rows ((List.replicate tr.rows (t, 1))) with
          desc := if late ≠ 0 && g.desc.code = 0 then { g.desc with code := late } else g.desc }
    ({ tr with data := rows, code := code, marks := marks }, sign s rows)

/-- A load's transfer takes its data at the grant `t`; extents of a failed fill bring HEADER_INVALID (R89), and a tile row whose
store is still to come is not ready (R231). -/
def State.grantLoad (s : State) (k : Nat) (x : Ctx) (tr : Transfer) (t : Nat) : Transfer × State :=
  let p := s.bufferGroup (k / 32)
  let tr := s.takeLoad k x tr t
  let s := if tr.src ≠ .groupBuffer then s else s.modUnit p fun u => { u with
    tileReads := ((List.range tr.rows).filterMap fun i => bufferRow? (k / 32) (tr.addr + 256 * i)).foldl (fun tb row =>
      tb.put row (max t (tb.at row 0))) u.tileReads }
  let code := if tr.src = .keyCache && s.badExtent tr.job tr.addr then 2 else 0
  let late := tr.src == .groupBuffer && (List.range tr.rows).any fun i => (bufferRow? (k / 32) (tr.addr + 256 * i)).any fun row =>
    (s.unit p).tileWrites.any fun w => w.row == row && decide (t < w.at_)
  let s := if late then s.violateBy k tr.word 0 3 tr.ring tr.opc t tr.addr false else s
  ({ tr with code := firstCode [tr.code, code, if late then 0x0C else 0] }, s)

/-- Two transfers are the same one of their cluster's SU. -/
def Transfer.same (a b : Transfer) : Bool := a.ring == b.ring && a.index == b.index && a.word == b.word && a.opc == b.opc && a.addr == b.addr

/-- Replace the first ungranted transfer that `t'` is by its granted form. -/
def grantIn (t' : Transfer) : List Transfer → List Transfer
  | [] => []
  | t :: ts => if t.same t' && t.tag.isNone then t' :: ts else t :: grantIn t' ts

/-- Grant transfer `tr` of cluster `k` at cycle `t` (R220 to R223). -/
def State.grant (s : State) (k : Nat) (x : Ctx) (tr : Transfer) (t : Nat) : State :=
  let stamp := t + slotBound tr.src
  let tag := (s.cluster k).freeTag?
  let claim := (s.ring k tr.ring).claim.toNat
  let (tr', s) := if tr.out then s.grantStore k x tr t else s.grantLoad k x tr t
  let tr' := { tr' with tag := tag, stamp := stamp, ringRow := claim }
  let s := if tr.out then (if tr.src = .groupBuffer then s.bufferStore k x tr' t else s)
    else (s.claimAt k tr.ring tr.rows t stamp).modRing k tr.ring fun g => if tr'.code = 2 && !tr.isHead then g.bringCode claim tr.rows 2 stamp else g
  s.modCluster k fun cl => { cl with transfers := grantIn tr' cl.transfers, granted := satInc cl.granted,
                                     nextGrant := cl.nextGrant.put (slotCode tr.src) (t + 16) }

/-- An SU's fault on transfer `tag` (R296: TAG bits [23:18], ADDRESS the transfer's). -/
def State.suFault (s : State) (k kind opc tag addr at_ : Nat) (poisoned : Bool) : State :=
  s.clusterFault k 3 1 kind opc (tag * 2 ^ 18) addr at_ poisoned

/-- Grant the next piece of a key's fill at cycle `t` (R89, R231): reads issued ahead of it are judged against its stamp; a
head that failed its checks raises its fault there. -/
def State.grantPiece (s : State) (e : KcEntry) (f : KcFill) (t : Nat) : State :=
  let stamp := t + slotBound .hbm
  let late := f.awaited.find? fun a => a.piece == f.next && decide (a.at_ < stamp)
  let s := match late with
    | some a => (s.violateBy a.cluster a.word 0 6 0 a.op t 0 false).poisonEngine a.cluster 6 0x0C a.at_
    | none => s
  let s := if f.next = 0 && e.bad then s.suFault f.cluster 0x05 f.opc 0 0 stamp true else s
  s.modKc e fun e => { e with
    landing := Table.put (e.landing.filter fun l => decide (t ≤ l.2 + 2048)) f.next stamp
    fill := if f.next + 1 < f.count then
        some { f with next := f.next + 1, awaited := f.awaited.filter fun a => a.piece != f.next } else none }

/-! ### Relay rows claim their places (R230) -/

/-- The clusters of the job that keep a relay row of group `p`: same job and set, target logical group and cluster (R230). -/
def State.relayTargets (s : State) (j : Job) (p tg tc : Nat) : List Nat :=
  let set := if (s.group p).set = 0 then j.set0 else j.set1
  (set.filter fun q => tg == 0x7F || (s.group q).logical == tg).flatMap fun q =>
    (groupClusters q).filter fun k => tc == 0x3F || k % 32 == tc

/-- The next relay row, of any group, to be injected by cycle `t`: the group, its place in the group's list, and the row. -/
def State.nextInjection (s : State) (t : Nat) : Option (Nat × Nat × RelayRow) :=
  (s.units.flatMap fun e => (e.2.relay.zipIdx).map fun r => (e.1, r.2, r.1)).foldl (fun best x =>
    if x.2.2.claimed || t < x.2.2.injectAt then best
    else match best with
      | some b => if b.2.2.injectAt ≤ x.2.2.injectAt then best else some x
      | none => some x) none

/-- A relay row claims its credit at every target at its injection, or is dropped at every one, which is a violation. -/
def State.injectRow (s : State) (p i : Nat) (r : RelayRow) : State :=
  let targets := match s.jobOf p with
    | some j => s.relayTargets j p r.targetGroup r.targetCluster
    | none => []
  if targets.all fun k => decide (1 ≤ (s.ring k r.ring).creditAt r.injectAt) then
    let places := targets.map fun k => (k, (s.ring k r.ring).claim.toNat)
    let s := targets.foldl (fun s k => (s.claimAt k r.ring 1 r.injectAt r.stamp).modRing k r.ring fun g =>
      if r.code ≠ 0 then g.bringCode (s.ring k r.ring).claim.toNat 1 r.code r.stamp else g) s
    s.modUnit p fun u => { u with relay := u.relay.set i { r with claimed := true, places := places } }
  else (s.violateBy r.from_ r.word 1 3 r.ring r.op r.injectAt 0 false).modUnit p fun u => { u with relay := u.relay.eraseIdx i }

/-- The relay rows injected by cycle `t` claim their places, in the order of their injections. -/
def State.inject (s : State) (t : Nat) : State := go (s.units.map fun e => e.2.relay.length).sum s
where
  /-- One row after another. -/
  go : Nat → State → State
    | 0, s => s
    | n + 1, s => match s.nextInjection t with
      | some (p, i, r) => go n (s.injectRow p i r)
      | none => s

/-! ### TRANSFER_GRANT -/

/-- The transfer of cluster `k` that a slot for transfer `tr` serves: itself, or the cluster's part of an SU.LOADS (R225). -/
def State.served? (s : State) (k : Nat) (tr : Transfer) : Option Transfer :=
  (s.waitingFor k tr.src).find? fun x => x.same tr || (tr.op == .loads && x.op == .loads && x.ring == tr.ring && x.addr == tr.addr && x.index == tr.index)

/-- A slot of group `p` at cycle `t` goes to a bidder. -/
def State.serve (s : State) (p : Nat) (b : Bidder) (t : Nat) : State :=
  let s' := match b with
    | .transfer k tr => (s.slotClusters k tr).foldl (fun (s' : State) k' => match s.ctx? k', s.served? k' tr with
        | some x, some tr' => s'.grant k' x tr' t
        | _, _ => s') s
    | .fill e => match e.fill with
      | some f => s.grantPiece e f t
      | none => s
  s'.modUnit p fun u => { u with lastSlot := u.lastSlot.put (slotCode b.source) (t + 1) }

/-- TRANSFER_GRANT (R221, R222): the slot of a source in a cycle of this beat goes to one pending eligible transfer of the
group; a slot with none passes unused. -/
def execTransferGrant (g : Fin 68) (src : SlotSource) (cycle : BitVec 16) (s : State) : Out :=
  let t := s.beat.toNat * beatCycles + cycle.toNat
  live s <| if s.jobRuns g && s.slotOpen g src t then
      let s := s.inject t
      match s.chosen g src t with
      | none => s
      | some b => s.serve g b.by_ t
    else s

/-! ### Stamps and landings (R223, R224) -/

/-- Write a landed row of ring `r` at ring offset `o`, its poisoned words marked. -/
def State.landRow (s : State) (k r o : Nat) (w : Row) (marks : List Nat) : State :=
  let a := (s.ring k r).addr k o
  { s with mem := marks.foldl (fun m i => m.markWord (a + 4 * i)) (s.mem.storeRow a w 64) }

/-- Tail moves over `n` landed rows; those an issued command has read ahead are not there to read again (R216). -/
def Ring.land (g : Ring) (n stamp : Nat) : Ring :=
  let read := min n g.ahead
  { g with tail := BitVec.ofNat 12 (g.tailAt n), ready := BitVec.ofNat 13 (g.ready.toNat + n - read), ahead := g.ahead - read, pushAt := stamp }

/-- Land rows in ring `r` of cluster `k` from ring offset `first`; word marks count from `m0`. -/
def State.landRows (s : State) (k r first stamp : Nat) (rows : List Row) (marks : List Nat) (m0 : Nat) : State :=
  let size := max (s.ring k r).size.toNat 1
  let s := (rows.zipIdx).foldl (fun s e =>
    let lo := m0 + 64 * e.2
    s.landRow k r ((first + e.2) % size) e.1 ((marks.filter fun i => decide (lo ≤ i ∧ i < lo + 64)).map (· - lo))) s
  s.modRing k r fun g => g.land rows.length stamp

/-- The declaration of the input at an address: a role 4 register's value plus its offset (R191). -/
def Ctx.input? (x : Ctx) (cl : Cluster) (a : Nat) : Option InputDecl :=
  x.prog.inputs.find? fun d => (cl.param d.reg).toNat + d.offset == a

/-- R143: a FIXED-class program's comparison of an input header with its declaration; the code it poisons with. -/
def Ctx.declared (x : Ctx) (cl : Cluster) (a : Nat) (h : Header) : Nat :=
  if x.prog.refreshed then 0
  else match x.input? cl a with
    | none => 0
    | some d =>
      if h.level ≠ d.level || h.rset ≠ d.rset || (h.scheme == 1 && h.scale != d.scale) then 5
      else if h.scheme ≠ 1 && decide (h.budget < d.budget) then 7
      else 0

/-- The head's header enters the ring's header queue at its stamp, checked under R47; what its declaration refuses it with is
kept for the command that reads it first (R143, R224). A header that a check fails carries the job's own fields (R54). -/
def State.landHead (s : State) (k : Nat) (x : Ctx) (t : Transfer) (tag : Nat) : State :=
  let bytes := rowBytes (t.data.headD [])
  let (h, ok) := headerCheck x.ks (some x.prog.ksid) (t.role == 4) bytes
  let fallback := fallbackHeader { ks := x.ks, prog := x.prog, jobId := t.job, tag := ((s.cluster k).param 0).toNat % 2 ^ 32, rset := 0, level := 1, npoly := 2 }
  let lineBad := t.marks != []
  let code := firstCode [t.code, if lineBad then 1 else 0, if ok then 0 else 2]
  let decl := if code ≠ 0 || h.poisoned || t.role ≠ 4 then 0 else x.declared (s.cluster k) t.addr h
  let s := if code = 2 && t.code ≠ 2 then s.suFault k (if t.role = 4 then 0x38 else 0x05) t.opc tag t.addr t.stamp true else s
  let base := if lineBad || (!ok && !(headerCrcOk bytes && headerRangeOk h)) then fallback else h
  let hdr := if code ≠ 0 then ({ base with job := t.job, dclass := if x.prog.refreshed then 1 else 0 } : Header).poison' code else base
  let rows := if t.segRows ≠ 0 then t.segRows else (if hdr.seeded then 1 else hdr.npoly) * hdr.level * x.perPlane
  s.modRing k t.ring fun g => if g.hq.length < 8 then { g with hq := g.hq ++
    [{ first := t.ringRow, rows := rows, left := rows, hdr := hdr, code := hdr.poison, seed := slice bytes 64 32, at_ := t.stamp
       loaded := true, decl := decl }] } else g

/-- A store's rows are in their destination at the stamp (R223, R255); pages of HBM wait for their beat's release
(R313). -/
def State.landStore (s : State) (k : Nat) (x : Ctx) (t : Transfer) : State :=
  let p := k / 32
  if s.writesDropped p x.job then s
  else if t.src = .groupBuffer then
    let s := s.gbSettle p (t.stamp - 1)
    { s with mem := t.marks.foldl (fun m i => m.markWord (t.addr + 4 * i)) s.mem }
  else
    let m := s.mem.store t.addr (t.data.flatMap rowBytes)
    let m := t.marks.foldl (fun m i => m.markLine (t.addr + 4 * i)) m
    let pages := (List.range ((t.addr % 2048 + t.bytes + 2047) / 2048)).map (t.addr / 2048 + ·)
    let mark := x.job.seq * 2 ^ 32 + x.job.jobBeat
    { s with mem := m, host := { s.host with unreleased := pages.foldl (fun u pg => insertNew u (pg, mark)) s.host.unreleased } }

/-- One undone store of this range is done (R236). -/
def markDone (a : Nat) : List StoreRange → List StoreRange
  | [] => []
  | r :: rs => if !r.done && inRange r.addr r.length a then { r with done := true } :: rs else r :: markDone a rs

/-- A tag is freed: its transfer leaves the SU and its descriptor. -/
def State.freeTransfer (s : State) (k : Nat) (t : Transfer) : State :=
  (s.modCluster k fun cl =>
    { cl with transfers := cl.transfers.filter fun x => x.tag != t.tag || x.tag.isNone
              tagFreeAt := if cl.freeTag?.isNone then t.stamp else cl.tagFreeAt }).modRing k t.ring
    fun g => { g with desc := { g.desc with outstanding := g.desc.outstanding - 1, lastStamp := max g.desc.lastStamp t.stamp } }

/-- The rows of a transfer land (R223, R224, R225); data of a clear tensor whose head is bad raise their fault once (R58). -/
def State.landTransfer (s : State) (k : Nat) (x : Ctx) (t : Transfer) (tag : Nat) : State :=
  if t.out then s.landStore k x t
  else if t.isHead then s.landHead k x t tag
  else
    let s := if t.op = .loads && t.code = 2 && t.index = 0 && k % 32 = 0 then s.suFault k 0x38 t.opc tag t.addr t.stamp true else s
    let data := if t.code ≠ 0 then t.data.map fun _ => poisonRow else t.data
    s.landRows k t.ring t.ringRow t.stamp data (if t.code ≠ 0 then [] else t.marks) 0

/-- The transfer that holds a tag. -/
def Cluster.tagged? (cl : Cluster) (tag : Nat) : Option Transfer := cl.transfers.find? fun t => t.tag == some tag

/-- No transfer of the same ring has an earlier stamp. -/
def Cluster.stampFirst (cl : Cluster) (t : Transfer) : Bool :=
  cl.transfers.all fun x => x.tag.isNone || x.ring != t.ring || decide (t.stamp ≤ x.stamp)

/-- A place in the order of a job's writes: cycle, logical group, cluster (R235). -/
def State.storeKey (s : State) (k stamp : Nat) : Nat := (stamp * 128 + (s.group (k / 32)).logical) * 32 + k % 32

/-- No store of the same job comes before transfer `t` of cluster `k` in the order of writes (R235). -/
def State.storeFirst (s : State) (k : Nat) (t : Transfer) : Bool :=
  !t.out || s.clusters.all fun e => e.2.transfers.all fun x =>
    x.tag.isNone || !x.out || x.job != t.job || (s.group (e.1 / 32)).set != (s.group (k / 32)).set ||
    decide (s.storeKey k t.stamp ≤ s.storeKey e.1 x.stamp)

/-- TRANSFER_STAMP (R223): the transfer holding the tag reaches its stamp. Its rows land and its tag is free; a fenced
job's transfer lands nothing (R236). Stamps come in their order: those of one ring, and of all stores of a job by cycle,
logical group and cluster (R235); one whose beat has not begun is not there yet. -/
def execTransferStamp (k : ClusterId) (tag : BitVec 6) (s : State) : Out :=
  live s <| match (s.cluster k.num).tagged? tag.toNat with
    | none => s
    | some t =>
      if !(s.cluster k.num).stampFirst t || !s.storeFirst k.num t || s.beat.toNat < beatOf t.stamp then s
      else
        let s := (s.reachAbs t.stamp).inject t.stamp
        let s' := match s.ctx? k.num with
          | some x => if s.jobRuns (k.num / 32) && x.job.id.toNat == t.job then
              let s := s.landTransfer k.num x t tag.toNat
              if t.out && t.isLast then s.modRun t.job fun r => { r with stores := markDone t.addr r.stores } else s
            else s
          | none => s
        s'.freeTransfer k.num t

/-- A load line that has not arrived by its stamp (R246): the transfer's rows carry poison in every cluster it serves, the fault
is raised, the bound overrun counted. The record and the count are of the transfer's first line (DESIGN CHOICE, log entry
35). -/
def State.overrun (s : State) (k tag kind : Nat) (src : SlotSource) : State :=
  match (s.cluster k).tagged? tag with
  | none => s
  | some t =>
    if t.src ≠ src || t.out then s
    else
      let hit : Transfer → Bool := fun x => x.tag == t.tag || (t.op == .loads && x.op == .loads && x.addr == t.addr && x.stamp == t.stamp && x.tag.isSome)
      let late : Transfer → Transfer := fun x => { x with data := x.data.map fun _ => poisonRow, marks := List.range (64 * x.data.length) }
      let s := (if t.op = .loads then groupClusters (k / 32) else [k]).foldl (fun s k' =>
        s.modCluster k' fun cl => { cl with transfers := cl.transfers.map fun x => if hit x then late x else x }) s
      let unit := if src = .hbm then memoryUnit (hbmStack t.addr / 2) (hbmStack t.addr % 2) (hbmChannel t.addr) 5
        else memoryUnit (t.addr / 2048 % 4) 2 (t.addr / 8192 % 4) 5
      let tg := if src = .hbm then hbmLine t.addr else (t.addr - kcBase) / 2048
      let s := s.raiseVia (k / 32) unit kind t.opc tg t.addr t.stamp true
      if src = .hbm then s.modStack (hbmStack t.addr) fun m => { m with overruns := satInc m.overruns } else s

/-- HBM_BOUND_OVERRUN (R246). -/
def execHbmBoundOverrun (k : ClusterId) (tag : BitVec 6) (s : State) : Out := live s (s.overrun k.num tag.toNat 0x40 .hbm)

/-- KC_BOUND_OVERRUN (R247). -/
def execKcBoundOverrun (k : ClusterId) (tag : BitVec 6) (s : State) : Out := live s (s.overrun k.num tag.toNat 0x41 .keyCache)

end Sys2Proof.Machine
end

