-- ==== Sys2Proof/Machine/Beat.lean ====
section
/-!
DEFINITION. Beat: the beat boundary, the end of the program window, the abort fills, the reconciliation window and the
release decision (R24, R25, R30, R171, R227, R236, R264, R277 to R284, R351).
-/
namespace Sys2Proof.Machine

/-! ### BEAT_BOUNDARY -/

/-- The axes that change at a beat boundary (R431, R438, R439). -/
def State.axes (s : State) : State :=
  let forced := s.pins.forcingNext.getD s.mode.powerForced
  let s := { s with
    mode := { s.mode with twinAll := s.mode.twinAllNext, powerForced := forced }
    pins := { s.pins with
      forcingNext := none
      coolForcing := s.pins.coolForcing || s.pins.forcingNext == some true
      coolStuck := if s.pins.forcingNext == some true then satInc s.pins.coolStuck else s.pins.coolStuck } }
  s.setCapped (s.mode.powerReq || forced)

/-- What a running job does at the boundary (R30, R351): its beat is released, or not; its token is sent. -/
def State.boundaryJob (s : State) (ended id : Nat) : State :=
  match s.job? id with
  | none => s
  | some j =>
    let fenced := j.phase == .fencedRestart || j.phase == .fencedTerminate
    if (j.phase == .running || fenced) && j.decision == some true then (s.releaseJob id ended).sendToken id j true
    else if j.phase = .running then
      (s.sendToken id j false).modJob id fun j => { j with decision := none, jobBeat := j.jobBeat + 1 }
    else if fenced && beatOf (s.run id).fencedAt == ended then
      (s.sendToken id j false).modJob id fun j => { j with decision := none }
    else s

/-- Width in cycles of the pulse BEAT_OUT drives at cycle 0 of a beat (R350). -/
def beatOutWidth (b : Nat) : Nat :=
  let i := b % 64
  if i < 48 then (if (b - i) / 2 ^ i % 2 = 1 then 128 else 64) else if i < 63 then 64 else 192

/-- A cluster's store signature is cleared (R277). -/
def clearSig (e : Nat × Cluster) : Nat × Cluster := (e.1, { e.2 with storeSig := 0 })

/-- The cap of memory-side dies whose clock is back at 1,200 MHz is lifted at the boundary after (R258). -/
def State.liftDieCaps (s : State) : State :=
  if s.memSys.dies.any fun e => e.2.liftDue then
    let dies := s.memSys.dies.map fun e => if e.2.liftDue then (e.1, { e.2 with liftDue := false, capAsked := false }) else e
    let s := { s with memSys := { s.memSys with dies := dies } }
    if dies.any fun e => e.2.capAsked then s else s.setPermit 2 0
  else s

/-! ### PROGRAM_WINDOW_END -/

/-- BEAT_WINDOW_OVERRUN of one cluster (R25, R171, R237): its stream, an engine's work, a transfer's or a key fill's grant, or a
relay row's departure or injection is not done at cycle 59,392. A refresh is not counted: it suspends (R164). -/
def State.overrunAt (s : State) (k : Nat) : State :=
  let u := s.cluster k
  let edge := s.beat.toNat * beatCycles + windowEnd
  let late := (u.state == .issuing || u.state == .waiting) && decide (beatOf u.nextAt ≤ s.beat.toNat)
  let s := if late then s.clusterFault k 0 2 0x21 (instrOp 0) u.pc.toNat u.pc.toNat edge false else s
  let refreshing := (s.unit (k / 32)).refresh.isSome
  let s := s.forAll ((u.lastWork.filter fun e => decide (edge ≤ e.2) && !refreshing).map (·.1)) fun s e =>
    s.clusterFault k (engineCode e) 0 0x21 0 0 0 edge false
  let relays := (s.unit (k / 32)).relay.any fun r => r.from_ == k && !r.claimed && decide (edge ≤ r.injectAt)
  let fills := s.work.kcDir.any fun e => e.fill.any fun f => f.cluster == k
  if relays || fills || u.transfers.any fun t => t.tag.isNone then s.clusterFault k 3 0 0x21 0 0 0 edge false else s

/-- PROGRAM_WINDOW_END (R25, R164, R171): unfinished work raises BEAT_OVERRUN; refreshes suspend. -/
def execProgramWindowEnd (s : State) : Out :=
  live s <|
    if !s.beating then s
    else
      let s := s.reach windowEnd
      let ps := (s.jobsIn .running).flatMap fun id => match s.job? id with
        | some j => j.groups
        | none => []
      let s := s.inject (s.beat.toNat * beatCycles + windowEnd - 1)
      let s := s.forAll (ps.flatMap groupClusters) fun s k => s.overrunAt k
      s.forAll ps fun s p => (s.gbSettle p s.now).modUnit p fun u => { u with refresh := u.refresh.map fun r => { r with suspended := true } }

/-! ### ABORT_FILL (R236) -/

/-- Rows from head that landed as whole units by `cut`, in ring order (R236 item 2). -/
def Ring.landedRun (g : Ring) (cut : Nat) : Nat :=
  ((List.range g.ready.toNat).takeWhile fun i => decide (g.ends.at (g.at i) 0 ≤ cut)).length

/-- Keep the header-queue entries of segments that begin within `n` rows from head (R236 item 3). -/
def Ring.keepSegments (g : Ring) (n : Nat) : List Segment :=
  g.hq.filter fun e => decide (ringGap g.size.toNat g.head.toNat (e.next g.size.toNat) < n)

/-- Forget what a range of an SRAM holds: it reads 0xFFFF_FFFF, the value of a filled word, and no word of it is marked. -/
def Memory.poisonFill (m : Memory) (a n : Nat) : Memory :=
  { m with
    cells := m.cells.filter fun c => !inRange a n c.1
    poisonWords := m.poisonWords.filter fun w => !inRange a n (4 * w) }

/-- A ring after an abort: tail and claim return to the end of the landed run, credit is recomputed, the rows outside head
to tail are filled (R236 items 2 and 3). -/
def State.abortRing (s : State) (k r cut : Nat) : State :=
  let g := s.ring k r
  let n := g.landedRun cut
  let size := g.size.toNat
  let outside := (List.range (size - n)).map fun i => g.at (n + i)
  let mem := outside.foldl (fun m o => m.poisonFill (g.addr k o) 256) s.mem
  ({ s with mem := mem }).modRing k r fun g => { g with
    tail := BitVec.ofNat 12 (g.at n), claim := BitVec.ofNat 12 (g.at n), ready := BitVec.ofNat 13 n
    occupancy := BitVec.ofNat 13 n, credit := BitVec.ofNat 13 (size - n), hq := g.keepSegments n, desc := {}
    ahead := 0, returns := [], awaited := [], openRows := 0, uses := [], before := none, note := none }

/-- Fill a store's destination extent, and poison the head of an object (R236 item 4). -/
def State.abortStore (s : State) (x : StoreRange) : State :=
  let m := (s.mem.fill x.addr 0xFF x.length).unmark x.addr x.length
  let m := if x.object then m.store x.base ((x.hdr.poison' 0x0D).bytes ++ List.replicate 192 0) else m
  { s with mem := m }

/-- A fill that a job had under way is dropped with it: the key is not there (R89). -/
def KcEntry.dropFill (job : Nat) (e : KcEntry) : KcEntry :=
  if e.fill.any fun f => f.job == job then { e with fill := none, filled := false, landing := [] } else e

/-- The abort fills of a job (R236). -/
def State.abortJob (s : State) (id : Nat) (j : Job) : State :=
  let r := s.run id
  let use := (s.programOf j).use
  let ks := j.groups.flatMap groupClusters
  let load := (s.programOf j).load
  let s := s.forAll ks fun s k => s.forAll (List.range 16) fun s i =>
    let g := s.ring k i
    if g.size = 0 || (use && g.resident) then s
    -- a LOAD job's resident rings are reset (R219)
    else (if load && g.resident then s.modRing k i fun g => { g with ready := 0, head := 0 } else s).abortRing k i r.fencedAt
  let s := (r.stores.filter fun x => !x.done).foldl State.abortStore s
  let s := s.forAll j.groups fun s p =>
    ({ s with mem := s.mem.poisonFill (gbBase + p * groupBufferBytes) groupBufferBytes }).modUnit p GroupUnits.dropped
  let s := s.forAll ks fun s k => s.modCluster k fun c =>
    { c with transfers := [], objects := [], handover := [], handoverHdr := none, handoverAt := [], handoverLate := false, state := .ended, due := [], lastWork := []
             busy := [] }
  let s := { s with work := { s.work with kcDir := s.work.kcDir.map (KcEntry.dropFill id) } }
  s.modRun id fun r => { r with stores := r.stores.filter (·.done), fills := r.fills + 1 }

/-- ABORT_FILL (R236, R282): once, for a fenced job whose fills have not run. -/
def execAbortFill (job : BitVec 16) (s : State) : Out :=
  live s <| match s.job? job.toNat with
    | none => s
    | some j =>
      if (j.phase == .fencedRestart || j.phase == .fencedTerminate) && (s.run job.toNat).fills == 0 && j.groups != [] then
        (if s.beating then s.reach 60928 else s).abortJob job.toNat j
      else s

/-! ### RECONCILIATION -/

/-- CREDIT_CONSERVATION (R227): the two counters of every ring of a running job's clusters add up to the ring's size. -/
def State.conserve (s : State) (j : Job) : State :=
  s.forAll (j.groups.flatMap groupClusters) fun s k =>
    let s := s.forAll (List.range 16) fun s r => if (s.ring k r).returns == [] && (s.ring k r).uses == [] then s
      else s.modRing k r fun g => { g.settle s.now with uses := [] }
    if (List.range 16).all fun r => let g := s.ring k r; g.credit.toNat + g.occupancy.toNat == g.size.toNat then s
    else s.clusterFault k 3 2 0x24 0 0 0 (s.beat.toNat * beatCycles + 63488) false

/-- The beat signature record of a physical group: its 32 signatures (R277). -/
def State.groupSig (s : State) (p : Nat) : List Word64 := (groupClusters p).map fun k => (s.cluster k).storeSig

/-- A job's outputs of the beat are withheld and the job is terminated by a management verdict (R265, R274, R284). -/
def State.divergeTerminate (s : State) (id kind : Nat) : State :=
  let s := s.modJob id fun j => j.withhold false 0
  let s := s.modRun id fun r => { r with episode := true }
  s.fenceTerminate id kind

/-- TWIN_COMPARE (R279): the records of logical group g in both sets; a difference is recorded, withheld and restarts. -/
def State.twinCompare (s : State) (id : Nat) (j : Job) : State :=
  let bad := (j.set0.zip j.set1).filter fun e => s.groupSig e.1 != s.groupSig e.2
  if bad == [] then s
  else
    let s := bad.foldl (fun s e => (s.managementRecord 0x65 opManagement id (e.1 + 256 * e.2)).2) s
    s.divergeRestart id 0x65 (bad.flatMap fun e => [e.1, e.2])

/-- REPLAY_COMPARE (R284): the record of a job beat at or below the release mark against the one kept. -/
def State.replayCompare (s : State) (id : Nat) (j : Job) (sig : List Word64) : State :=
  let replay := match j.releaseMark with
    | some m => decide (j.jobBeat ≤ m)
    | none => false
  match (s.run id).signatures.find j.jobBeat with
  | some old =>
    if !replay || old == sig then s
    else
      let (w, s) := s.managementRecord 0x66 opManagement id 0
      let s := s.divergeTerminate id 0x66
      let s := s.forAll j.groups fun s p => s.quarantineGroup p
      s.recall 0x66 0xFF 0xFF j.groups (j.jobBeat0 + j.jobBeat) s.beat.toNat w true
  | none => s

/-- The signatures of a running job (R277 to R279, R284): each group's record is posted, the sets of a TWIN job compared,
a replay compared with the kept record, and a new record kept. -/
def State.signatures (s : State) (id : Nat) : State :=
  match s.job? id with
  | none => s
  | some j =>
    let sig := j.set0.flatMap s.groupSig ++ [(s.run id).linkSig]
    let s := s.forAll j.groups fun s p => let g := s.groupSig p; s.modUnit p fun u => { u with sigRecord := g }
    let s := if j.twin then s.twinCompare id j else s
    let s := s.replayCompare id j sig
    s.modRun id fun r => { r with
      signatures := if (r.signatures.find j.jobBeat).isSome then r.signatures else r.signatures.put j.jobBeat sig
      linkSig := 0 }

/-- RECONCILIATION (R264, R291, R227, R277, R279, R284): cycle 63,488. -/
def execReconciliation (s : State) : Out :=
  live s <|
    if !s.beating then s
    else
      let s := s.reach 63488
      let s := s.forAll (s.jobsIn .running) fun s id => match s.job? id with
        | some j => s.conserve j
        | none => s
      let s := s.drain
      s.forAll (s.jobsIn .running) fun s id => s.signatures id

/-! ### WINDFALL_TIMEOUT, RELEASE_DECISION, CHECKPOINT_COPY -/

/-- A member of the job's domain has not cleared the previous job beat (R351); a replayed beat waits for none. -/
def State.tokenMissing (s : State) (id : Nat) (j : Job) : Bool :=
  (s.programOf j).link.any fun l => decide (1 ≤ j.jobBeat) && (s.run id).owing l.members (j.jobBeat - 1) != [] &&
    !(j.releaseMark.any fun m => decide (j.jobBeat ≤ m))

/-- WINDFALL_TIMEOUT (R351): a member's token for the previous job beat has not arrived by cycle 63,552. -/
def execWindfallTimeout (job : BitVec 16) (s : State) : Out :=
  live s <| match s.job? job.toNat with
    | none => s
    | some j =>
      if j.phase == .running && s.tokenMissing job.toNat j then
        (s.raise (ioUnit 1 0 0) 0x52 0xC03 0 0 s.now job false).modJob job.toNat fun j => j.withhold false 0
      else s

/-- CHECKPOINT_COMMIT (R280): the pending bank becomes the committed checkpoint if the beat releases, else it is dropped. -/
def JobRun.commit (r : JobRun) (release : Bool) : JobRun :=
  match r.pendingBank with
  | none => r
  | some c =>
    if release then
      -- the copy a restart may still use stays where it is; the new one goes to the other half of the job's area
      let kept := if r.copied < 2 && r.committed.isSome then r.previous else r.committed
      { r with pendingBank := none, previous := kept, committed := some { c with half := kept.any fun k => !k.half }, copied := 0, signatures := r.signatures.filter fun e => decide (c.beat ≤ e.1) }
    else { r with pendingBank := none }

/-- The release decision of a job that ran in the beat (R30, R264, R265, R351). -/
def State.decideRelease (s : State) (id : Nat) : State :=
  match s.job? id with
  | none => s
  | some j =>
    let ok := j.phase == .running && !j.withheld && !s.faultPending id j (s.beat.toNat * beatCycles + 65376) && !s.tokenMissing id j
    (s.modJob id fun j => { j with decision := some ok, withheld := false }).modRun id fun r => r.commit ok

/-- RELEASE_DECISION (R264, R280, R291): cycle 65,376. -/
def execReleaseDecision (s : State) : Out :=
  live s <|
    if !s.beating then s
    else
      let s := s.reach 65376
      let s := s.forAll (s.jobsIn .running) fun s id => s.decideRelease id
      let s := s.forAll ((s.jobsIn .fencedRestart) ++ (s.jobsIn .fencedTerminate)) fun s id =>
        (s.modJob id fun j => { j with withheld := false }).modRun id fun r => r.commit false
      s.drain

/-- CHECKPOINT_COPY (R280): the committed banks go to HBM with their CRCs, half of them in each of the next two beats; then a
restart may use them. -/
def execCheckpointCopy (job : BitVec 16) (s : State) : Out :=
  let id := job.toNat
  live s <| match (s.run id).committed with
    | none => s
    | some c =>
      let turn := (s.run id).copied
      let m := (c.cores.zipIdx).foldl (fun m e =>
        if turn < 2 ∧ e.2 % 2 = turn then m.store (s.checkpointArea id c.half e.2) (c.bank e.1.1 e.1.2) else m) s.mem
      ({ s with mem := m }).modRun id fun r => { r with copied := min 2 (r.copied + 1) }

end Sys2Proof.Machine
end

