-- ==== Sys2Proof/Machine/Service.lean ====
section
/-!
DEFINITION. Service: the service slice (R266): Terrier (R267 to R270), scrubs (R256), Retriever (R271 to R274) and the
ledger sampling with junction control (R418, R419, R447).
-/
namespace Sys2Proof.Machine

/-! ### Terrier -/

/-- The family injected in a beat (R268). -/
def terrierFamily (beat : Nat) : Nat := beat % 16
/-- The visit of a beat (R268). -/
def terrierVisit (beat : Nat) : Nat := beat / 16 % 64

/-- TERRIER_INJECTION (R263, R268): what came of the beat's injection into a group's checkers or a die's. -/
def execTerrierInjection (u : TerrierUnit) (fires arrives : Bool) (s : State) : Out :=
  let r : TerrierResult := { beat := s.beat.toNat, fired := fires, arrived := arrives }
  live s <|
    if !s.beating then s
    else match u with
      | .group p => if s.powered p then s.modUnit p fun x => { x with injection := some r } else s
      | .memoryDie k => s.modDie k fun d => { d with injection := some r }

/-- Key of a checker instance's last-good beat: family and visit. -/
def goodKey (fam visit : Nat) : Nat := 64 * fam + visit

/-- The earliest last-good beat of a group over families `lo` to `lo + n - 1` (R275, R288). -/
def Group.oldestGood (g : Group) (lo n : Nat) : Nat :=
  (((List.range n).flatMap fun f => (List.range 64).map fun v => g.lastGood.at (goodKey (lo + f) v) 0).min?).getD 0

/-- A failure under R269 is counted for a group, with the beat's family and visit (R288, R447). -/
def State.terrierFail (s : State) (p : Nat) : State :=
  (s.modGroup p fun g => { g with terrierFails := satInc g.terrierFails, lastFamily := BitVec.ofNat 4 (terrierFamily s.beat.toNat),
                                  lastVisit := BitVec.ofNat 6 (terrierVisit s.beat.toNat) }).count (0x450 + p) 1

/-- Raise a Terrier kind for a group, quarantine it and answer the trigger record (R269, R270). -/
def State.terrierFault (s : State) (p kind op : Nat) : List Word64 × State :=
  let u := groupUnit p 0 7 7
  let w := s.record { fireAt := s.now, unit := u, kind := kind, op := op, job := (s.group p).job.toNat }
  (w, ((s.raise u kind op 0 0 s.now (s.group p).job false).quarantineGroup p).terrierFail p)

/-- A dead checker of a group (R269, R275). -/
def State.deadChecker (s : State) (p : Nat) : State :=
  let b := s.beat.toNat
  let fam := terrierFamily b
  let first := (s.group p).lastGood.at (goodKey fam (terrierVisit b)) 0
  let (w, s) := s.terrierFault p 0x60 0x801
  s.recall 0x60 fam (terrierVisit b) [p] first b w false

/-- Signatures differ and no checker fired (R269): both members are named; a cluster pair ran the families of VE, TE and
GX, a group pair those of the RME and Pip. -/
def State.mismatch (s : State) (p q : Nat) : State :=
  let b := s.beat.toNat
  let ps := if p = q then [p] else [p, q]
  let lo := if p = q then 0 else 5
  let first := ((ps.map fun x => (s.group x).oldestGood lo 5).min?).getD 0
  let (w, s) := s.terrierFault p 0x61 0x800
  let s := if p = q then s else (s.terrierFault q 0x61 0x800).2
  s.recall 0x61 0xFF 0xFF ps first b w false

/-- Every powered group (R266). -/
def State.poweredGroups (s : State) : List Nat := (List.range 68).filter fun p => s.powered p

/-- A memory-side die instance did not fire (R269): recall of every group, withholding, a ledger event. -/
def State.deadDie (s : State) (k : Nat) : State :=
  let b := s.beat.toNat
  let u := memoryUnit k 3 0 0
  let w := s.record { fireAt := s.now, unit := u, kind := 0x67, op := 0x801, job := 0 }
  let s := s.raise u 0x67 0x801 0 0 s.now 0 false
  let s := s.recall 0x67 0xFF 0xFF s.poweredGroups (s.die k).lastGood b w false
  s.event 0x0A [2, BitVec.ofNat 8 k]

/-- The message of a checker that fired during the kernel (R269). -/
def State.faultFired (s : State) (w : Word64) : FaultWire :=
  let u := w.toNat % 2 ^ 20
  { word := w, fireAt := s.now, job := match unitGroup? u with
      | some p => (s.group p).job
      | none => 0
    addr := s.tagAddress u (w.toNat / 2 ^ 40), poisoned := false, detSuspect := false, injected := false }

/-- The verdict on a group (R269): its injection of this beat, and its signatures. -/
def State.groupVerdict (s : State) (p : Nat) (agree : Bool) (q : Nat) (fired : Option Word64) : State :=
  let b := s.beat.toNat
  let inj := (s.unit p).injection.filter fun r => r.beat == b
  let dead := inj.any fun r => !r.fired || !r.arrived
  let s := if dead then s.deadChecker p else s
  match fired with
  | some w => ({ s with faults := { s.faults with wires := s.faults.wires ++ [s.faultFired w] } }).quarantineGroup p |>.terrierFail p
  | none =>
    if !agree then s.mismatch p q
    else if inj.isSome && !dead then s.modGroup p fun g =>
      { g with lastGood := g.lastGood.put (goodKey (terrierFamily b) (terrierVisit b)) b }
    else s

/-- TERRIER_VERDICT (R269, R270, R275). -/
def execTerrierVerdict (u : TerrierUnit) (own peer : Word64) (peerGroup : Fin 68) (firedUnit : Option Word64) (s : State) : Out :=
  live s <|
    if !s.beating then s
    else match u with
      | .group p => if s.powered p then s.groupVerdict p (own == peer) peerGroup firedUnit else s
      | .memoryDie k =>
        match (s.die k).injection.filter fun r => r.beat == s.beat.toNat with
        | some r => if r.fired && r.arrived then s.modDie k fun d => { d with lastGood := s.beat.toNat } else s.deadDie k
        | none => s

/-- TERRIER_RETEST (R270, R286): in the service slice after the verdict's beat; a group due for retirement for another
cause stays out. -/
def execTerrierRetest (p : Fin 68) (passes : Bool) (s : State) : Out :=
  let g := s.group p
  live s <|
    if s.beating && g.quarantine && decide (g.quarantineBeat < s.beat.toNat) then
      let s := s.modGroup p fun g => { g with retests := satInc g.retests, quarantine := g.retireDue || !passes }
      if passes then s else s.dueRetirement p
    else s

/-! ### Scrubs -/

/-- Unit ID of the scrubber of an SRAM address (R295): key-cache bank, group buffer, or scratchpad. -/
def scrubUnit (a : Nat) : Nat :=
  if a < gbBase then memoryUnit (a / 2048 % 4) 2 (a / 8192 % 4) 4
  else if a < spBase then groupUnit ((a - gbBase) / groupBufferBytes) 0 7 5
  else groupUnit ((a - spBase) / scratchpadBytes / 32) ((a - spBase) / scratchpadBytes % 32) 5 0

/-- An address lies in the key cache, a group buffer or a scratchpad (R242). -/
def isSram (a : Nat) : Bool := inRange kcBase kcSize a || inRange gbBase gbSize a || inRange spBase spSize a

/-- One find of the service scrub (R255, R256): a corrected key-cache word is counted; an uncorrectable word is marked and
recorded. -/
def State.scrubFind (s : State) (f : ScrubFind) : State :=
  let a := f.addr.toNat
  if !isSram a then s
  else
    let kc := inRange kcBase kcSize a
    let die := a / 2048 % 4
    if !f.uncorrectable then (if kc then s.modDie die fun d => { d with kcCorrected := satInc d.kcCorrected } else s)
    else if s.mem.poisonWords.contains (a / 4) then s
    else
      let s := if kc then s.loseKeyWord a else { s with mem := s.mem.markWord a }
      let job : BitVec 16 := match unitGroup? (scrubUnit a) with
        | some p => (s.group p).job
        | none => 0
      s.raise (scrubUnit a) 0x09 0x803 0 a s.now job true

/-- SERVICE_SCRUB (R256): cycle 60,928; every powered group's scrub moves to its next row. -/
def execServiceScrub (finds : List ScrubFind) (s : State) : Out :=
  live s <|
    if !s.beating then s
    else
      let s := s.reach 60928
      let s := finds.foldl State.scrubFind s
      s.forAll s.poweredGroups fun s p => s.modUnit p fun u => { u with scrubRow := (u.scrubRow + 1) % 1024 }

/-! ### Retriever -/

/-- Beats of a walk (R272). -/
def walkBeats (bytes : Nat) : Nat := max 1 ((bytes + 8191) / 8192)

/-- The 64-byte pointer block of a cluster (R271). -/
def State.pointerBlock (s : State) (k : Nat) : List Byte :=
  (List.range 16).flatMap fun r =>
    let g := s.ring k r
    if g.resident then leBytes 2 g.head.toNat ++ leBytes 2 g.tail.toNat else leBytes 4 0

/-- RETRIEVER_ABSORB (R272): the slice of this beat of the walk. -/
def execRetrieverAbsorb (p : Fin 68) (s : State) : Out :=
  let g := s.group p
  let b := s.beat.toNat
  let u := b % 128
  let bytes := g.resRows.toNat * 256
  let w := walkBeats bytes
  live s <|
    if !s.beating || !s.powered p || g.residency == .none || decide (w ≤ u) then s
    else
      let first := u == 0
      let counts := if first then true else g.walkCounts && g.walkEpoch == b / 128
      let lo := 8192 * u
      let n := min 8192 (bytes - lo)
      let part := fun c =>
        let k := 32 * p.val + c
        (if first then [] else g.absorbed.at c []) ++ s.mem.readN (spBase + k * scratchpadBytes + lo) n ++
        (if u + 1 = w then s.pointerBlock k else [])
      s.modGroup p fun g => { g with walkU := BitVec.ofNat 7 u, walkEpoch := b / 128, walkCounts := counts, walkDone := false,
                                     absorbed := (List.range 32).map fun c => (c, part c) }

/-- RETRIEVER_FINALIZE (R271): the cluster digests and the group digest at the end of the walk. -/
def execRetrieverFinalize (p : Fin 68) (s : State) : Out :=
  let g := s.group p
  let b := s.beat.toNat
  live s <|
    if s.beating && g.residency != .none && g.walkEpoch == b / 128 && b % 128 + 1 == walkBeats (g.resRows.toNat * 256) &&
       g.absorbed != [] then
      let d := digest32 ((List.range 32).flatMap fun c => digest32 (g.absorbed.at c []))
      s.modGroup p fun g => { g with digest := d, walkDone := true }
    else s

/-- A first counted walk decides a PENDING group (R273). One that matches is the group's last matching walk (R288): it sets
LAST_MATCH, as R274's do (DEDUCED, log entry 132). -/
def State.pendingVerdict (s : State) (p : Nat) : State :=
  let g := s.group p
  if !g.walkCounts then s.modGroup p fun g => { g with walkDone := false }
  else if g.digest == g.model then s.modGroup p fun g => 
    { g with residency := .confirmed, walkDone := false, lastMatch := BitVec.ofNat 48 (s.beat.toNat / 128 * 128) }
  else ((s.managementRecord 0x64 opRetriever 0 p).2).modGroup p Group.unload

/-- One differing group where the matching ones outnumber the others (R274). -/
def State.minority (s : State) (p : Nat) : State :=
  let g := s.group p
  let first := g.lastMatch.toNat
  let (w, s) := s.managementRecord 0x62 opRetriever g.job.toNat p
  let s := s.modGroup p Group.unload
  let s := if g.job = 0 then s else s.divergeRestart g.job.toNat 0x62 [p]
  s.recall 0x62 0xFF 0xFF [p] first s.beat.toNat w false

/-- No majority (R274): every group that holds the model loses it, every job on one of them is terminated, one notice
covers the groups. -/
def State.noMajority (s : State) (model : List Byte) : State :=
  let ps := (List.range 68).filter fun p => (s.group p).residency != .none && (s.group p).model == model
  -- a PENDING group has no matching walk
  let first := (((ps.filter fun p => (s.group p).residency == .confirmed).map fun p => (s.group p).lastMatch.toNat).min?).getD 0
  let ids := ps.foldl (fun l p => let i := (s.group p).job.toNat; if i = 0 then l else insertNew l i) []
  let (w, s) := s.managementRecord 0x63 opRetriever (ids.headD 0) (ps.headD 0)
  let s := s.forAll ids fun s id => s.divergeTerminate id 0x63
  let s := s.forAll ps fun s p => s.modGroup p Group.unload
  s.recall 0x63 0xFF 0xFF ps first s.beat.toNat w false

/-- The verdict of one model's CONFIRMED groups whose walks ended and count (R274). -/
def State.modelVerdict (s : State) (model : List Byte) (ps : List Nat) : State :=
  let good := ps.filter fun p => (s.group p).digest == model
  let bad := ps.filter fun p => (s.group p).digest != model
  let e := s.beat.toNat / 128 * 128
  let s := s.forAll ps fun s p => s.modGroup p fun g => { g with walkDone := false }
  if bad.length < good.length then
    let s := s.forAll good fun s p => s.modGroup p fun g => { g with lastMatch := BitVec.ofNat 48 e }
    s.forAll bad State.minority
  else if bad == [] then s else s.noMajority model

/-- RETRIEVER_VERDICT (R273, R274): cycle 63,552. -/
def execRetrieverVerdict (s : State) : Out :=
  live s <|
    if !s.beating then s
    else
      let s := s.reach 63552
      let done := (List.range 68).filter fun p => (s.group p).walkDone
      let confirmed := done.filter fun p => (s.group p).residency == .confirmed && (s.group p).walkCounts
      let models := confirmed.foldl (fun l p => insertNew l (s.group p).model) []
      let groups := models.map fun m => (m, confirmed.filter fun p => (s.group p).model == m)
      let s := s.forAll (done.filter fun p => (s.group p).residency == .pending) State.pendingVerdict
      groups.foldl (fun s e => s.modelVerdict e.1 e.2) s

/-! ### Ledger sampling and junction control -/

/-- A reading is stored (R418), and shown by its stack or memory-side die (R259); a warm one restarts the unit's count of cool
beats (R258). -/
def State.storeTemp (s : State) (r : TempReading) : State :=
  let n := r.sensor.toNat
  if 50 ≤ n then s
  else
    let s := { s with power := { s.power with sensors := s.power.sensors.put n r.temp } }
    let b := s.beat.toNat + 1
    if inRange 42 8 n then s.modStack (n - 42) fun k =>
      { k with temp := r.temp, coolSince := if r.temp.toInt < 320 then k.coolSince else b }
    else if inRange 32 8 n then
      let t := (s.hottest (dieSensors (4 + (n - 32) / 2))).2
      s.modDie ((n - 32) / 2) fun d => { d with temp := t, coolSince := if t.toInt < 380 then d.coolSince else b }
    else s

/-- A rail reading is stored with its extremes since host-ready (R430). -/
def State.storeRail (s : State) (r : RailReading) : State :=
  let p := s.power
  let k := r.rail.val
  { s with power := { p with
      railMv := p.railMv.put k r.mv
      railMin := p.railMin.put k (if r.mv < p.railMin.at k 0xFFF then r.mv else p.railMin.at k 0xFFF)
      railMax := p.railMax.put k (if p.railMax.at k 0 < r.mv then r.mv else p.railMax.at k 0) } }

/-- Temperature bin of a reading in quarter degrees (R447). -/
def tempBin (t : BitVec 10) : Nat :=
  let q := t.toInt
  if q < 28 then 0 else min 15 (q.toNat / 28)

/-- Nominal mV of a rail (R409); VDD_C counts from the requested value. -/
def State.railNominal (s : State) (rail : Nat) : Nat :=
  match rail with
  | 0 => s.power.vddcRequest.toNat
  | 1 => 750
  | 2 => 800
  | 3 => 750
  | 4 => 900
  | 5 => 1200
  | 6 => 1100
  | 7 => 400
  | _ => 1800

/-- Deviation bin of a rail (R447). -/
def railBin (mv nominal : Nat) : Nat :=
  -- ⌊100·(mv − nominal)/nominal⌋ % between −7 and +7
  let x : Int := (100 * ((mv : Int) - nominal)) / max nominal 1
  if x < -7 then 0 else min 15 (x + 8).toNat

/-- The sensors of a temperature source of R447. -/
def sourceSensors (t : Nat) : List Nat := if t < 9 then dieSensors t else [42 + (t - 9)]

/-- One histogram sample of every source and rail, of the step and of the causes (R447). -/
def State.histograms (s : State) : State :=
  let s := s.forAll (List.range 17) fun s t => s.count (0x010 + 16 * t + tempBin (s.hottest (sourceSensors t)).2) 1
  let s := s.forAll (List.range 9) fun s r =>
    s.count (0x120 + 16 * r + railBin (s.power.railMv.at r 0).toNat (s.railNominal r)) 1
  let s := s.count (0x1B0 + s.power.stepCode.toNat) 1
  s.forAll (List.range 9) fun s c => if s.power.permit c = 0 then s else s.count (0x1B8 + c) 1

/-- The die whose sensors an adoption recalibrates in this beat (R404 piece 4): I/O die, M0 to M3, C0 to C3, 64 beats each. -/
def State.recalDie (s : State) : Option Nat :=
  if s.cfg.adoptPiece = 4 then [8, 4, 5, 6, 7, 0, 1, 2, 3][(s.beat.toNat - s.cfg.recalStart) / 64]? else none

/-- The dies that lie next to a die (log entry 27): a compute die on its memory-side die, those beside the I/O die. -/
def nextDies (d : Nat) : List Nat := if d < 4 then [d + 4] else if d < 8 then [d - 4, 8] else [4, 5, 6, 7]

/-- The reading of a die that decisions use: while it recalibrates, its neighbours' highest plus 5 °C (R404). -/
def State.judgedReading (s : State) (d : Nat) : Nat × BitVec 10 :=
  if s.recalDie = some d then ((dieSensors d).headD 0, (s.hottest ((nextDies d).flatMap dieSensors)).2 + 20) else s.hottest (dieSensors d)

/-- Tj and its sensor: the hottest of the compute dies and the I/O die (R419). -/
def State.junctionReading (s : State) : Nat × BitVec 10 := ([1, 2, 3, 8].map s.judgedReading).foldl hotter (s.judgedReading 0)

/-- Junction control acts on the sample of this beat (R419). -/
def State.junction (s : State) : State :=
  let (n, t) := s.junctionReading
  let q := t.toInt
  let p := s.power
  let b := s.beat.toNat
  let start := p.throttleStart.toNat
  let hot := if q ≥ 4 * start then p.hotSamples + 1 else 0
  let slow := decide (4 ≤ hot) && decide (p.holdUntil ≤ b)
  let fast := decide (q ≥ 400) && decide (p.fastHoldUntil ≤ b)
  let p := { p with
    tjMax := t, tjSensor := BitVec.ofNat 6 n, hotSamples := if slow then 0 else min 4 hot
    holdUntil := if slow then b + 64 else p.holdUntil, fastHoldUntil := if fast then b + 16 else p.fastHoldUntil
    coolSince := if q < 4 * (start : Int) - 20 then p.coolSince else b + 1 }
  let cut := slow.toNat + 2 * fast.toNat
  let s := { s with power := p }
  if cut = 0 then s else s.setPermit 0 (min 6 (p.permit 0 + cut))

/-- LEDGER_SAMPLING (R418, R419, R447): the sensors and rails are sampled, the histograms take the sample, junction control
acts. -/
def execLedgerSampling (temps : List TempReading) (rails : List RailReading) (s : State) : Out :=
  live s <|
    if !s.beating then s
    else
      let s := s.reach 62000
      let s := temps.foldl State.storeTemp s
      let s := rails.foldl State.storeRail s
      s.histograms.junction

end Sys2Proof.Machine
end

