-- ==== Sys2Proof/Machine/MemSystem.lean ====
section
/-!
DEFINITION. MemSystem: write-backs, row remaps, the patrol scrub, key-cache repair and the thermal coupling of the memory
system (R91, R250, R253, R254, R256, R258).
-/
namespace Sys2Proof.Machine

/-- The stacks serve accesses: all in service, and neither tripped nor halted (R422, R423). -/
def State.hbmUp (s : State) : Bool := s.memSys.hbmReady && !s.rst.tripped && !s.rst.halted

/-! ### LINE_WRITEBACK (R250) -/

/-- A corrected line has been written back and read again: a second correction fails its row (R250, R253). -/
def State.writeBack (s : State) (a : Nat) (again : Bool) : State :=
  let line := a / 64 * 64
  let s := if s.memSys.writebacks.contains line then
      { s with memSys := { s.memSys with writebacks := s.memSys.writebacks.filter (· != line) } }
    else s.countCorrected a
  if again then (s.countCorrected a).failRow a else s

/-- LINE_WRITEBACK (R250): of a line of HBM. -/
def execLineWriteback (addr : DevAddr) (secondReadCorrects : Bool) (s : State) : Out :=
  live s (if s.hbmUp && decide (addr.toNat < hbmSize) then s.writeBack addr.toNat secondReadCorrects else s)

/-! ### ROW_REMAP (R253, R254, R446) -/

/-- The pages that have a line in a row (R243, R253). -/
def rowPages (st pc row : Nat) : List Nat := (List.range 16).map fun i => hbmAddress st pc (16 * row + i) / 2048

/-- The key of a row in its stack's remap table. -/
def rowKey (pc row : Nat) : Nat := pc * 2 ^ 20 + row

/-- The table and the pseudo-channel's pool have room (R253). -/
def Stack.spareFree (k : Stack) (pc : Nat) : Bool := decide (k.remap.length < 2048) && decide (k.sparesUsed.at pc 0 < 64)

/-- A row takes the next spare of its pseudo-channel. -/
def Stack.takeSpare (k : Stack) (pc row : Nat) (second : Bool) : Stack :=
  { k with remap := k.remap.put (rowKey pc row) (k.sparesUsed.at pc 0), sparesUsed := k.sparesUsed.modify pc 0 (· + 1),
           secondLevel := if second then insertSorted k.secondLevel (rowKey pc row) else k.secondLevel }

/-- What a failed row becomes (R253): its record's kind and the state with the table or the page list changed. -/
def State.remapRow (s : State) (st pc row : Nat) : Nat × State :=
  let k := s.stack st
  let key := rowKey pc row
  let used := (k.remap.find key).isSome
  if k.spareFree pc && !used then (0x42, s.modStack st fun k => k.takeSpare pc row false)
  else if k.spareFree pc && !k.secondLevel.contains key then (0x43, s.modStack st fun k => k.takeSpare pc row true)
  else
    let s := s.modStack st fun k => { k with deadRows := insertSorted k.deadRows key }
    (0x44, { s with memSys := { s.memSys with retiredPages := (rowPages st pc row).foldl insertSorted s.memSys.retiredPages } })

/-- ROW_REMAP (R253, R254): of a row that has failed, in the service slice; it waits while the event buffer has no entry
(R446) and while an adoption retrains its pseudo-channel (R405). -/
def execRowRemap (stack : Fin 8) (pc : Fin 32) (row : BitVec 20) (s : State) : Out :=
  let d : RemapDue := { stack := stack, pc := pc, row := row.toNat }
  let inTime := !s.beating || decide (60928 ≤ s.cycle.toNat)
  live s <|
    if s.hbmUp && s.memSys.failedRows.contains d && s.ledger.room 4 && inTime && s.memSys.migrating != some (32 * stack.val + pc.val) then
      let (kind, s) := s.remapRow stack pc row.toNat
      let s := { s with memSys := { s.memSys with failedRows := s.memSys.failedRows.filter (· != d) }
                        ledger := { s.ledger with durableAsked := true } }
      let (w, s) := s.managementRecord kind opManagement 0 (hbmAddress stack pc (16 * row.toNat))
      (s.event 0x04 (wordsBytes w)).fire 0 5
    else s

/-! ### PATROL_SCRUB (R256) -/

/-- One line the patrol found in error. -/
def State.patrolFind (s : State) (f : ScrubFind) : State :=
  let a := f.addr.toNat
  if hbmSize ≤ a then s
  else if !f.uncorrectable then
    let s := s.countCorrected a
    { s with memSys := { s.memSys with writebacks := insertNew s.memSys.writebacks (a / 64 * 64) } }
  else if s.mem.linePoisoned a then s
  else (s.loseLine a).raise (memoryUnit (hbmStack a / 2) (hbmStack a % 2) (hbmChannel a) 4) 0x09 0x803 (hbmLine a) a s.now 0 true

/-- The patrol's next position: past the last line found, or one line on; a wrap ends a pass (R256, R259). -/
def MemorySystem.advance (m : MemorySystem) (finds : List ScrubFind) : MemorySystem :=
  let last := finds.foldl (fun x f => if hbmSize ≤ f.addr.toNat then x else max x (f.addr.toNat / 64)) (m.patrolPos.toNat / 64)
  let next := 64 * (last + 1)
  if next < hbmSize then { m with patrolPos := BitVec.ofNat 38 next } else { m with patrolPos := 0, passes := satInc m.passes }

/-- PATROL_SCRUB (R250, R255, R256): the lines from PATROL_POS on, and what was found in them. -/
def execPatrolScrub (finds : List ScrubFind) (s : State) : Out :=
  live s <|
    if s.hbmUp && s.memSys.patrolEn then
      let s := finds.foldl State.patrolFind s
      { s with memSys := s.memSys.advance finds }
    else s

/-! ### KC_EXTENT_REPAIR (R91) -/

/-- Refill one extent of a directory entry from the key's storage. -/
def State.repairEntry (s : State) (e : KcEntry) (x : Nat) : State :=
  match s.keySet? e.ksid with
  | none => s
  | some ks => match ks.keys.find? fun k => k.index == e.index with
    | none => s
    | some k =>
      let i := e.extents.idxOf x
      let n := min extentBytes (k.length - 256 - extentBytes * i)
      if e.filled && !e.bad then { s with mem := copyKey s.mem (ks.regionBase + k.offset + 256 + extentBytes * i) [x] n } else s

/-- KC_EXTENT_REPAIR (R91): an extent that waits for it. -/
def execKcExtentRepair (extent : BitVec 9) (s : State) : Out :=
  let x := extent.toNat
  live s <|
    if !s.hbmUp then s
    else match s.work.kcDir.find? fun e => e.repairing.contains x with
      | none => s
      | some e =>
        let s := s.repairEntry e x
        { s with work := { s.work with kcDir := s.work.kcDir.map fun f => { f with repairing := f.repairing.filter (· != x) } } }

/-! ### Thermal coupling (R258) -/

/-- A stack is in doubled refresh, or hot enough to enter it once its cap is in effect (R258). -/
def Stack.doubling (k : Stack) : Bool := k.doubledRefresh || (k.capAsked && decide (340 ≤ k.temp.toInt))

/-- The step the memory-side dies' cause permits (R257): 450 MHz while a die's cap is asked, 400 MHz where a stack is doubling
too (DEDUCED, log entry 136). -/
def State.dieCap (s : State) : Nat :=
  if (List.range 4).any fun i => (s.die i).capAsked then (if (List.range 8).any fun i => (s.stack i).doubling then 4 else 3) else 0

/-- Cause 2 follows the stacks and the memory-side dies (R257, R258). -/
def State.coupleDies (s : State) : State := s.setPermit 2 s.dieCap

/-- A stack's reading against the thresholds of R258. -/
def State.stackReading (s : State) (n : Nat) (t : Int) : State :=
  if 332 ≤ t then ((s.modStack n fun k => { k with capAsked := true }).setPermit 1 2).coupleDies
  else if t < 320 then (s.modStack n fun k =>
    if k.doubledRefresh then { k with doubledRefresh := false, coolSince := max k.coolSince s.beat.toNat } else k).coupleDies
  else s.coupleDies

/-- A memory-side die's junction against the threshold of R258. -/
def State.dieReading (s : State) (n : Nat) (t : Int) : State :=
  if 400 ≤ t then (s.modDie n fun d => { d with capAsked := true, liftDue := false }).coupleDies else s

/-- STACK_TEMPERATURE_TRIGGER (R258): a reading of a stack or of a memory-side die's junction. -/
def execStackTemperatureTrigger (sensor : BitVec 6) (temp : BitVec 10) (s : State) : Out :=
  let n := sensor.toNat
  live s <|
    if !s.rst.hostReady || s.rst.tripped || s.rst.halted then s
    else
      let s := s.storeTemp { sensor := sensor, temp := temp }
      if inRange 42 8 n then s.stackReading (n - 42) temp.toInt
      else if inRange 32 8 n then s.dieReading ((n - 32) / 2) (s.die ((n - 32) / 2)).temp.toInt
      else s

/-- DOUBLED_REFRESH_ENTRY (R258): a stack at 85.0 °C or more, once its cap is in effect. -/
def execDoubledRefreshEntry (stack : Fin 8) (s : State) : Out :=
  let k := s.stack stack
  live s <|
    if s.hbmUp && k.capAsked && decide (340 ≤ k.temp.toInt) && s.power.inEffect 2 then
      s.modStack stack fun k => { k with doubledRefresh := true }
    else s

/-- MEMORY_CLOCK_SLOW (R258): a memory-side die whose cap is asked, once it is in effect. -/
def execMemoryClockSlow (die : Fin 4) (s : State) : Out :=
  let d := s.die die
  live s <|
    if s.hbmUp && d.capAsked && decide (400 ≤ d.temp.toInt) && s.power.inEffect 3 then
      s.modDie die fun d => { d with slowClock := true }
    else s

/-- Beats without a break that R258 asks for. -/
def coolBeats : Nat := 9155

/-- The stacks' cap is lifted (R258). -/
def State.liftStackCap (s : State) : State :=
  let ks := (List.range 8).map s.stack
  if (ks.any (·.capAsked)) && ks.all (fun k => !k.doubledRefresh && decide (k.temp.toInt < 320) && decide (k.coolSince + coolBeats ≤ s.beat.toNat))
  then (s.forAll (List.range 8) fun s i => if (s.stack i).capAsked then s.modStack i fun k => { k with capAsked := false } else s).setPermit 1 0
    |>.coupleDies
  else s

/-- The memory clock of a cool die returns to 1,200 MHz; the cap goes at the next beat boundary (R258). -/
def State.restoreMemoryClock (s : State) (i : Nat) : State :=
  let d := s.die i
  if d.capAsked && decide (d.temp.toInt < 380) && decide (d.coolSince + coolBeats ≤ s.beat.toNat) then
    s.modDie i fun d => { d with slowClock := false, liftDue := true }
  else s

/-- COUPLING_CAP_LIFT (R258). -/
def execCouplingCapLift (s : State) : Out :=
  live s (if s.beating then s.liftStackCap.forAll (List.range 4) State.restoreMemoryClock else s)

end Sys2Proof.Machine
end

