-- ==== Sys2Proof/Machine/Ledger.lean ====
section
/-!
DEFINITION. Ledger: the life ledger's records in the flash, their reading at start-up, snapshots, durable copies and the
window (R443 to R450).
-/
namespace Sys2Proof.Machine

/-! ### Records (R443) -/

/-- Flash offset, size and sector size of the ledger ring (R389, R443). -/
def ringBase : Nat := 0x2000000
@[inherit_doc ringBase] def ringSize : Nat := 0x800000
@[inherit_doc ringBase] def sectorSize : Nat := 0x10000

/-- A record with its head: kind, body, sequence, reset count and beat (R443). -/
def ledgerRecord (kind seq resets beat : Nat) (body : List Byte) : List Byte :=
  let h := leBytes 1 0x15 ++ leBytes 1 1 ++ leBytes 1 kind ++ leBytes 1 0 ++ leBytes 4 (32 + body.length) ++ leBytes 8 seq ++
    leBytes 3 resets ++ leBytes 6 beat ++ leBytes 3 0
  h ++ leBytes 4 (crc32c (h ++ leBytes 4 0 ++ body)) ++ body

/-- The record at a ring offset, if it is valid: its length and bytes. -/
def Flash.recordAt (f : Flash) (pos : Nat) : Option (List Byte) :=
  let h := f.readN (ringBase + pos) 32
  let len := field h 4 4
  if field h 0 1 = 0x15 && field h 1 1 == 1 && decide (32 ≤ len ∧ pos + len ≤ ringSize ∧ len ≤ 0x40000) then
    let b := f.readN (ringBase + pos) len
    if crc32c (slice b 0 28 ++ leBytes 4 0 ++ b.drop 32) = field b 28 4 then some b else none
  else none

/-- Every valid record with its ring offset: a record starts with a listed byte on a 64-byte boundary (R443). -/
def Flash.records (f : Flash) : List (Nat × List Byte) :=
  f.cells.filterMap fun c =>
    if inRange ringBase ringSize c.1 && (c.1 - ringBase) % 64 == 0 && c.2 == 0x15 then
      (f.recordAt (c.1 - ringBase)).map fun b => (c.1 - ringBase, b)
    else none

/-- SEQUENCE of a record. -/
def recSequence (b : List Byte) : Nat := field b 8 8

/-- The record of a list with the highest sequence. -/
def newest (l : List (Nat × List Byte)) : Option (Nat × List Byte) :=
  l.foldl (fun x e => match x with
    | none => some e
    | some y => if recSequence y.2 ≤ recSequence e.2 then some e else some y) none

/-- Records of a kind. -/
def ofKind (kind : Nat) (l : List (Nat × List Byte)) : List (Nat × List Byte) := l.filter fun e => field e.2 2 1 == kind

/-! ### Writing -/

/-- Erase the sectors that a record of `len` bytes at `pos` first writes into (R443). -/
def eraseFor (cells : List Host.Cell) (pos len : Nat) : List Host.Cell :=
  let first := (pos + sectorSize - 1) / sectorSize
  let last := (pos + len - 1) / sectorSize
  cells.filter fun c => !(decide (ringBase + first * sectorSize ≤ c.1) && decide (c.1 < ringBase + (last + 1) * sectorSize))

/-- Where a record of `len` bytes goes: the next position, or offset 0 where it would not fit. -/
def LedgerUnit.place (l : LedgerUnit) (len : Nat) : Nat := if ringSize < l.writePos + len then 0 else l.writePos

/-- Write one record. -/
def State.appendRecord (s : State) (kind : Nat) (body : List Byte) : State :=
  let l := s.ledger
  let b := ledgerRecord kind (l.sequence.toNat + 1) l.resetCount.toNat (if s.rst.hostReady then s.beat.toNat else 0) body
  let pos := l.place b.length
  { s with
    flash := { cells := Flash.writeN (eraseFor s.flash.cells pos b.length) (ringBase + pos) b }
    ledger := { l with sequence := l.sequence + 1, writePos := (pos + b.length + 63) / 64 * 64 } }

/-- A sector that takes no writes is skipped and counted; when none is left the ledger has failed (R445). -/
def LedgerUnit.skipSector (l : LedgerUnit) : LedgerUnit :=
  let bad := l.badSectors.toNat + 1
  { l with writePos := (l.writePos / sectorSize + 1) * sectorSize % ringSize, badSectors := BitVec.ofNat 8 (min 128 bad)
           writeErrors := satInc l.writeErrors, failed := l.failed || decide (128 ≤ bad) }

/-! ### The durable copy (R444) -/

/-- One 8-byte entry: what it is, its stack or index, a row or value, a spare (log entry 24). -/
def durableEntry (what which row spare : Nat) : List Byte := leBytes 1 what ++ leBytes 1 which ++ leBytes 4 row ++ leBytes 2 spare

/-- Values of the fuse counters (R360, R446): owner epoch, security version, retirements, seal disable. -/
def Fuses.counters (f : Fuses) : List Nat := [f.ownerEpoch.toNat, f.securityVersion.toNat, f.retired.length, f.sealDisabled.toNat]

/-- The body of a durable copy: remap tables, dead rows, fuse values. -/
def State.durableBody (s : State) : List Byte :=
  ((List.range 8).flatMap fun st =>
    let k := s.stack st
    (k.remap.flatMap fun e => durableEntry (if k.secondLevel.contains e.1 then 2 else 1) st e.1 e.2) ++
    k.deadRows.flatMap fun r => durableEntry 3 st r 0) ++
  (s.fuses.counters.zipIdx.flatMap fun e => durableEntry 4 e.2 e.1 0)

/-- Write a durable copy. -/
def State.writeDurable (s : State) : State :=
  let s := s.appendRecord 3 s.durableBody
  { s with ledger := { s.ledger with durableAsked := false } }

/-- The newest copy is rewritten before its sector would be erased next (R444). -/
def State.keepDurable (s : State) : State :=
  match newest (ofKind 3 s.flash.records) with
  | some e => if e.1 / sectorSize = (s.ledger.writePos / sectorSize + 1) % 128 then s.writeDurable else s
  | none => s

/-- Write a record where the ledger takes records. -/
def State.writeRecord (s : State) (kind : Nat) (body : List Byte) : State := s.keepDurable.appendRecord kind body

/-! ### Events (R446) -/

/-- A LEDGER event tells of lost events once the buffer has room. -/
def State.tellLost (s : State) : State :=
  if s.ledger.lostPending = 0 || !s.ledger.room 0x0D then s
  else
    let n := s.ledger.lostPending
    let s := { s with ledger := { s.ledger with lostPending := 0 } }
    s.event 0x0D (leBytes 1 1 ++ leBytes 4 n)

/-- The oldest event leaves the buffer: written, or dropped where the ledger has failed (R445). -/
def State.writeEvent (s : State) (e : LedgerEvent) (rest : List LedgerEvent) : State :=
  let s := if s.ledger.failed then s else s.writeRecord 1 (leBytes 1 e.code ++ leBytes 3 0 ++ e.body)
  ({ s with ledger := { s.ledger with events := rest } }).tellLost

/-- The flash and the management cores serve the ledger: released at start-up (R427). -/
def State.ledgerUp (s : State) : Bool := decide (2 ≤ s.rst.released)

/-- LEDGER_EVENT_WRITE (R445, R446). -/
def execLedgerEventWrite (flashOk : Bool) (s : State) : Out :=
  live s <| match s.ledger.events with
    | [] => s
    | e :: rest =>
      if !s.ledgerUp then s
      else if flashOk || s.ledger.failed then s.writeEvent e rest else { s with ledger := s.ledger.skipSector }

/-! ### Snapshots (R448) -/

/-- The body of a snapshot: counters 0x000 to 0x51F, then zeros to 8,192 bytes. -/
def State.snapshotBody (s : State) : List Byte :=
  ((List.range 1312).flatMap fun i => leBytes 6 (s.ledger.counters.at i 0).toNat) ++ List.replicate 288 0

/-- A snapshot is written; a request standing is served by it (R448). -/
def State.flushLedger (s : State) : State :=
  if s.ledger.failed then s
  else
    let s := s.writeRecord 2 s.snapshotBody
    { s with ledger := { s.ledger with flushes := satInc s.ledger.flushes, flushAsked := false, flushBusy := false } }

/-- The ledger is flushed: the waiting events, then a snapshot (R422, R423). -/
def State.flushAll (s : State) : State :=
  (s.ledger.events.foldl (fun s e => s.writeEvent e (s.ledger.events.drop 1)) s).flushLedger

/-- LEDGER_SNAPSHOT (R303, R447, R448): asked for, or at the end of 60 s of the reference clock, which the power-on seconds
count. -/
def execLedgerSnapshot (flashOk : Bool) (s : State) : Out :=
  live s <|
    if !s.ledgerUp then s
    else if !flashOk && !s.ledger.failed then { s with ledger := s.ledger.skipSector }
    else (if s.ledger.flushAsked then s else s.count 0x000 60).flushLedger

/-- FLUSH_NOW (R310, R450): a write-only bit, so a full write only. -/
def execFlushNow (w : AccessWidth) (s : State) : Out :=
  live s (if !s.hostOpen || w != .full || s.ledger.failed then s else { s with ledger := { s.ledger with flushAsked := true, flushBusy := true } })

/-- DURABLE_COPY (R444): a new copy after a change of its contents. -/
def execDurableCopy (flashOk : Bool) (s : State) : Out :=
  live s <|
    if !s.ledgerUp || !s.ledger.durableAsked || s.ledger.failed then s
    else if flashOk then s.writeDurable else { s with ledger := s.ledger.skipSector }

/-! ### The window (R450) -/

/-- WINDOW_OFFSET (R450): bits [11:0] are reserved; the load starts. -/
def execWindowOffset (v : Word64) (w : AccessWidth) (s : State) : Out :=
  live s <|
    if !s.hostOpen then s
    else
      let x := (accessWrite w (s.ledger.windowOffset.zeroExtend 64) v).truncate 23 &&& 0x7FF000
      { s with ledger := { s.ledger with windowOffset := x, windowReady := false, window := [] } }

/-- WINDOW_READY (R450): the window holds the 4 KiB at its offset. -/
def execWindowReady (s : State) : Out :=
  live s <|
    if !s.hostOpen || s.ledger.windowReady then s
    else { s with ledger := { s.ledger with windowReady := true, window := s.flash.readN (ringBase + s.ledger.windowOffset.toNat) 4096 } }

/-! ### Reading at start-up (R443 to R445) -/

/-- The counters of a snapshot. -/
def snapshotCounters (b : List Byte) : Table (BitVec 48) :=
  (List.range 1312).filterMap fun i =>
    let v := field b (32 + 6 * i) 6
    if v = 0 then none else some (i, BitVec.ofNat 48 v)

/-- Take one entry of a durable copy into the tables. -/
def State.loadDurable (s : State) (e : List Byte) : State :=
  let st := field e 1 1
  let row := field e 2 4
  let sp := field e 6 2
  let pc := row / 2 ^ 20
  let add := fun (k : Stack) => { k with remap := k.remap.put row sp, sparesUsed := k.sparesUsed.put pc (max (sp + 1) (k.sparesUsed.at pc 0)) }
  match field e 0 1 with
  | 1 => s.modStack st add
  | 2 => s.modStack st fun k => { add k with secondLevel := insertSorted k.secondLevel row }
  | 3 =>
    let s := s.modStack st fun k => { k with deadRows := insertSorted k.deadRows row }
    { s with memSys := { s.memSys with retiredPages := (rowPages st pc (row % 2 ^ 20)).foldl insertSorted s.memSys.retiredPages } }
  | _ => s

/-- Take a MEMORY event later than the newest copy into the tables (R443, R446). -/
def State.loadMemoryEvent (s : State) (b : List Byte) : State :=
  let a := field b (36 + 16) 6
  if field b 32 1 = 4 then (s.remapRow (hbmStack a) (hbmChannel a) (hbmLine a / 16)).2 else s

/-- The ledger as the newest valid snapshot, durable copy and the events after it define it; fresh where nothing valid is
found (R443 to R445). -/
def State.loadLedger (s : State) : State :=
  let all := s.flash.records
  match newest all with
  | none => ({ s with ledger := { s.ledger with valid := true, fresh := true } }).event 0x0D (leBytes 1 0)
  | some (pos, last) =>
    let counters := match newest (ofKind 2 all) with
      | some e => snapshotCounters e.2
      | none => []
    let l := { s.ledger with
      valid := true, fresh := false, counters := counters, sequence := BitVec.ofNat 64 (recSequence last)
      resetCount := BitVec.ofNat 24 (field last 16 3 + 1), writePos := (pos + last.length + 63) / 64 * 64 }
    let s := { s with ledger := l }
    let (from_, s) := match newest (ofKind 3 all) with
      | some e => (recSequence e.2, (chunks 8 (e.2.length / 8) (e.2.drop 32)).foldl State.loadDurable s)
      | none => (0, s)
    -- the ring's order: what lies beyond the newest record is older than what lies before it
    let ordered := (all.filter fun e => decide (pos < e.1)) ++ all.filter fun e => decide (e.1 ≤ pos)
    ((ofKind 1 ordered).filter fun e => decide (from_ < recSequence e.2)).foldl (fun s e => s.loadMemoryEvent e.2) s

end Sys2Proof.Machine
end

