-- ==== Sys2Proof/Machine/Power.lean ====
section
/-!
DEFINITION. Power: the arithmetic clock's switches and voltage, junction, power and current control, HOST_STEP and rail
watching (R411, R412, R415, R416, R419, R420).
-/
namespace Sys2Proof.Machine

/-! ### STEP_SWITCH (R415) -/

/-- Every compute die is at a new step: counted, recorded as THROTTLE_STEP, signalled (R329, R415, R430); on a step down the
voltage follows (R411). -/
def State.changeStep (s : State) (code : Nat) : State :=
  let old := s.power.stepCode.toNat
  let s := { s with power := { s.power with
    stepCode := BitVec.ofNat 3 code, stepChanges := satInc s.power.stepChanges
    vddcRequest := if old < code ∧ s.power.awaitingVoltage.isNone then s.voltageFor code else s.power.vddcRequest } }
  ((s.managementRecord 0x80 opManagement 0 0).2).fire 0 6

/-- A change that waited for the one now made takes its own switch cycle (R415). -/
def State.nextChange (s : State) : State :=
  match s.power.later with
  | none => s
  | some y =>
    let s := { s with power := { s.power with later := none } }
    if y = s.power.stepCode.toNat then s else s.announce y

/-- STEP_SWITCH (R415): the end of the announced cycle, in the beat it falls in. -/
def execStepSwitch (s : State) : Out :=
  live s <| match s.power.pending with
    | none => s
    | some (c, code) =>
      if s.rst.tripped || (s.beating && decide (s.beat.toNat < beatOf c)) then s
      else
        let s := if s.beating && s.beat.toNat = beatOf c then s.reach (min (cycleOf c + 1) (beatCycles - 1)) else s
        (({ s with power := { s.power with pending := none } }).changeStep code).nextChange

/-! ### AVSBus (R411, R420) -/

/-- The step the causes ask for: the device's own, or the domain's (R343, R416). -/
def State.targetStep (s : State) : Nat := if s.mode.linked then s.link.lowest else s.power.ownStep

/-- A VDD_C current above 1,450 A lowers cause 4 one step at once (R420). -/
def State.overCurrent (s : State) (amps : Nat) : State :=
  if 1450 < amps then
    let s := { s with power := { s.power with currentSince := s.beat.toNat } }
    s.setPermit 4 (min 6 (s.power.permit 4 + 1))
  else s

/-- The report is within 10 mV of the request. -/
def voltageReached (mv req : Nat) : Bool := decide (mv ≤ req + 10 ∧ req ≤ mv + 10)

/-- AVS_VOLTAGE_CONFIRM (R411, R420, R430): the regulator's report of voltage and current. A step up whose voltage is there
gets its switch cycle. -/
def execAvsVoltageConfirm (mv : BitVec 10) (amps : BitVec 11) (s : State) : Out :=
  live s <|
    if s.rst.released < 7 || s.rst.tripped || s.rst.halted then s
    else
      let s := ({ s with power := { s.power with vddcMv := mv, vddcAmps := amps } }).overCurrent amps.toNat
      match s.power.awaitingVoltage with
      | some code =>
        if voltageReached mv.toNat s.power.vddcRequest.toNat then
          ({ s with power := { s.power with awaitingVoltage := none } }).announce code
        else s
      | none => s

/-- STEP_UP_ABANDONED (R411): no report within 1 ms. -/
def execStepUpAbandoned (s : State) : Out :=
  live s <| match s.power.awaitingVoltage with
    | none => s
    | some _ =>
      let p := s.power
      { s with power := { p with
        awaitingVoltage := none, stepUpAbandoned := satInc p.stepUpAbandoned, retryAt := s.beat.toNat + 1024
        vddcRequest := s.voltageFor p.stepCode.toNat } }

/-- STEP_UP_RETRY (R411): after 1,024 beats. -/
def execStepUpRetry (s : State) : Out :=
  live s <|
    if s.beating && s.power.retryAt != 0 && decide (s.power.retryAt ≤ s.beat.toNat) then
      let s := { s with power := { s.power with retryAt := 0 } }
      s.decideStep s.targetStep
    else s

/-! ### Junction, power and current control (R419, R420) -/

/-- JUNCTION_STEP_UP (R419): 9,155 beats with every sample below THROTTLE_START_C − 5 °C. -/
def execJunctionStepUp (s : State) : Out :=
  let p := s.power.permit 0
  live s <|
    if s.beating && p != 0 && decide (s.power.coolSince + coolBeats ≤ s.beat.toNat) then
      ({ s with power := { s.power with coolSince := s.beat.toNat } }).setPermit 0 (p - 1)
    else s

/-- The power cap moves (R420). -/
def State.moveCap (s : State) (watts : Nat) : State :=
  let limit := s.cfgNum 0x0122
  let p := s.power.permit 3
  let b := s.beat.toNat
  if limit < watts then
    let s := { s with power := { s.power with belowSince := b, capUnmet := p == 6 } }
    s.setPermit 3 (min 6 (p + 1))
  else
    let s := { s with power := { s.power with capUnmet := false } }
    if 9 * limit ≤ 10 * watts then { s with power := { s.power with belowSince := b } }
    else if p ≠ 0 && decide (s.power.belowSince + 1024 ≤ b) then ({ s with power := { s.power with belowSince := b } }).setPermit 3 (p - 1)
    else s

/-- CAPPED_EVALUATION (R420): the VDD_C power averaged over 64 beats, plus 506 W. -/
def execCappedEvaluation (vddcWatts : BitVec 11) (s : State) : Out :=
  let w := vddcWatts.toNat + 506
  live s <|
    if s.beating && s.mode.capped then
      ({ s with power := { s.power with pkgPower := BitVec.ofNat 11 (min 2047 w) } }).moveCap w
    else s

/-- VDD_C_CURRENT_LIFT (R420): 1,024 beats without another excess. -/
def execVddCCurrentLift (s : State) : Out :=
  live s <|
    if s.beating && s.power.permit 4 != 0 && decide (s.power.currentSince + 1024 ≤ s.beat.toNat) then s.setPermit 4 0 else s

/-! ### HOST_STEP (R416, R430) -/

/-- HOST_STEP (R310, R416, R430): bits [5:3]; a code above 6 permits 200 MHz. -/
def execHostStep (v : Word64) (w : AccessWidth) (s : State) : Out :=
  live s <|
    if !s.hostOpen then s
    else
      let x := (accessWrite w ((s.power.hostStep.zeroExtend 64) <<< 3) v) >>> 3
      ({ s with power := { s.power with hostStep := x.truncate 3 } }).applyCauses

/-! ### RAIL_RANGE (R412) -/

/-- A reading outside a rail's 3 % tolerance and within 8 % of nominal (R409, R412). -/
def railExcursion (mv nominal : Nat) : Bool :=
  let d := if mv < nominal then nominal - mv else mv - nominal
  decide (3 * nominal < 100 * d ∧ 100 * d ≤ 8 * nominal)

/-- The sensors block's unit ID (R295). -/
def sensorsUnit : Nat := ioUnit 7 0 0

/-- RAIL_RANGE (R298, R329, R412): recorded once for the excursion, every job of the beat restarts. -/
def execRailRange (rail : Fin 9) (mv : BitVec 12) (s : State) : Out :=
  live s <|
    if s.rst.released = 0 || s.rst.tripped || !railExcursion mv.toNat (s.railNominal rail) then s
    else
      let s := s.storeRail { rail := rail, mv := mv }
      let s := { s with power := { s.power with railExcursions := s.power.railExcursions.modify rail 0 satInc } }
      (s.raise sensorsUnit 0x83 opManagement 0 0 s.now 0 false).fire 0 6

end Sys2Proof.Machine
end

