-- ==== Sys2Proof/Machine/Reset.lean ====
section
/-!
DEFINITION. Reset: the trip, the reset sources, the release order with the start-up image read, host-ready and the orderly
halt (R2, R4, R27, R251, R361 to R363, R398, R399, R422 to R428, R431, R439).
-/
namespace Sys2Proof.Machine

/-! ### Reset (R424, R425) -/

/-- The device after a reset of a cause: everything but the fuses is as State.reset has it. What lies outside the device
stays: the flash, host memory, the pins' levels, the commands that wait, and the model's counters of
free values and of DRBG output (log entries 4 and 25). A coolant alarm that is still active goes on holding cause 5 (R421). -/
def State.resetDevice (s : State) (cause : BitVec 4) : State :=
  let t := { State.reset with
    pending := s.pending
    free := s.free
    fuses := s.fuses
    flash := s.flash
    host := { State.reset.host with hostRam := s.host.hostRam, pcieHeld := s.pins.active.getLsbD 1 }
    pins := { State.reset.pins with active := s.pins.active, racing := s.pins.racing }
    sec := { State.reset.sec with drbgPos := s.sec.drbgPos }
    rst := { State.reset.rst with rstCause := cause } }
  if s.pins.active.getLsbD 3 then t.setPermit 5 4 else t

/-- A reset source fires: the tripped state is left only by power-on or RESET_N (R422). -/
def State.resetSource (s : State) (cause : BitVec 4) : State := if s.rst.tripped then s else s.resetDevice cause

/-- An event written at once, because the reset it tells of loses the buffer (R446). -/
def State.writeNow (s : State) (code : Nat) (body : List Byte) : State :=
  if s.ledgerUp && !s.ledger.failed then s.writeRecord 1 (leBytes 1 code ++ leBytes 3 0 ++ body) else s

/-- The body of a STOP event: 0 halt, 1 trip, 2 reset request; sensor and reading, or the reset's code (R446). -/
def stopBody (what sensor reading : Nat) : List Byte := leBytes 1 what ++ leBytes 1 sensor ++ leBytes 2 reading

/-- POWER_ON_RESET (R424). -/
def execPowerOnReset (s : State) : Out := .next (s.resetDevice 0)

/-- BROWN_OUT_RESET (R412, R424). -/
def execBrownOutReset (s : State) : Out := .next (s.resetSource 1)

/-- CLOCK_FAILURE (R424): the record and the terminations that come first are lost with the state the reset clears. -/
def execClockFailure (s : State) : Out := .next (s.resetSource 6)

/-- LOCK_UP (R424). -/
def execLockUp (s : State) : Out := .next (s.resetSource 7)

/-- WATCHDOG (R302, R303, R424, R428): armed from the firmware handover, step 4 of the release order; entered in the ledger
(log entry 86). -/
def execWatchdog (s : State) : Out :=
  .next (if s.rst.released < 4 || s.rst.tripped then s else (s.writeNow 0x0C (stopBody 2 3 0)).resetSource 3)

/-- A logic die reads 90 °C or more (R422). -/
def State.logicDieHot (s : State) : Bool := decide (360 ≤ (s.hottest (List.range 42)).2.toInt)

/-- A trip holds RESET_N: a logic die is hot, or THERM_TRIP_N is driven low (R422, R463). -/
def State.resetHeld (s : State) : Bool := s.rst.tripped && (s.logicDieHot || s.pins.active.getLsbD 4)

/-- RESET_N active (R422, R424, R463). -/
def State.resetPin (s : State) : State :=
  let s := s.setPin 0 true
  if s.resetHeld then { s with rst := { s.rst with heldReset := true } } else s.resetDevice 2

/-- RESET_N (R463). -/
def execResetN (s : State) : Out := .next s.resetPin

/-- HELD_RESET_RELEASE (R422, R463): every logic die reads below 90 °C and THERM_TRIP_N is high. -/
def execHeldResetRelease (s : State) : Out :=
  .next (if s.rst.heldReset then (s.setPin 4 false).resetDevice 2 else s)

/-- A keyed full write of 0x48 (R430). -/
def keyed (v : Word64) (w : AccessWidth) : Bool := w == .full && v.toNat / 2 ^ 48 == 0xA5C3

/-- SW_RESET (R424, R430, R446). -/
def execSwReset (v : Word64) (w : AccessWidth) (s : State) : Out :=
  .next (if !s.hostOpen || !keyed v w || !v.getLsbD 0 then s else (s.writeNow 0x0C (stopBody 2 4 0)).resetSource 4)

/-! ### Trip (R422) -/

/-- The domains that stay on when tripped or halted: PCI Express, management, security, flash reader, sensors. -/
def keptDomains : BitVec 190 := BitVec.ofNat 190 (2 ^ 168 + 2 ^ 186 + 2 ^ 187 + 2 ^ 188 + 2 ^ 189)

/-- Every other domain is off; ports go down. -/
def State.powerDown (s : State) : State :=
  let s := { s with rst := { s.rst with domains := s.rst.domains &&& keptDomains } }
  { s with link := { s.link with ports := s.link.ports.map fun e => (e.1, { e.2 with state := 0, peerValid := false, lanesActive := 0 }) } }

/-- A trip by a sensor, or by the board for a number no sensor has (R418, R422). -/
def State.trip (s : State) (sensor : Nat) : State :=
  if s.rst.tripped then s
  else
    let s := if 50 ≤ sensor then s.setPin 4 true else s
    let s := (s.recordNow sensorsUnit 0x81 opManagement 0).event 0x0C (stopBody 1 sensor (s.power.sensors.at sensor 0).toNat)
    let s := if s.ledgerUp then s.flushAll else s
    let s := s.powerDown
    { s with rst := { s.rst with tripped := true, tripSensor := BitVec.ofNat 6 sensor, thermTripN := false, haltPending := false }
             pins := { s.pins with sbAlert := setBit s.pins.sbAlert 1 } }

/-- THERMAL_TRIP (R422, R463). -/
def execThermalTrip (sensor : BitVec 6) (s : State) : Out := live s (s.trip sensor.toNat)

/-! ### The strap (R426, R464) -/

/-- Insert keeping repeats. -/
def insertAll : List Nat → Nat → List Nat
  | [], x => [x]
  | y :: t, x => if x ≤ y then x :: y :: t else y :: insertAll t x

/-- The median of the strap's samples: the eighth of sixteen in rising order; an open pin reads 255. -/
def strapMedian (codes : List (BitVec 8)) : Nat :=
  let l := (codes.map (·.toNat)).foldl insertAll []
  l.getD ((l.length - 1) / 2) 255

/-- The choice a code stands for: 15 − bin. -/
def strapChoice (code : Nat) : Nat := 15 - code / 16

/-! ### START_UP_IMAGE_READ (R361, R398, R399) -/

/-- Slot states of R401: erased, invalid, valid. -/
def State.slotState (s : State) (i : Nat) : BitVec 2 :=
  if s.flash.slotErased i then 0 else if (s.flash.imageIn i).isSome then 2 else 1

/-- The FUSE event: setting in the order of R360, old value, new value. -/
def fuseEvent (setting old new : Nat) : List Byte := leBytes 1 setting ++ leBytes 1 old ++ leBytes 1 new

/-- A policy field raises the security version (R360, R398 step 5). The field's range is 0 to 63 (R405), so no other value
comes here. -/
def State.burnVersion (s : State) (v : Nat) : State :=
  let old := s.fuses.securityVersion.toNat
  if v ≤ old ∨ 63 < v then s
  else
    ({ s with fuses := { s.fuses with securityVersion := BitVec.ofNat 6 v }
              ledger := { s.ledger with durableAsked := true } }).event 0x02 (fuseEvent 1 old v)

/-- OWNER_CHANGE (R361 steps 4 to 6): the slot is burned, the epoch advanced, the DRBG reseeded; the wipe's memories were
cleared by the reset. With the last slot burned there is none to burn, and the caller has refused the change. -/
def State.changeOwner (s : State) (new : List Byte) : State :=
  let old := s.fuses.ownerEpoch.toNat
  let body := leBytes 1 old ++ leBytes 1 (old + 1) ++ s.ownerDigest ++ new
  if 15 ≤ old then s
  else ({ s with
      fuses := { s.fuses with ownerEpoch := BitVec.ofNat 4 (old + 1), ownerDigests := s.fuses.ownerDigests.put (old + 1) new }
      sec := { s.sec with drbgRequests := 0 }
      cfg := { s.cfg with ownerChanged := true }
      ledger := { s.ledger with durableAsked := true } }).event 0x03 body |>.count 0x005 1

/-- What the verification of an image's policy section leaves (R360, R361, R398 step 4). -/
def State.startPolicy (s : State) (b : List Byte) : State :=
  match s.policyVerdict b with
  | .change => s.changeOwner (s.parseImage b).ownerDigest
  | .exhausted => (s.managementRecord 0x93 opManagement 0 0).2
  | .bad => if (sectionBytes b 1).isEmpty then s else (s.managementRecord 0x91 opManagement 0 0).2
  | .current => s

/-- Start an image whose policy has been judged: its version and its fields. -/
def State.startImage (s : State) (i : Image) : State :=
  let s := if i.policyOk then s.burnVersion (i.num 0x0001) else s
  { s with cfg := { s.cfg with active := some i, fields := i.fields, policyOk := i.policyOk, appliedDigest := i.digest } }

/-- Start on ROM defaults (R399). -/
def State.startRom (s : State) : State :=
  let i := s.romImage
  { s with cfg := { s.cfg with active := some i, fields := i.fields, policyOk := false, bootSlot := 3, appliedDigest := i.digest } }

/-- The slot the device started from (R401). -/
def State.bootFrom (s : State) (i : Nat) : State :=
  { s with cfg := { s.cfg with
      bootSlot := BitVec.ofNat 2 i, slotA := if i = 0 then 3 else s.cfg.slotA, slotB := if i = 1 then 3 else s.cfg.slotB
      recovery := if i = 2 then 3 else s.cfg.recovery } }

/-- Steps 3 to 5 of the reading (R398, R399): the first candidate that is valid, unless its verified policy's version is below
the counter; then the choice goes on without it. -/
def State.startFrom : List Nat → State → State
  | [], s => s.startRom
  | i :: rest, s => match s.flash.imageIn i with
    | none => State.startFrom rest s
    | some b =>
      let im := s.parseImage b
      let t := s.startPolicy b
      if im.policyOk && decide (im.num 0x0001 < s.fuses.securityVersion.toNat) then State.startFrom rest t
      else (t.startImage im).bootFrom i

/-- START_UP_IMAGE_READ (R398, R399): the slots are judged, the image is chosen and applied. -/
def State.readImages (s : State) : State :=
  let policy := s.rst.strap.toNat % 4
  let serial := fun i => match s.flash.imageIn i with
    | some b => field b 8 8
    | none => 0
  let order := if (s.flash.imageIn 0).isNone && policy = 0 then [1, 0, 2] else candidates policy serial
  let s := { s with cfg := { s.cfg with slotA := s.slotState 0, slotB := s.slotState 1, recovery := s.slotState 2 } }
  let s := s.forAll (order.filter fun i => (s.flash.imageIn i).isNone) fun s i => (s.managementRecord 0x90 opManagement 0 i).2
  State.startFrom order s

/-- The START event (R425, R446): cause, slot, strap choice, the digest's first bytes, the fuse counters. -/
def State.startBody (s : State) : List Byte :=
  leBytes 1 s.rst.rstCause.toNat ++ leBytes 1 s.cfg.bootSlot.toNat ++ leBytes 1 s.rst.strap.toNat ++ s.cfg.appliedDigest.take 8 ++
  s.fuses.counters.flatMap (leBytes 1)

/-- The configuration is read; START precedes the events the reading makes, and follows FRESH. -/
def State.startUp (s : State) : State :=
  let before := s.ledger.events
  let s := ({ s with ledger := { s.ledger with events := [] } }).readImages
  let made := s.ledger.events
  let start : LedgerEvent := { code := 0x01, body := s.startBody }
  ({ s with ledger := { s.ledger with events := before ++ start :: made } }).count 0x008 1

/-! ### RELEASE_STEP (R427, R428) -/

/-- Domains on. -/
def State.powerOn (s : State) (l : List Nat) : State := { s with rst := { s.rst with domains := l.foldl setBit s.rst.domains } }

/-- The unit ID of a pseudo-channel's controller (R295). -/
def channelUnit (st pc : Nat) : Nat := memoryUnit (st / 2) (st % 2) pc 0

/-- A failed lane: replaced by one of its channel's two spares, or the channel cannot be trained (R251). -/
def State.failLane (s : State) (st pc lane : Nat) : State :=
  let ch := pc / 2
  let used := (s.stack st).laneSpares.toNat / 4 ^ ch % 4
  let note := fun (s : State) kind => s.raise (channelUnit st pc) kind opManagement lane 0 s.now 0 false
  if used < 2 then note (s.modStack st fun k => { k with laneSpares := k.laneSpares + BitVec.ofNat 32 (4 ^ ch) }) 0x46
  else (note ({ s with memSys := { s.memSys with hbmFailed := true } }) 0x45).fire 0 5

/-- HBM training and lane repair (R251): a stack is ready unless one of its channels needed a third spare. -/
def State.trainHbm (s : State) (lanes : List (Fin 8 × Fin 32 × Fin 32)) : State :=
  let bad := fun (st : Nat) => (List.range 16).any fun ch => decide (2 < (lanes.filter fun l => l.1.val == st && l.2.1.val / 2 == ch).length)
  let s := lanes.foldl (fun s l => s.failLane l.1 l.2.1 l.2.2) s
  let s := s.forAll (List.range 8) fun s st => s.modStack st fun k => { k with ready := !bad st }
  { s with memSys := { s.memSys with hbmReady := (List.range 8).all fun st => !bad st } }

/-- The groups that are powered: usable or spare (R413). -/
def State.releasedGroups (s : State) : List Nat :=
  (List.range 68).filter fun p => (s.group p).role == .usable || (s.group p).role == .spare

/-- The compute groups are powered and filled; one whose fill fails is failed until the next reset (R4, R428). -/
def State.releaseGroups (s : State) (failed : List (Fin 68)) : State :=
  let s := s.powerOn ((List.range 4).map (136 + ·))
  let s := { s with power := { s.power with vddcRequest := s.voltageFor 0 } }
  let s := s.forAll s.releasedGroups fun s p => s.powerOn [2 * p, 2 * p + 1]
  s.forAll (failed.map (·.val)) fun s p => s.modGroup p fun g => { g with failed := true, role := .failed }

/-- The enabled ports are powered and begin to train (R339, R427). -/
def State.releaseLinks (s : State) : State :=
  s.forAll (List.range 16) fun s n =>
    let on := (s.cfgNum 0x0105).testBit n
    let s := s.modPort n fun p => { p with enabled := on }
    if on && s.rst.linkReference then (s.powerOn [169 + n]).portState n 1 else if on then s.powerOn [169 + n] else s

/-- One step of the release order (R427). -/
def State.release (s : State) (o : ReleaseObs) : State :=
  let s' := { s with rst := { s.rst with released := s.rst.released + 1 } }
  match s.rst.released with
  | 0 =>
    let t := (s'.setPin 0 false).powerOn [186, 189]
    { t with rst := { t.rst with strap := BitVec.ofNat 4 (strapChoice (strapMedian o.strapCodes)) } }
  | 1 => (s'.powerOn [188]).loadLedger
  | 2 => s'.powerOn [168]
  | 3 =>
    let t := s'.powerOn [185, 187]
    ({ t with sec := { t.sec with drbgOk := true } }).startUp
  | 4 => s'.powerOn ((List.range 4).flatMap fun k => [0, 1, 2, 3, 6].map (140 + 7 * k + ·))
  | 5 => (s'.powerOn ((List.range 4).flatMap fun k => [4, 5].map (140 + 7 * k + ·))).trainHbm o.failedLanes
  | 6 => s'.releaseGroups o.failedFills
  | 7 => s'.releaseLinks
  | _ => s

/-- RELEASE_STEP (R427, R428): a trip or a held reset stops the order. -/
def execReleaseStep (obs : ReleaseObs) (s : State) : Out :=
  live s (if s.rst.tripped || s.rst.heldReset || s.rst.hostReady then s else s.release obs)

/-! ### HOST_READY (R27, R312, R363, R396, R431, R439) -/

/-- What the registers of the blocks start from: their fields, and rail extremes that count from host-ready (R396, R430). -/
def State.startFields (s : State) : State :=
  let s := { s with
    host := { s.host with hostHbmMib := BitVec.ofNat 32 (1024 * s.cfgNum 0x0110) }
    memSys := { s.memSys with patrolEn := s.cfgNum 0x0112 == 1, patrolHours := BitVec.ofNat 5 (s.cfgNum 0x0113) }
    power := { s.power with throttleStart := BitVec.ofNat 7 (s.cfgNum 0x0123), railMin := [], railMax := [] } }
  { s with
    link := { s.link with position := BitVec.ofNat 6 (s.cfgNum 0x0101), upstream := BitVec.ofNat 4 (s.cfgNum 0x0102)
                          beatInUsed := s.cfgNum 0x0100 == 0 && s.cfgNum 0x0103 == 1 } }

/-- The axes at host-ready (R363, R431, R439). -/
def State.startAxes (s : State) : State :=
  let req := s.cfgNum 0x0121 == 1
  let s := { s with mode := { s.mode with
    sealedTrust := !s.fuses.sealDisabled && s.cfg.policyOk, linked := s.cfgNum 0x0100 == 1, powerReq := req } }
  s.setCapped req

/-- HOST_READY (R427): the release steps are done and no port still trains, or 50 ms have passed; the beat count starts. -/
def execHostReady (s : State) : Out :=
  live s <|
    if s.rst.tripped || s.rst.heldReset || s.rst.hostReady || s.rst.released < 8 then s
    else
      let s := { s with rst := { s.rst with hostReady := true, haltPending := s.pins.active.getLsbD 2 }, beat := 0, cycle := 0 }
      let s := s.startFields.startAxes
      let s := { s with rst := { s.rst with beatOut := beatOutWidth 0 } }
      if s.host.pcieHeld then s else s.trainHost

/-! ### The orderly halt (R423) -/

/-- Request a halt. -/
def State.askHalt (s : State) : State :=
  if s.rst.hostReady && !s.rst.tripped && !s.rst.halted then { s with rst := { s.rst with haltPending := true } } else s

/-- HALT_REQ_N (R423, R463): before host-ready the active pin is found at host-ready. -/
def execHaltReqN (s : State) : Out := live s (s.setPin 2 true).askHalt

/-- HALT (R423, R430). -/
def execHalt (v : Word64) (w : AccessWidth) (s : State) : Out :=
  live s (if !s.hostOpen || !keyed v w || !v.getLsbD 1 then s else s.askHalt)

/-- Step 1 of the halt at a beat boundary: mapping stops and every running job ends as a cancelled one. -/
def State.beginHalt (s : State) : State :=
  let s := ({ s with rst := { s.rst with haltStarted := true } }).event 0x0C (stopBody 0 0 0)
  s.forAll s.heldJobs fun s id => s.endJob id fun j => { j with cancelled := true }

/-- Completions and receipts have all been written (R423 step 2). -/
def State.drained (s : State) : Bool :=
  s.heldJobs == [] && s.work.receiptsDue == [] && s.work.completing == [] && s.work.noticesDue == [] &&
  s.host.funcs.all fun e => e.2.cqBacklog == [] && e.2.rqBacklog == []

/-- Steps 3 to 5 of the halt. -/
def State.endHalt (s : State) : State :=
  let s := s.flushAll.powerDown
  { s with rst := { s.rst with halted := true, haltPending := false }, pins := { s.pins with sbAlert := setBit s.pins.sbAlert 0 } }

/-- ORDERLY_HALT (R423): at the boundary after the request the jobs end; once all is written, the device halts. -/
def execOrderlyHalt (s : State) : Out :=
  live s <|
    if !s.rst.haltPending || s.rst.tripped || s.rst.halted then s
    else if !s.rst.haltStarted then (if s.cycle = 0 then s.beginHalt else s)
    else if s.drained then s.endHalt else s

/-- HALT_DRAIN_LIMIT (R423): 2 s have passed since the draining began. -/
def execHaltDrainLimit (s : State) : Out :=
  live s (if s.rst.haltPending && s.rst.haltStarted && !s.rst.tripped && !s.rst.halted then s.endHalt else s)

end Sys2Proof.Machine
end

