-- ==== Sys2Proof/Machine/Link.lean ====
section
/-!
DEFINITION. Link: the peer-link ports, their frames and training, the beat domain, and the LINKED jobs' records (R335 to
R356, R424).
-/
namespace Sys2Proof.Machine

/-! ### Ports (R335, R338 to R340, R356) -/

/-- The link block's unit ID of a port, and the OP of link traffic (R295, R296). -/
def portUnit (n : Nat) : Nat := ioUnit 1 n 0
@[inherit_doc portUnit] def opLink : Nat := 0xC03

/-- A port carries nothing any more. -/
def State.portDown (s : State) (n : Nat) (st : BitVec 3) : State :=
  (s.modPort n fun p => { p with
    peerValid := false, lanesActive := 0, spareLane := none, spareUsed := false, sparing := none, swapAt := none, nak := none
    peerNak := none, laneRequest := none, laneAck := false, replay := [] }).portState n st

/-- A port begins to train (R339): it needs to be enabled, and the link reference (R424). -/
def State.train (s : State) (n : Nat) : State :=
  if (s.port n).enabled && s.rst.linkReference then s.portDown n 1 else s

/-- Retraining, counted (R338, R356, R447): the port is asked to go idle first and is out of use until its reset (R429). -/
def State.retrain (s : State) (n : Nat) : State :=
  if (s.port n).enabled && s.rst.linkReference then
    (((s.modPort n fun p => { p with retrains := satInc p.retrains }).count (0x500 + n) 1).train n).askBlock (169 + n)
  else s

/-- The port's training fails (R339). -/
def State.failPort (s : State) (n : Nat) (cause : BitVec 3) : State := (s.modPort n fun p => { p with failCause := cause }).portDown n 4

/-- A peer's identity digest is admitted (R339 step 4, R364). -/
def State.peerAdmitted (s : State) (d : List Byte) : Bool := !s.mode.sealedTrust || (chunks 32 64 (s.cfgBytes 0x0003)).contains d

/-- PORT_TRAINING (R339, R429): the training of a port ends; a retraining begins with the port's reset. -/
def execPortTraining (port : Fin 16) (t : PortTraining) (s : State) : Out :=
  live s <|
    let n := port.val
    if (s.port n).state ≠ 1 || s.rst.idleAsked.contains (169 + n) then s
    else if t.lanes.length < 4 || !t.locked then s.failPort n 1
    else if !s.peerAdmitted t.peerDigest then s.failPort n 2
    else if 88 < t.latency then s.failPort n 3
    else
      let lanes := t.lanes.map (·.val)
      (s.modPort n fun p => { p with
        failCause := 0, peerPosition := t.peerPosition, peerValid := true, lanesActive := (lanes.take 4).foldl setBit 0
        spareLane := lanes[4]?, spareUsed := false, latency := BitVec.ofNat 8 t.latency }).portState n 2

/-- SPARE_REQUEST (R340): a lane's corrected symbols of a beat exceed SPARE_THRESHOLD; one lane per port, once. -/
def execSpareRequest (port : Fin 16) (lane : Fin 5) (corrected : Nat) (s : State) : Out :=
  live s <|
    let p := s.port port
    if p.state = 2 && !p.spareUsed && p.spareLane.isSome && p.lanesActive.getLsbD lane && decide (s.cfgNum 0x0106 < corrected) then
      (s.modPort port fun p => { p with sparing := some lane.val, laneRequest := some lane.val }).portState port 3
    else s

/-- The swap falls at slot 0 of the second beat after the acknowledgement (R340). -/
def State.acknowledge (s : State) (n : Nat) : State :=
  if (s.port n).state = 3 && (s.port n).swapAt.isNone then s.modPort n fun p => { p with swapAt := some (s.beat.toNat + 2) } else s

/-- SPARE_ACKNOWLEDGE (R340): the receiver's spare holds lock. -/
def execSpareAcknowledge (port : Fin 16) (s : State) : Out :=
  live s <| if (s.port port).state = 3 then (s.modPort port fun p => { p with laneAck := true }).acknowledge port else s

/-- LANE_SWAP (R340, R447): the spare takes the lane's place; recorded as LINK_LANE_SPARED and counted. -/
def execLaneSwap (port : Fin 16) (s : State) : Out :=
  live s <|
    let n := port.val
    match (s.port n).sparing, (s.port n).spareLane, (s.port n).swapAt with
    | some old, some new, some b =>
      if s.beat.toNat < b then s
      else
        let s := s.modPort n fun p => { p with
          lanesActive := setBit (clearBit p.lanesActive old) new, spareLane := none, spareUsed := true, sparing := none, swapAt := none
          laneRequest := none, laneAck := false }
        ((s.portState n 2).count (0x510 + n) 1).raise (portUnit n) 0x55 opLink 0 0 s.now 0 false
    | _, _, _ => s

/-- A write of ENABLE and RETRAIN (R356). -/
def State.writePort (s : State) (n : Nat) (v : Word64) (w : AccessWidth) : State :=
  let old : Word64 := if (s.port n).enabled then 1 else 0
  let x := accessWrite w old v
  let s :=
    if x.getLsbD 0 == (s.port n).enabled then s
    else if x.getLsbD 0 then ((s.modPort n fun p => { p with enabled := true }).powerOn [169 + n]).train n
    else
      let s := (s.portDown n 0).modPort n fun p => { p with enabled := false }
      ({ s with rst := { s.rst with domains := clearBit s.rst.domains (169 + n) } }).unaskBlock (169 + n)
  if w == .full && v.getLsbD 1 then s.retrain n else s

/-- PORT_ENABLE (R356). -/
def execPortEnable (port : Fin 16) (v : Word64) (w : AccessWidth) (s : State) : Out :=
  live s (if s.hostOpen then s.writePort port v w else s)

/-- RETRAIN (R339, R356). -/
def execRetrain (port : Fin 16) (v : Word64) (w : AccessWidth) (s : State) : Out :=
  live s (if s.hostOpen then s.writePort port v w else s)

/-- Running LINKED jobs whose plan uses a port. -/
def State.jobsOnPort (s : State) (n : Nat) : List Nat :=
  s.heldJobs.filter fun id => match s.job? id with
    | some j => (s.programOf j).link.any fun l => l.usedPorts.contains n
    | none => false

/-- LINK_KEEPALIVE (R338): 4,096 slots without an intact frame; every LINKED job on the port faults, and the port retrains. -/
def execLinkKeepalive (port : Fin 16) (s : State) : Out :=
  live s <|
    let n := port.val
    let s := s.forAll (s.jobsOnPort n) fun s id => s.raise (portUnit n) 0x51 opLink 0 0 s.now (BitVec.ofNat 16 id) false
    if (s.port n).isUp then s.retrain n else s

/-- LINK_REFERENCE_LOSS (R424): every port goes down; nothing is reset. -/
def execLinkReferenceLoss (s : State) : Out :=
  live s <|
    let s := { s with rst := { s.rst with linkReference := false } }
    s.forAll (List.range 16) fun s n => s.portDown n 0

/-! ### Frames (R337) -/

/-- A control record's 28 bytes (R352); the list is kind, origin, hops, value, beat, key, plan prefix. -/
def recordBytes (r : List Nat) : List Byte :=
  let f := fun i => r.getD i 0
  withCrc32c (leBytes 1 (f 0) ++ leBytes 1 (f 1) ++ leBytes 1 (f 2) ++ leBytes 1 (f 3) ++ leBytes 6 (f 4) ++ leBytes 2 0 ++ leBytes 8 (f 5) ++
    leBytes 4 (f 6))

/-- The records that leave on a port (R352): this device's own on the ports its job's plan uses; STEP, and what it forwards, on
every port. -/
def State.recordsFor (s : State) (n : Nat) : List (List Nat) :=
  s.link.outgoing.filter fun r => r.getD 0 0 == 6 || r.getD 1 0 != s.link.position.toNat ||
    s.work.jobs.any fun e => (s.programOf e.2).link.any fun l => l.key == r.getD 5 0 && l.usedPorts.contains n

/-- The control block: up to 16 records (R337). -/
def controlBlock (l : List (List Nat)) : List Byte := slice ((l.take 16).flatMap recordBytes) 0 448

/-- A frame of a port (R337). -/
def State.frame (s : State) (n type slot index id key : Nat) (payload : List Byte) : List Byte :=
  let p := s.port n
  let nak := match p.nak with
    | some x => 4096 + x % 4096
    | none => 0
  let lane := match p.laneRequest with
    | some x => x + 8
    | none => 0
  let head := withCrc32c (leBytes 1 type ++ leBytes 1 1 ++ leBytes 2 slot ++ leBytes 6 s.beat.toNat ++ leBytes 1 s.link.position.toNat ++
    leBytes 1 index ++ leBytes 2 nak ++ leBytes 1 (lane + 16 * p.laneAck.toNat) ++ leBytes 1 0 ++ leBytes 8 id ++ leBytes 8 key ++ leBytes 28 0)
  let body := head ++ slice payload 0 2048 ++ controlBlock (s.recordsFor n)
  body ++ leBytes 8 (crc64 body) ++ [0, 0]

/-- Both CRCs of a frame hold (R338). -/
def frameIntact (f : List Byte) : Bool :=
  f.length == 2570 && crc32c (slice f 0 60) == field f 60 4 && crc64 (slice f 0 2560) == field f 2560 8

/-- A frame leaves a port: the last 64 stay in the replay buffer (R345); the NAK it carries has been reported. -/
def State.sendFrame (s : State) (n slot : Nat) (f : List Byte) : State :=
  s.modPort n fun p =>
    let r := p.replay ++ [(slot, f)]
    { p with replay := r.drop (r.length - 64), sent := [f], nak := none }

/-! ### Messages (R344 to R347) -/

/-- A message of a running LINKED job, its index in the plan and the plan's key. -/
structure Planned where
  id : Nat
  job : Job
  key : Nat
  index : Nat
  msg : LinkMessage
deriving DecidableEq, Repr

/-- The message holds a slot: one of its data slots, or its retransmission slot j + 16 (R345). -/
def LinkMessage.holds (m : LinkMessage) (slot : Nat) : Bool := inRange m.slot m.frames slot || slot == m.slot + m.frames + 15

/-- The planned message of a port that holds a slot in its job's current beat. -/
def State.messageAt (s : State) (n slot : Nat) (receive : Bool) : Option Planned :=
  (s.jobsIn .running).findSome? fun id => match s.job? id with
    | none => none
    | some j => match (s.programOf j).link with
      | none => none
      | some l =>
        match l.messages.zipIdx.find? fun e => e.1.port == n && e.1.receive == receive && e.1.beat == j.jobBeat && e.1.holds slot with
        | some e => some { id := id, job := j, key := l.key, index := e.2, msg := e.1 }
        | none => none

/-- Device address of a message's first frame: its address register's value plus its offset (R344). -/
def State.messageAddr (s : State) (x : Planned) : Nat :=
  ((s.cluster (32 * x.job.set0.getD x.msg.group 0)).param x.msg.reg).toNat + x.msg.offset

/-- The job beat is a replay of a released one (R283). -/
def Job.replays (j : Job) : Bool := match j.releaseMark with
  | some m => decide (j.jobBeat ≤ m)
  | none => false

/-- One frame of a message is read, signed and sent (R345); a replay only signs (R355). -/
def State.sendPart (s : State) (n : Nat) (x : Planned) (f : Nat) : State :=
  let data := s.mem.fetch (s.messageAddr x + 2048 * f) 2048
  let s := s.modRun x.id fun r => { r with
    linkSig := BitVec.ofNat 64 (crc64From r.linkSig.toNat (leBytes 8 (x.msg.offset + 2048 * f) ++ data)) }
  if x.job.replays then s else s.sendFrame n (x.msg.slot + f) (s.frame n 1 (x.msg.slot + f) f x.msg.id x.key data)

/-- LINK_MESSAGE_SEND (R345, R283): the message whose first slot is named. -/
def execLinkMessageSend (port : Fin 16) (slot : BitVec 12) (s : State) : Out :=
  live s <|
    let n := port.val
    if !s.beating || !(s.port n).isUp then s
    else match s.messageAt n slot.toNat false with
      | none => s
      | some x =>
        if x.msg.slot ≠ slot.toNat then s
        else s.forAll (List.range x.msg.frames) fun s f => s.sendPart n x f

/-- LINK_RETRANSMIT (R347): the NAKed slot's frame goes out again in its message's retransmission slot, once per message. -/
def execLinkRetransmit (port : Fin 16) (slot : BitVec 12) (s : State) : Out :=
  live s <|
    let n := port.val
    let p := s.port n
    if !s.beating || !p.isUp || p.peerNak ≠ some slot.toNat then s
    else match s.messageAt n slot.toNat false, p.replay.find? fun e => e.1 == slot.toNat with
      | some x, some e =>
        if (s.run x.id).badFrames.at x.index 0 ≠ 0 then s
        else
          let again := x.msg.slot + x.msg.frames + 15
          let s := s.modRun x.id fun r => { r with badFrames := r.badFrames.put x.index 1 }
          let s := s.modPort n fun p => { p with retransmits := satInc p.retransmits, peerNak := none }
          s.sendFrame n again (s.frame n 2 again (field e.2 11 1) x.msg.id x.key (slice e.2 64 2048))
      | _, _ => s

/-- Received rows reach HBM; their pages wait for the release of the job's beat (R313, R346). -/
def State.receiveRows (s : State) (x : Planned) (a : Nat) (data : List Byte) : State :=
  if x.job.replays then s
  else
    let pages := (List.range ((a % 2048 + data.length + 2047) / 2048)).map (a / 2048 + ·)
    let mark := x.job.mark x.job.jobBeat
    { s with mem := s.mem.store a data
             host := { s.host with unreleased := pages.foldl (fun u pg => insertNew u (pg, mark)) s.host.unreleased } }

/-- The message's rows are written poisoned and the fault is raised at the receiver (R347). -/
def State.spoil (s : State) (n : Nat) (x : Planned) (kind : Nat) : State :=
  if (s.run x.id).spoiled.contains x.index then s
  else
    let s := s.modRun x.id fun r => { r with spoiled := r.spoiled ++ [x.index] }
    (s.receiveRows x (s.messageAddr x) (List.replicate (2048 * x.msg.frames) 0xFF)).raise (portUnit n) kind opLink 0 0 s.now x.job.id true

/-- An uncorrectable frame is discarded and counted; a data frame is reported, once per message (R338, R347). -/
def State.badFrame (s : State) (n slot : Nat) : State :=
  let s := s.modPort n fun p => { p with framesBad := satInc p.framesBad }
  match s.messageAt n slot true with
  | none => s
  | some x =>
    let again := slot == x.msg.slot + x.msg.frames + 15
    let count := (s.run x.id).badFrames.at x.index 0
    if again then (if count = 0 then s else s.spoil n x 0x50)
    else
      let s := s.modPort n fun p => { p with nak := some slot }
      if count ≠ 0 then s.spoil n x 0x50 else s.modRun x.id fun r => { r with badFrames := r.badFrames.put x.index 1 }

/-- An intact data or retransmission frame of a plan: its rows are written, or its head disagrees with the plan (R346, R347);
a message that is not final is tagged with its sender and job beat (R349). -/
def State.takeData (s : State) (n : Nat) (f : List Byte) : State :=
  let slot := field f 2 2 % 4096
  match s.messageAt n slot true with
  | none => s
  | some x =>
    let i := field f 11 1
    let right := field f 16 8 == x.msg.id && field f 24 8 == x.key &&
      (if field f 0 1 = 2 then decide (i < x.msg.frames) else i + x.msg.slot == slot)
    if !right then s.spoil n x 0x23
    else if (s.run x.id).spoiled.contains x.index then s
    else
      let s := s.receiveRows x (s.messageAddr x + 2048 * i) (slice f 64 2048)
      if x.msg.final then s
      else s.modRun x.id fun r => { r with windfall := insertNew r.windfall (field f 10 1, x.msg.beat) }

/-- An intact frame's NAK and lane control (R337, R340, R347). -/
def State.takeHead (s : State) (n : Nat) (f : List Byte) : State :=
  let nak := field f 12 2
  let ctl := field f 14 1
  let p := s.port n
  let s := if nak / 4096 % 2 = 1 then s.modPort n fun p => { p with peerNak := some (nak % 4096) } else s
  let s :=
    if ctl / 8 % 2 = 1 && p.state == 2 && !p.spareUsed && p.spareLane.isSome && p.lanesActive.getLsbD (ctl % 8) then
      (s.modPort n fun p => { p with sparing := some (ctl % 8) }).portState n 3
    else s
  if ctl / 16 % 2 = 1 then s.acknowledge n else s

/-- LINK_FRAME_RECEIVE (R336 to R338, R346, R347). -/
def execLinkFrameReceive (port : Fin 16) (frame : List Byte) (uncorrectable : Bool) (corrected : Nat) (s : State) : Out :=
  live s <|
    let n := port.val
    if !s.beating || !(s.port n).isUp then s
    else
      let s := s.modPort n fun p => { p with corrected := satAdd p.corrected corrected }
      if uncorrectable || !frameIntact frame then s.badFrame n (field frame 2 2 % 4096)
      else
        let s := s.takeHead n frame
        if field frame 0 1 = 1 || field frame 0 1 = 2 then s.takeData n frame else s

/-! ### The beat domain (R341 to R343) -/

/-- A follower: LINKED, not at position 0 (R341). -/
def State.follower (s : State) : Bool := s.mode.linked && s.link.position != 0

/-- A marker error clamped to a signed byte. -/
def alignByte (e : Int) : BitVec 8 := BitVec.ofInt 8 (if e < -128 then -128 else if 127 < e then 127 else e)

/-- BEAT_MARKER (R341, R342): the upstream slot-0 frame of a beat, or none intact. -/
def execBeatMarker (intact : Bool) (beat : BeatNo) (error : Int) (s : State) : Out :=
  live s <|
    if !s.beating || !s.follower then s
    else
      let seen := intact && (s.port s.link.upstream.toNat).isUp
      let small := decide (-2 ≤ error ∧ error ≤ 2)
      let s := if seen then { s with link := { s.link with alignErr := alignByte error } } else s
      if !seen || decide (error < -4 ∨ 4 < error) then
        let s := { s with link := { s.link with aligned := false, alignRun := 0, alignLosses := satInc s.link.alignLosses } }
        s.raise (portUnit s.link.upstream.toNat) 0x54 opLink 0 0 s.now 0 false
      else
        let first := !s.link.aligned && s.link.alignRun == 0 && small
        let s := { s with link := { s.link with alignRun := if small then s.link.alignRun + 1 else 0 } }
        if first then { s with beat := beat } else s

/-- ALIGNED (R342): 64 beats in a row within ±2 cycles. -/
def execAligned (s : State) : Out :=
  live s <| if s.beating && s.follower && 64 ≤ s.link.alignRun then { s with link := { s.link with aligned := true } } else s

/-- DOMAIN_STEP_CHANGE (R343): at cycle 0 of beat e + 2. The domain's step is cause 8 (R416). -/
def State.domainStep (s : State) : State :=
  match s.link.stepDue.find? fun d => decide (d.1 ≤ s.beat.toNat) with
  | none => s
  | some (b, code) =>
    let s := { s with
      link := { s.link with stepDue := s.link.stepDue.filter fun d => decide (b < d.1), domainStep := BitVec.ofNat 3 code }
      power := { s.power with permits := s.power.permits.put 8 code, vddcRequest := s.voltageFor code } }
    if code = s.power.stepCode.toNat then s else s.changeStep code

/-- DOMAIN_STEP_CHANGE (R343). -/
def execDomainStepChange (s : State) : Out := live s (if s.beating && s.mode.linked then s.domainStep else s)

/-! ### Control records (R351 to R355) -/

/-- What tells a record from another: kind, origin, value, beat, key and plan prefix. -/
def recordName (r : ControlRecord) (kind : Nat) : List Nat :=
  [kind, r.origin.toNat, r.value.toNat, r.beat.toNat, r.key.toNat, r.plan.toNat]

/-- The first intact copy of a record is taken and forwarded with the hop count raised (R352). -/
def State.takeRecord (s : State) (kind : Nat) (r : ControlRecord) (f : State → State) : State :=
  if !s.beating || !s.mode.linked || r.origin == s.link.position then s
  else
    let s := { s with link := { s.link with membersNow := setBit s.link.membersNow r.origin.toNat } }
    if s.link.seen.any fun x => x.take 6 == recordName r kind then s
    else
      let s := { s with link := { s.link with seen := s.link.seen ++ [recordName r kind ++ [s.beat.toNat]] } }
      let fwd := [kind, r.origin.toNat, r.hops.toNat + 1, r.value.toNat, r.beat.toNat, r.key.toNat, r.plan.toNat]
      f (if r.hops = 15 then s else { s with link := s.link.queue fwd })

/-- The held job of a link job key. -/
def State.jobByKey (s : State) (key : Nat) : Option (Nat × Job × LinkPlan) :=
  s.heldJobs.findSome? fun id => match s.job? id with
    | none => none
    | some j => match (s.programOf j).link with
      | some l => if l.key = key then some (id, j, l) else none
      | none => none

/-- Run a record's effect on its job. -/
def State.onLinked (s : State) (r : ControlRecord) (f : State → Nat → Job → LinkPlan → State) : State :=
  match s.jobByKey r.key.toNat with
  | some (id, j, l) => f s id j l
  | none => s

/-- CLEAR (R349, R351): a member's job beat is settled. -/
def State.takeClear (r : ControlRecord) (s : State) : State :=
  s.onLinked r fun s id _ _ => (s.settle id r.origin.toNat r.beat.toNat).modRun id fun x =>
    { x with windfall := x.windfall.filter fun w => w != (r.origin.toNat, r.beat.toNat) }

/-- CLEAR (R351). -/
def execClear (r : ControlRecord) (s : State) : Out := live s (s.takeRecord 1 r (State.takeClear r))

/-- WINDFALL_FAILED at this member: one record of the episode (R299, R351, R354). -/
def State.windfallFailed (s : State) (id : Nat) : State := s.raise (portUnit 0) 0x53 opLink 0 0 s.now (BitVec.ofNat 16 id) false

/-- FAIL (R351): from now to the fence what the job writes is PROVISIONAL_FAILED, and its outputs are withheld. -/
def State.takeFail (r : ControlRecord) (s : State) : State :=
  s.onLinked r fun s id _ _ =>
    ((s.modRun id fun x => { x with provisionalFailed := true }).modJob id fun j => j.withhold false 0).windfallFailed id

/-- FAIL (R351, R354). -/
def execFail (r : ControlRecord) (s : State) : Out := live s (s.takeRecord 2 r (State.takeFail r))

/-- RESTART (R354): the job is fenced and restarts here too. -/
def State.takeRestart (r : ControlRecord) (s : State) : State := s.onLinked r fun s id _ _ => s.windfallFailed id

/-- RESTART (R354). -/
def execRestart (r : ControlRecord) (s : State) : Out := live s (s.takeRecord 4 r (State.takeRestart r))

/-- TERMINATE (R355, R286): the job is terminated with the origin's kind; a refusal that meets the restart under way is
restarted instead. -/
def State.takeTerminate (r : ControlRecord) (s : State) : State :=
  s.onLinked r fun s id j _ =>
    let kind := r.value.toNat
    if isRefusal kind && j.phase == .fencedRestart then s.modRun id fun x => { x with refusal := some [r.beat.toNat, 0, 1] }
    else
      let s := s.askIdle j.groups
      let s := s.modJob id fun j => { j.withhold false 0 with phase := .fencedTerminate }
      s.fenceTerminate id kind

/-- TERMINATE (R355). -/
def execTerminate (r : ControlRecord) (s : State) : Out := live s (s.takeRecord 5 r (State.takeTerminate r))

/-- STEP (R343): a member's permitted step. -/
def execStep (r : ControlRecord) (s : State) : Out :=
  live s (s.takeRecord 6 r fun s => s.memberStep r.beat.toNat r.origin.toNat (min 6 r.value.toNat))

/-! ### READY and the start of a LINKED job (R353, R354) -/

/-- Members whose READY of the job's current restart number has settled here. -/
def State.readyMembers (s : State) (id : Nat) (l : LinkPlan) : List Nat :=
  let r := s.run id
  let got := s.link.readies.filter fun x => x.getD 0 0 == l.key && x.getD 1 0 == r.restartNo % 256 && x.getD 3 0 == leNat (l.digest.take 4)
  (r.linkReady ++ got.map fun x => x.getD 2 0).foldl insertSorted []

/-- READY from every member has settled. -/
def State.allReady (s : State) (id : Nat) (l : LinkPlan) : Bool :=
  let m := s.readyMembers id l
  (List.range l.members).all fun p => m.contains p

/-- A READY that names another plan under the job's key. -/
def State.planClash (s : State) (l : LinkPlan) : Bool :=
  s.link.readies.any fun x => x.getD 0 0 == l.key && x.getD 3 0 != leNat (l.digest.take 4)

/-- READY (R353): kept until the job is gone; the last one fixes beat g; another plan's terminates the job everywhere. -/
def State.takeReady (r : ControlRecord) (s : State) : State :=
  let x := [r.key.toNat, r.value.toNat, r.origin.toNat, r.plan.toNat]
  let s := { s with link := { s.link with readies := insertNew s.link.readies x } }
  s.onLinked r fun s id j l =>
    if s.planClash l then s.fenceTerminate id 0x23
    else if j.phase == .mapped && (s.run id).linkStart.isNone && s.allReady id l then
      s.modRun id fun x => { x with linkStart := some (if s.cycle.toNat ≤ 63552 then s.beat.toNat else s.beat.toNat + 1) }
    else s

/-- READY (R353). -/
def execReady (r : ControlRecord) (s : State) : Out := live s (s.takeRecord 3 r (State.takeReady r))

/-- LINKED_JOB_START (R353): in beat g + 1, where READY from every member has settled by beat g. -/
def State.linkedStart (s : State) (id : Nat) (j : Job) (l : LinkPlan) : State :=
  if s.planClash l then s.fenceTerminate id 0x23
  else if !s.allReady id l then s
  else
    let g := (s.run id).linkStart.getD j.mapBeat
    if g < s.beat.toNat then
      let s := { s with link := { s.link with readies := s.link.readies.filter fun x => x.getD 0 0 != l.key || x.getD 1 0 != (s.run id).restartNo % 256 } }
      s.firstIssue id j
    else s

/-- LINKED_JOB_START (R353). -/
def execLinkedJobStart (job : BitVec 16) (s : State) : Out :=
  live s <|
    if !s.beating then s
    else match s.job? job.toNat with
      | none => s
      | some j => match (s.programOf j).link with
        | none => s
        | some l => if j.phase = .mapped then s.linkedStart job.toNat j l else s

end Sys2Proof.Machine
end

