-- ==== Sys2Proof/Machine/Adoption.lean ====
section
/-!
DEFINITION. Adoption: staging of a Gikar image and its live adoption (R389, R402 to R406).
-/
namespace Sys2Proof.Machine

/-! ### Staging (R402) -/

/-- The slot the device did not start from: slot A unless it is the active one (R389). -/
def State.inactiveSlot (s : State) : Nat := if s.cfg.slotA = 3 then 1 else 0

/-- The state of an inactive slot is shown (R401). -/
def State.showSlot (s : State) (i : Nat) (st : BitVec 2) : State :=
  { s with cfg := if i = 0 then { s.cfg with slotA := st } else { s.cfg with slotB := st } }

/-- The flash without what a slot holds. -/
def eraseSlot (cells : List Host.Cell) (i : Nat) : List Host.Cell := cells.filter fun c => !inRange (slotBase i) (slotSize i) c.1

/-- The ledger's ADOPT event (R446): 0 staged, 1 adopted, 2 aborted; the serial; the result. -/
def adoptEvent (what serial result : Nat) : List Byte := leBytes 1 what ++ leBytes 8 serial ++ leBytes 1 result

/-- Staging ends with a result. -/
def State.endStaging (s : State) (result : Nat) (i : Option Image) : State :=
  let s := ({ s with cfg := { s.cfg with stageState := if result = 0 then 3 else 4, stageResult := BitVec.ofNat 8 result, staged := i } }).unlock .staging
  (if result = 0 then s.event 0x09 (adoptEvent 0 ((i.map fun x => x.serial.toNat).getD 0) 0) else s).fire 0 7

/-- A GO that is refused is counted (R402, R403). -/
def State.refuseGo (s : State) : State := { s with cfg := { s.cfg with refused := satInc s.cfg.refused } }

/-- STAGE_GO's effect (R402): the range is locked, the inactive slot erased and written. -/
def State.stageGo (s : State) : State :=
  let a := s.cfg.stageAddr.toNat
  let n := s.cfg.stageLen.toNat
  if s.cfg.stageState = 1 || s.cfg.stageState = 2 || s.mode.adopting then s.refuseGo
  else if n = 0 || !s.inIntake 0 a n then s.endStaging 0x01 none
  else
    let i := s.inactiveSlot
    let cells := Flash.writeN (eraseSlot s.flash.cells i) (slotBase i) ((s.mem.fetch a n).take (slotSize i))
    (({ s with flash := { cells := cells }, cfg := { s.cfg with stageState := 1, stageResult := 0, staged := none } }).showSlot i 1).lock .staging a n

/-- STAGE_GO (R310, R402): a write-only bit, so a full write only. -/
def execStageGo (w : AccessWidth) (s : State) : Out := live s (if !s.hostOpen || w != .full then s else s.stageGo)

/-- The result of a staged image's verification (R402). -/
def State.stageVerdict (s : State) (b : List Byte) : Nat :=
  let i := s.parseImage b
  if !imageHeaderOk b || field b 4 4 ≠ s.cfg.stageLen.toNat || !((policyRecords b).all (·.crcOk)) then 0x02
  else if !firmwareOk b then 0x03
  else if s.policyVerdict b = .bad then 0x04
  else if i.policyOk && decide (i.num 0x0001 < s.fuses.securityVersion.toNat) then 0x05
  else if i.serial.toNat ≤ ((s.cfg.active.map fun x => x.serial.toNat).getD 0) then 0x06
  else 0

/-- STAGE_COMPLETE (R402): the slot has been read back and verified; a failed write leaves it erased (log entry 28). -/
def State.stageComplete (s : State) (flashOk : Bool) : State :=
  let i := s.inactiveSlot
  if flashOk then
    let b := s.flash.readN (slotBase i) s.cfg.stageLen.toNat
    let r := s.stageVerdict b
    (s.showSlot i (s.slotState i)).endStaging r (if r = 0 then some (s.parseImage b) else none)
  else (({ s with flash := { cells := eraseSlot s.flash.cells i } }).showSlot i 0).endStaging 0x07 none

/-- STAGE_COMPLETE (R402). -/
def execStageComplete (flashOk : Bool) (s : State) : Out := live s (if s.cfg.stageState = 1 then s.stageComplete flashOk else s)

/-! ### ADOPT_GO (R403) -/

/-- A field that no adoption may change would take another value (R396, R403). -/
def State.deadChange (s : State) (i : Image) : Bool := fieldTypes.any fun ty => !isLive ty && i.num ty != s.cfgNum ty

/-- An axis changes: the ledger's MODE event (R442, R446). -/
def State.modeEvent (s : State) (axis old new : Nat) : State := s.event 0x08 ([axis, old, new].map (BitVec.ofNat 8))

/-- ADOPT_GO's effect (R403): piece 1 is the check made here. -/
def State.adoptGo (s : State) : State :=
  match s.cfg.staged with
  | none => ({ s with cfg := { s.cfg with adoptResult := 0x10 } }).refuseGo
  | some i =>
    if s.mode.adopting then s.refuseGo
    else if s.cfg.stageState ≠ 3 then ({ s with cfg := { s.cfg with adoptResult := 0x10 } }).refuseGo
    else if i.ownerChange || s.deadChange i then
      (({ s with cfg := { s.cfg with adoptResult := 0x11 } }).refuseGo.managementRecord 0x92 opManagement 0 0).2
    else
      ({ s with
        mode := { s.mode with adopting := true }
        cfg := { s.cfg with
          adoptPiece := 1, adoptState := 1, adoptResult := 0, groupsTabled := [], switchBeat := none, revert := false, oldFields := []
          retrainNext := 0, recalStart := 0 } }).modeEvent 4 0 1

/-- ADOPT_GO (R310, R403). -/
def execAdoptGo (w : AccessWidth) (s : State) : Out := live s (if !s.hostOpen || w != .full then s else s.adoptGo)

/-! ### Fields taking effect (R396, R404) -/

/-- The live fields of piece 2: those that no later piece names. -/
def switchFields : List Nat := fieldTypes.filter fun ty => isLive ty && ty != 0x0107 && ty != 0x0111

/-- Put some fields of an image into force. -/
def State.putFields (s : State) (fields : Table FieldValue) (tys : List Nat) : State :=
  let one := fun (t : Table FieldValue) ty => match fields.find ty with
    | some v => t.put ty v
    | none => t.del ty
  { s with cfg := { s.cfg with fields := tys.foldl one s.cfg.fields } }

/-- The registers that live fields set (R259, R356, R396, R411). -/
def State.applyRegisters (s : State) : State :=
  let s := { s with
    memSys := { s.memSys with patrolEn := s.cfgNum 0x0112 == 1, patrolHours := BitVec.ofNat 5 (s.cfgNum 0x0113) }
    power := { s.power with
      throttleStart := BitVec.ofNat 7 (s.cfgNum 0x0123), vddcRequest := s.voltageFor s.power.stepCode.toNat } }
  s.forAll (List.range 16) fun s n =>
    let on := (s.cfgNum 0x0105).testBit n
    if on == (s.port n).enabled then s else s.writePort n (if on then 1 else 0) .full

/-- At the switch beat the cores run the new firmware and the live fields of piece 2 take effect (R404). -/
def State.switchOver (s : State) (i : Image) : State :=
  let old := s.cfg.fields
  let s := (s.putFields i.fields switchFields).applyRegisters
  { s with cfg := { s.cfg with bank := !s.cfg.bank, oldFields := old, switchBeat := none } }

/-- ADOPT_SWITCH (R404): at the beat boundary after the firmware was loaded. -/
def execAdoptSwitch (s : State) : Out :=
  live s <| match s.cfg.staged, s.cfg.switchBeat with
    | some i, some b => if s.beating && s.cfg.adoptState = 1 && decide (b ≤ s.beat.toNat) then s.switchOver i else s
    | _, _ => s

/-! ### Abort (R405) -/

/-- The adoption aborts; the cores, fields and tables revert from the next boundary on. -/
def State.abortAdoption (s : State) (result : Nat) : State :=
  let serial := (s.cfg.staged.map fun x => x.serial.toNat).getD 0
  let s := (s.managementRecord 0x92 opManagement 0 0).2
  let s := { s with
    cfg := { s.cfg with adoptPiece := 0, adoptState := 3, adoptResult := BitVec.ofNat 8 result, switchBeat := none, revert := true }
    memSys := { s.memSys with migrating := none } }
  ((s.event 0x09 (adoptEvent 2 serial result)).count 0x004 1).setPermit 7 0

/-- ADOPT_ABORT (R310, R405). -/
def execAdoptAbort (w : AccessWidth) (s : State) : Out :=
  live s (if s.hostOpen && w == .full && s.cfg.adoptState == 1 then s.abortAdoption 0x13 else s)

/-- ADOPT_TIMEOUT (R303, R405). -/
def execAdoptTimeout (s : State) : Out := live s (if s.cfg.adoptState = 1 then s.abortAdoption 0x14 else s)

/-- The boundary after an abort reverts firmware and fields; the one after the end brings STEADY (R405, R431). -/
def State.turnAdoption (s : State) : State :=
  if s.cfg.revert then
    let s' := { s with cfg := { s.cfg with revert := false, oldFields := [] } }
    if s.cfg.oldFields == [] then s'
    else
      let t := (s'.putFields s.cfg.oldFields switchFields).applyRegisters
      { t with cfg := { t.cfg with bank := !t.cfg.bank } }
  else if s.mode.adopting && s.cfg.adoptState != 1 then ({ s with mode := { s.mode with adopting := false } }).modeEvent 4 1 0
  else s

/-! ### The pieces (R404) -/

/-- Groups that piece 3 serves: the powered ones. -/
def State.tableGroups (s : State) : List Nat := (List.range 68).filter fun p => s.powered p && !(s.group p).failed

/-- A group that no job holds and that no other table holds in this beat. -/
def State.tableFree (s : State) (p : Nat) : Bool :=
  (s.group p).job == 0 && ((List.range 68).all fun q => (s.unit q).heldBeat != some s.beat.toNat)

/-- A table is written: the group is held out of mapping for the beat. -/
def State.writeTable (s : State) (p : Nat) (serial : Word64) : State :=
  s.modUnit p fun u => { u with heldBeat := some s.beat.toNat, tableSerial := serial }

/-- The next group for a table: the lowest-numbered of a list that no job holds. -/
def State.nextTable (s : State) (l : List Nat) : Option Nat := l.find? fun p => (s.group p).job == 0

/-- GROUP_TABLE_APPLY (R404 piece 3, R405): in physical order, one group a beat; after an abort the tables revert. -/
def State.applyTable (s : State) (p : Nat) : State :=
  if s.cfg.adoptState = 1 && s.cfg.adoptPiece = 3 then
    let todo := s.tableGroups.filter fun q => !s.cfg.groupsTabled.contains q
    match s.cfg.staged with
    | some i =>
      if s.nextTable todo = some p && s.tableFree p then
        ({ s with cfg := { s.cfg with groupsTabled := insertSorted s.cfg.groupsTabled p } }).writeTable p i.serial
      else s
    | none => s
  else if s.cfg.adoptState = 3 && !s.cfg.revert && s.nextTable s.cfg.groupsTabled = some p && s.tableFree p then
    ({ s with cfg := { s.cfg with groupsTabled := s.cfg.groupsTabled.filter (· != p) } }).writeTable p
      ((s.cfg.active.map Image.serial).getD 0)
  else s

/-- GROUP_TABLE_APPLY (R404). -/
def execGroupTableApply (p : Fin 68) (s : State) : Out := live s (if s.beating then s.applyTable p else s)

/-- The piece in progress has ended. -/
def State.pieceEnded (s : State) : Bool :=
  match s.cfg.adoptPiece.toNat with
  | 2 => s.cfg.switchBeat.isNone
  | 3 => s.tableGroups.all fun p => s.cfg.groupsTabled.contains p
  | 4 => decide (s.cfg.recalStart + 576 ≤ s.beat.toNat)
  | 5 => decide (256 ≤ s.cfg.retrainNext)
  | _ => true

/-- Piece 5 begins where the profile changes (R404, R406): the clock is capped at 550 MHz, the first pseudo-channel migrates. -/
def State.beginRetrain (s : State) (i : Image) : State :=
  if i.num 0x0111 = s.cfgNum 0x0111 then { s with cfg := { s.cfg with retrainNext := 256 } }
  else
    let s := { s with cfg := { s.cfg with retrainNext := 0 }, memSys := { s.memSys with migrating := some 0 } }
    (s.putFields i.fields [0x0111]).setPermit 7 1

/-- Piece 6 where the profile changes (R404): a port whose spare is in use keeps its old profile, and its lane is recorded. -/
def State.retrainLanes (s : State) (i : Image) : State :=
  if i.num 0x0107 = s.cfgNum 0x0107 then s
  else
    let s := s.putFields i.fields [0x0107]
    s.forAll (List.range 16) fun s n =>
      if (s.port n).isUp && (s.port n).spareUsed then s.raise (portUnit n) 0x55 opLink 0 0 s.now 0 false else s

/-- Piece 7 (R404, R447): slot, report and digest change. -/
def State.finishAdoption (s : State) (i : Image) : State :=
  let a : BitVec 2 := if s.inactiveSlot = 0 then 3 else if s.cfg.slotA = 3 then 2 else s.cfg.slotA
  let b : BitVec 2 := if s.inactiveSlot = 1 then 3 else if s.cfg.slotB = 3 then 2 else s.cfg.slotB
  let s := { s with cfg := { s.cfg with
    slotA := a, slotB := b, active := some i, staged := none, stageState := 0, fields := i.fields, policyOk := i.policyOk
    appliedDigest := i.digest, adoptPiece := 0, adoptState := 2, adoptResult := 0, oldFields := [] } }
  ((s.event 0x09 (adoptEvent 1 i.serial.toNat 0)).count 0x003 1).fire 0 7

/-- Start a piece. -/
def State.startPiece (s : State) (i : Image) (n : Nat) : State :=
  let s := { s with cfg := { s.cfg with adoptPiece := BitVec.ofNat 4 n } }
  match n with
  | 2 => { s.burnVersion (i.num 0x0001) with cfg := { s.cfg with switchBeat := some (s.beat.toNat + 1) } }
  | 4 => { s with cfg := { s.cfg with recalStart := s.beat.toNat } }
  | 5 => s.beginRetrain i
  | 6 => (({ s with memSys := { s.memSys with migrating := none } }).setPermit 7 0).retrainLanes i
  | 7 => s.finishAdoption i
  | _ => s
/-- ADOPTION_PIECE (R404, R405, R446): the next piece starts once the previous has ended; a version burn waits for an entry
of the event buffer. -/
def State.nextPiece (s : State) (ok : Bool) : State :=
  match s.cfg.staged with
  | none => s
  | some i =>
    if s.cfg.adoptState ≠ 1 then s
    else if !ok then s.abortAdoption 0x15
    else if !s.pieceEnded || (s.cfg.adoptPiece == 1 && !s.ledger.room 2) then s
    else s.startPiece i (s.cfg.adoptPiece.toNat + 1)

/-- ADOPTION_PIECE (R404). -/
def execAdoptionPiece (ok : Bool) (s : State) : Out := live s (if s.beating then s.nextPiece ok else s)

/-- PSEUDO_CHANNEL_RETRAIN (R406): the pseudo-channel that migrates is retrained and copied back, in order. -/
def execPseudoChannelRetrain (ok : Bool) (s : State) : Out :=
  live s <|
    if s.cfg.adoptState ≠ 1 || s.cfg.adoptPiece ≠ 5 || 256 ≤ s.cfg.retrainNext then s
    else if !ok then s.abortAdoption 0x15
    else
      let n := s.cfg.retrainNext + 1
      { s with cfg := { s.cfg with retrainNext := n }, memSys := { s.memSys with migrating := if n < 256 then some n else none } }

end Sys2Proof.Machine
end

