-- ==== Sys2Proof/Machine/Pins.lean ====
section
/-!
DEFINITION. Pins: the coolant alarm and its forcing of CAPPED, glitches and racing inputs, BEAT_IN and TRST_N (R350, R421,
R439, R453, R462, R463).
-/
namespace Sys2Proof.Machine

/-! ### COOL_ALARM_N (R421, R463) -/

/-- COOL_ALARM_N after its filter: each activation holds 400 MHz and is recorded; inactive, cause 5 permits 600 MHz. -/
def State.coolAlarm (s : State) (active : Bool) : State :=
  if s.pins.active.getLsbD 3 = active then s
  else
    let s := s.setPin 3 active
    if active then
      let s := { s with pins := { s.pins with sbAlert := setBit s.pins.sbAlert 2 } }
      (((s.managementRecord 0x82 opManagement 0 0).2).fire 0 6).setPermit 5 4
    else s.setPermit 5 0

/-- The input is in a racing episode: only its end brings it back to inactive (R462). -/
def State.isRacing (s : State) (i : Nat) : Bool := s.pins.racing.getLsbD i

/-- COOL_ALARM_N (R421). -/
def execCoolAlarmN (active : Bool) (s : State) : Out := live s (if s.isRacing 3 && !active then s else s.coolAlarm active)

/-- COOL_ALARM_STUCK (R439, R463): active for 1 s; the forcing takes effect at the next beat boundary. -/
def execCoolAlarmStuck (s : State) : Out :=
  live s <|
    if s.pins.active.getLsbD 3 && !s.pins.coolForcing && s.pins.forcingNext.isNone then
      { s with pins := { s.pins with forcingNext := some true } }
    else s

/-- COOL_FORCING_END (R439, R463): inactive for 10 s. -/
def execCoolForcingEnd (s : State) : Out :=
  live s <|
    if s.pins.coolForcing && !s.pins.active.getLsbD 3 then { s with pins := { s.pins with coolForcing := false, forcingNext := some false } }
    else s

/-! ### BEAT_IN (R350) -/

/-- A lost or malformed pulse: a BEAT_ALIGN event, and the group of 64 begins anew. -/
def State.beatLost (s : State) : State :=
  ({ s with pins := { s.pins with beatInWidths := [] } }).event 0x0B (leBytes 6 s.beat.toNat)

/-- The number that a complete group of pulse widths carries: bit i is 1 for a 128-cycle pulse. -/
def groupNumber (l : List Nat) : Nat := ((List.range 48).filter fun i => l.getD i 0 == 128).foldl (fun n i => n + 2 ^ i) 0

/-- A complete group is well formed. -/
def groupOk (l : List Nat) : Bool :=
  l.length == 64 && ((List.range 48).all fun i => l.getD i 0 == 64 || l.getD i 0 == 128) &&
  ((List.range 15).all fun i => l.getD (48 + i) 0 == 64) && l.getD 63 0 == 192

/-- A pulse of a width ends now: cycle 0 lies PIN_DELAY cycles after its rising edge; the 192-cycle pulse ends a group. -/
def State.beatPulse (s : State) (width : Nat) : State :=
  let l := s.pins.beatInWidths ++ [width]
  let s := { s with cycle := BitVec.ofNat 16 (width + beatCycles - s.cfgNum 0x0104) }
  if width = 192 then
    let synced := decide (64 ≤ l.length)
    let s := if groupOk l then { s with beat := BitVec.ofNat 48 (groupNumber l + 63) } else if synced then s.beatLost else s
    { s with pins := { s.pins with beatInWidths := [] } }
  else if width = 64 || width = 128 then { s with pins := { s.pins with beatInWidths := if 64 < l.length then [width] else l } }
  else s.beatLost

/-- BEAT_IN (R350, R463): of a SOLO device with BEAT_IN_ENABLE. -/
def execBeatIn (p : BeatPulse) (s : State) : Out :=
  live s <|
    if !s.beating || !s.link.beatInUsed then s
    else match p with
      | .pulse w => s.beatPulse w
      | .lost => s.beatLost

/-! ### TRST_N (R453, R463) -/

/-- The TAP is in Test-Logic-Reset, which selects IDCODE. -/
def State.tapReset (s : State) : State := { s with test := { s.test with tapInstr := 0x02, bypassBit := false } }

/-- TRST_N (R463). -/
def execTrstN (s : State) : Out := live s (s.setPin 6 true).tapReset

/-! ### Glitches and racing (R462) -/

/-- A glitch counter rises. -/
def State.countGlitch (s : State) (i : Nat) : State := { s with pins := { s.pins with glitches := s.pins.glitches.modify i 0 satInc } }

/-- What an input does when it becomes active (R463). -/
def State.pinActive (s : State) (i : Nat) : State :=
  match i with
  | 0 => s.resetPin
  | 1 => s.pePerst true
  | 2 => (s.setPin 2 true).askHalt
  | 3 => s.coolAlarm true
  | 4 => s.trip 63
  | 5 =>
    let s := s.setPin 5 true
    if s.beating && s.link.beatInUsed then s.beatLost else s
  | _ => (s.setPin 6 true).tapReset

/-- INPUT_GLITCH (R462): an isolated pulse is counted and ignored; the fourth transition of a racing episode is counted once and
makes the input active. -/
def execInputGlitch (pin : Fin 7) (racing : Bool) (s : State) : Out :=
  let i := pin.val
  live s <|
    if !racing then s.countGlitch i
    else if s.isRacing i then s
    else
      let s := s.countGlitch i
      ({ s with pins := { s.pins with racing := setBit s.pins.racing i } }).pinActive i

/-- INPUT_RACING_END (R462): inactive for 16 filter times. -/
def execInputRacingEnd (pin : Fin 7) (s : State) : Out :=
  let i := pin.val
  live s <|
    if !s.isRacing i then s
    else
      let s := { s with pins := { s.pins with racing := clearBit s.pins.racing i } }
      match i with
      | 1 => s.pePerst false
      | 3 => s.coolAlarm false
      | _ => s.setPin i false

end Sys2Proof.Machine
end

