-- ==== Sys2Proof/Machine/Retire.lean ====
section
/-!
DEFINITION. Retire: resets of one block (R429), live retirement and substitution of groups (R4, R407, R408).
-/
namespace Sys2Proof.Machine

/-! ### Resetting one block (R429) -/

/-- The cluster array of a group after its reset: the scratchpads hold the poison pattern but for resident rows that are kept
(R219). -/
def State.fillClusters (s : State) (p : Nat) : State :=
  let keep := if (s.group p).residency == .none then 0 else (s.group p).resRows.toNat * 256
  s.forAll (groupClusters p) fun s k =>
    ({ s with mem := s.mem.poisonFill (spBase + k * scratchpadBytes + keep) (scratchpadBytes - keep) }).modCluster k fun _ => {}

/-- The RME, Pip expander, group buffer and refresh sequencer of a group after their reset. -/
def State.fillGroupBlock (s : State) (p : Nat) : State :=
  ({ s with mem := s.mem.poisonFill (gbBase + p * groupBufferBytes) groupBufferBytes }).modUnit p fun u =>
    { u.dropped with rmeRows := [], rmeResidues := [], convStore := [] }

/-- What the reset of a block leaves, by its domain. -/
def State.blockReset (s : State) (d : Nat) : State :=
  if d < 136 then (if d % 2 = 0 then s.fillClusters (d / 2) else s.fillGroupBlock (d / 2))
  else if inRange 169 16 d then s.portState (d - 169) 1
  else s

/-- BLOCK_IDLE_REPORT (R429): a block asked to go idle reports, is reset and filled. -/
def execBlockIdleReport (domain : BitVec 8) (s : State) : Out :=
  let d := domain.toNat
  live s <|
    if s.rst.idleAsked.contains d then
      ({ s.unaskBlock d with rst := { (s.unaskBlock d).rst with blockResets := satInc s.rst.blockResets } }).blockReset d
    else s

/-- The unit a BLOCK_IDLE record names. -/
def blockUnit (d : Nat) : Nat :=
  if d < 136 then groupUnit (d / 2) 0 (if d % 2 = 0 then 0 else 6) 0 else if inRange 169 16 d then ioUnit 1 (d - 169) 0 else ioUnit 4 0 0

/-- The escalation of an expired idle request (R429): the whole group, the port, or the Quince engine goes off and on. -/
def State.escalate (s : State) (d : Nat) : State :=
  if d < 136 then
    let p := d / 2
    let s := { s with rst := { s.rst with idleAsked := s.rst.idleAsked.filter fun x => x / 2 != p } }
    ((s.modGroup p Group.unload).fillClusters p).fillGroupBlock p
  else
    let s := s.unaskBlock d
    if d = 185 then { s with sec := { s.sec with curves := [] } } else s.blockReset d

/-- BLOCK_IDLE (R297, R303, R429): no report in 65,536 reference cycles. -/
def execBlockIdle (domain : BitVec 8) (s : State) : Out :=
  let d := domain.toNat
  live s <|
    if s.rst.idleAsked.contains d then
      let s := { s with rst := { s.rst with blockTimeouts := satInc s.rst.blockTimeouts, blockResets := satInc s.rst.blockResets } }
      let job : BitVec 16 := if d < 136 then (s.group (d / 2)).job else 0
      (s.raise (blockUnit d) 0x25 opManagement 0 0 s.now job false).escalate d
    else s

/-! ### GROUP_RETIREMENT (R4, R407, R408) -/

/-- The free spares, lowest first. -/
def State.freeSpares (s : State) : List Nat := (List.range 68).filter fun p => (s.group p).role == .spare && !(s.group p).failed

/-- In grade A a free spare takes the place of a retired usable group and is proved (R408). -/
def State.substitute (s : State) (p : Nat) : State :=
  let free := s.freeSpares
  let pick := match free.find? fun q => q / 17 == p / 17 with
    | some q => some q
    | none => free.head?
  match pick with
  | some q =>
    if s.fuses.grade = 0 then
      (s.powerOn [2 * q, 2 * q + 1]).modGroup q fun g => { g with role := .usable, proving := true, provedFrom := s.beat.toNat }
    else s
  | none => s

/-- RETIRE_REQUEST names the group and no job holds it (R396, R407). -/
def State.requested (s : State) (p : Nat) : Bool :=
  ((s.cfgBytes 0x0005).any fun b => b.toNat == p) && (s.group p).job == 0 && !s.mode.adopting

/-- The retirement proper: slot burned, residency cleared, power off, ledger and map updated, a spare in its place. -/
def State.retire (s : State) (p : Nat) : State :=
  let n := s.fuses.retired.length
  let wasUsable := (s.group p).role == .usable
  let s := s.modGroup p fun g => { g.unload with role := .retired, retireDue := false, quarantine := false, proving := false }
  -- every spare keeps its role as it stands: the map that the fuses give an unlisted group changes only at reset
  let s := s.forAll (List.range 68) fun s q => s.modGroup q id
  let s := { s with
    fuses := { s.fuses with retired := s.fuses.retired ++ [p] }
    rst := { s.rst with domains := clearBit (clearBit s.rst.domains (2 * p)) (2 * p + 1) }
    ledger := { s.ledger with durableAsked := true } }
  let s := s.event 0x02 (fuseEvent 2 n (n + 1))
  if wasUsable then s.substitute p else s

/-- No slot is left: a requested group stays; a failing one is out of allocation until the next reset (R4, R407). -/
def State.retireExhausted (s : State) (p : Nat) (due : Bool) : State :=
  let s := (s.managementRecord 0x93 opManagement 0 p).2
  if due then s.modGroup p fun g => { g with role := .failed, failed := true, retireDue := false } else s

/-- GROUP_RETIREMENT (R4, R407, R446): at a beat boundary; a fuse burn waits for a free event entry. -/
def execGroupRetirement (p : Fin 68) (s : State) : Out :=
  let g := s.group p
  let present := g.role == .usable || g.role == .spare
  live s <|
    if !s.beating || s.cycle != 0 || !present || !(g.retireDue || s.requested p) then s
    else if 16 ≤ s.fuses.retired.length then s.retireExhausted p g.retireDue
    else if s.ledger.room 2 then s.retire p else s

/-- SPARE_PROVEN (R408): after 1,024 beats; a spare that fails is retired at the next boundary. -/
def execSpareProven (p : Fin 68) (passes : Bool) (s : State) : Out :=
  let g := s.group p
  live s <|
    if s.beating && g.proving && decide (g.provedFrom + 1024 ≤ s.beat.toNat) then
      let s := (s.fillClusters p).fillGroupBlock p
      let s := s.modGroup p fun g => { g with proving := false }
      if passes then s else s.dueRetirement p
    else s

end Sys2Proof.Machine
end

