-- ==== Sys2Proof/Machine/Boundary.lean ====
section
/-!
DEFINITION. Boundary: BEAT_BOUNDARY, where every change that falls due together takes effect (R24, R28, R30, R432).
-/
namespace Sys2Proof.Machine

/-- The link block at a beat boundary: the records of the beat that ended have gone out (R352), and MEMBERS_SEEN shows that
beat's (R356). -/
def State.turnLinks (s : State) : State :=
  let l := s.link
  { s with link := { l with
    outgoing := [], membersSeen := l.membersNow, membersNow := 0, seen := l.seen.filter fun r => decide (s.beat.toNat ≤ r.getLastD 0 + 1) } }

/-- BEAT_BOUNDARY (R24, R27, R28, R30, R277, R280, R351): cycle 0 of the next beat. -/
def execBeatBoundary (s : State) : Out :=
  live s <|
    if !s.beating then s
    else
      let ended := s.beat.toNat
      let s := ({ s with beat := s.beat + 1, cycle := 0 }).count 0x001 1
      let s := { s with rst := { s.rst with beatOut := beatOutWidth s.beat.toNat } }
      let s := s.axes.liftDieCaps.turnLinks.turnAdoption
      let s := s.forAll (s.work.jobs.map (·.1)) fun s id => s.boundaryJob ended id
      let s := { s with clusters := s.clusters.map clearSig }
      let s := s.entriesVisible
      s.forAll (s.jobsIn .running) fun s id => s.captureAt id


end Sys2Proof.Machine
end

