-- ==== Sys2Proof/Machine/Chain.lean ====
section
/-!
DEFINITION. Chain: the relay chain (R228 to R230), GX moves (R187) and Sheepdog's verdicts (R231, R232).
-/
namespace Sys2Proof.Machine

/-! ### The relay chain (R228 to R230) -/

/-- SU.RELAY's effect: its rows leave the ring one per cycle from t + 7 and stand in the chain until their stamps. -/
def State.relayRun (s : State) (k : Nat) (c : CmdWord) (x : Ctx) (t : Nat) : State :=
  let v := wordValue (s.cluster k) c % 2 ^ 32
  let tc := v % 64
  let tg := v / 64 % 128
  let inside := tg == x.logical
  let n := cmdCount c
  let rd := oneByOne (t + 7) (List.range n)
  let input := firstCode ((s.operandSegments k (cmdA c) 0 n).map fun g => (s.segmentInput k (cmdA c) g).code)
  let (ca, s) := s.readRows k 3 (cmdA c) rd (cmdOp c) t (cmdDep c)
  let code := firstCode [input, ca]
  let rows : List RelayRow := (rd.zipIdx).map fun e =>
    { from_ := k, injectAt := if inside then t + 8 + e.2 else t + 80 + 9 * e.2, op := cmdOp c, word := (s.cluster k).lastItem
      job := x.job.id.toNat, targetGroup := tg, targetCluster := tc, ring := ringNo (cmdD c)
      stamp := if inside then t + 70 + e.2 else t + 485 + 9 * e.2
      data := if code ≠ 0 then poisonRow else s.operandRow k (cmdA c) e.1.1 e.1.2, code := code, claimed := false }
  (s.popOperand k (cmdA c) n (t + 7)).modUnit (k / 32) fun u => { u with relay := u.relay ++ rows }

/-- SU.RELAY's own check: the target group is one of the job's, or all. -/
def State.relayOk (s : State) (k : Nat) (c : CmdWord) (x : Ctx) : Bool :=
  let v := wordValue (s.cluster k) c % 2 ^ 32
  decide (v < 2 ^ 13) && (v % 64 == 0x3F || decide (v % 64 < 32)) && (v / 64 == 0x7F || decide (v / 64 < x.job.groupCount))

/-- SU.RELAY (R228 to R230). -/
def execSuRelay (k : ClusterId) (c : CmdWord) (s : State) : Out :=
  live s (s.command k.num c shRelay 3 (fun s x => s.relayOk k.num c x) fun s x t => s.relayRun k.num c x t)

/-- The relay row of a group that has claimed its places and lands next: the one of the least stamp. -/
def nextLanding (l : List RelayRow) : Option (Nat × RelayRow) :=
  ((l.zipIdx).filter fun e => e.1.claimed).foldl (fun best e => match best with
    | some b => if b.2.stamp ≤ e.1.stamp then best else some (e.2, e.1)
    | none => some (e.2, e.1)) none

/-- The earliest stamp of a group's relay rows. -/
def firstStamp (l : List RelayRow) : Option Nat :=
  (l.map (·.stamp)).foldl (fun m x => some (match m with
    | some y => min y x
    | none => x)) none

/-- RELAY_ROW_LANDING (R228, R229): of the rows the group has on the chain, the one of the least stamp is written in its target
clusters; a fenced job's row lands nowhere, and one whose beat has not begun is not there yet. -/
def execRelayRowLanding (g : Fin 68) (s : State) : Out :=
  live s <|
    let s := match firstStamp (s.unit g).relay with
      | some stamp => s.inject stamp
      | none => s
    match nextLanding (s.unit g).relay with
    | none => s
    | some (i, r) =>
      if s.beat.toNat < beatOf r.stamp then s
      else
        let s := (s.reachAbs r.stamp).modUnit g fun u => { u with relay := u.relay.eraseIdx i }
        if s.jobRuns g && (s.jobId g).toNat == r.job then
          r.places.foldl (fun s e => s.landRows e.1 r.ring e.2 r.stamp [r.data] [] 0) s
        else s

/-! ### GX.MOVE and GX.BCAST (R187) -/

/-- The rows and code a GX port sends from operand A of cluster `k`. -/
def State.gxSend (s : State) (k : Nat) (c : CmdWord) (t : Nat) : (Nat × List Row × Option Segment) × State :=
  let n := cmdCount c
  let code0 := firstCode ((s.operandSegments k (cmdA c) 0 n).map fun g => (s.segmentInput k (cmdA c) g).code)
  let (ca, s) := s.readCheck k 4 (cmdA c) (List.range n) c t
  let code := firstCode [code0, ca]
  ((code, (List.range n).map fun i => if code ≠ 0 then poisonRow else s.operandRow k (cmdA c) i (t + i), s.operandSegment k (cmdA c)), s)

/-- The rows arrive at ring D of cluster `k`, the last `lat` cycles after the last departs. A poisoned segment's code goes
with them; an object's header goes with its whole segment (log entry 19). -/
def State.gxReceive (s : State) (k : Nat) (c : CmdWord) (t lat : Nat) (code : Nat) (rows : List Row) (sg : Option Segment) :
    State :=
  let stamp := fun i => t + lat + 1 + i
  let last := t + lat + rows.length
  let (cd, s) := s.writeCheck k 4 (cmdD c) rows.length (cmdOp c) t stamp
  let code := firstCode [code, cd]
  let rows := if code ≠ 0 then rows.map fun _ => poisonRow else rows
  let s := (s.pushOperand k (cmdD c) stamp 64 rows).noteWork k 4 (cmdD c) rows.length t last
  let whole := (sg.map fun g => g.rows == rows.length).getD false
  if s.operandIsObject k (cmdD c) then
    (if whole || code ≠ 0 then s.closeOutput k (cmdD c) rows.length code last
      (some (let h := (sg.map (·.hdr)).getD {}; if code ≠ 0 then h.poison' code else h)) else s)
  else if code ≠ 0 then s.closeOutput k (cmdD c) rows.length code last none else s

/-- GX.MOVE's effect on one cluster: its rows go to cluster (c + k) mod G of the span. -/
def State.gxMoveRun (s : State) (k : Nat) (c : CmdWord) (x : Ctx) (t : Nat) : State :=
  let ks := s.spanClusters (k / 32)
  let dst := ks.getD ((x.index + cmdSpec c) % max ks.length 1) k
  let (r, s) := s.gxSend k c t
  let s := s.popOperand k (cmdA c) (cmdCount c) t
  (s.gxReceive dst c t (if k / 32 = dst / 32 then 18 else 26) r.1 r.2.1 r.2.2).occupy k 4 (t + cmdCount c)

/-- The ring that receives a GX.MOVE is declared in its cluster (R215, R231). -/
def State.gxMoveBar (s : State) (k : Nat) (c : CmdWord) (x : Ctx) : Barred :=
  let ks := s.spanClusters (k / 32)
  let dst := ks.getD ((x.index + cmdSpec c) % max ks.length 1) k
  if (s.ring dst (ringNo (cmdD c))).size = 0 then some (2, 4, ringNo (cmdD c)) else none

/-- GX.MOVE (R187). -/
def execGxMove (k : ClusterId) (c : CmdWord) (s : State) : Out :=
  live s (s.command k.num c shMove 4 (fun _ _ => true) (fun s x t => s.gxMoveRun k.num c x t) fun s x _ => s.gxMoveBar k.num c x)

/-- GX.BCAST's effect: the source cluster's rows go to ring D of every cluster of the group. -/
def State.gxBcastRun (s : State) (c : CmdWord) (t : Nat) (ks : List Nat) (pre : Nat) : State :=
  let n := cmdCount c
  let src := ks.getD (cmdSpec c) 0
  let (r, s) := s.gxSend src c t
  let s := s.popOperand src (cmdA c) n t
  ks.foldl (fun s k => (s.gxReceive k c t 18 (firstCode [r.1, pre]) r.2.1 r.2.2).occupy k 4 (t + n)) s

/-- GX.BCAST (R187). -/
def execGxBcast (g : Fin 68) (c : CmdWord) (s : State) : Out :=
  live s (s.clustersCommand (groupClusters g) g c shBcast [4] (fun _ _ => true) fun s _ t ks pre => s.gxBcastRun c t ks pre)

/-! ### Sheepdog's verdicts (R232, R239) -/

/-- SHEEPDOG_VERDICT (R231, R232): the cluster's oldest violation is counted, its place kept when it is the job's first,
and a fault of kind SHEEPDOG raised in its verdict cycle. -/
def execSheepdogVerdict (k : ClusterId) (s : State) : Out :=
  live s <| match (s.cluster k.num).due with
    | [] => s
    | d :: rest =>
      let s := s.modCluster k.num fun c => { c with due := rest }
      let s := s.modUnit (k.num / 32) fun u =>
        let first := u.sdViolations == 0
        { u with sdViolations := satInc u.sdViolations, sdFirstAt := if first then d.at_ - 2 else u.sdFirstAt,
                 sdCluster := if first then BitVec.ofNat 5 (k.num % 32) else u.sdCluster,
                 sdEngine := if first then BitVec.ofNat 4 d.engine else u.sdEngine,
                 sdRing := if first then BitVec.ofNat 4 d.ring else u.sdRing,
                 sdCheck := if first then BitVec.ofNat 3 d.check else u.sdCheck }
      s.clusterFault k.num 0 4 0x20 d.op d.word d.word d.at_ (!d.refusedIssue)

end Sys2Proof.Machine
end

