-- ==== Sys2Proof/Machine/Security.lean ====
section
/-!
DEFINITION. Security: the mailbox (R358, R367 to R371), the Quince engine (R372 to R374), import of the share (R375 to
R378), partial decryption (R379 to R383), SEAL_DISABLE (R371) and the DRBG (R365, R366).
-/
namespace Sys2Proof.Machine

/-! ### The mailbox (R367 to R370) -/

/-- What a mailbox command decides when it starts: the result code, the response, and the state its effect leaves. -/
abbrev MailAnswer := Nat × List Byte × State

/-- A field of the request window (R368). -/
def State.request (s : State) (off len : Nat) : Nat :=
  leNat ((List.range len).map fun i => cellAt zeroByte s.sec.request (off + i))

/-- Every byte of the request window outside the listed fields is zero (R368). -/
def State.requestOk (s : State) (fields : List (Nat × Nat)) : Bool :=
  s.sec.request.all fun c => fields.any fun f => inRange f.1 f.2 c.1

/-- GO with a command code (R367): ignored and counted while busy, else the command starts; its outcome is posted by
MAILBOX_RESPONSE. -/
def State.mailbox (s : State) (code : Nat) (fields : List (Nat × Nat)) (f : State → MailAnswer) : State :=
  if s.sec.busy then { s with sec := { s.sec with refused := satInc s.sec.refused } }
  else
    let s := { s with sec := { s.sec with cmd := BitVec.ofNat 8 code, busy := true } }
    let (r, resp, t) := if s.requestOk fields then f s else (0x01, [], s)
    { t with sec := { t.sec with nextResult := r, nextResponse := resp } }

/-- A mailbox command that completes with a result and nothing else. -/
def MailAnswer.fail (s : State) (code : Nat) : MailAnswer := (code, [], s)

/-- A bulk input: inside a PF intake area, locked while the command runs (R367). -/
def State.bulkIn (s : State) (a n : Nat) : Option (List Byte × State) :=
  if n ≠ 0 && s.inIntake 0 a n then some (s.mem.fetch a n, s.lock .mailbox a n) else none

/-- A mailbox command row: the write of GO reaches the PF's registers. -/
def mailboxRow (s : State) (code : Nat) (fields : List (Nat × Nat)) (f : State → MailAnswer) : Out :=
  live s (if s.hostOpen then s.mailbox code fields f else s)

/-- Shares and decryptions are refused: OPEN trust, the seal-disable fuse blown (R363, R364), or FACTORY (R435). -/
def State.notSealed (s : State) : Bool := !s.mode.sealedTrust || s.fuses.sealDisabled || s.mode.factory

/-! ### IDENTITY, OWNER_STATE -/

/-- The identity record (R358). -/
def State.identityRecord (s : State) : List Byte :=
  [0x0F, 1] ++ leBytes 1 s.fuses.grade.toNat ++ [s.fuses.stepping] ++ (List.range 20).map (fun i => Config.identityRecordByte (4 + i)) ++
  digest32 corathKey ++ List.replicate 8 0 ++ identityKey ++ (List.range 3309).map Config.corathSignatureByte

/-- IDENTITY's answer (R358, R368). -/
def State.mailIdentity (s : State) : MailAnswer := (0, s.identityRecord, s)

/-- IDENTITY (R358). -/
def execIdentity (s : State) : Out := mailboxRow s 1 [] State.mailIdentity

/-- OWNER_STATE's answer (R368). -/
def State.mailOwnerState (s : State) : MailAnswer :=
  (0, leBytes 1 s.fuses.ownerEpoch.toNat ++ leBytes 1 s.fuses.securityVersion.toNat ++ leBytes 1 s.fuses.sealDisabled.toNat ++
      List.replicate 5 0 ++ s.ownerDigest, s)

/-- OWNER_STATE (R368). -/
def execOwnerState (s : State) : Out := mailboxRow s 2 [] State.mailOwnerState

/-! ### Curves (R372) -/

/-- One Miller–Rabin round: squarings of x from 2^(s−1)·d down look for −1. -/
def millerSquares (n : Nat) : Nat → Nat → Bool
  | 0, _ => false
  | k + 1, x => if x = n - 1 then true else millerSquares n k (x * x % n)

/-- Twos in a number, at most `fuel`. -/
def twosIn : Nat → Nat → Nat
  | 0, _ => 0
  | f + 1, n => if n % 2 = 0 then 1 + twosIn f (n / 2) else 0

/-- A round of Miller–Rabin on odd `n` with one base. -/
def millerRound (n base : Nat) : Bool :=
  let k := twosIn (bitLength n) (n - 1)
  let x := powMod n base ((n - 1) / 2 ^ k)
  base % n == 0 || x == 1 || millerSquares n k x

/-- 64 rounds with the fixed bases (R372). -/
def probablyPrime (n : Nat) : Bool :=
  n == 2 || (n % 2 == 1 && decide (2 < n) && (List.range 64).all fun i => millerRound n (Config.millerRabinBase i))

/-- A point of a curve; `none` is the point at infinity. -/
abbrev Point := Option (Nat × Nat)

/-- y² = x³ + ax + b (mod p). -/
def onCurve (p a b x y : Nat) : Bool := y * y % p == (x * x * x + a * x + b) % p

/-- The sum of two points of y² = x³ + ax + b over the field of p. -/
def pointAdd (p a : Nat) (u v : Point) : Point :=
  match u, v with
  | none, v => v
  | u, none => u
  | some (x1, y1), some (x2, y2) =>
    if x1 = x2 && (y1 + y2) % p = 0 then none
    else
      let m := if x1 = x2 then mulMod p (3 * x1 * x1 + a) (invGen p (2 * y1)) else mulMod p (subMod p y2 y1) (invGen p (subMod p x2 x1))
      let x := subMod p (m * m) (x1 + x2)
      some (x, subMod p (mulMod p m (subMod p x1 x)) y1)

/-- k·P by the bits of k, `fuel` of them. -/
def pointMulAux (p a : Nat) : Nat → Nat → Point → Point → Point
  | 0, _, _, acc => acc
  | f + 1, k, u, acc =>
    if k = 0 then acc else pointMulAux p a f (k / 2) (pointAdd p a u u) (if k % 2 = 1 then pointAdd p a acc u else acc)

/-- k·P. -/
def pointMul (p a k : Nat) (u : Point) : Point := pointMulAux p a (bitLength k) k u none

/-- The checks of R372 on a curve. -/
def Curve.ok (c : Curve) : Bool :=
  let diff := ((c.h * c.n : Nat) : Int) - (c.p + 1)
  decide (192 ≤ bitLength c.p ∧ bitLength c.p ≤ 521) && probablyPrime c.p && decide (c.a < c.p) && decide (c.b < c.p) &&
  (4 * c.a ^ 3 + 27 * c.b ^ 2) % c.p != 0 && decide (c.gx < c.p) && decide (c.gy < c.p) && onCurve c.p c.a c.b c.gx c.gy &&
  probablyPrime c.n && pointMul c.p c.a c.n (some (c.gx, c.gy)) == none && decide (1 ≤ c.h ∧ c.h ≤ 8) &&
  decide (diff * diff ≤ 4 * c.p)

/-- The curve of a record (R372). -/
def curveOf (b : List Byte) : Curve :=
  let l := field b 0 1
  let w := fun i => beNat (slice b (8 + i * l) l)
  { len := l, p := w 0, a := w 1, b := w 2, gx := w 3, gy := w 4, n := w 5, h := field b (8 + 6 * l) 1, digest := digest32 b }

/-- LOAD_CURVE's answer (R372). -/
def State.mailLoadCurve (s : State) : MailAnswer :=
  let slot := s.request 0 1
  let n := s.request 16 4
  if 3 < slot || (s.sec.session.any fun x => x.slot == slot) then .fail s 0x01
  else match s.bulkIn (s.request 8 8) n with
    | none => .fail s 0x01
    | some (b, s) =>
      let l := field b 0 1
      if l < 24 || 66 < l || n ≠ 8 + 6 * l + 1 || !allZero (slice b 1 7) then .fail s 0x01
      else
        let c := curveOf b
        if c.ok then (0, c.digest, { s with sec := { s.sec with curves := s.sec.curves.put slot c } }) else .fail s 0x20

/-- LOAD_CURVE (R372). -/
def execLoadCurve (s : State) : Out := mailboxRow s 3 [(0, 1), (8, 8), (16, 4)] State.mailLoadCurve

/-! ### QUINCE (R373, R374) -/

/-- Value check 1 of R374 for a point. -/
def Curve.inRange (c : Curve) (x y : Nat) : Bool := decide (x < c.p) && decide (y < c.p)
/-- Value check 2 of R374: on the curve, and not the all-zero encoding. -/
def Curve.holds (c : Curve) (x y : Nat) : Bool := onCurve c.p c.a c.b x y && !(x == 0 && y == 0)

/-- Point check (R373, R374). -/
def Curve.pointCheck (c : Curve) (x y : Nat) : Nat × List Byte :=
  if !c.inRange x y then (0x22, []) else if !c.holds x y then (0x23, []) else (0, [])

/-- Scalar multiplication (R373, R374); a result at infinity is a zero result. -/
def Curve.scalarMul (c : Curve) (k x y : Nat) : Nat × List Byte :=
  if !c.inRange x y || c.n ≤ k then (0x22, [])
  else if !c.holds x y then (0x23, [])
  else match pointMul c.p c.a k (some (x, y)) with
    | none => (0x24, List.replicate (2 * c.len) 0)
    | some (u, v) => (0, leBytes c.len u ++ leBytes c.len v)

/-- ECDSA verification (R373, R374). -/
def Curve.ecdsa (c : Curve) (e r t x y : Nat) : Nat × List Byte :=
  if !c.inRange x y || r = 0 || c.n ≤ r || t = 0 || c.n ≤ t then (0x22, [])
  else if !c.holds x y then (0x23, [])
  else
    let w := invGen c.n t
    let u := pointMul c.p c.a (e * w % c.n) (some (c.gx, c.gy))
    match pointAdd c.p c.a u (pointMul c.p c.a (r * w % c.n) (some (x, y))) with
    | none => (0x24, [])
    | some (v, _) => (if v % c.n = r then 0 else 0x25, [])

/-- Legacy modular exponentiation (R373, R374). -/
def modexp (m e base want : Nat) : Nat × List Byte :=
  if m % 2 = 0 || m ≤ base then (0x22, []) else (if powMod m base e = want then 0 else 0x25, [])

/-- An operation of the Quince engine on its operand bytes, fields of L little-endian bytes (R7); `none` for sizes it does not
take. -/
def quinceOp (op : Nat) (c : Curve) (b : List Byte) : Option (Nat × List Byte) :=
  let l := c.len
  let w := fun i => leNat (slice b (i * l) l)
  match op with
  | 1 => if b.length = 2 * l then some (c.pointCheck (w 0) (w 1)) else none
  | 2 => if b.length = 3 * l then some (c.scalarMul (w 0) (w 1) (w 2)) else none
  | 3 => if b.length = 5 * l then some (c.ecdsa (w 0) (w 1) (w 2) (w 3) (w 4)) else none
  | _ => none

/-- Modular exponentiation on its operand bytes: modulus, 4-byte exponent, base and expected value (log entry 26). -/
def modexpOp (b : List Byte) : Option (Nat × List Byte) :=
  let k := (b.length - 4) / 3
  let m := leNat (b.take k)
  if b.length = 3 * k + 4 && decide (128 ≤ k ∧ k ≤ 512) && decide (1024 ≤ bitLength m) then
    some (modexp m (leNat (slice b k 4)) (leNat (slice b (k + 4) k)) (leNat (slice b (2 * k + 4) k)))
  else none

/-- QUINCE's answer (R368, R373): sizes, slot and operation first, then the values. -/
def State.mailQuince (s : State) : MailAnswer :=
  let op := s.request 0 1
  let slot := s.request 1 1
  if op = 0 || 4 < op || 3 < slot then .fail s 0x01
  else match s.bulkIn (s.request 8 8) (s.request 16 4) with
    | none => .fail s 0x01
    | some (b, s) =>
      let done := fun r : Option (Nat × List Byte) => match r with
        | none => MailAnswer.fail s 0x01
        | some (code, resp) => (code, resp, s)
      if op = 4 then done (modexpOp b)
      else match s.sec.curves.find slot with
        | none => .fail s 0x21
        | some c => done (quinceOp op c b)

/-- The fields of QUINCE's request. -/
def quinceFields : List (Nat × Nat) := [(0, 1), (1, 1), (8, 8), (16, 4)]

/-- A QUINCE row: the host has put its operation code into byte 0 of the request (R368, R373). -/
def quinceRow (s : State) (op : Byte) : Out :=
  live s <|
    if !s.hostOpen then s
    else
      let s := if s.sec.busy then s else { s with sec := { s.sec with request := cellPut zeroByte s.sec.request 0 op } }
      s.mailbox 9 quinceFields State.mailQuince

/-- POINT_CHECK (R373). -/
def execPointCheck (s : State) : Out := quinceRow s 1
/-- SCALAR_MULTIPLICATION (R373). -/
def execScalarMultiplication (s : State) : Out := quinceRow s 2
/-- ECDSA_VERIFY (R373). -/
def execEcdsaVerify (s : State) : Out := quinceRow s 3
/-- MODULAR_EXPONENTIATION (R373). -/
def execModularExponentiation (s : State) : Out := quinceRow s 4

/-! ### Import of the share (R375 to R378) -/

/-- A point as the offer and the package carry it (R375). -/
def pointBytes (x y : Nat) : List Byte := beBytes 66 x ++ beBytes 66 y

/-- The offer without its signature (R375). -/
def offerBody (number : Nat) (c : Curve) (ksid kemPos x y : Nat) : List Byte :=
  [0x0E, 1, 0, 0] ++ leBytes 4 number ++ c.digest ++ leBytes 8 ksid ++ (List.range 1184).map (Config.mlkemEncapsKeyByte kemPos) ++
  pointBytes x y ++ List.replicate 12 0

/-- The session and the offer of an IMPORT_OFFER whose checks passed (R375). -/
def State.openSession (s : State) (slot ksid : Nat) (c : Curve) : MailAnswer :=
  let kemPos := s.sec.drbgPos
  let s := s.draw 64
  let bits := bitLength c.n + 64
  let u := leNat (drbgBytes s.sec.drbgPos ((bits + 7) / 8)) % 2 ^ bits
  let s := s.draw ((bits + 7) / 8)
  let d := 1 + u % (c.n - 1)
  let (x, y) := (pointMul c.p c.a d (some (c.gx, c.gy))).getD (0, 0)
  let num := s.sec.sessions + 1
  let body := offerBody num.toNat c ksid kemPos x y
  let (sig, s) := s.sign "LNM-OFFER" body
  let offer := body ++ sig
  let x : ImportSession := { number := num, slot := slot, ksid := ksid, scalar := d, kemPos := kemPos, offerDigest := digest32 offer }
  (0, offer, { s with sec := { s.sec with session := some x, sessions := num } })

/-- A request that finds the DRBG stopped: DRBG_FAILED, and the source restarts its tests (R366). -/
def State.noDrbg (s : State) : MailAnswer := .fail s.restartTests 0x10

/-- IMPORT_OFFER's answer (R375). -/
def State.mailImportOffer (s : State) : MailAnswer :=
  let slot := s.request 0 1
  if 3 < slot then .fail s 0x01
  else if s.notSealed then .fail s 0x02
  else if s.sec.share.isSome then .fail s 0x05
  else match s.keySet? (s.request 8 8) with
    | none => .fail s 0x07
    | some k => match s.sec.curves.find slot with
      | none => .fail s 0x21
      | some c => if s.sec.drbgOk then s.openSession slot k.ksid c else s.noDrbg

/-- IMPORT_OFFER (R375). -/
def execImportOffer (s : State) : Out := mailboxRow s 4 [(0, 1), (8, 8)] State.mailImportOffer

/-- Planes of a share: min(4, L) (R376). -/
def sharePlanes (r : ResidueSet) : Nat := min 4 r.ordinary.length

/-- Step 2 of R377: the first fault among the package's fields, 0 where there is none. -/
def packageStatus (x : ImportSession) (k : KeySet) (b : List Byte) : Nat :=
  let n := field b 3 1
  let w := field b 4 1
  let p := field b 5 1
  if field b 8 8 ≠ x.ksid then 0x07
  else match k.rsets[field b 6 1]? with
    | none => 0x07
    | some r =>
      let sealedLen := sharePlanes r * 4 * 2 ^ r.log2n + 16
      let pOk := if k.scheme = 1 then decide (1 ≤ p ∧ p ≤ 52) else p == 0
      if field b 0 1 == 0x0B && field b 1 1 == 1 && decide (2 ≤ n ∧ n ≤ 64) && decide (field b 2 1 < n) && decide (8 ≤ w ∧ w ≤ 60) &&
         pOk && field b 7 1 == sharePlanes r && slice b 16 32 == x.offerDigest && field b 1268 4 == sealedLen &&
         allZero (slice b 1272 8) && b.length == 1280 + sealedLen + 3309 then 0 else 0x01

/-- Steps 5 to 8 of R377: the share's words, none on any failure. -/
def unsealShare (x : ImportSession) (c : Curve) (r : ResidueSet) (b : List Byte) : Option (List Nat) :=
  let px := beNat (slice b 1136 66)
  let py := beNat (slice b 1202 66)
  if !c.inRange px py || !c.holds px py then none
  else match pointMul c.p c.a (c.h * x.scalar) (some (px, py)) with
    | none => none
    | some (z, _) =>
      let ct := slice b 48 1088
      let k := (List.range 32).map (Config.mlkemDecapsByte x.kemPos ct)
      let mat := shake256 (ascii "LNM-SHARE-1" ++ k ++ beBytes 66 z ++ x.offerDigest ++ ct ++ slice b 1136 132) 44
      match Config.aesGcmOpen (mat.take 32) (mat.drop 32) (b.take 1280) (slice b 1280 (field b 1268 4)) with
      | none => none
      | some pt =>
        let n := 2 ^ r.log2n
        let ws := (bytesToWords pt).map (·.toNat)
        if ws.zipIdx.all fun e => decide (e.1 < r.ordinary.getD (e.2 / n) 0) then some ws else none

/-- Step 9 of R377: the share is stored. -/
def State.storeShare (s : State) (b : List Byte) (k : KeySet) (ws : List Nat) : MailAnswer :=
  let g := fun i => field b i 1
  let d := digest32 (leBytes 8 k.ksid ++ leBytes 1 (g 2) ++ ws.flatMap (leBytes 4))
  let h : Share := { party := g 2, parties := g 3, width := g 4, precision := g 5, rset := g 6, planes := g 7, ksid := k.ksid,
                     words := ws, digest := d }
  (0, d, ({ s with sec := { s.sec with share := some h, pdTable := [], pdDone := 0 } }).event 0x07 (leBytes 1 1 ++ d.take 8))

/-- Steps 2 to 9 of R377 for a session. -/
def State.importInto (s : State) (x : ImportSession) (b : List Byte) : MailAnswer :=
  match s.keySet? x.ksid, s.sec.curves.find x.slot with
  | some k, some c =>
    let st := packageStatus x k b
    if st ≠ 0 then .fail s st
    else if !Config.mldsaVerify k.ownerPub (ascii "LNM-SHARE") (b.take (b.length - 3309)) (slice b (b.length - 3309) 3309) then .fail s 0x03
    else match unsealShare x c (k.rsets.getD (field b 6 1) ⟨12, [], [], 1, 0⟩) b with
      | none => .fail s 0x08
      | some ws => s.storeShare b k ws
  | _, _ => .fail s 0x07

/-- IMPORT_SHARE's answer (R377): every outcome but NO_SESSION destroys the session. -/
def State.mailImportShare (s : State) : MailAnswer :=
  if s.notSealed then .fail s 0x02
  else match s.sec.session with
    | none => .fail s 0x04
    | some x =>
      let s := { s with sec := { s.sec with session := none } }
      match s.bulkIn (s.request 8 8) (s.request 16 4) with
      | none => .fail s 0x01
      | some (b, s) => s.importInto x b

/-- IMPORT_SHARE (R377). -/
def execImportShare (s : State) : Out := mailboxRow s 5 [(8, 8), (16, 4)] State.mailImportShare

/-- ERASE_SHARE's answer (R378). -/
def State.mailEraseShare (s : State) : MailAnswer := (0, [], s.eraseShare)

/-- ERASE_SHARE (R378). -/
def execEraseShare (s : State) : Out := mailboxRow s 6 [] State.mailEraseShare

/-! ### Attestation and SEAL_DISABLE (R371) -/

/-- The first 8 bytes of a record of the current owner: BAD_REQUEST, EPOCH or 0. -/
def State.ownerRecord (s : State) (fmt : Nat) (b : List Byte) : Nat :=
  if field b 0 1 ≠ fmt || field b 1 1 ≠ 1 || !allZero (slice b 3 5) then 0x01
  else if field b 2 1 ≠ s.fuses.ownerEpoch.toNat then 0x11 else 0

/-- ATTEST's answer (R371). -/
def State.mailAttest (s : State) : MailAnswer :=
  match s.bulkIn (s.request 8 8) 3373 with
  | none => .fail s 0x01
  | some (b, s) =>
    let st := s.ownerRecord 0x10 b
    let e := (slice b 8 32, field b 40 8)
    if st = 0x01 || !allZero (slice b 48 16) then .fail s 0x01
    else if !s.mode.sealedTrust || s.fuses.sealDisabled then .fail s 0x02
    else if st ≠ 0 then .fail s st
    else if !Config.mldsaVerify s.ownerKey (ascii "LNM-ATTEST") (b.take 64) (slice b 64 3309) then .fail s 0x03
    else if s.sec.attested.contains e then (0, [], s)
    else if 64 ≤ s.sec.attested.length then .fail s 0x0F
    else (0, [], { s with sec := { s.sec with attested := s.sec.attested ++ [e] } })

/-- ATTEST (R371). -/
def execAttest (s : State) : Out := mailboxRow s 7 [(8, 8)] State.mailAttest

/-- A verified SEAL_DISABLE (R371): the fuse is blown, the share erased, the attestation table and the session cleared. -/
def State.disableSeal (s : State) : State :=
  let s := ({ s with fuses := { s.fuses with sealDisabled := true }, ledger := { s.ledger with durableAsked := true } }).event 0x02 (fuseEvent 3 0 1)
  let s := s.eraseShare
  { s with sec := { s.sec with attested := [], session := none }
           ledger := { s.ledger with counters := s.ledger.counters.put 0x006 1 } }

/-- SEAL_DISABLE's answer (R371). -/
def State.mailSealDisable (s : State) : MailAnswer :=
  match s.bulkIn (s.request 8 8) 3413 with
  | none => .fail s 0x01
  | some (b, s) =>
    let st := s.ownerRecord 0x11 b
    if st ≠ 0 then .fail s st
    else if slice b 8 32 ≠ identityDigest || !allZero (slice b 40 64) then .fail s 0x01
    else if !Config.mldsaVerify s.ownerKey (ascii "LNM-UNSEAL") (b.take 104) (slice b 104 3309) then .fail s 0x03
    else if s.fuses.sealDisabled then .fail s 0x02
    else (0, [], s.disableSeal)

/-- SEAL_DISABLE (R371, R446): its event needs a free entry of the buffer, so the command waits for one. -/
def execSealDisable (s : State) : Out :=
  if s.ledger.room 2 then mailboxRow s 0x0A [(8, 8)] State.mailSealDisable else live s s

/-! ### Partial decryption (R379 to R383) -/

/-- ⌈log2 x⌉. -/
def ceilLog2 (x : Nat) : Nat := bitLength (x - 1)

/-- The precision condition (R379 step 7). -/
def precisionOk (sh : Share) (r : ResidueSet) (h : Header) : Bool :=
  let w := sh.width
  let n := ceilLog2 sh.parties
  match h.scheme with
  | 1 => decide (w + n + sh.precision + 1 ≤ h.scale / 256)
  | 2 => decide (w + ceilLog2 r.t + n + 1 ≤ h.budget / 16)
  | _ => decide (w + n + 1 ≤ h.budget / 16)

/-- The flood of coefficient `i` (R380): e_i = (u mod 2^(w+1)) − 2^w. -/
def floodAt (pos w i : Nat) : Int := ((leNat (drbgBytes (pos + 8 * i) 8) % 2 ^ (w + 1) : Nat) : Int) - 2 ^ w

/-- The words of the partial decryption (R380), in the stored order of R42, residue by residue. -/
def decryptPlanes (sh : Share) (r : ResidueSet) (h : Header) (obj : List Byte) (pos : Nat) : List Nat :=
  let n := 2 ^ h.log2n
  let gc := if h.log2n = 17 then 64 else 32
  let f : Int := if h.scheme = 2 then r.t else 1
  let e := (List.range n).map fun i => f * floodAt pos sh.width i
  (List.range h.level).flatMap fun i =>
    let q := r.ordinary.getD i 0
    let ev := toEvalForm q h.log2n (e.map (intMod q))
    (List.range n).map fun a =>
      let c := fun p => field obj (planeOffset h p i + 4 * a) 4
      let d := addMod q (mulMod q (c 1) (sh.words.getD (i * n + a) 0)) (ev.getD (a % (n / gc) * gc + a / (n / gc)) 0)
      if sh.party = 0 then addMod q d (c 0) else d

/-- The output's header (R381). -/
def decryptHeader (sh : Share) (h : Header) : List Byte :=
  let x : Header := { h with format := 0x0A, npoly := 1, eval := true, seeded := false, poisoned := false, releaseTagged := false, poison := 0 }
  let b := x.bytes
  withCrc32c (b.take 28 ++ [sh.party, sh.parties, sh.width, sh.precision].map (BitVec.ofNat 8) ++ slice b 32 8 ++ sh.digest.take 8 ++
    slice b 48 12) ++ List.replicate 192 0

/-- Pages of a range that are not released until something marks them so (R313, R381). -/
def State.withhold (s : State) (a n mark : Nat) : State :=
  let pages := (List.range ((a + n + 2047) / 2048 - a / 2048)).map (a / 2048 + ·)
  { s with host := { s.host with unreleased := s.host.unreleased.filter (fun u => !pages.contains u.1) ++ pages.map fun p => (p, mark) } }

/-- The mark of a page that only a mailbox response releases: no beat reaches it. -/
def mailboxMark : Nat := 2 ^ 200

/-- Checks 3 to 9 of R379 on the object's bytes: the first failing result, or 0. -/
def State.decryptStatus (s : State) (sh : Share) (obj : List Byte) (key : List Byte) : Nat :=
  let h := headerOf obj
  let r := (s.keySet? sh.ksid).bind fun k => k.rsets[sh.rset]?
  if !(headerCrcOk obj && headerRangeOk h && (h.poisoned == (h.poison != 0)) && !h.poisoned && h.format == 1 && h.npoly == 2 && h.eval &&
       !h.seeded && decide (h.level ≤ sh.planes)) then 0x0C
  else if !h.releaseTagged then 0x0A
  else if s.mode.sealedTrust && !(s.sec.attested.any fun e => leNat (e.1.take 8) == h.digestPrefix) then 0x0B
  else if h.ksid ≠ sh.ksid || h.rset ≠ sh.rset then 0x07
  else match r with
    | none => 0x07
    | some r =>
      if r.log2n ≠ h.log2n then 0x0C
      else if !precisionOk sh r h then 0x0D
      else if s.sec.pdTable.contains key then 0x0E
      else if 65536 ≤ s.sec.pdTable.length then 0x0F
      else if !s.sec.drbgOk then 0x10 else 0

/-- The partial decryption itself: the output is written, its pages withheld until the response (R380 to R382). -/
def State.decryptTo (s : State) (sh : Share) (obj key : List Byte) (out : Nat) : MailAnswer :=
  let h := headerOf obj
  let r := ((s.keySet? sh.ksid).bind fun k => k.rsets[sh.rset]?).getD ⟨12, [], [], 1, 0⟩
  let pos := s.sec.drbgPos
  let bytes := decryptHeader sh h ++ (decryptPlanes sh r h obj pos).flatMap (leBytes 4)
  let s := s.draw (8 * 2 ^ h.log2n)
  let s := { s with mem := s.mem.store out bytes }
  let s := s.withhold out bytes.length mailboxMark
  (0, leBytes 8 bytes.length, { s with sec := { s.sec with
    pdDone := satInc s.sec.pdDone, pdTable := s.sec.pdTable ++ [key] } })

/-- The output range of a partial decryption: in a PF release area, clear of every job's locked extents (R367, R379). -/
def State.bulkOut (s : State) (a n : Nat) : Bool :=
  s.inRelease 0 a n && !(s.host.locks.any fun l => rangesOverlap a n l.2.1 l.2.2 && match l.1 with
    | .job _ => true
    | .registration => false
    | .mailbox => false
    | .staging => false)

/-- PARTIAL_DECRYPT's answer (R379). -/
def State.mailPartialDecrypt (s : State) : MailAnswer :=
  let a := s.request 8 8
  let out := s.request 16 8
  if s.notSealed then .fail s 0x02
  else match s.sec.share with
    | none => .fail s 0x06
    | some sh =>
      let h := headerOf (s.mem.fetch a 64)
      let size := 256 + 2 * h.level * 4 * 2 ^ h.log2n
      let pages := (List.range ((a + size + 2047) / 2048 - a / 2048)).map (a / 2048 + ·)
      if !s.inRelease 0 a 256 || 17 < h.log2n || !s.inRelease 0 a size || !(pages.all fun p => s.pageReleased (2048 * p)) then .fail s 0x09
      else if !s.bulkOut out (256 + h.level * 4 * 2 ^ h.log2n) then .fail s 0x01
      else
        let obj := s.mem.fetch a size
        let key := (digest32 obj).take 16
        let st := s.decryptStatus sh obj key
        if st = 0x10 then s.noDrbg else if st ≠ 0 then .fail s st else s.decryptTo sh obj key out

/-- PARTIAL_DECRYPT (R379 to R383). -/
def execPartialDecrypt (s : State) : Out := mailboxRow s 8 [(8, 8), (16, 8)] State.mailPartialDecrypt

/-! ### MAILBOX_RESPONSE, and GO by the code of CMD -/

/-- The response is posted (R367, R381): the output's pages become readable. -/
def State.postResponse (s : State) : State :=
  let free := fun (u : Nat × Nat) => u.2 == mailboxMark
  let s := ({ s with
    sec := { s.sec with
      busy := false, result := BitVec.ofNat 8 s.sec.nextResult, response := s.sec.nextResponse
      respLen := BitVec.ofNat 16 s.sec.nextResponse.length, done := satInc s.sec.done, nextResult := 0, nextResponse := [] }
    host := { s.host with unreleased := s.host.unreleased.filter fun u => !free u } }).unlock .mailbox
  s.fire 0 9

/-- MAILBOX_RESPONSE (R367). -/
def execMailboxResponse (s : State) : Out := live s (if s.sec.busy then s.postResponse else s)

/-- GO of a register write (R368, R370): the command CMD names; a code outside the table is a bad request. -/
def State.mailboxGo (s : State) (code : Nat) : State :=
  match code with
  | 1 => s.mailbox 1 [] State.mailIdentity
  | 2 => s.mailbox 2 [] State.mailOwnerState
  | 3 => s.mailbox 3 [(0, 1), (8, 8), (16, 4)] State.mailLoadCurve
  | 4 => s.mailbox 4 [(0, 1), (8, 8)] State.mailImportOffer
  | 5 => s.mailbox 5 [(8, 8), (16, 4)] State.mailImportShare
  | 6 => s.mailbox 6 [] State.mailEraseShare
  | 7 => s.mailbox 7 [(8, 8)] State.mailAttest
  | 8 => s.mailbox 8 [(8, 8), (16, 8)] State.mailPartialDecrypt
  | 9 => s.mailbox 9 quinceFields State.mailQuince
  | 10 => if s.ledger.room 2 then s.mailbox 10 [(8, 8)] State.mailSealDisable else s
  | _ => s.mailbox code [(0, 4096)] fun s => .fail s 0x01

/-! ### The DRBG (R365, R366) -/

/-- DRBG_HEALTH_FAILURE (R366, R446): the DRBG stops; the third failure since reset locks it. -/
def execDrbgHealthFailure (s : State) : Out :=
  live s <|
    if s.rst.released < 4 then s
    else
      let n := s.sec.drbgFailures + 1
      ({ s with sec := { s.sec with drbgOk := false, drbgFailures := n, drbgLocked := s.sec.drbgLocked || decide (3 ≤ n) } }).event 0x0A [1]

/-- DRBG_RESEED (R365): after 2^20 requests the count starts again. -/
def execDrbgReseed (s : State) : Out :=
  live s (if 2 ^ 20 ≤ s.sec.drbgRequests then { s with sec := { s.sec with drbgRequests := 0 } } else s)

end Sys2Proof.Machine
end

