-- ==== Sys2Proof/Machine/Factory.lean ====
section
/-!
DEFINITION. Factory: the factory authorization and entry (R433, R434), the mode register (R438, R439, R442) and fault
injection (R304).
-/
namespace Sys2Proof.Machine

/-! ### FACTORY (R433, R434) -/

/-- The checks of R433 on an authorization. -/
def State.factoryOk (s : State) (b : List Byte) : Bool :=
  b.length == 3373 && field b 0 1 == 0x14 && field b 1 1 == 1 && field b 2 1 == s.fuses.ownerEpoch.toNat && allZero (slice b 3 5) &&
  slice b 8 32 == identityDigest && field b 40 3 == s.ledger.resetCount.toNat && allZero (slice b 43 21) &&
  Config.mldsaVerify corathKey (ascii "LNM-FACTORY") (b.take 64) (slice b 64 3309)

/-- FACTORY_AUTH (R433, R453): before the security block is released nothing checks it. -/
def execFactoryAuth (record : List Byte) (s : State) : Out :=
  live s <|
    let s := (s.setPin 6 false)
    let s := { s with test := { s.test with tapInstr := 0x10 } }
    if s.rst.released < 4 || s.mode.factory then s
    else if s.factoryOk record then { s with mode := { s.mode with factoryPending := true } }
    else { s with mode := { s.mode with authRefused := satInc s.mode.authRefused } }

/-- Steps 2 and 3 of R434: session and share go; at the boundary the axis changes and the entry is counted (R447). -/
def State.enterFactory (s : State) : State :=
  let s := s.eraseShare
  let s := { s with sec := { s.sec with session := none, pdDone := 0 } }
  if s.cycle = 0 then
    (({ s with mode := { s.mode with factory := true, factoryPending := false, factoryBeat := s.beat } }).count 0x007 1).event 0x08
      ([5, 0, 1, s.mode.sealedTrust.toNat].map (BitVec.ofNat 8))
  else s

/-- FACTORY_ENTRY (R434): it waits while a mailbox command runs, and for cycle 0. -/
def execFactoryEntry (s : State) : Out :=
  live s (if s.beating && s.mode.factoryPending && !s.sec.busy then s.enterFactory else s)

/-! ### The mode register (R438, R439, R442) -/

/-- A write of 0x108: TWIN_ALL and POWER_REQ, both in effect from the next beat boundary. -/
def State.writeMode (s : State) (v : Word64) (w : AccessWidth) : State :=
  let x := accessWrite w (BitVec.ofNat 64 (s.mode.twinAllNext.toNat + 2 * s.mode.powerReq.toNat)) v
  { s with mode := { s.mode with twinAllNext := x.getLsbD 0, powerReq := x.getLsbD 1 } }

/-- POWER_REQ (R439). -/
def execPowerReq (v : Word64) (w : AccessWidth) (s : State) : Out := live s (if s.hostOpen then s.writeMode v w else s)

/-- TWIN_ALL (R438). -/
def execTwinAll (v : Word64) (w : AccessWidth) (s : State) : Out := live s (if s.hostOpen then s.writeMode v w else s)

/-! ### Injection (R304) -/

/-- INJECTION_ARM (R304, R310): ignored outside FACTORY; ARM is write-only, so it needs a full write. -/
def execInjectionArm (v : Word64) (w : AccessWidth) (s : State) : Out :=
  live s <|
    if !s.hostOpen || !s.mode.factory then s
    else
      let t := s.test
      let old := BitVec.ofNat 64 (t.injMode.toNat * 2 + t.injUnit.toNat * 8 + t.injKind.toNat * 2 ^ 23)
      let x := (accessWrite w old v).toNat
      { s with test := { t with
        injMode := BitVec.ofNat 2 (x / 2), injUnit := BitVec.ofNat 20 (x / 8), injKind := BitVec.ofNat 8 (x / 2 ^ 23)
        injArm := t.injArm || (w == .full && v.getLsbD 0) } }

/-- The kind a unit's own checker raises (R295, R297; log entry 29). -/
def checkerKind (u : Nat) : Nat :=
  let sub := u % 8
  if unitDie u < 4 then
    match unitPart u with
    | 0 => if sub = 4 then 0x20 else if sub = 5 then 0x04 else if sub = 0 || sub = 2 then 0x23 else 0x18
    | 1 => if sub = 6 then 0x15 else 0x10
    | 2 => if sub = 1 then 0x13 else 0x10
    | 3 => if sub = 2 then 0x24 else 0x05
    | 4 => 0x10
    | 5 => 0x00
    | 6 => if sub = 3 then 0x14 else if sub = 5 then 0x30 else if sub = 6 then 0x06 else 0x10
    | _ => if sub < 4 then 0x16 else if sub = 4 then 0x17 else if sub = 5 then 0x01 else 0x10
  else if unitDie u < 8 then
    let stack := decide (unitField u < 2)
    match unitPart u with
    | 1 => if stack then 0x03 else 0x1A
    | 2 => if stack then 0x03 else 0x1A
    | 5 => if stack then 0x40 else if unitField u = 2 then 0x41 else 0x1A
    | 6 => if unitField u = 2 then 0x02 else 0x1A
    | _ => 0x1A
  else 0x1A

/-- The message an armed injection causes (R294, R304). -/
def State.injectedWire (s : State) (kind : Nat) : FaultWire :=
  let u := s.test.injUnit.toNat
  let job := match unitGroup? u with
    | some p => (s.group p).job
    | none => 0
  { word := faultWord u kind 0 0, fireAt := s.now, job := job, addr := 0, poisoned := kindPoisons kind, detSuspect := false, injected := true }

/-- INJECTION_FIRE (R304): in a program window; modes 0 and 1 fire the named checker, mode 2 writes into its collector. -/
def execInjectionFire (s : State) : Out :=
  live s <|
    let t := s.test
    if !s.mode.factory || !t.injArm || !s.beating || windowEnd ≤ s.cycle.toNat || t.injMode = 3 then s
    else
      let s' := { s with test := { t with injArm := false, injFired := satInc t.injFired } }
      if t.injMode = 2 then s'.collect (s.injectedWire t.injKind.toNat)
      else { s' with faults := { s'.faults with wires := s'.faults.wires ++ [s.injectedWire (checkerKind t.injUnit.toNat)] } }

end Sys2Proof.Machine
end

