-- ==== Sys2Proof/Machine/FaultPath.lean ====
section
/-!
DEFINITION. FaultPath: messages reaching collectors and records reaching the device collector (R289 to R293, R300).
-/
namespace Sys2Proof.Machine

/-- The physical group whose transfer in flight reads or writes device address `a` (R290). -/
def State.requester? (s : State) (a : Nat) : Option Nat :=
  (s.clusters.find? fun e => e.2.transfers.any fun t => t.tag.isSome && inRange t.addr t.bytes a).map fun e => e.1 / 32

/-- A message word that reaches its collector in this cycle from outside the model's own checkers: its fire lies 11 cycles
back (R294); its job holds the unit's group or owns the request (R290, R294), its address follows from its TAG (R296). -/
def State.wireOf (s : State) (w : Word64) : FaultWire :=
  let u := w.toNat % 2 ^ 20
  let a := s.tagAddress u (w.toNat / 2 ^ 40)
  let asked := if inRange 4 4 (unitDie u) && unitField u < 3 then s.requester? a else none
  { word := w, fireAt := s.now - 11, via := asked, job := match (if asked.isSome then asked else unitGroup? u) with
      | some p => (s.group p).job
      | none => 0
    addr := a, poisoned := kindPoisons (w.toNat / 2 ^ 20 % 256), detSuspect := false,
    injected := false }

/-- The kinds of a checker of an engine (R86, R98, R111, R121, R126). -/
def checkKind (k : Nat) : Bool := inRange 0x10 8 k || k == 0x19

/-- What a memory's own uncorrectable error, or a check that fails, leaves behind: the line or word is marked (R21, R91, R252,
R255), and the outputs of the command it struck are poisoned, with MEMORY_UNCORRECTABLE or CHECK_FAILED (R53, R86, R98, R111,
R126). A message names a block or a row; its first word stands for the word met (DESIGN CHOICE, log entry 128). -/
def State.noteUnitFault (s : State) (w : Word64) : State :=
  let u := w.toNat % 2 ^ 20
  let a := s.tagAddress u (w.toNat / 2 ^ 40)
  let kind := w.toNat / 2 ^ 20 % 256
  let k := 32 * (unitGroup? u).getD 0 + unitInst u
  if kind = 0x03 && inRange 4 4 (unitDie u) && unitField u < 2 && !s.mem.linePoisoned a then s.loseLine a
  else if kind = 0x02 && inRange 4 4 (unitDie u) && unitField u = 2 && !s.mem.poisonWords.contains (a / 4) then s.loseKeyWord a
  else if (unitGroup? u).isNone || unitPart u = 0 then s
  else if kind ≤ 0x01 then ({ s with mem := s.mem.markWord a } : State).poisonEngine k (unitPart u) 1 (s.now - 11)
  else if checkKind kind then s.poisonEngine k (unitPart u) 0x0C (s.now - 11)
  else s

/-- FAULT_MESSAGE (R289 to R292): the oldest message on its way, or a message word of a checker the model does not
compute, reaches its collector. -/
def execFaultMessage (wire : Option Word64) (s : State) : Out :=
  live s <| match wire with
    | some w => (s.noteUnitFault w).collect (s.wireOf w)
    | none => match s.faults.wires with
      | [] => s
      | w :: rest => ({ s with faults := { s.faults with wires := rest } }).collect w

/-- TEST_MESSAGE (R268, R305): counted at the group's collector; it opens and merges nothing and starts no fence. -/
def execTestMessage (p : Fin 68) (s : State) : Out :=
  live s (s.modCollector (.group p) fun c => { c with testMsgs := satInc c.testMsgs })

/-- DEVICE_COLLECTOR_RECORD (R293, R298 to R300): the next record reaches the device collector. -/
def execDeviceCollectorRecord (s : State) : Out :=
  live s <| match s.faults.toDevice with
    | [] => s
    | w :: rest => ({ s with faults := { s.faults with toDevice := rest } }).deviceRecord w

end Sys2Proof.Machine
end

