-- ==== Sys2Proof/Machine/Transform.lean ====
section
/-!
DEFINITION. Transform: the transform engine's commands and its checksum verdict (R45, R114 to R122).
-/
namespace Sys2Proof.Machine

/-- The shape of TE.FWD and TE.INV (R185). -/
def shTe : Shape :=
  { countHi := 256, walk := true, flagF := true, tagp := true, rset := true, a := kRH, d := kRH }

/-- The modulus of plane `i` of a TE command: the plaintext modulus where F is set (R119). -/
def teModulus (r : ResidueSet) (c : CmdWord) (i : Nat) : Nat :=
  if cmdF c then r.t else r.modulus (cmdR0 c + i % max (cmdW c) 1)

/-- The course of a TE command on the span (R115 to R122): planes pushed at the last push, checksums left for the
verdict, in whose cycle the header is written: the entry stands with that cycle from the issue on. `pre` poisons the outputs
(R232). -/
def State.teRun (s : State) (p : Nat) (c : CmdWord) (x : Ctx) (t : Nat) (ks : List Nat) (pre : Nat) (inverse : Bool) : State :=
  let k0 := ks.headD 0
  let r := x.rset (cmdRset c)
  let n := cmdCount c
  let per := x.share / 64
  let (occ, last1, verdict) := teCosts x.prog.log2n
  let last := t + last1 + occ * (n - 1)
  let input := s.spanInput ks (cmdA c) (n * per)
  let form := if inverse then FormRule.toCoef else FormRule.toEval
  -- τ must be ≡ 1 (mod 2N) (R119)
  let noRoot := cmdF c && r.t % 2 ^ (x.prog.log2n + 1) != 1
  let v := if input.obj then judge (s.headCtx k0 x c 1) .keep form [input] 0 { form := noRoot }
    else if input.code = 0 && noRoot then ⟨{}, 4, true⟩ else ⟨{}, input.code, false⟩
  let s := s.refuseSpan k0 2 c t v
  -- four rows a cycle (R118)
  let start := fun i => t + occ * i
  let (cr, s) := s.spanChecks ks 2 c (planeReads n per 4 start) (n * per) t last
  let planes := (List.range n).map fun i => s.spanPlane ks (cmdA c) x.share i (start i) 4
  let bad := pre == 0 && v.code == 0 && cr == 0 && (planes.zipIdx).any fun e => e.1.any fun w => decide (teModulus r c e.2 ≤ w)
  let (rr, s) := s.operandRange k0 2 (cmdA c) (cmdOp c) t bad
  let code := firstCode [v.code, pre, cr, rr]
  let kk := x.prog.log2n
  let outs := (planes.zipIdx).map fun e =>
    let q := teModulus r c e.2
    if inverse then toCoefForm q kk e.1 else toEvalForm q kk e.1
  let outs' := match cmdD c with
    | .ring rg => ks.map fun k => (k, rg, s.outTail k (cmdD c), n * per)
    | _ => []
  let s := (outs.zipIdx).foldl (fun s e => s.pushPlane ks (cmdD c) x.share (last - occ * (n - 1 - e.2)) e.1 code) s
  let sums := if code ≠ 0 then [] else ((planes.zip outs).zipIdx).map fun e =>
    let q := teModulus r c e.2
    let w := if inverse then invSums q kk e.1.1 e.1.2 else fwdSums q kk e.1.1 e.1.2
    ({ q := q, sum0 := w.1.1, want0 := w.1.2, sum1 := w.2.1, want1 := w.2.2 } : PlaneSums)
  let due : TeVerdict := { at_ := last + verdict, cmd := c, sums := sums, hdr := if input.obj then some v.hdr else none,
                           code := code, rows := n * per, inverse := inverse, outs := outs' }
  let s := s.modUnit p fun u => { u with teVerdicts := u.teVerdicts ++ [due] }
  let hdr := if input.obj then some (if code ≠ 0 then v.hdr.poison' code else v.hdr) else none
  let sg := s.operandSegment k0 (cmdA c)
  let carried := !input.obj && (sg.map (·.carried)).getD false
  ks.foldl (fun s k =>
    let s := s.popOperandRuns k (cmdA c) (n * per) (planeRuns n per 4 start)
    let s := (s.noteWork k 2 (cmdD c) (n * per) t last).closeOutput k (cmdD c) (n * per) code (last + verdict)
      (if carried && !s.operandIsObject k (cmdD c) then sg.map fun g => { g.hdr with eval := !inverse }
       else if cmdD c == .handover || s.operandIsObject k (cmdD c) then hdr else none) (carried && !s.operandIsObject k (cmdD c))
    s.occupy k 2 (t + occ * n)) s

/-- TE.FWD (R115 to R120). -/
def execTeFwd (g : Fin 68) (c : CmdWord) (s : State) : Out :=
  live s (s.groupCommand g c shTe [2] (fun _ _ => true) fun s x t ks pre => s.teRun g c x t ks pre false)

/-- TE.INV (R115 to R119, R121). -/
def execTeInv (g : Fin 68) (c : CmdWord) (s : State) : Out :=
  live s (s.groupCommand g c shTe [2] (fun _ _ => true) fun s x t ks pre => s.teRun g c x t ks pre true)

/-- A plane's two sums hold when its first sum is `disturb` off (R120, R121). -/
def sumsHold (disturb : Nat) (p : PlaneSums) : Bool :=
  (p.sum0 + disturb) % max p.q 1 == p.want0 && p.sum1 == p.want1

/-- TE_CHECKSUM_VERDICT (R122): the group's oldest TE command whose verdict is due, in its verdict cycle. A sum that `disturb`
puts off its value raises TRANSFORM_CHECKSUM and poisons the command's output, and of a fused command what its later members
wrote. A verdict of a beat to come does not fall yet. -/
def execTeChecksumVerdict (g : Fin 68) (disturb : Word32) (s : State) : Out :=
  live s <| match (s.unit g).teVerdicts with
    | [] => s
    | d :: rest =>
      if s.beat.toNat < beatOf d.at_ then s
      else
        let s := (s.reachAbs d.at_).modUnit g fun u => { u with teVerdicts := rest }
        if d.sums.all (sumsHold disturb.toNat) then s
        else d.outs.foldl (fun s e => s.poisonOut e.1 e.2.1 e.2.2.1 e.2.2.2 0x0C)
          (s.clusterFault (32 * g) 2 1 0x13 (cmdOp d.cmd) 0 0 d.at_ true)

end Sys2Proof.Machine
end

