-- ==== Sys2Proof/Machine/Fuse.lean ====
section
/-!
DEFINITION. Fuse: fused chains of engine commands (R186).
-/
namespace Sys2Proof.Machine

/-- How a command runs as a member: its shape and engines, the clusters of cluster `k`'s that issue it together, its own issue
check and what Sheepdog refuses, its effect at a start cycle with the code that poisons it, and the cycles from its start to its
first push. -/
structure Member where
  sh : Shape
  engines : List Nat
  clusters : State → Nat → List Nat := fun _ k => [k]
  own : State → Nat → Ctx → Bool := fun _ _ _ => true
  bar : State → Nat → Ctx → Nat → Barred := fun _ _ _ _ => none
  run : State → Nat → Ctx → Nat → List Nat → Nat → State
  first : Nat := 0

/-- Cycles from issue to the first push (R106, R117): one row a cycle up to the last push. -/
def teFirst (x : Ctx) : Nat := (teCosts x.prog.log2n).2.1 - x.perPlane + 1

/-- The clusters of a span, and the lead clusters of its groups. -/
def spanOf (s : State) (k : Nat) : List Nat := s.spanClusters (k / 32)
@[inherit_doc spanOf] def leadsOf (s : State) (k : Nat) : List Nat := (s.spanGroups (k / 32)).map (32 * ·)
/-- The clusters of cluster `k`'s group. -/
def groupOf (_ : State) (k : Nat) : List Nat := groupClusters (k / 32)

/-- The member a command word names (R179, R185); FUSE itself and reserved pairs are none. -/
def memberOf (x : Ctx) (c : CmdWord) : Option Member :=
  let v := fun (s : State) k => wordValue (s.cluster k) c % 2 ^ 32
  match cmdEngine c, cmdOpcode c with
  | 1, 1 => some { sh := shChain, engines := [1], first := 28, run := fun s k x t _ _ => s.chainRun k c x t
                   own := fun s k x => tailOk c && chainOk (s.cluster k) (x.rset (cmdRset c)) x.share c (s.cluster k).nextAt }
  | 1, 2 => some { sh := shTensor, engines := [1], own := fun _ _ _ => tailOk c, run := fun s k x t _ _ => s.tensorRun k c x t, first := 28 }
  | 1, 3 => some { sh := shRescale, engines := [1, 2], clusters := spanOf, run := fun s _ x t ks pre => s.switchRun c x t ks pre false, first := 28 }
  | 1, 4 => some { sh := shRescale, engines := [1, 2], clusters := spanOf, run := fun s _ x t ks pre => s.switchRun c x t ks pre true, first := 28 }
  | 1, 5 => some { sh := shCvtin, engines := [1], first := 28, run := fun s k x t _ _ => s.cvtinRun k c x t
                   own := fun s k _ => tailOk c && decide (v s k < 256) && decide (-32 ≤ signedOf 8 (v s k) ∧ signedOf 8 (v s k) ≤ 63) }
  | 1, 6 => some { sh := shCvtout, engines := [1], first := 28, run := fun s k x t _ _ => s.cvtoutRun k c x t
                   own := fun s k _ => tailOk c && cmdR0 c == 0 && decide (cmdW c ≤ 4) && decide (v s k < 256) }
  | 1, 7 => some { sh := shGather, engines := [1], own := fun s k _ => decide (v s k < 2 ^ 31), run := fun s k _ t _ _ => s.gatherRun k c t, first := 31 }
  | 1, 8 => some { sh := shAuto, engines := [1], clusters := spanOf, first := 71, run := fun s _ x t ks pre => s.autoRun c x t ks pre
                   own := fun s k x => v s k % 2 == 1 && decide (v s k < 2 ^ (x.prog.log2n + 1)) }
  | 1, 9 => some { sh := shFill, engines := [1], own := fun _ _ _ => tailOk c, run := fun s k x t _ _ => s.fillRun k c x t, first := 10 }
  | 1, 10 => some { sh := shLdprog, engines := [1], own := fun _ _ _ => decide (cmdSpec c + cmdCount c ≤ 64)
                    run := fun s k _ t _ _ => s.ldprogRun k c t }
  | 1, 11 => some { sh := shLdconst, engines := [1], own := fun _ _ _ => decide (8 * cmdR0 c + cmdCount c ≤ 640)
                    run := fun s k x t _ _ => s.ldconstRun k c x t }
  | 2, 1 => some { sh := shTe, engines := [2], clusters := spanOf, run := fun s k x t ks pre => s.teRun (k / 32) c x t ks pre false, first := teFirst x }
  | 2, 2 => some { sh := shTe, engines := [2], clusters := spanOf, run := fun s k x t ks pre => s.teRun (k / 32) c x t ks pre true, first := teFirst x }
  | 3, 1 => some { sh := shLoad, engines := [3], own := fun s k x => s.suOk k x c false, run := fun s k x t _ _ => s.suRun k c x t false
                   bar := fun s k x _ => s.suBar k c x (s.suPlan k c false).1 }
  | 3, 2 => some { sh := shLoads, engines := [3], clusters := groupOf, own := fun s k _ => s.suAligned k c .hbm
                   bar := fun s k x _ => s.loadsBar k x c
                   run := fun s k x t ks pre => s.loadsRun c x t (s.suAddress k c .hbm) ks pre }
  | 3, 3 => some { sh := shStore, engines := [3], own := fun s k x => s.suOk k x c true, run := fun s k x t _ _ => s.suRun k c x t true
                   bar := fun s k x _ => s.suBar k c x (s.suPlan k c true).1 }
  | 3, 4 => some { sh := shArm, engines := [3], run := fun s k x t _ _ => s.armRun k c x t, bar := fun s k x _ => s.armBar k c x }
  | 3, 5 => some { sh := shRelay, engines := [3], own := fun s k x => s.relayOk k c x, run := fun s k x t _ _ => s.relayRun k c x t }
  | 3, 6 => some { sh := shKfill, engines := [3], own := fun _ _ x => (x.keyDecl? (cmdSpec c)).any fun d => !d.fromHbm
                   bar := fun s _ x _ => if (s.kfillOf x c).isSome then none else some (2, 3, 0)
                   run := fun s k x t _ _ => s.kfillRun k c x t }
  | 3, 7 => some { sh := shPip, engines := [3], first := 16, bar := fun s k x _ => s.pipBar k c x, run := fun s k x t _ _ => s.pipRun k c x t
                   own := fun s k x => walkOk (x.rset (((s.operandSegment k (cmdA c)).map fun g => g.hdr.rset).getD 0)) (cmdR0 c) (cmdW c) }
  | 3, 8 => some { sh := shTile, engines := [3], own := fun _ _ _ => (tileOperands c).isSome, bar := fun s k _ _ => s.tileBar k c
                   run := fun s k x t _ _ => s.tileRun k c x t }
  | 4, 1 => some { sh := shMove, engines := [4], bar := fun s k x _ => s.gxMoveBar k c x, run := fun s k x t _ _ => s.gxMoveRun k c x t, first := 19 }
  | 4, 2 => some { sh := shBcast, engines := [4], clusters := groupOf, run := fun s _ _ t ks pre => s.gxBcastRun c t ks pre, first := 19 }
  | 6, 1 => some { sh := shBconv, engines := [6], own := fun s k x => bconvOk (x.rset (cmdRset c)) c (convFields (v s k))
                   bar := fun s k _ _ => s.bconvBar k c, run := fun s k x t _ _ => s.bconvRun k c x t }
  | 6, 2 => some { sh := { shKip with anyWalk := true }, engines := [6], own := fun s k x => cmdR0 c == 0 && kipOk x c (kipFields (v s k))
                   bar := fun s k x _ => s.kipBar k c x, run := fun s k x t _ _ => s.kipRun k c x t }
  | 6, 3 => some { sh := shCombine, engines := [6, 9], clusters := leadsOf, run := fun s _ x t ks pre => s.combineRun c x t ks pre
                   own := fun s k x => v s k % 2 == 1 && decide (v s k < 2 ^ (x.prog.log2n + 1)) }
  | 8, 1 => some { sh := shRef, engines := [8], own := fun _ _ x => refOk x c, run := fun s k x t _ _ => s.refRunRun k c x t
                   bar := fun s k _ t => if s.refreshFree (s.refreshGroups (k / 32) (refSpan c)) t then none else some (5, 6, 0) }
  | _, _ => none

/-- The shape of FUSE itself (R185). -/
def shFuse : Shape := { countLo := 2, countHi := 4 }

/-- Output D is coded H exactly when the next member's input A is (R186); the first takes and the last gives none. -/
def handoversOk : Bool → List CmdWord → Bool
  | given, [] => !given
  | given, c :: cs => (cmdA c == .handover) == given && handoversOk (cmdD c == .handover) cs

/-- No value occurs twice. -/
def distinct : List Nat → Bool
  | [] => true
  | a :: l => !l.contains a && distinct l

/-- The start cycle of each member (R186): the last member's issue cycle, or for a hand-over input the cycle that puts its
cycle 6 one after its producer's first push. -/
def memberStarts (t : Nat) : Option Nat → List (CmdWord × Member) → List Nat
  | _, [] => []
  | prev, (c, m) :: ms =>
    let start := match prev with
      | some p => if cmdA c == .handover then p + 1 - 6 else t
      | none => t
    start :: memberStarts t (some (start + m.first)) ms

/-- Run one member on the clusters of a fused command: a member that clusters issue together once, another on each cluster it
may issue on. -/
def State.runMember (s : State) (x : Ctx) (ks : List Nat) (c : CmdWord) (m : Member) (t pre : Nat) : State :=
  let k0 := ks.headD 0
  let together := m.clusters s k0
  let lead := m.sh.lead || usesTile c
  if 1 < together.length then m.run s k0 x t together pre
  else (ks.filter fun k => !lead || k % 32 == 0).foldl (fun s k => match s.ctx? k with
    | some x => m.run s k x t [k] pre
    | none => s) s

/-- What the members behind a TE member wrote waits for the TE's verdict with it (R122, R186). -/
def State.extendVerdict (s : State) (ks : List Nat) : List CmdWord → State
  | [] => s
  | c :: later =>
    let s := s.extendVerdict ks later
    if cmdEngine c ≠ 2 then s
    else
      let rings := later.filterMap fun d => (cmdD d).ringNo?
      let outs := ks.flatMap fun k => rings.filterMap fun r => (s.ring k r).note.map fun n => (k, r, n.first, n.rows)
      s.modUnit (ks.headD 0 / 32) fun u => { u with teVerdicts := match u.teVerdicts.reverse with
        | v :: rest => (({ v with outs := v.outs ++ outs } : TeVerdict) :: rest).reverse
        | [] => [] }

/-- Empty the hand-over buffers of the clusters' groups. -/
def State.clearHandover (s : State) (ks : List Nat) : State :=
  (((ks.map (· / 32)).foldl insertNew []).flatMap groupClusters).foldl (fun s k => s.modCluster k fun c =>
    { c with handover := [], handoverHdr := none, handoverObj := false, handoverAt := [], handoverLate := false }) s

/-- The clusters that issue a fused command of cluster `k`: those that issue some member together. -/
def fuseClusters (s : State) (k : Nat) (ms : List (CmdWord × Member)) : List Nat :=
  ms.foldl (fun (ks : List Nat) m => let l := m.2.clusters s k; if ks.length < l.length then l else ks) [k]

/-- The fields of a fused command and of its members agree with R179 to R186. -/
def State.fuseOk (s : State) (k : Nat) (x : Ctx) (c : CmdWord) (cs : List CmdWord) (ms : List (CmdWord × Member)) : Bool :=
  shapeOk x shFuse c true && cmdCount c == cs.length && ms.length == cs.length &&
  distinct (ms.map fun e => e.2.engines.headD 0) && handoversOk false cs &&
  ms.all fun e => shapeOk x e.2.sh e.1 (k % 32 == 0) && !s.residentBreach k x e.1 && e.2.own s k x

/-- What Sheepdog refuses a fused command for (R172, R231): the member, the check, the engine and the ring. -/
def State.fuseBar (s : State) (ks : List Nat) (k : Nat) (x : Ctx) (t : Nat) (ms : List (CmdWord × Member)) : Option (CmdWord × Nat × Nat × Nat) :=
  ms.findSome? fun e =>
    let engine := engineCode (e.2.engines.headD 0)
    match ks.findSome? fun k' => s.undeclared k' e.1 with
    | some r => some (e.1, 2, engine, r)
    | none => match e.2.engines.find? fun g => !s.enginesFree ks [g] t || decide (1 < (ms.flatMap fun e => e.2.engines).count g) with
      | some g => some (e.1, 5, engineCode g, 0)
      | none => (e.2.bar s k x t).map fun b => (e.1, b)

/-- FUSE (R186): m + 1 issue cycles; the members run in chain order, stamped with the last one's issue. Where other clusters
issue the command together with a lead cluster that has a member of its own, theirs fail the issue check. -/
def State.fuse (s : State) (k : Nat) (c : CmdWord) (cs : List CmdWord) : State :=
  let words := 4 * (cs.length + 1)
  let cost := cs.length + 1
  s.item k words cost (cmdOp c) fun s =>
    match s.ctx? k with
    | none => s
    | some x =>
      let t0 := (s.cluster k).nextAt
      let t := t0 + cs.length
      let ms := cs.filterMap fun c => (memberOf x c).map fun m => (c, m)
      let ks := fuseClusters s k ms
      let barred := ks.filter fun k' => k' % 32 != 0 && ms.any fun e => e.2.sh.lead || usesTile e.1
      let issuing := (s.ready ks words cost t0).filter fun k' => !barred.contains k'
      let refused := barred.foldl (fun s k' => (s.issueFault k' 0x23 (cmdOp c)).advance k' words cost) s
      let passed := issuing.foldl (fun s k' => s.advance k' words cost) refused
      if !s.fuseOk k x c cs ms then (s.issueFault k 0x23 (cmdOp c)).advance k words cost
      else match s.fuseBar ks k x t ms with
        | some (d, b) => passed.violate k b.1 b.2.1 b.2.2 (cmdOp d) t 0 true
        | none =>
          let next := issuing.foldl (fun s k' => s.stamp k' t) passed
          let together := s.together ks words cost t0 && barred == []
          let next := if together then next else next.violate k 4 (engineCode (cmdEngine (cs.headD c))) 0 (cmdOp c) t 0 false
          let pre := if together then 0 else 0x0C
          let ran := (ms.zip (memberStarts t none ms)).foldl (fun s e => s.runMember x ks e.1.1 e.1.2 e.2 pre) (next.clearHandover ks)
          ran.extendVerdict ks cs

/-- FUSE (R186). -/
def execFuse (k : ClusterId) (c : CmdWord) (members : List CmdWord) (s : State) : Out :=
  live s (s.fuse k.num c members)

end Sys2Proof.Machine
end

