-- ==== Sys2Proof/Machine/Observe.lean ====
section
/-!
DEFINITION. Observe: the observation selections (R451, R452), the test access port (R424, R453, R454) and the sideband
(R463, R466).
-/
namespace Sys2Proof.Machine

/-! ### Observation pins (R451, R452) -/

/-- The class of a selection (R451). -/
inductive ObsClass where
  | whitelist | diagnostic | factoryData
deriving DecidableEq, Repr

/-- The class of a digital selection; none for a reserved code. -/
def obsClass (code : Nat) : Option ObsClass :=
  if code < 4 then some .whitelist else if inRange 0x10 6 code then some .diagnostic else if inRange 0x20 2 code then some .factoryData else none

/-- The class of an analog selection. -/
def anaClass (code : Nat) : Option ObsClass := if code = 0 then some .whitelist else if code < 4 then some .diagnostic else none

/-- The state permits a class (R435, R451). -/
def State.permits (s : State) : Option ObsClass → Bool
  | none => false
  | some .whitelist => true
  | some .diagnostic => !s.mode.sealedTrust
  | some .factoryData => s.mode.factory && !s.mode.sealedTrust

/-- A refused selection is counted. -/
def State.refuseSelection (s : State) : State := { s with test := { s.test with selRefused := satInc s.test.selRefused } }

/-- The selection a write makes: bits [15:0]. -/
def selected (w : AccessWidth) (old : BitVec 16) (v : Word64) : BitVec 16 := (accessWrite w (old.zeroExtend 64) v).truncate 16

/-- OBS_SEL (R452). -/
def execObsSel (pin : Fin 4) (v : Word64) (w : AccessWidth) (s : State) : Out :=
  live s <|
    if !s.hostOpen then s
    else
      let x := selected w (s.test.obsSel.at pin 0) v
      if s.permits (obsClass (x.toNat % 256)) then { s with test := { s.test with obsSel := s.test.obsSel.put pin x } } else s.refuseSelection

/-- ANA_SEL (R452). -/
def execAnaSel (v : Word64) (w : AccessWidth) (s : State) : Out :=
  live s <|
    if !s.hostOpen then s
    else
      let x := selected w s.test.anaSel v
      if s.permits (anaClass (x.toNat % 256)) then { s with test := { s.test with anaSel := x } } else s.refuseSelection

/-! ### The test access port (R424, R453, R454) -/

/-- The TAP takes an instruction: TRST_N has been released (R463). -/
def State.tap (s : State) (code : Byte) : State :=
  let s := s.setPin 6 false
  { s with test := { s.test with tapInstr := code } }

/-- EXTEST, CLAMP and HIGHZ act with RESET_N low, HALTED set, or tripped. -/
def State.boundaryOpen (s : State) : Bool := s.pins.active.getLsbD 0 || s.rst.halted || s.rst.tripped

/-- A refused instruction acts as BYPASS and is counted. -/
def State.refuseJtag (s : State) : State :=
  let s := s.tap 0xFF
  { s with test := { s.test with jtagRefused := satInc s.test.jtagRefused } }

/-- The ball levels a capture takes: free values where the model holds no level (log entry 4). -/
def State.captureBalls (s : State) (n : Nat) : State :=
  { s with free := s.free + n, test := { s.test with tdo := (List.range n).map fun i => Config.boundaryBit (s.free + i) } }

/-- EXTEST (R453). -/
def execExtest (s : State) : Out :=
  live s (if s.boundaryOpen then (s.tap 0x00).captureBalls s.test.boundary.length else s.refuseJtag)

/-- SAMPLE_PRELOAD (R453): the balls are captured and shifted out, the boundary register takes what is shifted in. -/
def execSamplePreload (bits : List Bool) (s : State) : Out :=
  live s <|
    let s := (s.tap 0x01).captureBalls bits.length
    { s with test := { s.test with boundary := bits } }

/-- The identification register (R453). -/
def idcodeWord : Nat := 0xB * 2 ^ 28 + 0x2048 * 2 ^ 12 + 0x4C7 * 2 + 1

/-- IDCODE (R453). -/
def execIdcode (s : State) : Out :=
  live s <|
    let s := s.tap 0x02
    { s with test := { s.test with tdo := (List.range 32).map idcodeWord.testBit } }

/-- CLAMP (R453). -/
def execClamp (s : State) : Out := live s (if s.boundaryOpen then s.tap 0x03 else s.refuseJtag)

/-- HIGHZ (R453). -/
def execHighz (s : State) : Out := live s (if s.boundaryOpen then s.tap 0x04 else s.refuseJtag)

/-- BYPASS (R453): the one-bit register. -/
def execBypass (tdi : Bool) (s : State) : Out :=
  live s <|
    let s := s.tap 0xFF
    { s with test := { s.test with tdo := [s.test.bypassBit], bypassBit := tdi } }

/-- DEBUG_RESET (R424, R435): a 1 resets the device in OPEN trust or in FACTORY, else it is counted. -/
def execDebugReset (bit : Bool) (s : State) : Out :=
  .next <|
    if s.rst.scanDumped && !bit then s
    else
      let s := s.tap 0x11
      if !bit then s
      else if !s.mode.sealedTrust || s.mode.factory then (s.writeNow 0x0C (stopBody 2 5 0)).resetSource 5
      else { s with test := { s.test with jtagRefused := satInc s.test.jtagRefused } }

/-- SCAN_DUMP (R453, R454): in FACTORY, OPEN and HALTED; the device's state is undefined from then on. -/
def execScanDump (s : State) : Out :=
  live s <|
    if s.mode.factory && !s.mode.sealedTrust && s.rst.halted then
      let s := s.tap 0x12
      { s with rst := { s.rst with scanDumped := true } }
    else s.refuseJtag

/-! ### The sideband (R463, R466) -/

/-- The target answers a read, from the release of management on. -/
def State.sideband (s : State) (x : Nat) : State :=
  if s.rst.released = 0 then s else { s with pins := { s.pins with sbAnswer := BitVec.ofNat 16 x } }

/-- The status byte (R466). -/
def State.statusByte (s : State) : Nat :=
  s.rst.hostReady.toNat + 2 * s.rst.halted.toNat + 4 * s.rst.tripped.toNat + 8 * (!s.faults.faultN).toNat + 16 * s.mode.capped.toNat +
  32 * s.mode.sealedTrust.toNat

/-- STATUS (R466). -/
def execStatus (s : State) : Out := live s (s.sideband s.statusByte)

/-- TJ (R466). -/
def execTj (s : State) : Out := live s (s.sideband s.power.tjMax.toNat)

/-- STEP, as SMBus reads it (R466). -/
def execSbStep (s : State) : Out := live s (s.sideband s.power.stepCode.toNat)

/-- CAUSE (R466). -/
def execCause (s : State) : Out := live s (s.sideband s.rst.rstCause.toNat)

/-- POWER (R466). -/
def execPower (s : State) : Out := live s (s.sideband s.power.pkgPower.toNat)

/-- ALERT (R466): cleared by the read. -/
def execAlert (s : State) : Out :=
  live s <|
    if s.rst.released = 0 then s
    else
      let t := s.sideband s.pins.sbAlert.toNat
      { t with pins := { t.pins with sbAlert := 0 } }

/-- SMBUS_TIMEOUT (R463): the interface forgets the transfer under way. -/
def execSmbusTimeout (s : State) : Out := live s { s with pins := { s.pins with sbAnswer := 0 } }

end Sys2Proof.Machine
end

