-- ==== Sys2Proof/Machine/Register.lean ====
section
/-!
DEFINITION. Register: a write of a BAR0 register (R310, R332 to R334, R306, R401, R430, R442, R450, R452, R259, R370).
A write at the offset of a register that has a row of its own does what that row does; a write of a read-only register
or of an offset that no block decodes is ignored.
-/
namespace Sys2Proof.Machine

/-! ### Queue and credit status (R332) -/

/-- The quotas' sum with function `f`'s set to `q` is at most 4,096 (R316). -/
def State.quotaFits (s : State) (f q : Nat) : Bool :=
  decide (((List.range 17).map fun i => if i = f then q else (s.func i).quota.toNat).sum ≤ 4096)

/-- QUOTA_f: ignored if the sum breaks, or while the function has entries in the FIFO (R332). -/
def State.writeQuota (s : State) (f : Nat) (v : Word64) (w : AccessWidth) : State :=
  let q := (accessWrite w ((s.func f).quota.zeroExtend 64) v).truncate 13
  if s.quotaFits f q.toNat && s.inFifo f == 0 then s.modFunc f fun x => { x with quota := q } else s

/-- ALLOT_BASE_f (R332): in units of 64 KiB. -/
def State.writeAllotBase (s : State) (f : Nat) (v : Word64) (w : AccessWidth) : State :=
  let x := accessWrite w (((s.func f).allotBase.zeroExtend 64) <<< 16) v
  s.modFunc f fun g => { g with allotBase := (x >>> 16).truncate 22 }

/-- ALLOT_LEN_f (R332): at most 64 GiB, and changed only while the VF has no areas. -/
def State.writeAllotLen (s : State) (f : Nat) (v : Word64) (w : AccessWidth) : State :=
  let n : BitVec 21 := ((accessWrite w (((s.func f).allotLen.zeroExtend 64) <<< 16) v) >>> 16).truncate 21
  if n.toNat ≤ 2 ^ 20 && s.host.areas.all fun e => e.2.owner != f then s.modFunc f fun g => { g with allotLen := n } else s

/-- The block at 0x2_0000; quotas, allotments and BAR2_BASE are the PF's only. -/
def State.writeQueueBlock (s : State) (fn o : Nat) (v : Word64) (w : AccessWidth) : State :=
  if o = 0x20 then
    s.modFunc fn fun f => { f with creditThreshold := (accessWrite w (f.creditThreshold.zeroExtend 64) v).truncate 13 }
  else if fn ≠ 0 then s
  else if o = 0x28 then
    let b := (accessWrite w (s.host.bar2Base.zeroExtend 64) v).toNat % 256
    if b ≤ 128 then { s with host := { s.host with bar2Base := BitVec.ofNat 8 b } } else s
  else if inRange 0x100 0x220 o then
    let f := (o - 0x100) / 32
    match (o - 0x100) % 32 with
    | 0 => s.writeQuota f v w
    | 8 => if f = 0 then s else s.writeAllotBase f v w
    | 16 => if f = 0 then s else s.writeAllotLen f v w
    | _ => s
  else s

/-! ### Rings (R333) -/

/-- BASE, ignored while EN is 1. -/
def HostRing.setBase (r : HostRing) (v : Word64) (w : AccessWidth) : HostRing :=
  if r.enabled then r else { r with base := accessWrite w r.base v &&& 0xFFFFFFFFFFFFF000 }

/-- HEAD, of `bits` bits. -/
def HostRing.setHead (r : HostRing) (v : Word64) (w : AccessWidth) (bits : Nat) : HostRing :=
  { r with head := BitVec.ofNat 16 ((accessWrite w (r.head.zeroExtend 64) v).toNat % 2 ^ bits) }

/-- The word of LOG2 and EN as it stands. -/
def HostRing.controlWord (r : HostRing) : Word64 := BitVec.ofNat 64 (r.log2.toNat + (if r.enabled then 256 else 0))

/-- The block at 0x3_0000: a moved HEAD frees entries, which the backlog takes at BACKLOG_DRAIN (R323). -/
def Func.writeRings (f : Func) (o : Nat) (v : Word64) (w : AccessWidth) : Func :=
  match o with
  | 0x00 => { f with cq := f.cq.setBase v w }
  | 0x08 => { f with cq := f.cq.control (accessWrite w f.cq.controlWord v) 5 }
  | 0x10 => { f with cq := f.cq.setHead v w 16 }
  | 0x20 => { f with rq := f.rq.setBase v w }
  | 0x28 => { f with rq := f.rq.control (accessWrite w f.rq.controlWord v) 4 }
  | 0x30 => { f with rq := f.rq.setHead v w 12 }
  | _ => f

/-! ### MSI-X (R334) -/

/-- A write of the table: entry v's address at word 2v, its data and vector control at word 2v + 1; clearing the mask
bit sends a waiting message (R328). -/
def State.writeMsix (s : State) (fn i : Nat) (v : Word64) (w : AccessWidth) : State :=
  let old : Word64 := (s.func fn).msixTable.at i (if i % 2 = 0 then 0 else 0x100000000)
  let x := accessWrite w old v
  let s := s.modFunc fn fun f => { f with msixTable := f.msixTable.put i x }
  if i % 2 = 0 then s
  else
    let s := s.modFunc fn fun f =>
      { f with msixMask := if x.getLsbD 32 then setBit f.msixMask (i / 2) else clearBit f.msixMask (i / 2) }
    s.releaseMessage fn (i / 2)

/-- EV_VECTOR_k of a source the function has. -/
def State.writeVector (s : State) (fn k : Nat) (v : Word64) (w : AccessWidth) : State :=
  if sourcesOf fn ≤ k then s
  else s.modFunc fn fun f =>
    { f with evVector := f.evVector.setIfInBounds k ((accessWrite w (((f.evVector.toList.getD k 0)).zeroExtend 64) v).truncate 6) }

/-! ### Mode, power and clock (R430) -/

/-- SENSOR_SELECT and RAIL_SELECT. -/
def PowerUnit.select (p : PowerUnit) (o : Nat) (v : Word64) (w : AccessWidth) : PowerUnit :=
  match o with
  | 0x20 => { p with sensorSelect := (accessWrite w (p.sensorSelect.zeroExtend 64) v).truncate 6 }
  | 0x30 => { p with railSelect := (accessWrite w (p.railSelect.zeroExtend 64) v).truncate 4 }
  | _ => p

/-! ### Configuration report (R401) -/

/-- The read-write registers of the block. -/
def ConfigUnit.write (c : ConfigUnit) (o : Nat) (v : Word64) (w : AccessWidth) : ConfigUnit :=
  match o with
  | 0x30 =>
    let x := accessWrite w (BitVec.ofNat 64 (c.reportIndex.toNat + (if c.reportStaged then 256 else 0))) v
    { c with reportIndex := x.truncate 8, reportStaged := x.getLsbD 8 }
  | 0x60 => { c with stageAddr := (accessWrite w (c.stageAddr.zeroExtend 64) v).truncate 48 }
  | 0x68 => { c with stageLen := (accessWrite w (c.stageLen.zeroExtend 64) v).truncate 25 }
  | _ => c

/-- The three GO bits of 0x70 in the order of their bits: each does what its own row does. -/
def State.writeStaging (s : State) (v : Word64) (w : AccessWidth) : State :=
  if w != .full then s
  else
    let s := if v.getLsbD 0 then s.stageGo else s
    let s := if v.getLsbD 1 then s.adoptGo else s
    if v.getLsbD 2 && s.cfg.adoptState == 1 then s.abortAdoption 0x13 else s

/-! ### Mailbox (R370) -/

/-- CMD and GO, and the request window, which is taken as written (R370). GO starts the command of CMD. -/
def State.writeMailbox (s : State) (o : Nat) (v : Word64) (w : AccessWidth) : State :=
  if o = 0 then
    let s := { s with sec := { s.sec with cmd := (accessWrite w (s.sec.cmd.zeroExtend 64) v).truncate 8 } }
    if w == .full && v.getLsbD 8 then s.mailboxGo s.sec.cmd.toNat else s
  else if inRange 0x1000 0x1000 o then
    let at_ := o - 0x1000 + (if w == .highHalf then 4 else 0)
    let n := if w == .full then 8 else 4
    { s with sec := { s.sec with request := ramWriteN s.sec.request at_ (leBytes n (v.toNat % 2 ^ (8 * n))) } }
  else s

/-! ### Memory system (R259) -/

/-- RETIRED_INDEX, PATROL_EN and PATROL_HOURS (0 applied as 1, above 24 as 24), PC_SELECT. -/
def MemorySystem.write (m : MemorySystem) (o : Nat) (v : Word64) (w : AccessWidth) : MemorySystem :=
  match o with
  | 0x10 => { m with retiredIndex := (accessWrite w (m.retiredIndex.zeroExtend 64) v).truncate 27 }
  | 0x20 =>
    let x := accessWrite w (BitVec.ofNat 64 (m.patrolEn.toNat + 2 * m.patrolHours.toNat)) v
    { m with patrolEn := x.getLsbD 0, patrolHours := BitVec.ofNat 5 (max 1 (min 24 (x.toNat / 2 % 32))) }
  | 0x30 => { m with pcSelect := (accessWrite w (m.pcSelect.zeroExtend 64) v).truncate 8 }
  | _ => m

/-! ### The whole of BAR0 -/

/-- The row whose command a write at an offset is, for the registers that have a row of their own: what it answers. -/
def rowWrite (fn : Fin 17) (o : Nat) (v : Word64) (w : AccessWidth) (s : State) : Option Out :=
  let pf := fn.val = 0
  if o = 0x40010 then some (execEvMaskWrite fn v w s)
  else if o = 0x40018 then some (execEvSet fn v w s)
  else if o = 0x40020 then some (execEvComplete fn v w s)
  else if !pf then none
  else match o with
    | 0x50000 => some (execStickyClear 0 v w s)
    | 0x50008 => some (execStickyClear 1 v w s)
    | 0x50010 => some (execStickyClear 2 v w s)
    | 0x50028 => some (if w == .highHalf then live s s else execLogTailWrite (v.truncate 32) s)
    | 0x60000 => some (execHostStep v w s)
    | 0x60048 => some (if v.getLsbD 0 then execSwReset v w s else execHalt v w s)
    | 0x60108 => some (execPowerReq v w s)
    | 0x80020 => some (if v.getLsbD 0 then execFlushNow w s else live s s)
    | 0x80038 => some (execWindowOffset v w s)
    | 0xC0000 => some (execObsSel 0 v w s)
    | 0xC0008 => some (execObsSel 1 v w s)
    | 0xC0010 => some (execObsSel 2 v w s)
    | 0xC0018 => some (execObsSel 3 v w s)
    | 0xC0020 => some (execAnaSel v w s)
    | 0xC1000 => some (execInjectionArm v w s)
    | _ => none

/-- A write of a register that has no row of its own. -/
def State.writeOwn (s : State) (fn o : Nat) (v : Word64) (w : AccessWidth) : State :=
  if inRange 0x10000 0x10000 o then s.modFunc fn fun f => { f with droppedMalformed := satInc f.droppedMalformed }
  else if inRange 0x20000 0x10000 o then s.writeQueueBlock fn (o - 0x20000) v w
  else if inRange 0x30000 0x10000 o then s.modFunc fn fun f => f.writeRings (o - 0x30000) v w
  else if inRange 0x40040 0x80 o then s.writeVector fn ((o - 0x40040) / 8) v w
  else if inRange 0x41000 0x400 o then s.writeMsix fn ((o - 0x41000) / 8) v w
  else if fn ≠ 0 then s
  else if o = 0x50038 then
    { s with faults := { s.faults with logIndex := (accessWrite w (s.faults.logIndex.zeroExtend 64) v).truncate 12 } }
  else if inRange 0x60000 0x100 o then { s with power := s.power.select (o - 0x60000) v w }
  else if o = 0x70070 then s.writeStaging v w
  else if inRange 0x70000 0x10000 o then { s with cfg := s.cfg.write (o - 0x70000) v w }
  else if o = 0x80028 then
    { s with ledger := { s.ledger with cntIndex := (accessWrite w (s.ledger.cntIndex.zeroExtend 64) v).truncate 12 } }
  else if inRange 0x90000 0x10000 o then s.writeMailbox (o - 0x90000) v w
  else if inRange 0xA1000 0x1000 o then
    if (o - 0xA1000) % 0x100 = 0x20 then s.writePort ((o - 0xA1000) / 0x100) v w else s
  else if inRange 0xB0000 0x10000 o then { s with memSys := s.memSys.write (o - 0xB0000) v w }
  else s

/-- REGISTER_WRITE (R310): the register that holds the offset; ignored before host-ready and while the attachment is
held (R308). -/
def execRegisterWrite (fn : Fin 17) (offset : BitVec 26) (v : Word64) (w : AccessWidth) (s : State) : Out :=
  let o := offset.toNat / 8 * 8
  match rowWrite fn o v w s with
  | some out => out
  | none => live s (if !s.hostOpen then s else s.writeOwn fn o v w)

end Sys2Proof.Machine
end

