-- ==== Sys2Proof/Machine/Scalar.lean ====
section
/-!
DEFINITION. Scalar: the scalar instructions of a cluster core (R167, R170, R171, R174 to R177).
-/
namespace Sys2Proof.Machine

/-- An instruction of one word and one issue cycle that writes `v` to scalar register `sd` (R174). -/
def State.scalarWrite (s : State) (k sd major : Nat) (v : Cluster → Word64) : State :=
  s.item k 1 1 (instrOp major) fun s =>
    (s.advance k 1 1).modCluster k fun c => c.setSreg sd (v (s.cluster k))

/-- A two-operand instruction (R174). -/
def State.scalarOp (s : State) (k : ClusterId) (sd sa sb : BitVec 5) (major : Nat) (f : Word64 → Word64 → Word64) : State :=
  s.scalarWrite k.num sd.toNat major fun c => f (c.sreg sa.toNat) (c.sreg sb.toNat)

/-- NOP (R174): one issue cycle and no other effect. -/
def execNop (k : ClusterId) (s : State) : Out := live s (s.item k.num 1 1 (instrOp 0) fun s => s.advance k.num 1 1)

/-- ADD (R174): sd = sa + sb, modulo 2^64. -/
def execAdd (k : ClusterId) (sd sa sb : BitVec 5) (s : State) : Out :=
  live s (s.scalarOp k sd sa sb 1 fun a b => a + b)

/-- SUB (R174): sd = sa − sb. -/
def execSub (k : ClusterId) (sd sa sb : BitVec 5) (s : State) : Out :=
  live s (s.scalarOp k sd sa sb 2 fun a b => a - b)

/-- AND (R174): bitwise. -/
def execAnd (k : ClusterId) (sd sa sb : BitVec 5) (s : State) : Out :=
  live s (s.scalarOp k sd sa sb 3 fun a b => a &&& b)

/-- OR (R174): bitwise. -/
def execOr (k : ClusterId) (sd sa sb : BitVec 5) (s : State) : Out :=
  live s (s.scalarOp k sd sa sb 4 fun a b => a ||| b)

/-- XOR (R174): bitwise. -/
def execXor (k : ClusterId) (sd sa sb : BitVec 5) (s : State) : Out :=
  live s (s.scalarOp k sd sa sb 5 fun a b => a ^^^ b)

/-- SHL (R174): sa shifted left by sb[5:0]. -/
def execShl (k : ClusterId) (sd sa sb : BitVec 5) (s : State) : Out :=
  live s (s.scalarOp k sd sa sb 6 fun a b => a <<< (b.toNat % 64))

/-- SHR (R174): logical shift right by sb[5:0]. -/
def execShr (k : ClusterId) (sd sa sb : BitVec 5) (s : State) : Out :=
  live s (s.scalarOp k sd sa sb 7 fun a b => a >>> (b.toNat % 64))

/-- MUL (R174): low 64 bits of the product. -/
def execMul (k : ClusterId) (sd sa sb : BitVec 5) (s : State) : Out :=
  live s (s.scalarOp k sd sa sb 8 fun a b => a * b)

/-- ADDI (R174): sd = sa + sign-extended imm. -/
def execAddi (k : ClusterId) (sd sa : BitVec 5) (imm : BitVec 16) (s : State) : Out :=
  live s (s.scalarWrite k.num sd.toNat 9 fun c => c.sreg sa.toNat + imm.signExtend 64)

/-- `w` with 16 bits replaced at position `pos` (R174, LIH). -/
def insertHalf (w : Word64) (pos : Nat) (imm : BitVec 16) : Word64 :=
  (w &&& ~~~ ((0xFFFF : Word64) <<< (16 * pos))) ||| ((imm.zeroExtend 64) <<< (16 * pos))

/-- LIH (R174): sd[16·pos+15 : 16·pos] = imm, other bits unchanged. -/
def execLih (k : ClusterId) (sd : BitVec 5) (pos : BitVec 2) (imm : BitVec 16) (s : State) : Out :=
  live s (s.scalarWrite k.num sd.toNat 0xA fun c => insertHalf (c.sreg sd.toNat) pos.toNat imm)

/-- MOVP (R174): sd = pk. -/
def execMovp (k : ClusterId) (sd : BitVec 5) (pk : BitVec 6) (s : State) : Out :=
  live s (s.scalarWrite k.num sd.toNat 0xB fun c => c.param pk.toNat)

/-- The key-cache extents granted to a job (R88, R176). -/
def State.extentsOf (s : State) (id : Nat) : Nat :=
  ((s.work.kcDir.filter fun e => e.jobs.contains id).map fun e => e.extents.length).foldl (· + ·) 0

/-- A job feature word (R176); none for a reserved index. -/
def State.feature? (s : State) (k idx : Nat) : Option Word64 :=
  match s.ctx? k with
  | none => none
  | some x =>
    let v : Option Nat := match idx with
      | 0x00 => some 1
      | 0x01 => some x.job.groupCount
      | 0x02 => some x.logical
      | 0x03 => some (k % 32)
      | 0x04 => some x.span
      | 0x05 => some (if x.span = 64 then x.logical % 2 else 0xFF)
      | 0x06 => some 1048576
      | 0x07 => some 16
      | 0x08 => some 8388608
      | 0x09 => some 16
      | 0x0A => some 65536
      | 0x0B => some (s.extentsOf x.job.id.toNat)
      | _ => none
    v.map (BitVec.ofNat 64)

/-- RDFEAT (R174, R176). A reserved index fails the issue check as a reserved encoding does (R183, log entry 13). -/
def execRdfeat (k : ClusterId) (sd : BitVec 5) (idx : BitVec 8) (s : State) : Out :=
  live s (s.item k.num 1 1 (instrOp 0xC) fun s =>
    match s.feature? k.num idx.toNat with
    | some v => (s.advance k.num 1 1).modCluster k.num fun c => c.setSreg sd.toNat v
    | none => s.issueFault k.num 0x23 (instrOp 0xC))

/-- A cluster status counter (R177); none for a reserved index. -/
def Cluster.status? (c : Cluster) (idx : Nat) : Option Word64 :=
  match idx with
  | 0 => some (c.sat.zeroExtend 64)
  | 1 => some (c.nan.zeroExtend 64)
  | 2 => some (c.grange.zeroExtend 64)
  | 3 => some (c.rearm.zeroExtend 64)
  | _ => none

/-- RDSTAT (R174, R177). A reserved index as in RDFEAT. -/
def execRdstat (k : ClusterId) (sd : BitVec 5) (idx : BitVec 8) (s : State) : Out :=
  live s (s.item k.num 1 1 (instrOp 0xD) fun s =>
    match (s.cluster k.num).status? idx.toNat with
    | some v => (s.advance k.num 1 1).modCluster k.num fun c => c.setSreg sd.toNat v
    | none => s.issueFault k.num 0x23 (instrOp 0xD))

/-- Load a loop counter (R175). -/
def Cluster.setLoop (c : Cluster) (lc : BitVec 2) (v : BitVec 24) : Cluster :=
  { c with loops := c.loops.set lc.toNat v lc.isLt }

/-- Move the stream to another word. -/
def State.jump (s : State) (k pc cost : Nat) : State :=
  s.modCluster k fun c => { c with lastItem := c.pc.toNat, pc := BitVec.ofNat 32 pc, nextAt := c.nextAt + cost }

/-- LOOP (R174, R175): loads lc from its count or from pk; 0 skips to the word after the matching ENDL, and a pk above
16,777,215 raises a schedule fault. -/
def execLoop (k : ClusterId) (lc : BitVec 2) (src : Bool) (forward : BitVec 11) (count : BitVec 12) (s : State) : Out :=
  live s (s.item k.num 1 1 (instrOp 0x10) fun s =>
    let c := s.cluster k.num
    let n := if src then (c.param (count.toNat % 64)).toNat else count.toNat
    if 16777215 < n then s.issueFault k.num 0x23 (instrOp 0x10)
    else if n = 0 then (s.jump k.num (c.pc.toNat + forward.toNat) 1).modCluster k.num fun c => c.setLoop lc 0
    else (s.advance k.num 1 1).modCluster k.num fun c => c.setLoop lc (BitVec.ofNat 24 n))

/-- ENDL (R174, R175): decrements lc and goes back while it is nonzero; on a counter holding 0 it is not issued. -/
def execEndl (k : ClusterId) (lc : BitVec 2) (back : BitVec 16) (s : State) : Out :=
  live s (s.item k.num 1 1 (instrOp 0x11) fun s =>
    let c := s.cluster k.num
    let v := c.loops[lc.toNat]'lc.isLt
    if v = 0 then s.issueFault k.num 0x23 (instrOp 0x11)
    else
      let s' := if v = 1 then s.advance k.num 1 1 else s.jump k.num (c.pc.toNat - back.toNat) 1
      s'.modCluster k.num fun c => c.setLoop lc (v - 1))

/-- WAITC (R170): the next item issues in cycle c of the current beat. One that would issue later raises WAITC_LATE and
is not issued; a c above 59,391 is outside the field (R174). -/
def execWaitc (k : ClusterId) (c : BitVec 16) (s : State) : Out :=
  live s <|
    if !s.streamLive k.num then s
    else if !s.fetches k.num 1 then s.issueFault k.num 0x23 (instrOp 0x14)
    else if windowEnd ≤ c.toNat then s.issueFault k.num 0x23 (instrOp 0x14)
    else
      let u := s.cluster k.num
      let at_ := beatOf u.nextAt * beatCycles + c.toNat
      if at_ < u.nextAt then s.issueFault k.num 0x22 (instrOp 0x14)
      else (s.advance k.num 1 0).modCluster k.num fun u => { u with nextAt := at_, state := .waiting }

/-- An item that ends the beat for the stream counts when it follows an item of cycle 59,391 or earlier (R171). -/
def State.passes (s : State) (k : Nat) : Bool := s.streamLive k && decide (cycleOf (s.cluster k).nextAt ≤ windowEnd)

/-- WAITB (R170): the next item issues in cycle 0 of the next beat. -/
def execWaitb (k : ClusterId) (s : State) : Out :=
  live s <|
    if !s.passes k.num then s
    else if !s.fetches k.num 1 then s.issueFault k.num 0x23 (instrOp 0x15)
    else (s.advance k.num 1 0).modCluster k.num fun u =>
      { u with nextAt := (beatOf u.nextAt + 1) * beatCycles, state := .waiting }

/-- The wait of WAITC or WAITB ends (R170): the cycle the next item issues in has come. -/
def execWaitResume (k : ClusterId) (s : State) : Out :=
  live s <|
    let u := s.cluster k.num
    if u.state == .waiting && s.jobRuns (k.num / 32) && decide (u.nextAt ≤ s.now) then
      s.modCluster k.num fun u => { u with state := .issuing }
    else s

/-- SETTW (R173, R174): twk = sa[15:0], on the lead cluster only. -/
def execSettw (k : ClusterId) (tk : BitVec 4) (sa : BitVec 5) (s : State) : Out :=
  live s (s.item k.num 1 1 (instrOp 0x16) fun s =>
    if k.cluster.val ≠ 0 then s.issueFault k.num 0x23 (instrOp 0x16)
    else (s.advance k.num 1 1).modUnit k.group.val fun u =>
      { u with tileWindows := u.tileWindows.set tk.toNat (((s.cluster k.num).sreg sa.toNat).truncate 16) tk.isLt })

/-- END (R171, R174): the cluster's part of the job ends. -/
def execEndStream (k : ClusterId) (s : State) : Out :=
  live s <|
    if !s.passes k.num then s
    else if !s.fetches k.num 1 then s.issueFault k.num 0x23 (instrOp 0x1F)
    else (s.advance k.num 1 0).modCluster k.num fun u => { u with state := .ended }

end Sys2Proof.Machine
end

