-- ==== Sys2Proof/Machine/Nalar.lean ====
section
/-!
DEFINITION. Nalar: the Nalar object: its header, sections and entries, the program they give, and the format rules of the
verifier's step 1 (R188 to R192, R158, R215, R344).
-/
namespace Sys2Proof.Machine

/-! ### Header and section table (R188, R189) -/

/-- One used entry of the section table: type, reserved bytes, offset, length, CRC. -/
structure SectionEntry where
  type : Nat
  spare : Nat
  off : Nat
  len : Nat
  crc : Nat
deriving DecidableEq, Repr

/-- The sixteen entries of the table. -/
def tableEntries (b : List Byte) : List (List Byte) := (List.range 16).map fun i => slice b (64 + 16 * i) 16

/-- Its used entries. -/
def sections (b : List Byte) : List SectionEntry :=
  ((tableEntries b).filter fun e => !allZero e).map fun e => ⟨field e 0 2, field e 2 2, field e 4 4, field e 8 4, field e 12 4⟩

/-- The bytes of a section; none where the object has none of the type. -/
def sectionOf? (b : List Byte) (ty : Nat) : Option (List Byte) := ((sections b).find? fun e => e.type == ty).map fun e => slice b e.off e.len

/-- The bytes of a section, none for an absent one. -/
def nalarBytes (b : List Byte) (ty : Nat) : List Byte := (sectionOf? b ty).getD []

/-- Flag `i` of the header. -/
def nalarFlag (b : List Byte) (i : Nat) : Bool := field b 8 2 / 2 ^ i % 2 == 1

/-- The header's fields lie in their ranges (R188); `len` is the length by which the object came (R193). -/
def nalarHeaderOk (b : List Byte) (len : Nat) : Bool :=
  let g := field b 7 1
  field b 0 1 == 8 && field b 1 1 == 1 && decide (1 ≤ field b 4 1 ∧ field b 4 1 ≤ 3) && decide (field b 5 1 ≤ 1) &&
  decide (12 ≤ field b 6 1 ∧ field b 6 1 ≤ 17) && decide (1 ≤ g ∧ g ≤ 64) && (field b 6 1 != 17 || g % 2 == 0) &&
  decide (field b 8 2 < 16) && !(nalarFlag b 1 && nalarFlag b 2) && decide (5 ≤ field b 10 2 ∧ field b 10 2 ≤ 11) &&
  field b 12 4 == len && b.length == len && decide (320 ≤ len ∧ len ≤ 67108864) && allZero (slice b 28 32) &&
  crc32c (slice b 0 60) == field b 60 4

/-- No two of a list stand in a relation. -/
def pairwise {α : Type} (bad : α → α → Bool) : List α → Bool
  | [] => true
  | x :: t => (t.all fun y => !bad x y) && pairwise bad t

/-- The table's rules and the required sections (R189). -/
def tableOk (b : List Byte) : Bool :=
  let l := sections b
  let has := fun ty => l.any fun e => e.type == ty
  l.length == field b 10 2 &&
  (l.all fun e => decide (1 ≤ e.type ∧ e.type ≤ 11) && e.spare == 0 && e.off % 64 == 0 && decide (320 ≤ e.off) &&
    decide (e.off + e.len ≤ b.length) && crc32c (slice b e.off e.len) == e.crc) &&
  pairwise (fun x y => x.type == y.type || rangesOverlap x.off x.len y.off y.len) l &&
  has 1 && has 2 && has 3 && has 4 && has 8 && (field b 5 1 != 0 || has 5) && (!(nalarFlag b 1 || nalarFlag b 2) || has 9) &&
  (!nalarFlag b 3 || has 11)

/-! ### Sections -/

/-- The code images of a CODE section; none where a word count is out of range or runs past the section. -/
def codeImages : Nat → List Byte → Option (List (List Word32))
  | 0, b => if b == [] then some [] else none
  | f + 1, b =>
    if b == [] then some []
    else
      let n := field b 0 4
      if n = 0 || 32768 < n || b.length < 4 + 4 * n then none
      else (codeImages f (b.drop (4 + 4 * n))).map fun t => bytesToWords (slice b 4 (4 * n)) :: t

/-- A section's entries of `n` bytes. -/
def entriesOf (n : Nat) (b : List Byte) : List (List Byte) := (List.range (b.length / max n 1)).map fun i => slice b (n * i) n

/-- A ring declaration (R189, R215). -/
def ringDecl (e : List Byte) : RingDecl := ⟨field e 0 4, field e 4 4, field e 8 4 % 2 == 1, field e 8 4 / 2 % 2 == 1⟩

/-- A parameter declaration (R190). -/
def paramDecl (e : List Byte) : ParamDecl := ⟨field e 0 1, field e 1 1 == 1, field e 8 8, field e 16 8, field e 24 8⟩

/-- An input declaration (R191). -/
def inputDecl (e : List Byte) : InputDecl :=
  let fl := field e 5 1
  ⟨field e 0 1, field e 1 1, field e 2 1, field e 3 1, field e 4 1, fl % 2 == 1, fl / 2 % 2 == 1, fl / 4 % 2 == 1, field e 6 2, field e 8 2, field e 12 4⟩

/-- A key declaration (R189). -/
def keyDecl (e : List Byte) : KeyDecl := ⟨field e 0 2, field e 2 1, field e 3 1, field e 4 1, field e 5 1 == 1⟩

/-- A message of the link slot plan (R344). -/
def linkMessage (e : List Byte) : LinkMessage :=
  { beat := field e 0 4, slot := field e 4 2, frames := field e 6 1, port := field e 7 1, receive := field e 8 1 % 2 == 1,
    final := field e 8 1 / 2 % 2 == 1, group := field e 9 1, reg := field e 10 1, offset := field e 12 4, id := field e 16 8 }

/-- The link slot plan (R344). -/
def linkPlan (b : List Byte) : LinkPlan :=
  { key := field b 0 8, digest := slice b 8 32, members := field b 40 1, position := field b 41 1, diameter := field b 42 1
    ports := (slice b 48 16).map BitVec.toNat, messages := (entriesOf 32 (b.drop 64)).map linkMessage }

/-- An instruction word or a command, and where it stands; a member of a fused command stands for itself. -/
inductive CodeItem where
  | instr (pos : Nat) (w : Word32)
  | cmd (pos : Nat) (c : CmdWord) (members : List CmdWord)
  | cut (pos : Nat)
deriving DecidableEq, Repr

/-- Four words as a command. -/
def cmdAt (l : List Word32) : Option CmdWord :=
  match l with
  | a :: b :: c :: d :: _ => some ⟨a, b, c, d⟩
  | _ => none

/-- `n` commands that follow; none where the image ends inside one. -/
def memberWords : Nat → List Word32 → Option (List CmdWord)
  | 0, _ => some []
  | n + 1, l => match cmdAt l, memberWords n (l.drop 4) with
    | some c, some t => some (c :: t)
    | _, _ => none

/-- The item at the head of a list of words: MARK 0b11 begins a command, a FUSE takes its members (R174, R179, R186). -/
def itemAt (pos : Nat) (l : List Word32) : CodeItem :=
  match l with
  | [] => .cut pos
  | w :: _ =>
    if w.toNat / 2 ^ 30 ≠ 3 then .instr pos w
    else match cmdAt l with
      | none => .cut pos
      | some c =>
        if cmdEngine c = 9 then
          match memberWords (cmdCount c % 8) (l.drop 4) with
          | some ms => .cmd pos c ms
          | none => .cut pos
        else .cmd pos c []

/-- Words an item takes. -/
def CodeItem.size : CodeItem → Nat
  | .instr _ _ => 1
  | .cmd _ _ ms => 4 * (ms.length + 1)
  | .cut _ => 1

/-- The items of an image in order. -/
def imageItems : Nat → Nat → List Word32 → List CodeItem
  | 0, _, _ => []
  | _, _, [] => []
  | f + 1, pos, l =>
    let i := itemAt pos l
    i :: imageItems f (pos + i.size) (l.drop i.size)

/-- The commands of an image, members of fused ones among them. -/
def imageCommands (im : List Word32) : List CmdWord :=
  (imageItems im.length 0 im).flatMap fun i => match i with
    | .cmd _ c ms => c :: ms
    | _ => []

/-- The largest span any REF.RUN of the code names (R185, R206). -/
def codeSpan (images : List (List Word32)) : Nat :=
  (images.flatMap imageCommands).foldl (fun m c => if cmdEngine c = 8 then max m (2 ^ (cmdSpec c / 4 % 4)) else m) 1

/-- The program an object holds (R188 to R192, R344). -/
def parseProgram (b : List Byte) : Program :=
  let res := nalarBytes b 9
  let images := (codeImages b.length (nalarBytes b 1)).getD []
  { digest := digest32 b, scheme := field b 4 1, refreshed := field b 5 1 == 1, log2n := field b 6 1, groups := field b 7 1
    span := codeSpan images, releaseStage := nalarFlag b 0, load := nalarFlag b 1, use := nalarFlag b 2, linked := nalarFlag b 3
    ksid := field b 16 8, jobLength := field b 24 4, images := images
    streamMap := (entriesOf 2 (nalarBytes b 2)).map fun e => field e 0 2
    rings := (entriesOf 256 (nalarBytes b 3)).map fun e => (entriesOf 16 e).map ringDecl
    params := (entriesOf 32 (nalarBytes b 4)).map paramDecl
    inputs := (entriesOf 32 (nalarBytes b 5)).map inputDecl
    keys := (entriesOf 16 (nalarBytes b 6)).map keyDecl
    descriptors := entriesOf 64 (nalarBytes b 7)
    checkpoints := (entriesOf 4 (nalarBytes b 8)).map fun e => field e 0 4
    model := slice res 0 32, residentBytes := field res 32 4, data := nalarBytes b 10
    link := if nalarFlag b 3 then some (linkPlan (nalarBytes b 11)) else none }

/-! ### The sections' rules -/

/-- A ring declaration's own ranges (R215). -/
def ringDeclOk (e : List Byte) : Bool :=
  let d := ringDecl e
  decide (field e 8 4 ≤ 3) && field e 12 4 == 0 &&
  (if d.size = 0 then d.base == 0 && field e 8 4 == 0
   else d.base % 256 == 0 && d.size % 4096 == 0 && decide (d.base + d.size ≤ 1048576))

/-- One image's declarations: each in its range, no two regions overlapping. -/
def imageRingsOk (e : List Byte) : Bool :=
  let l := entriesOf 16 e
  l.all ringDeclOk && pairwise (fun x y => rangesOverlap x.base x.size y.base y.size) ((l.map ringDecl).filter fun d => d.size != 0)

/-- A parameter declaration's ranges (R190). A minimum above its maximum has no reject code: FORMAT (DESIGN CHOICE, log entry
133). -/
def paramOk (e : List Byte) : Bool :=
  let d := paramDecl e
  decide (d.role ≤ 7) && decide (field e 1 1 ≤ 1) && allZero (slice e 2 6) &&
  (d.role == 0 || decide (3 < d.role) || decide (d.lo ≤ d.hi)) && (d.role != 2 || decide (d.hi ≤ 16777215)) &&
  (d.role != 3 || decide (d.hi < 2 ^ 32))

/-- An input declaration's ranges (R191); a level beyond L is step 3's. -/
def inputOk (params : List ParamDecl) (e : List Byte) : Bool :=
  let d := inputDecl e
  decide (d.reg < 64) && (params.getD d.reg {}).role == 4 && decide (1 ≤ d.format ∧ d.format ≤ 3) &&
  (match d.format with
   | 1 => d.npoly == 2 || d.npoly == 3
   | 2 => d.npoly == 1
   | _ => d.npoly == 0) &&
  decide (d.rset ≤ 7) && (d.format == 3 || decide (1 ≤ d.level)) && decide (field e 5 1 < 8) && field e 10 2 == 0 && d.offset % 256 == 0 &&
  allZero (slice e 16 16)

/-- A key declaration's ranges (R189, R72). -/
def keyDeclOk (e : List Byte) : Bool :=
  decide (1 ≤ field e 2 1 ∧ field e 2 1 ≤ 3) && decide (field e 4 1 ≤ 7) && decide (field e 5 1 ≤ 1) && allZero (slice e 6 10)

/-- A refresh descriptor's ranges (R158); the profile's is step 2's, those of its residue set step 3's. -/
def descriptorOk (log2n : Nat) (e : List Byte) : Bool :=
  field e 0 1 == 7 && field e 1 1 == 1 && decide (field e 2 1 ≤ 7) && decide (1 ≤ field e 3 1 ∧ field e 3 1 < log2n) &&
  decide (1 ≤ field e 4 1 ∧ field e 4 1 ≤ 4) && decide (1 ≤ field e 5 1 ∧ field e 5 1 ≤ 4) && decide (2 ≤ field e 7 1) &&
  allZero (slice e 12 48) && crc32c (slice e 0 60) == field e 60 4

/-- The checkpoints ascend below the job length. -/
def checkpointsOk (len : Nat) : List Nat → Bool
  | [] => true
  | [x] => decide (x < len)
  | x :: y :: t => decide (x < y) && checkpointsOk len (y :: t)

/-- The LINK section's own ranges (R344); its slots are judged under R348. -/
def linkSectionOk (p : Program) (b : List Byte) : Bool :=
  let l := linkPlan b
  let n := field b 44 4
  decide (2 ≤ l.members ∧ l.members ≤ 64) && decide (l.position < 64) && decide (1 ≤ l.diameter ∧ l.diameter ≤ 8) && field b 43 1 == 0 &&
  decide (1 ≤ n ∧ n ≤ 16384) && b.length == 64 + 32 * n && (l.ports.all fun x => x == 0xFF || decide (x < 64)) &&
  (entriesOf 32 (b.drop 64)).all fun e =>
    let m := linkMessage e
    decide (m.beat < p.jobLength) && decide (1 ≤ m.frames ∧ m.frames ≤ 32) && decide (m.port < 16) && l.ports.getD m.port 0xFF != 0xFF &&
    decide (field e 8 1 < 4) && decide (m.group < p.groups) && decide (m.reg < 64) && (p.params.getD m.reg {}).role == 5 && field e 11 1 == 0 &&
    m.offset % 2048 == 0 && allZero (slice e 24 8)

/-- Every section against its own rules (R189 to R191, R158, R215, R344). -/
def sectionsOk (b : List Byte) : Bool :=
  let p := parseProgram b
  let exact := fun ty n => (nalarBytes b ty).length == n
  let whole := fun ty n most => (nalarBytes b ty).length % n == 0 && decide ((nalarBytes b ty).length ≤ n * most)
  decide (1 ≤ p.jobLength) && (codeImages b.length (nalarBytes b 1)).any (fun l => l != []) &&
  exact 2 (64 * p.groups) && (p.streamMap.all fun i => i == 0xFFFF || decide (i < p.images.length)) &&
  exact 3 (256 * p.images.length) && (entriesOf 256 (nalarBytes b 3)).all imageRingsOk &&
  exact 4 2048 && (entriesOf 32 (nalarBytes b 4)).all paramOk &&
  whole 5 32 b.length && (entriesOf 32 (nalarBytes b 5)).all (inputOk p.params) &&
  whole 6 16 64 && (entriesOf 16 (nalarBytes b 6)).all keyDeclOk &&
  whole 7 64 4 && p.descriptors.all (descriptorOk p.log2n) &&
  whole 8 4 1024 && p.checkpoints != [] && checkpointsOk p.jobLength p.checkpoints &&
  ((sectionOf? b 9).isNone || (exact 9 64 && allZero (slice (nalarBytes b 9) 36 28))) &&
  decide (p.data.length ≤ dataAreaBytes) && (!p.linked || linkSectionOk p (nalarBytes b 11))

end Sys2Proof.Machine
end

