-- ==== Sys2Proof/Machine/VerifyCode.lean ====
section
/-!
DEFINITION. VerifyCode: steps 1 and 2 of the loader verifier: the object's format, and each code image word by word (R194,
R174, R175, R179 to R183, R185, R186, R190, R196).
-/
namespace Sys2Proof.Machine

/-- A rejection (R194): the code of R196, and the logical group, cluster, image, word, job beat and cycle it names; a
failure that no walk finds carries all ones for beat and cycle. -/
structure Reject where
  code : Nat
  group : Nat := 0
  cluster : Nat := 0
  image : Nat := 0
  word : Nat := 0
  beat : Nat := 0xFFFFFFFF
  cycle : Nat := 0xFFFF
deriving DecidableEq, Repr

/-- The lowest of the codes one word breaks (R194). -/
def lowestCode : List Nat → Option Nat
  | [] => none
  | x :: t => some (t.foldl min x)

/-- A code where a condition fails. -/
def failing (ok : Bool) (code : Nat) : List Nat := if ok then [] else [code]

/-! ### Step 1 -/

/-- Step 1 (R188 to R191): FORMAT, ABI, GROUP_COUNT, a descriptor's reserved profile (R159), and PARAM_ROLE of p0. -/
def State.step1 (s : State) (b : List Byte) (len : Nat) : Option Reject :=
  if !nalarHeaderOk b len || !tableOk b || !sectionsOk b then some { code := 0x01 }
  else
    let p := parseProgram b
    let usable := s.usableGroups
    let codes := failing (field b 2 2 == 1) 0x02 ++ failing (decide (p.groups ≤ usable.length) && (s.placeAll p 64 p.groups usable).isSome) 0x03 ++
      failing (p.descriptors.all fun d => field d 6 1 == 1 || field d 6 1 == 2) 0x04 ++ failing ((p.params.getD 0 {}).role == 3) 0x19
    (lowestCode codes).map fun x => { code := x }

/-! ### Instructions (R174 to R177, R190) -/

/-- The bits of each instruction that carry a field; none for a reserved major opcode. -/
def instrMask (major : Nat) : Option Nat :=
  match major with
  | 0x00 => some 0
  | 0x01 => some 0x03FFF800
  | 0x02 => some 0x03FFF800
  | 0x03 => some 0x03FFF800
  | 0x04 => some 0x03FFF800
  | 0x05 => some 0x03FFF800
  | 0x06 => some 0x03FFF800
  | 0x07 => some 0x03FFF800
  | 0x08 => some 0x03FFF800
  | 0x09 => some 0x03FFFFFF
  | 0x0A => some 0x03E3FFFF
  | 0x0B => some 0x03FF8000
  | 0x0C => some 0x03E000FF
  | 0x0D => some 0x03E000FF
  | 0x10 => some 0x03FFFFFF
  | 0x11 => some 0x0300FFFF
  | 0x14 => some 0x0000FFFF
  | 0x15 => some 0
  | 0x16 => some 0x03DF0000
  | 0x1F => some 0
  | _ => none

/-- The codes an instruction word breaks; `lead` says that only lead clusters run the image. -/
def instrCodes (p : Program) (lead : Bool) (w : Word32) : List Nat :=
  let x := w.toNat
  let major := x / 2 ^ 26
  match instrMask major with
  | none => [0x04]
  | some m =>
    let role := fun i => (p.params.getD i {}).role
    failing ((x % 2 ^ 26) &&& (0x3FFFFFF ^^^ m) == 0) 0x04 ++
    (match major with
     | 0x0B => failing (role (x / 2 ^ 15 % 64) == 1 || role (x / 2 ^ 15 % 64) == 3) 0x19
     | 0x0C => failing (decide (x % 256 < 0x0C)) 0x04
     | 0x0D => failing (decide (x % 256 < 4)) 0x04
     | 0x10 => if x / 2 ^ 23 % 2 = 1 then failing (x / 2 ^ 6 % 64 == 0) 0x04 ++ failing (role (x % 64) == 2) 0x19 else []
     | 0x14 => failing (decide (x % 65536 < windowEnd)) 0x05
     | 0x16 => failing lead 0x06
     | _ => [])

/-- LOOPs and ENDLs pair on one counter with the LOOP's forward offset on the word after its ENDL (R175): the words that do
not, with code FIELD_RANGE. Four loops nest, each on a counter of its own. -/
def loopFaults : List (Nat × Nat × Nat) → List CodeItem → List (Nat × Nat)
  | st, [] => st.map fun e => (e.2.1, 0x05)
  | st, .instr pos w :: t =>
    let x := w.toNat
    let lc := x / 2 ^ 24 % 4
    if x / 2 ^ 26 = 0x10 then
      (if st.any fun e => e.1 == lc then [(pos, 0x05)] else []) ++ loopFaults ((lc, pos, pos + x / 2 ^ 12 % 2048) :: st) t
    else if x / 2 ^ 26 = 0x11 then
      match st with
      | (l, at_, land) :: st' =>
        (if l = lc then [] else [(pos, 0x05)]) ++ (if land = pos + 1 then [] else [(at_, 0x05)]) ++ loopFaults st' t
      | [] => (pos, 0x05) :: loopFaults [] t
    else loopFaults st t
  | st, _ :: t => loopFaults st t

/-! ### Commands (R179 to R183, R185, R186) -/

/-- A key set that holds every residue index, for the checks that no key set decides. -/
def openKeySet (p : Program) : KeySet :=
  let r : ResidueSet := ⟨p.log2n, List.replicate 64 1, List.replicate 16 1, 1, 1⟩
  { digest := [], ksid := p.ksid, scheme := p.scheme, seed := [], ownerKey := [], rsets := List.replicate 8 r, bounds := {}, keys := []
    regionBase := 0, regionLen := 0 }

/-- The job of a verifier's context. -/
def walkJob (p : Program) : Job :=
  { id := 1, fn := 0, tag := 0, recordAddr := 0, recordLen := 0, visible := 0, seq := 0, checked := true, groupCount := p.groups, phase := .running }

/-- The context of a program's commands under a key set. -/
def verifyCtx (p : Program) (ks : KeySet) : Ctx :=
  let span := if p.log2n = 17 then 64 else 32
  { job := walkJob p, prog := p, ks := some ks, logical := 0, span := span, index := 0, share := 2 ^ p.log2n / span }

/-- What word 3 of a command is: a device address, a group-buffer offset, a field word, or unused. -/
inductive Word3Use where
  | address (write : Bool) | offset | value
deriving DecidableEq, Repr

/-- The use of word 3 (R182, R185). -/
def word3Use (c : CmdWord) : Word3Use :=
  if cmdEngine c ≠ 3 then .value
  else match cmdOpcode c with
    | 1 => if cmdSpec c = 2 then .offset else .address false
    | 2 => .address false
    | 3 => if cmdSpec c = 2 then .offset else .address true
    | _ => .value

/-- Word 3's rules: alignment of an immediate (R182), roles of a register (R190, R281). -/
def word3Codes (p : Program) (c : CmdWord) : List Nat :=
  let v := c.w3.toNat
  let role := (p.params.getD (v % 64) {}).role
  match cmdW3mode c, word3Use c with
  | 0, .address _ => failing (v % 256 == 0) 0x07
  | 0, .offset => failing (v % 256 == 0) 0x07 ++ failing (decide (v < 2 ^ 23)) 0x05
  | 1, .address true => failing (role == 5 || role == 6) 0x19
  | 1, .address false => failing (decide (4 ≤ role) || (cmdOpcode c == 1 && cmdSpec c == 1 && (role == 1 || role == 3))) 0x19
  | 1, _ => failing (role == 1 || role == 3) 0x19
  | _, _ => []

/-- A tile register named where R128 does not allow one. -/
def tileMisplaced (sh : Shape) (c : CmdWord) : Bool :=
  [(sh.a, cmdA c), (sh.b, cmdB c), (sh.c, cmdC c), (sh.d, cmdD c), (sh.e, cmdE c)].any fun e => match e.2 with
    | .tile _ => !e.1.tile
    | _ => false

/-- Tile registers allowed everywhere, so that a misplaced one shows as PRIVILEGED alone. -/
def Shape.withTiles (sh : Shape) : Shape :=
  { sh with a := { sh.a with tile := true }, b := { sh.b with tile := true }, c := { sh.c with tile := true }
            d := { sh.d with tile := true }, e := { sh.e with tile := true } }

/-- Reserved codes and bits of a command's words (R59, R179, R180, R182). R43's 4-bit layout code has no field in a command's
words: the layout follows from the operand's kind (DESIGN CHOICE, log entry 131). -/
def reservedBreach (c : CmdWord) : Bool :=
  decide (2 ^ 30 ≤ c.w1.toNat) || cmdW3mode c == 3 || (cmdW3mode c == 2 && c.w3.getLsbD 5) ||
  [cmdA c, cmdB c, cmdC c, cmdD c, cmdE c].any (· == .reserved) ||
  (cmdEngine c == 1 && (cmdOpcode c == 5 || cmdOpcode c == 6) && decide (6 ≤ cmdSpec c / 4 % 8))

/-- A command of elements ends in a partial row that ends no object (R103). -/
def partialRow (c : CmdWord) : Bool := cmdEngine c == 1 && [1, 2, 5, 6, 9].contains (cmdOpcode c) && !tailOk c

/-- The command writes an object header (R104, R109, R122, R134, R163, R224). -/
def writesHeader (c : CmdWord) : Bool :=
  match cmdEngine c with
  | 1 => [3, 4].contains (cmdOpcode c) || ([1, 2, 5, 8, 9].contains (cmdOpcode c) && cmdObjEnd c)
  | 2 => true
  | 3 => cmdOpcode c == 3 && cmdObjEnd c
  | 6 => cmdOpcode c == 3
  | 8 => true
  | _ => false

/-- The key declaration a command names in its own words (R189). -/
def namedKey? (c : CmdWord) : Option Nat :=
  if cmdEngine c = 3 ∧ cmdOpcode c = 6 then some (cmdSpec c)
  else if cmdEngine c = 6 ∧ cmdOpcode c = 2 ∧ cmdW3mode c = 0 then some (kipFields c.w3.toNat).decl else none

/-- The codes one command breaks by itself. -/
def commandCodes (p : Program) (decls : List RingDecl) (lead : Bool) (c : CmdWord) : List Nat :=
  let x := verifyCtx p (openKeySet p)
  match memberOf x c with
  | none => [0x04]
  | some m =>
    let ring := fun o => (Operand.ringNo? o).map fun r => decls.getD r ⟨0, 0, false, false⟩
    let su := cmdEngine c == 3 && (cmdOpcode c == 1 || cmdOpcode c == 3)
    let object := (ring (if cmdOpcode c = 3 then cmdA c else cmdD c)).any (·.object)
    failing (!reservedBreach c) 0x04 ++ failing (lead || !(m.sh.lead || usesTile c)) 0x06 ++ failing (!tileMisplaced m.sh c) 0x06 ++
    failing (shapeOk x m.sh.withTiles c true) 0x05 ++ failing (!partialRow c) 0x08 ++ word3Codes p c ++
    failing (cmdTagp c == 0 || (p.params.getD (cmdTagp c) {}).role == 3) 0x19 ++
    failing (!su || (if object then cmdCount c % max x.perPlane 1 == 0 else !cmdObjStart c && !cmdObjEnd c)) 0x05 ++
    failing ((namedKey? c).all fun i => decide (i < p.keys.length)) 0x10 ++
    failing (cmdEngine c != 8 || decide (cmdSpec c % 4 < p.descriptors.length)) 0x05 ++
    failing (cmdEngine c != 8 || p.refreshed) 0x15 ++
    failing (!(cmdEngine c == 3 && cmdOpcode c == 5 && cmdW3mode c == 0) || c.w3.toNat / 64 == 0x7F || decide (c.w3.toNat / 64 < p.groups)) 0x03 ++
    failing (!(p.use && [cmdA c, cmdD c, cmdE c, cmdB c, cmdC c].any fun o => match o with
      | .ring r => (decls.getD r ⟨0, 0, false, false⟩).resident
      | _ => false)) 0x1A

/-- The padded slice of an SU.LOADS meets another member's slice: both go to one ring (R234). -/
def paddedOverlap (ms : List CmdWord) : Bool :=
  (ms.filter fun c => cmdEngine c == 3 && cmdOpcode c == 2).any fun c => ms.any fun d => d != c && cmdD d == cmdD c

/-- A fused command's own rules (R186): two to four members on distinct engines, hand-overs that pair up. -/
def fuseCodes (p : Program) (c : CmdWord) (ms : List CmdWord) : List Nat :=
  failing (!reservedBreach c) 0x04 ++ failing (cmdOpcode c == 1) 0x04 ++
  failing (shapeOk (verifyCtx p (openKeySet p)) shFuse c true && cmdCount c == ms.length && distinct (ms.map cmdEngine) && handoversOk false ms) 0x05 ++
  failing (!paddedOverlap ms) 0x0E

/-- The codes an item breaks. -/
def itemCodes (p : Program) (decls : List RingDecl) (lead : Bool) : CodeItem → List Nat
  | .instr _ w => instrCodes p lead w
  | .cut _ => [0x04]
  | .cmd _ c ms =>
    if cmdEngine c = 9 then fuseCodes p c ms ++ ms.flatMap (commandCodes p decls lead)
    else commandCodes p decls lead c ++ failing (!List.contains [cmdA c, cmdD c] .handover) 0x05

/-- First word of an item. -/
def CodeItem.pos : CodeItem → Nat
  | .instr p _ => p
  | .cmd p _ _ => p
  | .cut p => p

/-- A command moves a ring pointer: it pops or pushes a ring, or repeats a descriptor that does. -/
def movesRing (c : CmdWord) : Bool :=
  (cmdEngine c == 3 && (cmdOpcode c == 4)) || [cmdA c, cmdB c, cmdC c, cmdD c].any fun o => match o with
    | .ring _ => true
    | .handover => true
    | _ => false

/-- The registers whose LOOPs hold a command that writes a header or moves a ring pointer (R195). -/
def walkedLoops : List CodeItem → List Nat
  | [] => []
  | .instr pos w :: t =>
    let x := w.toNat
    let body := t.takeWhile fun i => decide (i.pos + 1 < pos + x / 2 ^ 12 % 2048)
    let counts := body.any fun i => match i with
      | .cmd _ c ms => (c :: ms).any fun d => writesHeader d || movesRing d
      | _ => false
    if x / 2 ^ 26 = 0x10 ∧ x / 2 ^ 23 % 2 = 1 ∧ counts then x % 64 :: walkedLoops t else walkedLoops t
  | _ :: t => walkedLoops t

/-- The registers of role 2 that the walk takes at both ends of their range (R195). -/
def Program.walkedRegs (p : Program) : List Nat :=
  let used := p.images.flatMap fun im => walkedLoops (imageItems im.length 0 im)
  (List.range 64).filter fun r => used.contains r && (p.params.getD r {}).role == 2 && decide ((p.params.getD r {}).lo < (p.params.getD r {}).hi)

/-- In a FIXED-class program no loop whose register count varies holds a command that writes a header (R142): the words of
the LOOPs that do. -/
def classLoops (p : Program) : List CodeItem → List Nat
  | [] => []
  | .instr pos w :: t =>
    let x := w.toNat
    let d := p.params.getD (x % 64) {}
    let body := t.takeWhile fun i => decide (i.pos + 1 < pos + x / 2 ^ 12 % 2048)
    let writes := body.any fun i => match i with
      | .cmd _ c ms => (c :: ms).any writesHeader
      | _ => false
    if x / 2 ^ 26 = 0x10 ∧ x / 2 ^ 23 % 2 = 1 ∧ d.lo < d.hi ∧ writes then pos :: classLoops p t else classLoops p t
  | _ :: t => classLoops p t

/-- The first stream that runs an image, logical group and cluster. -/
def Program.streamOf (p : Program) (image : Nat) : Nat × Nat :=
  let i := (p.streamMap.findIdx? (· == image)).getD 0
  (i / 32, i % 32)

/-- Only lead clusters run the image. -/
def Program.leadOnly (p : Program) (image : Nat) : Bool := (p.streamMap.zipIdx).all fun e => e.1 != image || e.2 % 32 == 0

/-- A rejection of a word of an image. -/
def Program.rejectAt (p : Program) (image word code : Nat) : Reject :=
  { code := code, group := (p.streamOf image).1, cluster := (p.streamOf image).2, image := image, word := word }

/-- Step 2 on one image: the first word that breaks a rule, and the lowest code it breaks. -/
def Program.imageReject (p : Program) (image : Nat) : Option Reject :=
  let im := p.images.getD image []
  let items := imageItems im.length 0 im
  let decls := p.rings.getD image []
  let extra := loopFaults [] items ++ (if p.refreshed then [] else (classLoops p items).map fun w => (w, 0x15))
  items.findSome? fun i =>
    (lowestCode (itemCodes p decls (p.leadOnly image) i ++ ((extra.filter fun e => e.1 == i.pos).map (·.2)))).map fun x => p.rejectAt image i.pos x

/-- Step 2 (R194). -/
def Program.step2 (p : Program) : Option Reject := (List.range p.images.length).findSome? p.imageReject

end Sys2Proof.Machine
end

