-- ==== Sys2Proof/Machine/VerifyKeys.lean ====
section
/-!
DEFINITION. VerifyKeys: step 3 of the loader verifier: the program against its key set, its residency and its link slot
plan (R194, R188, R189, R88, R129, R143, R148, R158 to R160, R219, R348).
-/
namespace Sys2Proof.Machine

/-- An input slot that no header can pass R47 or R143 with (R191). -/
def inputStaticOk (p : Program) (ks : KeySet) (d : InputDecl) : Bool :=
  d.format == 3 ||
  ((p.scheme != 1 || (d.scale != 0 &&
      decide (d.scale < 256 * bitLength ((ks.rsets.getD d.rset ⟨12, [], [], 1, 0⟩).qProduct d.level)))) &&
   (p.scheme == 1 || decide (d.budget ≤ ks.bounds.fresh.getD d.rset 0)) && (p.refreshed || !d.refreshed))

/-- A declared input's level lies within its residue set, a clear tensor's like any other (R191, R194). -/
def inputLevelOk (ks : KeySet) (d : InputDecl) : Bool :=
  decide (1 ≤ d.level ∧ d.level ≤ (ks.rsets.getD d.rset ⟨12, [], [], 1, 0⟩).ordinary.length)

/-- A declared key's level lies within its residue set (R194). -/
def keyLevelOk (ks : KeySet) (d : KeyDecl) : Bool := decide (d.hi ≤ (ks.rsets.getD d.rset ⟨12, [], [], 1, 0⟩).ordinary.length)

/-- A key declaration names a key of the key set, with that key's kind, residue set and level high (R88). -/
def keyResolved (ks : KeySet) (d : KeyDecl) : Bool :=
  (ks.key? d.index).any fun e => e.kind == d.kind && e.rset == d.rset && e.hi == d.hi

/-- The codes a refresh descriptor breaks against its residue set (R158 to R160). -/
def descriptorCodes (p : Program) (ks : KeySet) (d : List Byte) : List Nat :=
  let r := ks.rsets.getD (field d 2 1) ⟨12, [], [], 1, 0⟩
  failing (!r.special.isEmpty && decide (field d 7 1 ≤ r.ordinary.length)) 0x01 ++
  failing (refreshKeysOk (verifyCtx p ks) d) 0x10 ++
  failing (decide (1 + field d 4 1 + profileLevels (field d 6 1) + field d 5 1 ≤ field d 7 1)) 0x13

/-- The rings of an image in a machine that holds nothing else, for the checks that read rings alone. -/
def Program.ringState (p : Program) (image : Nat) : State :=
  { State.reset with rings := ((p.rings.getD image []).zipIdx).map fun e => (e.2, e.1.fresh) }

/-- A command's own check can be decided without a run: its word 3 is an immediate, and it reads no table, header or
refresh state. -/
def ownStatic (c : CmdWord) : Bool :=
  cmdW3mode c == 0 && !([(1, 1), (3, 7), (8, 1)].contains (cmdEngine c, cmdOpcode c))

/-- What a command's own checks ask of fields that word 3 does not give (R185): they hold whatever word 3 supplies. -/
def fieldsOk (x : Ctx) (c : CmdWord) : Bool :=
  match cmdEngine c, cmdOpcode c with
  | 1, 6 => cmdR0 c == 0 && decide (cmdW c ≤ 4)
  | 6, 2 => cmdR0 c == 0 && decide (1 ≤ cmdW c ∧ cmdW c ≤ (x.rset (cmdRset c)).ordinary.length)
  | _, _ => true

/-- A command with the values that a register of role 1 may give word 3 at the ends of its range (R190, R195). -/
def rangeEnds (p : Program) (c : CmdWord) : List CmdWord :=
  let d := p.params.getD (c.w3.toNat % 64) {}
  let at_ := fun v => { c with w0 := c.w0 &&& 0xFFF3FFFF, w3 := BitVec.ofNat 32 (v + 256 * (c.w3.toNat / 64)) }
  if cmdW3mode c = 1 ∧ d.role = 1 ∧ cmdEngine c ≠ 3 then [at_ d.lo, at_ d.hi] else [c]

/-- A command uses its RSET field for a residue set (R179). -/
def namesSet (c : CmdWord) : Bool := [1, 2, 6, 8].contains (cmdEngine c)

/-- A command serves the program's scheme (R148). -/
def schemeOk (p : Program) (c : CmdWord) : Bool :=
  match cmdEngine c, cmdOpcode c with
  | 1, 3 => p.scheme == 1
  | 1, 4 => p.scheme == 2
  | 8, _ => p.scheme == 1
  | _, _ => true

/-- A BFV product's residue set has special moduli large enough (R148): P ≥ 2 · N · t · Q_ℓ. -/
def bfvProductOk (p : Program) (ks : KeySet) (c : CmdWord) : Bool :=
  let r := ks.rsets.getD (cmdRset c) ⟨12, [], [], 1, 0⟩
  !(p.scheme == 3 && cmdEngine c == 1 && cmdOpcode c == 2 && decide (cmdR0 c < 64)) ||
    decide (2 * 2 ^ p.log2n * r.t * r.qProduct (cmdR0 c + cmdW c) ≤ product r.special)

/-- A transform modulo t asks for t ≡ 1 mod 2N (R119). -/
def plainTransformOk (p : Program) (ks : KeySet) (c : CmdWord) : Bool :=
  !(cmdEngine c == 2 && cmdF c) || (ks.rsets.getD (cmdRset c) ⟨12, [], [], 1, 0⟩).t % 2 ^ (p.log2n + 1) == 1

/-- The codes one command breaks against its key set. -/
def Program.commandKeyCodes (p : Program) (ks : KeySet) (image : Nat) (c : CmdWord) : List Nat :=
  let x := verifyCtx p ks
  match memberOf x c with
  | none => []
  | some m =>
    if namesSet c && !decide (cmdRset c < ks.rsets.length) then [0x18]
    else
      failing (shapeOk x m.sh.withTiles c true) 0x05 ++ failing (fieldsOk x c && (rangeEnds p c).all fun c => !ownStatic c || ((memberOf x c).all fun m => m.own (p.ringState image) 0 x)) 0x05 ++
      failing (schemeOk p c && plainTransformOk p ks c) 0x12 ++ failing (bfvProductOk p ks c) 0x16

/-- The first word of an image that breaks a rule of its key set. -/
def Program.imageKeyReject (p : Program) (ks : KeySet) (image : Nat) : Option Reject :=
  let im := p.images.getD image []
  (imageItems im.length 0 im).findSome? fun i => match i with
    | .cmd pos c ms => (lowestCode ((if cmdEngine c = 9 then ms else [c]).flatMap (p.commandKeyCodes ks image))).map fun e => p.rejectAt image pos e
    | _ => none

/-- The resident rings of an image lie over bytes 0 to R − 1 (R219). -/
def residentOk (p : Program) (decls : List RingDecl) : Bool :=
  let l := decls.filter (·.resident)
  if p.load || p.use then ((l.map (·.size)).sum == p.residentBytes) && l.all fun d => decide (d.base + d.size ≤ p.residentBytes)
  else l == []

/-- Residency of a program (R219): every image its stream map names, and the only checkpoint a LOAD program may declare. -/
def Program.residencyOk (p : Program) : Bool :=
  ((List.range p.images.length).all fun i => !p.streamMap.contains i || residentOk p (p.rings.getD i [])) &&
  (!p.load || p.checkpoints == [0])

/-- The slots of a port's beat and direction that a message takes: its data slots and its retransmission slot (R345). -/
def LinkMessage.slots (m : LinkMessage) : List Nat := (List.range m.frames).map (m.slot + ·) ++ [m.slot + m.frames - 1 + 16]

/-- Two messages of one port, beat and direction take a slot twice (R348). -/
def slotsClash (x y : LinkMessage) : Bool :=
  x.port == y.port && x.beat == y.beat && x.receive == y.receive && x.slots.any y.slots.contains

/-- The link slot plan's own limits (R344, R345, R348): slots 97 to 3,687, no slot twice, and an HBM request slot at or
before each frame's read. -/
def LinkPlan.slotsOk (l : LinkPlan) : Bool :=
  (l.messages.all fun m => decide (97 ≤ m.slot ∧ m.slot + m.frames - 1 ≤ 3687) &&
    (m.receive || (List.range (16 * m.slot - 1552 + 1)).any (slotCycle .hbm))) && pairwise slotsClash l.messages

/-- LINKED traffic only with the flag, in a plan that is not overcommitted (R348). -/
def linkPlanOk (p : Program) (b : List Byte) : Bool :=
  match p.link with
  | none => (sectionOf? b 11).isNone
  | some l => l.slotsOk

/-- Step 3 (R194): the object as a whole, then its commands. -/
def State.step3 (s : State) (p : Program) (b : List Byte) : Option Reject :=
  match s.keySet? p.ksid with
  | none => some { code := 0x18 }
  | some ks =>
    let declared := p.inputs.map (·.rset) ++ p.keys.map (·.rset) ++ p.descriptors.map fun d => field d 2 1
    let inside := declared.all fun i => decide (i < ks.rsets.length)
    let set := fun i => ks.rsets.getD i ⟨p.log2n, [], [], 1, 0⟩
    let codes :=
      failing (ks.scheme == p.scheme && p.declaredSets.all fun i => (set i).log2n == p.log2n) 0x12 ++ failing inside 0x18 ++
      (if inside then
        failing (p.inputs.all (inputLevelOk ks) && p.keys.all (keyLevelOk ks)) 0x01 ++ failing (p.inputs.all (inputStaticOk p ks)) 0x12 ++
        failing (p.keys.all (keyResolved ks)) 0x10 ++ failing (decide ((s.conversionStore p).length ≤ 65536)) 0x11 ++
        p.descriptors.flatMap (descriptorCodes p ks)
       else []) ++
      failing p.residencyOk 0x1A ++ failing (linkPlanOk p b) 0x1B
    match lowestCode codes with
    | some c => some { code := c }
    | none => (List.range p.images.length).findSome? (p.imageKeyReject ks)

end Sys2Proof.Machine
end

