-- ==== Sys2Proof/Machine/VerifyWalk.lean ====
section
/-!
DEFINITION. VerifyWalk: step 4 of the loader verifier: every stream walked beat by beat over the job length on the machine's
own commands (R194 to R196, R142, R161, R170 to R172, R182, R214, R217, R221, R222, R238, R281, R345, R346, R348).
-/
namespace Sys2Proof.Machine

/-! ### The machine of the walk -/

/-- A register the walk gives an extent: its key 64 · group + register, role, base and length. -/
structure WalkExtent where
  key : Nat
  role : Nat
  base : Nat
  len : Nat
deriving DecidableEq, Repr

/-- Extents one after another from an address on, each folded below HBM's size. -/
def layExtents (p : Program) : Nat → List (Nat × Nat) → List WalkExtent
  | _, [] => []
  | a, (g, r) :: t =>
    let d := p.params.getD r {}
    let len := if d.role = 7 then dataAreaBytes else d.extent
    let base := (if a + len ≤ hbmSize then a else 0) / 256 * 256
    ⟨64 * g + r, d.role, base, len⟩ :: layExtents p ((base + len + 255) / 256 * 256) t

/-- The address registers of every logical group, with extents behind the key region. -/
def walkExtents (p : Program) (from_ : Nat) : List WalkExtent :=
  layExtents p from_ ((List.range p.groups).flatMap fun g => ((List.range 64).filter fun r => decide (4 ≤ (p.params.getD r {}).role)).map fun r => (g, r))

/-- The registers' values: values, counts and tags at their greatest, those of `low` at their least, addresses at their
extents (R190, R195). -/
def walkParams (p : Program) (low : List Nat) (l : List WalkExtent) : Table Word64 :=
  (List.range p.groups).flatMap fun g => (List.range 64).map fun r =>
    let d := p.params.getD r {}
    let v := if 4 ≤ d.role then ((l.find? fun e => e.key == 64 * g + r).map (·.base)).getD 0 else if d.role = 0 then 0
      else if low.contains r then d.lo else d.hi
    (64 * g + r, BitVec.ofNat 64 v)

/-- The 256-byte head the walk puts at a declared input (R46, R58, R191). -/
def walkHead (p : Program) (d : InputDecl) : List Byte :=
  if d.format = 3 then
    withCrc32c ([3, 1, 1, 1] ++ leBytes 4 1 ++ leBytes 4 1 ++ leBytes 4 1 ++ leBytes 4 1 ++ List.replicate 40 0) ++ List.replicate 192 0
  else
    let seeded := d.seededOk && d.eval && d.format == 1 && d.npoly == 2
    let h : Header :=
      { format := d.format, scheme := p.scheme, log2n := p.log2n, npoly := d.npoly, level := d.level, dclass := d.refreshed.toNat, eval := d.eval
        seeded := seeded, scale := if p.scheme = 1 then d.scale else 0, budget := if p.scheme = 1 then 0 else d.budget, rset := d.rset, ksid := p.ksid }
    h.bytes ++ (if seeded then withCrc32c (List.replicate 32 0) ++ List.replicate 156 0 else List.replicate 192 0)

/-- The memory of the walk: the key sets' objects, declared inputs' heads and the data area. -/
def walkMemory (p : Program) (m : Memory) (l : List WalkExtent) : Memory :=
  let put := fun (m : Memory) (e : WalkExtent) =>
    if e.role = 7 then m.writeN e.base p.data
    else (p.inputs.filter fun d => e.role == 4 && d.reg == e.key % 64).foldl (fun m d => m.writeN (e.base + d.offset) (walkHead p d)) m
  l.foldl put { cells := m.cells }

/-- The machine of a walk: the program alone, mapped and started in beat 1 (R29, R195). -/
def State.walkStart (s : State) (p : Program) (l : List WalkExtent) (low : List Nat) : State :=
  let set0 := (s.placeAll p 64 p.groups s.usableGroups).getD []
  let params := walkParams p low l
  let j : Job := { walkJob p with set0 := set0, params := params, jobBeat0 := 1 }
  let w : State := { State.reset with
    beat := 1, fuses := s.fuses, mem := walkMemory p s.mem l
    rst := { hostReady := true, domains := BitVec.allOnes 190 }
    work := { keySets := s.work.keySets, programs := [(0, p)], jobs := [(1, j)] } }
  let w := ((w.grantKeys 1 p).getD w).setGroups 1 p params set0 []
  w.forAll (set0.flatMap groupClusters) State.startCore

/-- A walk under way: the machine, the address registers' extents, what was read since the last checkpoint job beat, the
HBM slots of the beat taken by transfers of each group and by link frames, the bank ports and the GX ports in use (cluster,
first cycle, cycles), the relay slots taken of each group, the ring rows that an SU.LOAD brought from the data area (cluster,
ring, offset), the chain programs that came from elsewhere (cluster, slot), and the stores whose address no register named. -/
structure Walk where
  st : State
  prog : Program
  extents : List WalkExtent
  reads : List (Nat × Nat × Nat × Nat) := []
  anyRead : Bool := false
  hbm : Table Nat := []
  link : Table (List Nat) := []
  ports : List (Nat × Nat × Nat × Nat) := []
  gx : List (Nat × Nat × Nat) := []
  slots : List (Nat × Nat) := []
  dataRows : List (Nat × Nat × Nat) := []
  unknown : List (Nat × Nat) := []
  bare : List StoreRange := []

/-- Fold a step that may reject. -/
def walkFold {α : Type} (f : Walk → α → Except Reject Walk) : Walk → List α → Except Reject Walk
  | w, [] => .ok w
  | w, x :: t => match f w x with
    | .ok w => walkFold f w t
    | .error e => .error e

/-- Job beat of the walk. -/
def Walk.jobBeat (w : Walk) : Nat := w.st.beat.toNat - 1

/-- A rejection at cluster `k` and word `pc`. -/
def Walk.reject (w : Walk) (k pc code : Nat) : Reject :=
  { code := code, group := (w.st.group (k / 32)).logical, cluster := k % 32, image := (w.st.cluster k).imageIndex, word := pc, beat := w.jobBeat
    cycle := w.st.cycle.toNat }

/-- The clusters of the walk's job. -/
def Walk.clusters (w : Walk) : List Nat := (w.st.work.jobs.flatMap fun e => e.2.set0).flatMap groupClusters

/-! ### What an event shows -/

/-- The reject code of a fault raised in the walk; what depends on data is none. -/
def walkFault (unit kind : Nat) : Option Nat :=
  match kind with
  | 0x21 => some 0x0A
  | 0x22 => some 0x0A
  | 0x23 => some 0x05
  | 0x30 => some 0x10
  | 0x31 => some 0x13
  | 0x32 => some 0x14
  | 0x33 => some 0x12
  | 0x34 => some 0x12
  | 0x35 => some 0x12
  | 0x36 => some 0x12
  | 0x05 => if unit / 8 % 8 = 3 then none else some 0x12
  | _ => none

/-- The reject code of a Sheepdog verdict the walk would owe (R231, R239). -/
def State.walkDue (s : State) (k : Nat) (d : SheepdogDue) : Nat :=
  match d.check with
  | 0 => if d.ring = 16 || !(s.claimedRows k d.ring).isEmpty || !(s.waitingRows k d.ring).isEmpty || (s.ring k d.ring).ready != 0 then 0x0C
    else 0x09
  | 1 => if d.op = 197 then 0x0D else 0x09
  | 2 => if d.addr = 0 then 0x09 else if kcBase ≤ d.addr ∧ d.addr < gbBase then 0x10 else if gbBase ≤ d.addr then 0x05 else 0x19
  | 3 => 0x0C
  | 6 => 0x0C
  | 7 => 0x05
  | _ => 0x0B

/-- The offsets of a ring that a step gave a new stamp, and the stamps. -/
def newStamps (x y : Ring) : List (Nat × Nat) := y.stamps.filter fun e => x.stamps.find e.1 != some e.2

/-- Reads and writes of a cluster's bank ports that a step noted (R212, R214): cluster, port, bank, cycle. Claims and GX
receives take the stream port. -/
def portUses (a b : State) (k : Nat) : List (Nat × Nat × Nat × Nat) :=
  (List.range 16).flatMap fun r =>
    let x := a.ring k r
    let y := b.ring k r
    let stream := y.note == x.note || y.note.any fun n => n.engine == 4
    let use := fun (port : Nat) (e : Nat × Nat) => (k, port, (y.base.toNat + e.1) % 16, e.2)
    (y.uses.drop x.uses.length).map (use 0) ++ (newStamps x y).map (use (if stream then 2 else 1))

/-- A list of port uses in which one occurs twice, or that meets uses already noted. -/
def portClash (old : List (Nat × Nat × Nat × Nat)) : List (Nat × Nat × Nat × Nat) → Bool
  | [] => false
  | u :: t => old.contains u || t.contains u || portClash old t

/-- Take an event's state, unless the event shows a breach at cluster `k` and word `pc`, or breaks `codes` (R196). Rows it
wrote are no rows of the data area. -/
def Walk.take (w : Walk) (k pc : Nat) (codes : List Nat) (t : State) : Except Reject Walk :=
  let uses := w.clusters.flatMap fun k => portUses w.st t k
  let wires := codes ++ (t.faults.wires.filterMap fun f => walkFault (f.word.toNat % 2 ^ 20) (f.word.toNat / 2 ^ 20 % 256)) ++
    failing (!portClash w.ports uses) 0x0B
  let dues := w.clusters.flatMap fun k => (t.cluster k).due.map fun d => (t.walkDue k d, k, d.word)
  let found := wires.map (fun c => (c, k, pc)) ++ dues
  match lowestCode (found.map (·.1)) with
  | some c =>
    let place := ((found.find? fun e => e.1 == c).map (·.2)).getD (k, pc)
    .error (w.reject place.1 place.2 c)
  | none =>
    let t := { t with faults := { t.faults with wires := [] } }
    .ok { w with st := t, ports := w.ports ++ uses
                 dataRows := w.dataRows.filter fun e => !(newStamps (w.st.ring e.1 e.2.1) (t.ring e.1 e.2.1)).any fun x => x.1 == e.2.2 }

/-- The state a command answers. -/
def afterOut (s : State) : Out → State
  | .next t => t
  | _ => s

/-! ### Issue -/

/-- A cluster by its physical number. -/
def clusterId (k : Nat) : ClusterId := ⟨Fin.ofNat 68 (k / 32), Fin.ofNat 32 k⟩

/-- Run an instruction word (R174). -/
def State.runWord (s : State) (k : Nat) (word : Word32) : State :=
  let x := word.toNat
  let id := clusterId k
  let sd := BitVec.ofNat 5 (x / 2 ^ 21)
  let sa := BitVec.ofNat 5 (x / 2 ^ 16)
  let sb := BitVec.ofNat 5 (x / 2 ^ 11)
  let lc := BitVec.ofNat 2 (x / 2 ^ 24)
  afterOut s (match x / 2 ^ 26 with
    | 0x01 => execAdd id sd sa sb s
    | 0x02 => execSub id sd sa sb s
    | 0x03 => execAnd id sd sa sb s
    | 0x04 => execOr id sd sa sb s
    | 0x05 => execXor id sd sa sb s
    | 0x06 => execShl id sd sa sb s
    | 0x07 => execShr id sd sa sb s
    | 0x08 => execMul id sd sa sb s
    | 0x09 => execAddi id sd sa (BitVec.ofNat 16 x) s
    | 0x0A => execLih id sd (BitVec.ofNat 2 (x / 2 ^ 16)) (BitVec.ofNat 16 x) s
    | 0x0B => execMovp id sd (BitVec.ofNat 6 (x / 2 ^ 15)) s
    | 0x0C => execRdfeat id sd (BitVec.ofNat 8 x) s
    | 0x0D => execRdstat id sd (BitVec.ofNat 8 x) s
    | 0x10 => execLoop id lc (x / 2 ^ 23 % 2 == 1) (BitVec.ofNat 11 (x / 2 ^ 12)) (BitVec.ofNat 12 x) s
    | 0x11 => execEndl id lc (BitVec.ofNat 16 x) s
    | 0x14 => execWaitc id (BitVec.ofNat 16 x) s
    | 0x15 => execWaitb id s
    | 0x16 => execSettw id (BitVec.ofNat 4 (x / 2 ^ 22)) sa s
    | 0x1F => execEndStream id s
    | _ => execNop id s)

/-- The register by which the walk takes a device address that no register names (R182): the lowest whose role permits it. -/
def stoodFor (p : Program) (write : Bool) : Option Nat :=
  (List.range 64).find? fun i => let r := (p.params.getD i {}).role; if write then r == 5 || r == 6 else decide (4 ≤ r)

/-- An HBM address of W3MODE 0 or 2 as the walk takes it; none where no register's role permits the access. -/
def walkCommand (p : Program) (c : CmdWord) : Option CmdWord :=
  match word3Use c with
  | .address write =>
    if cmdW3mode c = 1 || (cmdOpcode c == 1 && cmdSpec c != 0) then some c
    else (stoodFor p write).map fun i => { c with w0 := (c.w0 &&& 0xFFF3FFFF) ||| 0x00040000, w3 := BitVec.ofNat 32 i }
  | _ => some c

/-- Run a key-cache load on the job's own extents, whose addresses the program learns only at its mapping (R88). -/
def State.onExtents (s : State) (k : Nat) (c : CmdWord) (run : CmdWord → State → State) : State :=
  let e := (s.work.kcDir.flatMap (·.extents)).headD 512
  let old := (s.cluster k).sreg 31
  let c' := { c with w0 := (c.w0 &&& 0xFFF3FFFF) ||| 0x00080000, w3 := 31 }
  let t := run c' (s.modCluster k fun cl => cl.setSreg 31 (BitVec.ofNat 64 (kcBase + extentBytes * e)))
  t.modCluster k fun cl => cl.setSreg 31 old

/-- Run a command on its cluster, or its clusters. -/
def State.runMemberAt (s : State) (k : Nat) (x : Ctx) (c : CmdWord) : State :=
  match memberOf x c with
  | none => s
  | some m =>
    let ks := m.clusters s k
    if 1 < ks.length then s.clustersCommand ks (k / 32) c m.sh m.engines (fun s x => m.own s k x) (fun s x t ks pre => m.run s k x t ks pre)
      fun s x t => m.bar s k x t
    else s.command k c m.sh (m.engines.headD 0) (fun s x => m.own s k x) (fun s x t => m.run s k x t [k] 0) fun s x t => m.bar s k x t

/-- A step reads a tile-register row of group `p` that nothing has written since the last REF.RUN (R161). -/
def tileUndefined (a b : State) (p : Nat) : Bool :=
  let u := a.unit p
  u.tileFree.isSome && (b.unit p).tileReads.any fun e => u.tileReads.find e.1 != some e.2 && !u.tileWritten.contains e.1 &&
    !u.tileWrites.any fun v => v.row == e.1 && decide (v.at_ < e.2)

/-! ### GX ports and relay slots (R116, R187, R228 to R230) -/

/-- The cycles after a transform's start in which it sends its two transposes: first cycle and length of each (R117, R118). -/
def transposes (log2n share : Nat) (inverse : Bool) : List (Nat × Nat) :=
  let c := max 1 (share / 256)
  let blocks := (min 11 (log2n - 5), if log2n = 17 then 6 else 5)
  let (b1, b2) := if inverse then (blocks.2, blocks.1) else blocks
  let first := 6 + (share + 255) / 256 + b1 * c + (b1 + 1) / 2
  [(first, share / 64), (first + (if log2n = 17 then 20 else 12) + share / 64 + b2 * c + (b2 + 1) / 2, share / 64)]

/-- The GX sends of a command that starts at `t` in cluster `k`: cluster, first cycle, cycles (log entry 114). -/
def State.gxSends (s : State) (k : Nat) (x : Ctx) (c : CmdWord) (t : Nat) : List (Nat × Nat × Nat) :=
  let n := cmdCount c
  let span := s.spanClusters (k / 32)
  let (occ, _, _) := teCosts x.prog.log2n
  let planes := fun (starts : List Nat) (inverse : Bool) => span.flatMap fun k' => starts.flatMap fun b =>
    (transposes x.prog.log2n x.share inverse).map fun e => (k', b + e.1, e.2)
  match cmdEngine c, cmdOpcode c with
  | 1, 8 => span.map fun k' => (k', t, n * (x.share / 64))
  | 1, 3 => switched span planes occ n
  | 1, 4 => switched span planes occ n
  | 2, op => planes ((List.range n).map fun i => t + occ * i) (op == 2)
  | 3, 5 =>
    let v := wordValue (s.cluster k) c % 2 ^ 32
    let hops := if v / 64 % 128 ≠ x.logical then 32 - k % 32 else if v % 64 = 0x3F then 31 else (v % 64 + 32 - k % 32) % 32
    (List.range hops).map fun h => (32 * (k / 32) + (k + h) % 32, t + 7 + 2 * h, n)
  | 4, 1 => [(k, t, n)]
  | 4, 2 => [((groupClusters (k / 32)).getD (cmdSpec c) k, t, n)]
  | _, _ => []
where
  /-- VE.RESCALE and VE.MODSW: one inverse plane a polynomial, then a forward one for each output plane (R109). -/
  switched (_span : List Nat) (planes : List Nat → Bool → List (Nat × Nat × Nat)) (occ n : Nat) : List (Nat × Nat × Nat) :=
    let lvl := (s.headInput k (cmdA c)).hdr.level
    planes ((List.range n).map fun i => t + occ * i) true ++ planes ((List.range (n * (lvl - 1))).map fun i => t + 300 + occ * i) false

/-- The injection slots a relay takes: group and number of a nine-cycle slot (R229). -/
def State.relaySlots (s : State) (k : Nat) (x : Ctx) (c : CmdWord) (t : Nat) : List (Nat × Nat) :=
  if cmdEngine c = 3 ∧ cmdOpcode c = 5 ∧ wordValue (s.cluster k) c / 64 % 128 ≠ x.logical then
    (List.range (cmdCount c)).map fun i => (k / 32, (t + 80 + 9 * i) / 9)
  else []

/-- Two sends of one port overlap. -/
def gxClash (a b : Nat × Nat × Nat) : Bool := a.1 == b.1 && decide (a.2.1 < b.2.1 + b.2.2) && decide (b.2.1 < a.2.1 + a.2.2)

/-! ### Chain programs of the data area (R96, R100, R101, R142) -/

/-- The roles of the SU.LOADs that will bring the rows waiting for ring `r`; 0 where another command brings the row. -/
def State.waitingRoles (s : State) (k r : Nat) : List Nat :=
  let moved := ((s.cluster k).transfers.filter fun t => !t.out && !t.isHead && t.ring == r && t.tag.isNone).flatMap fun t =>
    List.replicate t.rows (if t.op == .load && t.src == .hbm then t.role else 0)
  List.replicate ((s.waitingRows k r).length - moved.length) 0 ++ moved

/-- Row `i` of ring `r` is one that an SU.LOAD brings from the data area. -/
def Walk.dataRow (w : Walk) (k r i : Nat) : Bool :=
  let placed := w.st.placedRows k r
  if i < placed then w.dataRows.contains (k, r, (w.st.ring k r).at i) else (w.st.waitingRoles k r)[i - placed]? == some 7

/-- The programs a VE.LDPROG loads come from the data area. -/
def Walk.fromData (w : Walk) (k : Nat) (c : CmdWord) : Bool :=
  match cmdA c with
  | .ring r => (List.range ((cmdCount c + 7) / 8)).all (w.dataRow k r)
  | _ => false

/-- A residue set with a modulus at every index, for what no set decides. -/
def fullSet : ResidueSet := ⟨17, List.replicate 64 1, List.replicate 64 1, 1, 1⟩

/-- A slot that a VE.LDPROG of known rows has filled holds a program with a reserved encoding (R100). -/
def State.badProgram (s : State) (k : Nat) (c : CmdWord) : Bool :=
  (List.range (cmdCount c)).any fun i => ((s.cluster k).progs.find (cmdSpec c + i)).any fun e => e.new != [] && !programOk fullSet e.new

/-- VE.LDPROG, VE.CHAIN. -/
def isLdprog (c : CmdWord) : Bool := cmdEngine c == 1 && cmdOpcode c == 10
@[inherit_doc isLdprog] def isChain (c : CmdWord) : Bool := cmdEngine c == 1 && cmdOpcode c == 1

/-- A program that passes its input on, may read word 3, and works on the operands a VE.CHAIN names: what the walk runs where it cannot know the program
(R101). -/
def passProgram (c : CmdWord) : List Word32 :=
  let head := (cmdA c).named.toNat + 2 * (cmdB c).named.toNat + 4 * (cmdC c).named.toNat + 8 * (cmdD c).named.toNat +
    16 * (cmdE c).named.toNat + 32 * (cmdE c).named.toNat + 256
  BitVec.ofNat 32 head :: BitVec.ofNat 32 64 :: List.replicate 6 0

/-- Run commands whose chain program the walk does not know: their outputs count as refused, which only the run can show. -/
def State.runUnknown (s : State) (k : Nat) (cs : List CmdWord) (run : State → State) : State :=
  let slots := cs.map fun c => (cmdSpec c, ({ from_ := 0, new := passProgram c, old := passProgram c } : Timed (List Word32)))
  let old := (s.cluster k).progs
  let t := run (s.modCluster k fun cl => { cl with progs := slots.foldl (fun tb e => tb.put e.1 e.2) cl.progs })
  let t := (t.poisonEngine k 1 5 (s.now + beatCycles)).modCluster k fun cl => { cl with progs := old }
  { t with faults := { t.faults with wires := t.faults.wires.filter fun f => f.word.toNat / 2 ^ 24 % 16 != 3 } }

/-- The output ring of a command that writes a header has no place for one more entry (R217). -/
def State.queueFull (s : State) (k : Nat) (c : CmdWord) : Bool :=
  writesHeader c && cmdEngine c != 3 && (match cmdD c with
    | .ring r => decide (8 ≤ (s.ring k r).hq.length)
    | _ => false)

/-- The least stamp of a message received in a job beat (R346, R348). -/
def Program.firstReceived (p : Program) (jb : Nat) : Option Nat :=
  match p.link with
  | none => none
  | some l => (((l.messages.filter fun m => m.receive && m.beat == jb).map fun m => 16 * (m.slot + m.frames - 1) + 1920)).min?

/-- A load from HBM whose address may overlap that of a store still to come: one of the two has no register (R182, R231). -/
def Walk.mayMeet (w : Walk) (c : CmdWord) : Bool :=
  let load := cmdEngine c == 3 && ((cmdOpcode c == 1 && cmdSpec c == 0) || cmdOpcode c == 2)
  let pending := (w.st.run 1).stores.filter fun r => !r.done
  load && ((cmdW3mode c != 1 && pending != []) || pending.any fun r => w.bare.contains r)

/-- The codes a command breaks at its issue, beside what its run shows (R142, R161, R190, R217, R281, R348). -/
def Walk.issueCodes (w : Walk) (k : Nat) (c : CmdWord) : List Nat :=
  let s := w.st
  let store := cmdEngine c = 3 ∧ cmdOpcode c = 3 ∧ cmdSpec c = 0
  let bare := cmdW3mode c ≠ 1
  let role := (w.prog.params.getD ((((walkCommand w.prog c).getD c).w3.toNat) % 64) {}).role
  failing (!w.mayMeet c) 0x0C ++ failing (!s.queueFull k c) 0x09 ++ failing ((walkCommand w.prog c).isSome) 0x19 ++
  failing (!isLdprog c || w.prog.refreshed || w.fromData k c) 0x15 ++
  failing (!(decide (store ∧ bare) && (w.anyRead || w.reads != []))) 0x09 ++
  failing (!(decide store && role == 6 && (w.prog.firstReceived w.jobBeat).any fun t => decide (t ≤ s.cycle.toNat))) 0x1B

/-- A load whose address no register names has been issued: it counts as a read of every extent (R182, R281). -/
def readsAny (c : CmdWord) : Bool :=
  cmdEngine c == 3 && ((cmdOpcode c == 1 && cmdSpec c == 0) || cmdOpcode c == 2) && cmdW3mode c != 1

/-- The fills of the walk hold their keys. -/
def State.keysHeld (s : State) : State :=
  { s with work := { s.work with kcDir := s.work.kcDir.map fun e => if e.filled then { e with bad := false } else e } }

/-- The commands of an item with their members' start cycles, `t` being the cycle of the item's issue (R186). -/
def memberCycles (x : Ctx) (t : Nat) (cs : List CmdWord) : List (CmdWord × Nat) :=
  cs.zip (memberStarts (t + if 1 < cs.length then cs.length else 0) none (cs.filterMap fun c => (memberOf x c).map fun m => (c, m)))

/-- Issue the commands of an item (R195): the run's breaches, and those of ports, slots, tiles and chain programs. -/
def Walk.issueCmd (w : Walk) (k pc : Nat) (x : Ctx) (c : CmdWord) (all : List CmdWord) : Except Reject Walk :=
  let s := w.st
  let stood := all.map fun c => (walkCommand w.prog c).getD c
  let run := fun (s : State) => if cmdEngine c = 9 then s.fuse k c stood
    else match stood with
      | [d] => if cmdEngine d = 3 ∧ cmdOpcode d = 1 ∧ cmdSpec d = 1 then s.onExtents k d fun d s => s.runMemberAt k x d else s.runMemberAt k x d
      | _ => s
  let strange := all.filter fun c => isChain c && w.unknown.contains (k, cmdSpec c)
  let t := if strange == [] then run s else s.runUnknown k strange run
  let starts := memberCycles x (s.cluster k).nextAt all
  let sends := starts.flatMap fun e => s.gxSends k x e.1 e.2
  let slots := starts.flatMap fun e => s.relaySlots k x e.1 e.2
  let known := fun d => isLdprog d && w.fromData k d
  let codes := failing (!sends.any fun e => w.gx.any (gxClash e)) 0x0B ++ failing (!slots.any w.slots.contains) 0x0B ++
    failing (cmdEngine c != 9 || (s.spanClusters (k / 32)).all fun k' => !(t.cluster k').handoverLate) 0x0C ++
    failing (!(s.spanGroups (k / 32)).any fun p => tileUndefined s t p) 0x17 ++ failing (!all.any fun d => known d && t.badProgram k d) 0x04
  match w.take k pc codes t.keysHeld with
  | .error e => .error e
  | .ok v =>
    let loads := all.filter isLdprog
    let slotsOf := fun (d : CmdWord) => (List.range (cmdCount d)).map fun i => (k, cmdSpec d + i)
    let store := all.any fun d => cmdEngine d == 3 && cmdOpcode d == 3 && cmdW3mode d != 1
    .ok { v with
      anyRead := v.anyRead || all.any readsAny, gx := v.gx ++ sends, slots := v.slots ++ slots
      unknown := (v.unknown.filter fun e => !(loads.flatMap slotsOf).contains e) ++ (loads.filter fun d => !known d).flatMap slotsOf
      bare := if store then v.bare ++ (v.st.run 1).stores.filter fun r => !(s.run 1).stores.contains r else v.bare }

/-- Issue the item at the head of cluster `k`'s stream. -/
def Walk.issue (w : Walk) (k : Nat) : Except Reject Walk :=
  let s := w.st
  let cl := s.cluster k
  let pc := cl.pc.toNat
  match itemAt pc (cl.image.drop pc), s.ctx? k with
  | .instr _ word, _ =>
    if cl.image.length ≤ pc then .error (w.reject k pc 0x04)
    else w.take k pc [] (s.runWord k word)
  | .cut _, _ => .error (w.reject k pc 0x04)
  | .cmd _ _ _, none => .error (w.reject k pc 0x04)
  | .cmd _ c ms, some x =>
    let all := if cmdEngine c = 9 then ms else [c]
    match lowestCode (all.flatMap (w.issueCodes k)) with
    | some e => .error (w.reject k pc e)
    | none => w.issueCmd k pc x c all

/-- The next item is a WAITB or an END, and the item before it issues in this cycle: it passes with that item (R171). -/
def State.passesWith (s : State) (k : Nat) : Bool :=
  let cl := s.cluster k
  let major := (cl.image.getD cl.pc.toNat 0).toNat / 2 ^ 26
  cl.nextAt == s.now + 1 && decide (cl.pc.toNat < cl.image.length) && (major == 0x15 || major == 0x1F)

/-- Issue what cluster `k`'s stream issues in this cycle: a waiting stream resumes, items of no cost let the next one in. -/
def Walk.issueAll (k : Nat) : Nat → Walk → Except Reject Walk
  | 0, w => .ok w
  | f + 1, w =>
    let w := { w with st := afterOut w.st (execWaitResume (clusterId k) w.st) }
    let cl := w.st.cluster k
    if cl.state = .issuing ∧ w.st.cycle.toNat < windowEnd ∧ (cl.nextAt = w.st.now ∨ w.st.passesWith k) then
      match w.issue k with
      | .ok v => if (v.st.cluster k).pc = cl.pc ∧ (v.st.cluster k).nextAt = cl.nextAt then .ok v else Walk.issueAll k f v
      | .error e => .error e
    else .ok w

/-! ### Stamps, verdicts and grants -/

/-- A message of the plan whose destination a read overlaps before the message's stamp (R348). -/
def Walk.readsEarly (w : Walk) (t : Transfer) : Bool :=
  match w.prog.link with
  | none => false
  | some l => l.messages.any fun m => m.receive && m.beat == w.jobBeat && decide (w.st.cycle.toNat < 16 * (m.slot + m.frames - 1) + 1920) &&
      ((w.extents.find? fun e => e.key == 64 * m.group + m.reg).any fun e => rangesOverlap t.addr t.bytes (e.base + m.offset) (2048 * m.frames))

/-- A head that a FIXED-class program loads from an intake area is of a declared input (R142). -/
def Walk.undeclaredHead (w : Walk) (k : Nat) (t : Transfer) : Bool :=
  t.isHead && !t.out && t.role == 4 && match w.st.ctx? k with
    | some x => (x.input? (w.st.cluster k) t.addr).isNone
    | none => false

/-- The codes of a granted HBM transfer: bytes read earlier in the interval and written now (R281), read before a message's
stamp (R348), or of an input that a FIXED-class program does not declare. -/
def Walk.grantCodes (w : Walk) (k : Nat) (t : Transfer) : List Nat :=
  let key := ((w.extents.find? fun e => inRange e.base e.len t.addr).map (·.key)).getD 4096
  failing (!(t.out && (w.reads.any fun r => r.1 == t.role && (r.2.1 != key || rangesOverlap t.addr t.bytes r.2.2.1 r.2.2.2)))) 0x09 ++
  failing (t.out || !w.readsEarly t) 0x1B ++ failing (w.prog.refreshed || !w.undeclaredHead k t) 0x15

/-- What a granted load adds to the interval's reads of release extents. -/
def Walk.noteRead (w : Walk) (t : Transfer) : Walk :=
  let key := ((w.extents.find? fun e => inRange e.base e.len t.addr).map (·.key)).getD 4096
  if !t.out && (t.role == 5 || t.role == 6) then { w with reads := w.reads ++ [(t.role, key, t.addr, t.bytes)] } else w

/-- Offer a slot of a source to group `p` in this cycle (R221, R222); a slot that carries a link frame is not the SU's. -/
def Walk.grantOne (p : Nat) (w : Walk) (src : SlotSource) : Except Reject Walk :=
  let s := w.st
  let t := s.now
  if src = .hbm ∧ (w.link.at p []).contains s.cycle.toNat then .ok w
  else if !s.slotOpen p src t then .ok w
  else match s.chosen p src t with
    | none => .ok w
    | some b =>
      let k := match b.by_ with
        | .transfer k _ => k
        | .fill _ => 32 * p + b.cluster
      let pc := (s.cluster k).pc.toNat
      let codes := match b.by_ with
        | .transfer k tr => if src = .hbm then w.grantCodes k tr else []
        | .fill _ => []
      match w.take k pc codes (afterOut s (execTransferGrant (Fin.ofNat 68 p) src s.cycle s)) with
      | .error e => .error e
      | .ok v =>
        let v := match b.by_ with
          | .transfer k tr =>
            let v := if src = .hbm then v.noteRead tr else v
            if src = .hbm ∧ tr.op = .load ∧ tr.role = 7 ∧ !tr.isHead then
              let g := s.ring k tr.ring
              { v with dataRows := v.dataRows ++ (List.range tr.rows).map fun i => (k, tr.ring, g.claimAt i) }
            else v
          | .fill _ => v
        .ok (if src = .hbm then { v with hbm := v.hbm.modify p 0 (· + 1) } else v)

/-- A head that the walk has landed and that no declaration describes: it is as long as its rows, and what is wrong with it only
the run can show (R144). -/
def State.openHead (s : State) (k : Nat) (t : Transfer) : State :=
  match s.ctx? k with
  | none => s
  | some x =>
    let known := t.role == 4 && (x.input? (s.cluster k) t.addr).isSome
    s.modRing k t.ring fun g => { g with hq := g.hq.map fun e =>
      if known || e.at_ ≠ t.stamp || !e.loaded then e
      else { e with loaded := false, hdr := if e.code = 2 then { e.hdr with level := max 1 (e.rows / max 1 (2 * x.perPlane)) } else e.hdr } }

/-- Transfers of cluster `k` whose stamp falls in this cycle land (R223). -/
def Walk.stampsOf (w : Walk) (k : Nat) : Except Reject Walk :=
  let tags := ((w.st.cluster k).transfers.filter fun t => t.tag.isSome && t.stamp == w.st.now)
  walkFold (fun w t =>
    if t.isHead && !t.out && decide (8 ≤ (w.st.ring k t.ring).hq.length) then .error (w.reject k (w.st.cluster k).pc.toNat 0x09)
    else
      let s := afterOut w.st (execTransferStamp (clusterId k) (BitVec.ofNat 6 (t.tag.getD 0)) w.st)
      w.take k (w.st.cluster k).pc.toNat [] (if t.isHead && !t.out then s.openHead k t else s)) w tags

/-- Held repeats of cluster `k` take effect (R226). -/
def Walk.shadowsOf (w : Walk) (k : Nat) : Except Reject Walk :=
  walkFold (fun w r =>
    let d := (w.st.ring k r).desc
    if d.shadow && d.outstanding == 0 then
      w.take k (w.st.cluster k).pc.toNat [] (afterOut w.st (execShadowRepeat (clusterId k) (Fin.ofNat 16 r) w.st))
    else .ok w) w (List.range 16)

/-- Relay rows and transform verdicts of group `p` that fall in this cycle (R122, R229). -/
def Walk.groupEvents (w : Walk) (p : Nat) : Except Reject Walk :=
  let k := 32 * p
  let rows := (w.st.unit p).relay.filter fun r => decide (r.stamp ≤ w.st.now)
  match walkFold (fun w _ => w.take k (w.st.cluster k).pc.toNat [] (afterOut w.st (execRelayRowLanding (Fin.ofNat 68 p) w.st))) w rows with
  | .error e => .error e
  | .ok w =>
    let due := (w.st.unit p).teVerdicts.filter fun v => decide (v.at_ ≤ w.st.now)
    walkFold (fun w v =>
      if v.outs.any fun e => decide (8 < (w.st.ring e.1 e.2.1).hq.length) then .error (w.reject k (w.st.cluster k).pc.toNat 0x09)
      else w.take k (w.st.cluster k).pc.toNat [] (afterOut w.st (execTeChecksumVerdict (Fin.ofNat 68 p) 0 w.st))) w due

/-! ### Cycles and beats -/

/-- One cycle of the walk. -/
def Walk.cycle (w : Walk) : Except Reject Walk :=
  match w.take (w.clusters.headD 0) ((w.st.cluster (w.clusters.headD 0)).pc.toNat) [] (w.st.inject w.st.now) with
  | .error e => .error e
  | .ok w =>
  let ks := w.clusters
  let ps := w.st.work.jobs.flatMap fun e => e.2.set0
  match walkFold Walk.stampsOf w ks with
  | .error e => .error e
  | .ok w => match walkFold Walk.groupEvents w ps with
    | .error e => .error e
    | .ok w => match walkFold Walk.shadowsOf w ks with
      | .error e => .error e
      | .ok w => match walkFold (fun w k => Walk.issueAll k ((w.st.cluster k).image.length + 1) w) w ks with
        | .error e => .error e
        | .ok w => walkFold (fun w p => walkFold (Walk.grantOne p) w [.hbm, .keyCache, .groupBuffer]) w ps

/-- Why a transfer waits at the window's end (R222): tags or credit, the reservation, or the window. -/
def Walk.leftover (w : Walk) (k : Nat) (t : Transfer) : Nat :=
  let room := t.out || (w.st.slotClusters k t).all fun k' => decide (t.rows ≤ (w.st.ring k' t.ring).creditAt w.st.now)
  if !room || (w.st.cluster k).freeTag?.isNone then 0x0D
  else if t.src = .hbm ∧ 7105 ≤ w.hbm.at (k / 32) 0 + (w.link.at (k / 32) []).length then 0x0F else 0x0A

/-- The program window's end: ungranted transfers, then unfinished work (R25, R171, R222). -/
def Walk.closeWindow (w : Walk) : Except Reject Walk :=
  let left := w.clusters.flatMap fun k => ((w.st.cluster k).transfers.filter fun t => t.tag.isNone).map fun t => (k, t)
  match left with
  | (k, t) :: _ => .error (w.reject k (w.st.cluster k).pc.toNat (w.leftover k t))
  | [] => match w.st.work.kcDir.findSome? (·.fill) with
  | some f =>
    let full := w.st.work.jobs.all fun e => e.2.set0.all fun p => decide (7105 ≤ w.hbm.at p 0 + (w.link.at p []).length)
    .error (w.reject f.cluster f.word (if full then 0x0F else 0x0A))
  | none =>
    let t := afterOut w.st (execProgramWindowEnd w.st)
    let unit := (t.faults.wires.headD ⟨0, 0, 0, 0, false, false, false, none⟩).word.toNat % 2 ^ 20
    let k := 32 * (17 * (unit / 65536) + unit / 2048 % 32) + unit / 64 % 32
    w.take k (w.st.cluster k).pc.toNat [] t

/-- Every non-resident ring, header queue, tag, shadow and relay row of the job is gone (R238). -/
def Walk.empty (w : Walk) : Bool :=
  w.clusters.all fun k => (w.st.cluster k).transfers == [] && (w.st.unit (k / 32)).relay == [] && (List.range 16).all fun r =>
    let g := w.st.ring k r
    g.resident || (g.ready == 0 && g.hq == [] && !g.desc.shadow)

/-- The HBM slot cycles of a window in order, or in reverse order. -/
def hbmSlots : List Nat := (List.range windowEnd).filter (slotCycle .hbm)

/-- Reserve a slot for each frame of a message (R345, R346): a send's latest free one by its read's bound; a receive's first
free ones after its frames and its retransmission. -/
def Walk.reserve (w : Walk) (m : LinkMessage) : Except Reject Walk :=
  let j : Option (Nat × Job) := w.st.work.jobs.head?
  let p := ((j.map (·.2.set0)).getD []).getD m.group 0
  let wants : List Nat := (List.range m.frames).map (fun f => if m.receive then 16 * (m.slot + f) + 112 else 16 * (m.slot + f) - 1552) ++
    (if m.receive then [16 * (m.slot + m.frames - 1) + 368] else [])
  walkFold (fun w c =>
    let used := w.link.at p []
    let free := hbmSlots.filter fun x => !used.contains x
    match if m.receive then free.find? fun x => decide (c < x) else (free.filter fun x => decide (x ≤ c)).getLast? with
    | some x => .ok { w with link := w.link.put p (x :: used) }
    | none => .error { (w.reject (32 * p) 0 (if m.receive then 0x0F else 0x1B)) with cycle := c }) w wants

/-- A job beat begins: a checkpoint finds the job empty (R238, R281), refreshes run on (R164), link frames take their slots. -/
def Walk.openBeat (w : Walk) : Except Reject Walk :=
  let jb := w.jobBeat
  let at_ := w.prog.checkpoints.contains jb
  if at_ && !w.empty then .error (w.reject (w.clusters.headD 0) ((w.st.cluster (w.clusters.headD 0)).pc.toNat) 0x09)
  else
    let ps := w.st.work.jobs.flatMap fun e => e.2.set0
    let st := w.st.modJob 1 fun j => { j with jobBeat := jb }
    let w := { w with st := st, hbm := [], link := [], ports := [], gx := [], slots := [], reads := if at_ then [] else w.reads, anyRead := if at_ then false else w.anyRead }
    match walkFold (fun w p => w.take (32 * p) (w.st.cluster (32 * p)).pc.toNat [] (afterOut w.st (execRefreshResume (Fin.ofNat 68 p) w.st))) w ps with
    | .error e => .error e
    | .ok w => walkFold Walk.reserve w (((w.prog.link.map (·.messages)).getD []).filter fun m => m.beat == jb)

/-- Run `n` cycles, those of the program window and the stamps after it. -/
def Walk.cycles : Nat → Walk → Except Reject Walk
  | 0, w => .ok w
  | n + 1, w =>
    match if w.st.cycle.toNat = windowEnd then w.closeWindow else .ok w with
    | .error e => .error e
    | .ok w => match w.cycle with
      | .error e => .error e
      | .ok w =>
        let st := { w.st with cycle := w.st.cycle + 1 }
        Walk.cycles n { w with st := st }

/-- The first cluster whose stream has ended while a non-resident ring of it holds rows (R196 code QUEUE_BALANCE). -/
def Walk.heldRows (w : Walk) : Option Nat :=
  w.clusters.find? fun k => (w.st.cluster k).state == .ended && (List.range 16).any fun r =>
    !(w.st.ring k r).resident && ((w.st.ring k r).ready != 0 || !(w.st.claimedRows k r).isEmpty || !(w.st.waitingRows k r).isEmpty)

/-- Every stream of the walk has ended. -/
def Walk.ended (w : Walk) : Bool := w.clusters.all fun k => (w.st.cluster k).state == .ended

/-- Walk at most `n` more job beats, until every stream has ended: the beats walked (R196). -/
def Walk.beats : Nat → Walk → Except Reject Nat
  | 0, w => .error { (w.reject (w.clusters.headD 0) 0 0x1C) with cycle := 0 }
  | n + 1, w =>
    match w.openBeat with
    | .error e => .error e
    | .ok w => match w.cycles 63488 with
      | .error e => .error e
      | .ok w => match w.heldRows with
        | some k => .error (w.reject k (w.st.cluster k).lastItem 0x09)
        | none =>
          if w.ended then .ok (w.jobBeat + 1)
          else
            let st := { w.st with beat := w.st.beat + 1, cycle := 0 }
            Walk.beats n { w with st := st }

/-- First byte past every registered key region. -/
def State.keysEnd (s : State) : Nat := s.work.keySets.foldl (fun m e => max m (e.2.regionBase + e.2.regionLen)) 0

/-- Every choice of some elements of a list, first that of none. -/
def choices : List Nat → List (List Nat)
  | [] => [[]]
  | x :: t => choices t ++ (choices t).map (x :: ·)

/-- Step 4 (R194, R195): a walk for each choice of the counts taken at their least; the longest is the job length (R188). -/
def State.step4 (s : State) (p : Program) : Option Reject :=
  let l := walkExtents p s.keysEnd
  let start := fun low : List Nat => ({ st := s.walkStart p l low, prog := p, extents := l } : Walk)
  let walk := fun (longest : Except Reject Nat) low => match longest with
    | .error e => .error e
    | .ok m => match Walk.beats p.jobLength (start low) with
      | .error e => .error e
      | .ok n => .ok (max m n)
  match (choices p.walkedRegs).foldl walk (.ok 0) with
  | .error e => some e
  | .ok n => if n = p.jobLength then none else
    let w := start []
    some { (w.reject (w.clusters.headD 0) 0 0x1C) with beat := n - 1, cycle := 0 }

/-- The verifier (R194): the first failure of its four steps. -/
def State.verify (s : State) (b : List Byte) (len : Nat) : Option Reject :=
  match s.step1 b len with
  | some e => some e
  | none =>
    let p := parseProgram b
    match p.step2 with
    | some e => some e
    | none => match s.step3 p b with
      | some e => some e
      | none => s.step4 p

end Sys2Proof.Machine
end

