-- ==== Sys2Proof/Machine/Verifier.lean ====
section
/-!
DEFINITION. Verifier: the program queue (R193, R317), verification and installation (R194, R197, R198, R371).
-/
namespace Sys2Proof.Machine

/-- The type-specific bytes of a type 0x01 or 0x02 completion (R324): install slot, where a rejection stands, data area. -/
def programBody (slot : Nat) (r : Reject) (data : Nat) : List Byte :=
  leBytes 4 slot ++ leBytes 4 r.word ++ leBytes 4 r.beat ++ leBytes 2 r.cycle ++ leBytes 1 r.group ++ leBytes 1 r.cluster ++ leBytes 2 r.image ++
  leBytes 6 0 ++ leBytes 8 data

/-- A completion without a place: nothing was rejected at a word. -/
def noPlace (status : Nat) : Reject := { code := status, beat := 0, cycle := 0 }

/-- Complete a program entry of a function. -/
def State.completeProgram (s : State) (fn ty : Nat) (tag : Word32) (slot : Nat) (r : Reject) (data : Nat) : State :=
  s.complete fn ty r.code tag (programBody slot r data)

/-- Bytes in the program queue (R193). -/
def State.queueBytes (s : State) : Nat := (s.work.queue.map fun q => q.bytes.length).sum

/-- The object that a function is assembling from chunks (R193). -/
def State.assembling? (s : State) (fn : Nat) : Option QueuedProgram := s.work.queue.find? fun q => q.fn == fn && q.byChunks && !q.complete

/-- The queue without the object a function is assembling. -/
def State.discardChunks (s : State) (fn : Nat) : State :=
  { s with work := { s.work with queue := s.work.queue.filter fun q => !(q.fn == fn && q.byChunks && !q.complete) } }

/-- A chunk entry's bytes join their object (R193, R197, R317). -/
def State.addChunk (s : State) (e : Entry) : State :=
  let final := e.flags % 2 == 1
  let n := e.flags / 256 % 64
  let off := field e.raw 8 4
  let refuse := fun (s : State) (status : Nat) => s.completeProgram e.fn 1 e.tag 0 (noPlace status) 0
  if n = 0 || 48 < n || (!final && n != 48) then refuse s 0x01
  else
    let old := s.assembling? e.fn
    let have_ := (old.map fun q => q.bytes.length).getD 0
    -- chunks of a second object among those of an unfinished first
    if old.isNone && s.work.queue.any (fun q => q.byChunks && !q.complete) then refuse s 0x21
    else if off ≠ have_ then refuse (s.discardChunks e.fn) 0x21
    else if (old.isNone && decide (4 ≤ s.work.queue.length)) || decide (0x10000000 < s.queueBytes + n) then refuse (s.discardChunks e.fn) 0x20
    else
      let q : QueuedProgram := { fn := e.fn, tag := e.tag, byChunks := true, bytes := (old.map (·.bytes)).getD [] ++ slice e.raw 12 n,
                                 complete := final, seq := e.seq, visible := e.visible }
      let s := s.discardChunks e.fn
      { s with work := { s.work with queue := s.work.queue ++ [q] } }

/-- PROGRAM_CHUNK (R193): the first visible chunk entry. -/
def execProgramChunk (s : State) : Out :=
  live s <| match s.visibleEntry fun e => e.type == 1 with
    | none => s
    | some e => (s.dropEntry e).addChunk e

/-- A reference entry's object is copied into the queue (R193). -/
def State.addReference (s : State) (e : Entry) : State :=
  let a := field e.raw 8 8
  let n := field e.raw 16 4
  let refuse := fun (status : Nat) => s.completeProgram e.fn 2 e.tag 0 (noPlace status) 0
  if s.memSys.hbmFailed then refuse 0x61
  else if n = 0 || !s.inIntake e.fn a n then refuse 0x01
  else if 4 ≤ s.work.queue.length || 0x10000000 < s.queueBytes + n then refuse 0x20
  else
    let q : QueuedProgram := { fn := e.fn, tag := e.tag, byChunks := false, bytes := s.mem.fetch a n, complete := true, seq := e.seq, visible := e.visible }
    { s with work := { s.work with queue := s.work.queue ++ [q] } }

/-- PROGRAM_REFERENCE (R193): the first visible reference entry. -/
def execProgramReference (s : State) : Out :=
  live s <| match s.visibleEntry fun e => e.type == 2 with
    | none => s
    | some e => (s.dropEntry e).addReference e

/-- The whole object that is verified next: the one whose last entry became visible first (R193). -/
def State.nextProgram (s : State) : Option QueuedProgram :=
  (s.work.queue.filter (·.complete)).foldl (fun best q => match best with
    | none => some q
    | some b => if q.visible < b.visible ∨ (q.visible = b.visible ∧ q.seq < b.seq) then some q else some b) none

/-- The lowest free install slot (R198). -/
def State.freeProgramSlot (s : State) : Option Nat := (List.range 64).find? fun i => (s.work.programs.find i).isNone

/-- Install a verified program, or find it installed (R197, R198): slot or status. -/
def State.install (s : State) (q : QueuedProgram) (p : Program) : State :=
  let done := fun (s : State) (slot : Nat) => s.completeProgram q.fn (if q.byChunks then 1 else 2) q.tag slot (noPlace 0) (s.programData slot)
  let refuse := fun (status : Nat) => s.completeProgram q.fn (if q.byChunks then 1 else 2) q.tag 0 (noPlace status) 0
  match s.work.programs.find? fun e => e.2.digest == p.digest with
  | some e => done s e.1
  | none =>
    if s.mode.sealedTrust && p.releaseStage && !s.attestedProgram p then refuse 0x23
    else match s.freeProgramSlot with
      | none => refuse 0x22
      | some slot => done { s with mem := s.mem.store (s.programData slot) p.data
                                   work := { s.work with programs := s.work.programs.put slot p } } slot

/-- PROGRAM_VERIFICATION (R193, R194, R196 to R198): the next whole object is verified, and installed or rejected; its queue
space is freed. -/
def execProgramVerification (s : State) : Out :=
  live s <| match s.nextProgram with
    | none => s
    | some q =>
      let t := { s with work := { s.work with queue := s.work.queue.filter fun x => x.seq != q.seq } }
      match s.verify q.bytes q.bytes.length with
      | some r => t.completeProgram q.fn (if q.byChunks then 1 else 2) q.tag 0 r 0
      | none => t.install q (parseProgram q.bytes)

end Sys2Proof.Machine
end

