-- ==== Sys2Proof/Machine/Dispatch.lean ====
section
/-!
DEFINITION. Dispatch: one arm per command, each a direct call of its meaning.
-/
namespace Sys2Proof.Machine

/-- The effect of a command on everything but the queue. -/
def exec (i : Instr) (s : State) : Host.Outcome State Fault Refusal :=
  match i with
  | .nop k => Sys2Proof.Machine.execNop k s
  | .add k sd sa sb => Sys2Proof.Machine.execAdd k sd sa sb s
  | .sub k sd sa sb => Sys2Proof.Machine.execSub k sd sa sb s
  | .and k sd sa sb => Sys2Proof.Machine.execAnd k sd sa sb s
  | .or k sd sa sb => Sys2Proof.Machine.execOr k sd sa sb s
  | .xor k sd sa sb => Sys2Proof.Machine.execXor k sd sa sb s
  | .shl k sd sa sb => Sys2Proof.Machine.execShl k sd sa sb s
  | .shr k sd sa sb => Sys2Proof.Machine.execShr k sd sa sb s
  | .mul k sd sa sb => Sys2Proof.Machine.execMul k sd sa sb s
  | .addi k sd sa imm => Sys2Proof.Machine.execAddi k sd sa imm s
  | .lih k sd pos imm => Sys2Proof.Machine.execLih k sd pos imm s
  | .movp k sd pk => Sys2Proof.Machine.execMovp k sd pk s
  | .rdfeat k sd idx => Sys2Proof.Machine.execRdfeat k sd idx s
  | .rdstat k sd idx => Sys2Proof.Machine.execRdstat k sd idx s
  | .loop k lc src forward count => Sys2Proof.Machine.execLoop k lc src forward count s
  | .endl k lc back => Sys2Proof.Machine.execEndl k lc back s
  | .waitc k c => Sys2Proof.Machine.execWaitc k c s
  | .waitb k => Sys2Proof.Machine.execWaitb k s
  | .waitResume k => Sys2Proof.Machine.execWaitResume k s
  | .settw k tk sa => Sys2Proof.Machine.execSettw k tk sa s
  | .endStream k => Sys2Proof.Machine.execEndStream k s
  | .veChain k c => Sys2Proof.Machine.execVeChain k c s
  | .veTensor k c => Sys2Proof.Machine.execVeTensor k c s
  | .veRescale g c => Sys2Proof.Machine.execVeRescale g c s
  | .veModsw g c => Sys2Proof.Machine.execVeModsw g c s
  | .veCvtin k c => Sys2Proof.Machine.execVeCvtin k c s
  | .veCvtout k c => Sys2Proof.Machine.execVeCvtout k c s
  | .veGather k c => Sys2Proof.Machine.execVeGather k c s
  | .veAuto g c => Sys2Proof.Machine.execVeAuto g c s
  | .veFill k c => Sys2Proof.Machine.execVeFill k c s
  | .veLdprog k c => Sys2Proof.Machine.execVeLdprog k c s
  | .veLdconst k c => Sys2Proof.Machine.execVeLdconst k c s
  | .teFwd g c => Sys2Proof.Machine.execTeFwd g c s
  | .teInv g c => Sys2Proof.Machine.execTeInv g c s
  | .teChecksumVerdict g disturb => Sys2Proof.Machine.execTeChecksumVerdict g disturb s
  | .rmeBconv k c => Sys2Proof.Machine.execRmeBconv k c s
  | .rmeKip k c => Sys2Proof.Machine.execRmeKip k c s
  | .rmeCombine k c => Sys2Proof.Machine.execRmeCombine k c s
  | .refRun k c => Sys2Proof.Machine.execRefRun k c s
  | .refreshResume g => Sys2Proof.Machine.execRefreshResume g s
  | .suLoad k c => Sys2Proof.Machine.execSuLoad k c s
  | .suLoads g c => Sys2Proof.Machine.execSuLoads g c s
  | .suStore k c => Sys2Proof.Machine.execSuStore k c s
  | .suArm k c => Sys2Proof.Machine.execSuArm k c s
  | .shadowRepeat k ring => Sys2Proof.Machine.execShadowRepeat k ring s
  | .suRelay k c => Sys2Proof.Machine.execSuRelay k c s
  | .suKfill k c => Sys2Proof.Machine.execSuKfill k c s
  | .suPip k c => Sys2Proof.Machine.execSuPip k c s
  | .suTile k c => Sys2Proof.Machine.execSuTile k c s
  | .gxMove k c => Sys2Proof.Machine.execGxMove k c s
  | .gxBcast g c => Sys2Proof.Machine.execGxBcast g c s
  | .fuse k c members => Sys2Proof.Machine.execFuse k c members s
  | .sheepdogVerdict k => Sys2Proof.Machine.execSheepdogVerdict k s
  | .transferGrant g src cycle => Sys2Proof.Machine.execTransferGrant g src cycle s
  | .transferStamp k tag => Sys2Proof.Machine.execTransferStamp k tag s
  | .relayRowLanding g => Sys2Proof.Machine.execRelayRowLanding g s
  | .hbmBoundOverrun k tag => Sys2Proof.Machine.execHbmBoundOverrun k tag s
  | .kcBoundOverrun k tag => Sys2Proof.Machine.execKcBoundOverrun k tag s
  | .faultMessage wire => Sys2Proof.Machine.execFaultMessage wire s
  | .testMessage p => Sys2Proof.Machine.execTestMessage p s
  | .deviceCollectorRecord => Sys2Proof.Machine.execDeviceCollectorRecord s
  | .beatBoundary => Sys2Proof.Machine.execBeatBoundary s
  | .programWindowEnd => Sys2Proof.Machine.execProgramWindowEnd s
  | .terrierInjection u fires arrives => Sys2Proof.Machine.execTerrierInjection u fires arrives s
  | .terrierVerdict u own peer peerGroup firedUnit => Sys2Proof.Machine.execTerrierVerdict u own peer peerGroup firedUnit s
  | .terrierRetest p passes => Sys2Proof.Machine.execTerrierRetest p passes s
  | .serviceScrub finds => Sys2Proof.Machine.execServiceScrub finds s
  | .abortFill job => Sys2Proof.Machine.execAbortFill job s
  | .retrieverAbsorb p => Sys2Proof.Machine.execRetrieverAbsorb p s
  | .retrieverFinalize p => Sys2Proof.Machine.execRetrieverFinalize p s
  | .ledgerSampling temps rails => Sys2Proof.Machine.execLedgerSampling temps rails s
  | .reconciliation => Sys2Proof.Machine.execReconciliation s
  | .retrieverVerdict => Sys2Proof.Machine.execRetrieverVerdict s
  | .windfallTimeout job => Sys2Proof.Machine.execWindfallTimeout job s
  | .releaseDecision => Sys2Proof.Machine.execReleaseDecision s
  | .checkpointCopy job => Sys2Proof.Machine.execCheckpointCopy job s
  | .submissionWrite fn offset data tlps onStream => Sys2Proof.Machine.execSubmissionWrite fn offset data tlps onStream s
  | .submissionRead fn length => Sys2Proof.Machine.execSubmissionRead fn length s
  | .programChunk => Sys2Proof.Machine.execProgramChunk s
  | .programReference => Sys2Proof.Machine.execProgramReference s
  | .programVerification => Sys2Proof.Machine.execProgramVerification s
  | .jobEntry => Sys2Proof.Machine.execJobEntry s
  | .jobMapping job => Sys2Proof.Machine.execJobMapping job s
  | .jobFirstIssue job => Sys2Proof.Machine.execJobFirstIssue job s
  | .jobDeadline job => Sys2Proof.Machine.execJobDeadline job s
  | .jobRestart job => Sys2Proof.Machine.execJobRestart job s
  | .jobCompletion job => Sys2Proof.Machine.execJobCompletion job s
  | .transfer => Sys2Proof.Machine.execTransfer s
  | .transferComplete fn hostOk => Sys2Proof.Machine.execTransferComplete fn hostOk s
  | .registerKeyset => Sys2Proof.Machine.execRegisterKeyset s
  | .keysetCommit => Sys2Proof.Machine.execKeysetCommit s
  | .removeKeyset => Sys2Proof.Machine.execRemoveKeyset s
  | .removeProgram => Sys2Proof.Machine.execRemoveProgram s
  | .defineArea => Sys2Proof.Machine.execDefineArea s
  | .deleteArea => Sys2Proof.Machine.execDeleteArea s
  | .cancelJob => Sys2Proof.Machine.execCancelJob s
  | .marker => Sys2Proof.Machine.execMarker s
  | .encode => Sys2Proof.Machine.execEncode s
  | .backlogDrain fn => Sys2Proof.Machine.execBacklogDrain fn s
  | .extentDigestDone job => Sys2Proof.Machine.execExtentDigestDone job s
  | .bar2Write fn offset data onStream => Sys2Proof.Machine.execBar2Write fn offset data onStream s
  | .bar2Read fn offset length onStream => Sys2Proof.Machine.execBar2Read fn offset length onStream s
  | .configRequest fn a => Sys2Proof.Machine.execConfigRequest fn a s
  | .vfFunctionLevelReset vf => Sys2Proof.Machine.execVfFunctionLevelReset vf s
  | .pfFunctionLevelReset => Sys2Proof.Machine.execPfFunctionLevelReset s
  | .pePerstN active => Sys2Proof.Machine.execPePerstN active s
  | .d3hotEntry fn => Sys2Proof.Machine.execD3hotEntry fn s
  | .eventSourceFire fn source => Sys2Proof.Machine.execEventSourceFire fn source s
  | .eventTaken fn source => Sys2Proof.Machine.execEventTaken fn source s
  | .evSet fn v w => Sys2Proof.Machine.execEvSet fn v w s
  | .evComplete fn v w => Sys2Proof.Machine.execEvComplete fn v w s
  | .evMaskWrite fn v w => Sys2Proof.Machine.execEvMaskWrite fn v w s
  | .ringEnable fn receipts v => Sys2Proof.Machine.execRingEnable fn receipts v s
  | .stickyClear reg v w => Sys2Proof.Machine.execStickyClear reg v w s
  | .logTailWrite v => Sys2Proof.Machine.execLogTailWrite v s
  | .registerWrite fn offset v w => Sys2Proof.Machine.execRegisterWrite fn offset v w s
  | .lineWriteback addr secondReadCorrects => Sys2Proof.Machine.execLineWriteback addr secondReadCorrects s
  | .rowRemap stack pc row => Sys2Proof.Machine.execRowRemap stack pc row s
  | .patrolScrub finds => Sys2Proof.Machine.execPatrolScrub finds s
  | .kcExtentRepair extent => Sys2Proof.Machine.execKcExtentRepair extent s
  | .stackTemperatureTrigger sensor temp => Sys2Proof.Machine.execStackTemperatureTrigger sensor temp s
  | .doubledRefreshEntry stack => Sys2Proof.Machine.execDoubledRefreshEntry stack s
  | .memoryClockSlow die => Sys2Proof.Machine.execMemoryClockSlow die s
  | .couplingCapLift => Sys2Proof.Machine.execCouplingCapLift s
  | .stepSwitch => Sys2Proof.Machine.execStepSwitch s
  | .avsVoltageConfirm mv amps => Sys2Proof.Machine.execAvsVoltageConfirm mv amps s
  | .stepUpAbandoned => Sys2Proof.Machine.execStepUpAbandoned s
  | .stepUpRetry => Sys2Proof.Machine.execStepUpRetry s
  | .junctionStepUp => Sys2Proof.Machine.execJunctionStepUp s
  | .cappedEvaluation vddcWatts => Sys2Proof.Machine.execCappedEvaluation vddcWatts s
  | .vddCCurrentLift => Sys2Proof.Machine.execVddCCurrentLift s
  | .hostStep v w => Sys2Proof.Machine.execHostStep v w s
  | .railRange rail mv => Sys2Proof.Machine.execRailRange rail mv s
  | .thermalTrip sensor => Sys2Proof.Machine.execThermalTrip sensor s
  | .powerOnReset => Sys2Proof.Machine.execPowerOnReset s
  | .brownOutReset => Sys2Proof.Machine.execBrownOutReset s
  | .clockFailure => Sys2Proof.Machine.execClockFailure s
  | .lockUp => Sys2Proof.Machine.execLockUp s
  | .resetN => Sys2Proof.Machine.execResetN s
  | .watchdog => Sys2Proof.Machine.execWatchdog s
  | .swReset v w => Sys2Proof.Machine.execSwReset v w s
  | .releaseStep obs => Sys2Proof.Machine.execReleaseStep obs s
  | .hostReady => Sys2Proof.Machine.execHostReady s
  | .haltReqN => Sys2Proof.Machine.execHaltReqN s
  | .halt v w => Sys2Proof.Machine.execHalt v w s
  | .orderlyHalt => Sys2Proof.Machine.execOrderlyHalt s
  | .coolAlarmN active => Sys2Proof.Machine.execCoolAlarmN active s
  | .coolAlarmStuck => Sys2Proof.Machine.execCoolAlarmStuck s
  | .coolForcingEnd => Sys2Proof.Machine.execCoolForcingEnd s
  | .inputGlitch pin racing => Sys2Proof.Machine.execInputGlitch pin racing s
  | .inputRacingEnd pin => Sys2Proof.Machine.execInputRacingEnd pin s
  | .beatIn p => Sys2Proof.Machine.execBeatIn p s
  | .trstN => Sys2Proof.Machine.execTrstN s
  | .blockIdleReport domain => Sys2Proof.Machine.execBlockIdleReport domain s
  | .blockIdle domain => Sys2Proof.Machine.execBlockIdle domain s
  | .groupRetirement p => Sys2Proof.Machine.execGroupRetirement p s
  | .spareProven p passes => Sys2Proof.Machine.execSpareProven p passes s
  | .linkFrameReceive port frame uncorrectable corrected => Sys2Proof.Machine.execLinkFrameReceive port frame uncorrectable corrected s
  | .linkMessageSend port slot => Sys2Proof.Machine.execLinkMessageSend port slot s
  | .linkRetransmit port slot => Sys2Proof.Machine.execLinkRetransmit port slot s
  | .linkKeepalive port => Sys2Proof.Machine.execLinkKeepalive port s
  | .portTraining port t => Sys2Proof.Machine.execPortTraining port t s
  | .spareRequest port lane corrected => Sys2Proof.Machine.execSpareRequest port lane corrected s
  | .spareAcknowledge port => Sys2Proof.Machine.execSpareAcknowledge port s
  | .laneSwap port => Sys2Proof.Machine.execLaneSwap port s
  | .beatMarker intact beat error => Sys2Proof.Machine.execBeatMarker intact beat error s
  | .aligned => Sys2Proof.Machine.execAligned s
  | .clear r => Sys2Proof.Machine.execClear r s
  | .fail r => Sys2Proof.Machine.execFail r s
  | .ready r => Sys2Proof.Machine.execReady r s
  | .restart r => Sys2Proof.Machine.execRestart r s
  | .terminate r => Sys2Proof.Machine.execTerminate r s
  | .step r => Sys2Proof.Machine.execStep r s
  | .domainStepChange => Sys2Proof.Machine.execDomainStepChange s
  | .linkedJobStart job => Sys2Proof.Machine.execLinkedJobStart job s
  | .portEnable port v w => Sys2Proof.Machine.execPortEnable port v w s
  | .retrain port v w => Sys2Proof.Machine.execRetrain port v w s
  | .identity => Sys2Proof.Machine.execIdentity s
  | .ownerState => Sys2Proof.Machine.execOwnerState s
  | .loadCurve => Sys2Proof.Machine.execLoadCurve s
  | .importOffer => Sys2Proof.Machine.execImportOffer s
  | .importShare => Sys2Proof.Machine.execImportShare s
  | .eraseShare => Sys2Proof.Machine.execEraseShare s
  | .attest => Sys2Proof.Machine.execAttest s
  | .partialDecrypt => Sys2Proof.Machine.execPartialDecrypt s
  | .pointCheck => Sys2Proof.Machine.execPointCheck s
  | .scalarMultiplication => Sys2Proof.Machine.execScalarMultiplication s
  | .ecdsaVerify => Sys2Proof.Machine.execEcdsaVerify s
  | .modularExponentiation => Sys2Proof.Machine.execModularExponentiation s
  | .sealDisable => Sys2Proof.Machine.execSealDisable s
  | .mailboxResponse => Sys2Proof.Machine.execMailboxResponse s
  | .drbgHealthFailure => Sys2Proof.Machine.execDrbgHealthFailure s
  | .drbgReseed => Sys2Proof.Machine.execDrbgReseed s
  | .stageGo w => Sys2Proof.Machine.execStageGo w s
  | .stageComplete flashOk => Sys2Proof.Machine.execStageComplete flashOk s
  | .adoptGo w => Sys2Proof.Machine.execAdoptGo w s
  | .adoptionPiece ok => Sys2Proof.Machine.execAdoptionPiece ok s
  | .adoptSwitch => Sys2Proof.Machine.execAdoptSwitch s
  | .groupTableApply p => Sys2Proof.Machine.execGroupTableApply p s
  | .pseudoChannelRetrain ok => Sys2Proof.Machine.execPseudoChannelRetrain ok s
  | .adoptAbort w => Sys2Proof.Machine.execAdoptAbort w s
  | .adoptTimeout => Sys2Proof.Machine.execAdoptTimeout s
  | .factoryAuth record => Sys2Proof.Machine.execFactoryAuth record s
  | .factoryEntry => Sys2Proof.Machine.execFactoryEntry s
  | .powerReq v w => Sys2Proof.Machine.execPowerReq v w s
  | .twinAll v w => Sys2Proof.Machine.execTwinAll v w s
  | .injectionArm v w => Sys2Proof.Machine.execInjectionArm v w s
  | .injectionFire => Sys2Proof.Machine.execInjectionFire s
  | .ledgerEventWrite flashOk => Sys2Proof.Machine.execLedgerEventWrite flashOk s
  | .ledgerSnapshot flashOk => Sys2Proof.Machine.execLedgerSnapshot flashOk s
  | .flushNow w => Sys2Proof.Machine.execFlushNow w s
  | .durableCopy flashOk => Sys2Proof.Machine.execDurableCopy flashOk s
  | .windowOffset v w => Sys2Proof.Machine.execWindowOffset v w s
  | .windowReady => Sys2Proof.Machine.execWindowReady s
  | .obsSel pin v w => Sys2Proof.Machine.execObsSel pin v w s
  | .anaSel v w => Sys2Proof.Machine.execAnaSel v w s
  | .extest => Sys2Proof.Machine.execExtest s
  | .samplePreload bits => Sys2Proof.Machine.execSamplePreload bits s
  | .idcode => Sys2Proof.Machine.execIdcode s
  | .clamp => Sys2Proof.Machine.execClamp s
  | .highz => Sys2Proof.Machine.execHighz s
  | .debugReset bit => Sys2Proof.Machine.execDebugReset bit s
  | .scanDump => Sys2Proof.Machine.execScanDump s
  | .bypass tdi => Sys2Proof.Machine.execBypass tdi s
  | .status => Sys2Proof.Machine.execStatus s
  | .tj => Sys2Proof.Machine.execTj s
  | .sbStep => Sys2Proof.Machine.execSbStep s
  | .cause => Sys2Proof.Machine.execCause s
  | .power => Sys2Proof.Machine.execPower s
  | .alert => Sys2Proof.Machine.execAlert s
  | .smbusTimeout => Sys2Proof.Machine.execSmbusTimeout s
  | .linkReferenceLoss => Sys2Proof.Machine.execLinkReferenceLoss s
  | .heldResetRelease => Sys2Proof.Machine.execHeldResetRelease s
  | .haltDrainLimit => Sys2Proof.Machine.execHaltDrainLimit s
  | .encodeComplete => Sys2Proof.Machine.execEncodeComplete s
  | .d0Return fn => Sys2Proof.Machine.execD0Return fn s
  | .msixVectorUnmask fn vector => Sys2Proof.Machine.execMsixVectorUnmask fn vector s
  | .ideKm fn stream => Sys2Proof.Machine.execIdeKm fn stream s

end Sys2Proof.Machine
end

