-- ==== Sys2Proof/Machine/Step.lean ====
section
/-!
DEFINITION. Step: the command at the front of the queue runs; an empty queue lets one cycle pass (log entry 12).
-/
namespace Sys2Proof.Machine

/-- One step: take the front command and run it with the queue's rest, or tick when none waits. -/
def step (s : State) : Host.Outcome State Fault Refusal :=
  match s.pending with
  | [] => .next s.tick
  | c :: rest => exec c { s with pending := rest }

/-- `s` with the command a word spells in front of its queue; the table gives no row bits, so no word spells one. -/
def State.withFetchWord (s : State) (nbits w : Nat) : State :=
  match Sys2Proof.decodeTableWord nbits w with
  | some c => { s with pending := c :: s.pending }
  | none => s

end Sys2Proof.Machine
end

