-- ==== Sys2Proof/Safety.lean ====
section
/-!
DEFINITION. Safety: the terms in which the statements speak: when a cluster's stream is ready, what a command leaves alone,
and the machine's invariant.
-/
namespace Sys2Proof.Machine

/-- The device's state is defined: SCAN_DUMP has not run since the last reset (R454). -/
def State.defined (s : State) : Prop := s.rst.scanDumped = false

/-- Cluster `k` can issue an item of `words` words that takes `cost` cycles: its stream is live, the item lies in its image
and fits the program window (R170, R171, R174). -/
def State.canTake (s : State) (k words cost : Nat) : Prop := s.canIssue k cost = true ∧ s.fetches k words = true

/-- The command runs from `s`: it answers a next state, of which `P` holds. -/
def Runs (i : Instr) (s : State) (P : State → Prop) : Prop := ∃ t, exec i s = .next t ∧ P t

/-- `t` differs from `s` in the clusters' table alone. -/
def State.sameButClusters (s t : State) : Prop := t = { s with clusters := t.clusters }

/-- What a scalar instruction does that writes `v` to register `sd` of cluster `k` (R167, R170, R174): the stream moves past
one word in one issue cycle, s0 keeps reading 0, and nothing else changes. -/
structure ScalarStep (s t : State) (k sd : Nat) (v : Word64) : Prop where
  written : (t.cluster k).sreg sd = if sd = 0 then 0 else v
  registers : ∀ r, r ≠ sd → (t.cluster k).sreg r = (s.cluster k).sreg r
  own : t.cluster k = { s.cluster k with sregs := (t.cluster k).sregs, lastItem := (s.cluster k).pc.toNat, pc := (s.cluster k).pc + 1,
                                         nextAt := (s.cluster k).nextAt + 1 }
  clusters : ∀ j, j ≠ k → t.cluster j = s.cluster j
  rest : s.sameButClusters t

/-- The core state of a cluster that an engine command leaves alone (R167, R170). -/
structure Cluster.SameCore (c d : Cluster) : Prop where
  sregs : d.sregs = c.sregs
  params : d.params = c.params
  loops : d.loops = c.loops
  image : d.image = c.image
  state : d.state = c.state

/-- An engine command of `words` words and `cost` issue cycles has issued on cluster `k` (R170, R172): the stream has moved
past it, the port has stamped it with the cycle of its last word's issue, and the core's registers are as before. -/
structure Issued (s t : State) (k words cost : Nat) : Prop where
  pc : (t.cluster k).pc = (s.cluster k).pc + BitVec.ofNat 32 words
  next : (t.cluster k).nextAt = (s.cluster k).nextAt + cost
  stamp : (t.cluster k).issueAt = (s.cluster k).nextAt + cost - 1
  issued : (t.cluster k).issued = true
  core : (s.cluster k).SameCore (t.cluster k)

/-- What no engine command changes: time, the groups' allocation, the host side, the memory system's registers, fuses,
power, reset, modes, pins, links, security, configuration, flash, ledger and test state; of the work, only the key-cache
directory and the jobs' run records. -/
structure State.EngineFrame (s t : State) : Prop where
  beat : t.beat = s.beat
  cycle : t.cycle = s.cycle
  groups : t.groups = s.groups
  host : t.host = s.host
  memSys : t.memSys = s.memSys
  fuses : t.fuses = s.fuses
  power : t.power = s.power
  rst : t.rst = s.rst
  mode : t.mode = s.mode
  pins : t.pins = s.pins
  link : t.link = s.link
  sec : t.sec = s.sec
  cfg : t.cfg = s.cfg
  flash : t.flash = s.flash
  ledger : t.ledger = s.ledger
  test : t.test = s.test
  work : t.work = { s.work with kcDir := t.work.kcDir, runs := t.work.runs }

/-- Cluster `k` can issue command `w` to `engine`: its stream is ready, its job is mapped, and the port's checks and those that
Sheepdog adds for the command pass (R172, R183, R231). -/
structure State.Accepts (s : State) (k : Nat) (x : Ctx) (w : CmdWord) (sh : Shape) (engine : Nat)
    (bar : State → Ctx → Nat → Barred := fun _ _ _ => none) : Prop where
  ready : s.canTake k 4 1
  job : s.ctx? k = some x
  guard : s.guard k x sh w engine (s.cluster k).nextAt = .pass
  clear : bar s x (s.cluster k).nextAt = none

/-- The clusters `ks`, the first of them first, issue command `w` together (R40, R187, R225): each stands at the same words and
issues them in the same cycle, declares the rings named and has the engines free; what Sheepdog adds for the command passes. -/
structure State.AcceptsTogether (s : State) (ks : List Nat) (x : Ctx) (w : CmdWord) (sh : Shape) (engines : List Nat)
    (bar : State → Ctx → Nat → Barred := fun _ _ _ => none) : Prop where
  nonempty : ks ≠ []
  distinct : ks.Nodup
  job : s.ctx? (ks.headD 0) = some x
  shape : shapeOk x sh w (ks.headD 0 % 32 == 0 || !sh.lead) = true
  resident : s.residentBreach (ks.headD 0) x w = false
  declared : ∀ k ∈ ks, s.undeclared k w = none
  free : s.enginesFree ks engines (s.cluster (ks.headD 0)).nextAt = true
  clear : bar s x (s.cluster (ks.headD 0)).nextAt = none
  together : s.together ks 4 1 (s.cluster (ks.headD 0)).nextAt = true

/-- Engine `e` of cluster `k` is held at least up to cycle `u` (R172). -/
def State.heldTo (s : State) (k e u : Nat) : Prop := u ≤ (s.cluster k).busy.at e 0

/-- FUSE of the commands `cs`, the members `ms`, can issue on cluster `k` (R186): its fields and those of its members hold,
their engines differ and are free, hand-overs chain, and the clusters `ks` that run it together stand at the same words in the
same cycle. -/
structure State.AcceptsFuse (s : State) (k : Nat) (x : Ctx) (w : CmdWord) (cs : List CmdWord) (ms : List (CmdWord × Member))
    (ks : List Nat) : Prop where
  job : s.ctx? k = some x
  members : ms = cs.filterMap fun c => (memberOf x c).map fun m => (c, m)
  clusters : ks = fuseClusters s k ms
  distinct : ks.Nodup
  fields : s.fuseOk k x w cs ms = true
  free : s.fuseBar ks k x ((s.cluster k).nextAt + cs.length) ms = none
  lead : ∀ j ∈ ks, j % 32 ≠ 0 → ∀ e ∈ ms, (e.2.sh.lead || usesTile e.1) = false
  ready : s.canTake k (4 * (cs.length + 1)) (cs.length + 1)
  together : s.together ks (4 * (cs.length + 1)) (cs.length + 1) (s.cluster k).nextAt = true

/-- The message of a fault of kind `kind` that the issue port of cluster `k` raises on the item it stands at, with OP `op` (R183,
R289, R295, R296): TAG and address are the item's word index. -/
def State.portMessage (s : State) (k kind op : Nat) : FaultWire :=
  { word := faultWord (clusterUnit k 0 2) kind op (s.cluster k).pc.toNat, fireAt := (s.cluster k).nextAt, job := s.jobId (k / 32)
    addr := (s.cluster k).pc.toNat, poisoned := false, detSuspect := false, injected := false }

/-- The item fails at the issue port with a fault of `kind`: `t` is `s` with that one message sent, and nothing else. -/
def State.failsAtPort (s t : State) (k kind op : Nat) : Prop :=
  t = { s with faults := { s.faults with wires := s.faults.wires ++ [s.portMessage k kind op] } }

/-- The keys of a table rise strictly: no key stands twice. -/
def Table.rising {α : Type} (t : Table α) : Prop := (t.map (·.1)).Pairwise (· < ·)

/-- The machine's invariant: device memory, host memory and the flash are in canonical form, so that equal contents are
equal data, and no job ID stands twice in the job table (R202). -/
structure State.Inv (s : State) : Prop where
  memory : s.mem.wf = true
  hostRam : cellsWf zeroByte s.host.hostRam = true
  flash : cellsWf erasedByte s.flash.cells = true
  jobs : s.work.jobs.rising

/-- Function `fn` has a completion of type `ty` and status `st` more in `t` than in `s` (R322 to R324): written at its ring's
tail where the ring is open, else waiting in its backlog. Host memory holds what is written where its list is canonical. -/
structure Completed (s t : State) (fn ty st : Nat) : Prop where
  written : s.Inv → s.cqOpen fn = true → (t.func fn).seq = (s.func fn).seq + 1 ∧
    t.host.ramRead ((s.func fn).cq.base.toNat + 64 * ((s.func fn).cq.tail.toNat % (s.func fn).cq.entries 6 16)) 2 =
      [BitVec.ofNat 8 ty, BitVec.ofNat 8 st]
  waits : s.cqOpen fn = false → ∃ b ∈ (t.func fn).cqBacklog, b.kind = ty ∧ b.bytes.take 2 = [BitVec.ofNat 8 ty, BitVec.ofNat 8 st]

/-- The commands that can reset the device (R422, R425, R426, R451), which SCAN_DUMP does not stop: a register write may be
SW_RESET's. -/
def mayReset : Instr → Bool
  | .powerOnReset => true
  | .brownOutReset => true
  | .clockFailure => true
  | .lockUp => true
  | .watchdog => true
  | .resetN => true
  | .heldResetRelease => true
  | .swReset _ _ => true
  | .debugReset _ => true
  | .registerWrite _ _ _ _ => true
  | _ => false

/-- `t` is the device after a reset of cause `cause` from `s` (R424, R425; log entry 25): but for the fuses, the pins' levels,
host memory and the queue, everything is as reset has it; a coolant alarm still active holds cause 5. -/
structure AsReset (s t : State) (cause : BitVec 4) : Prop where
  rst : t.rst = { State.reset.rst with rstCause := cause }
  fuses : t.fuses = s.fuses
  hostRam : t.host.hostRam = s.host.hostRam
  active : t.pins.active.extractLsb' 1 6 = s.pins.active.extractLsb' 1 6
  mem : t.mem = State.reset.mem
  clusters : t.clusters = State.reset.clusters
  units : t.units = State.reset.units
  groups : t.groups = State.reset.groups
  rings : t.rings = State.reset.rings
  work : t.work = State.reset.work
  memSys : t.memSys = State.reset.memSys
  power : s.pins.active.getLsbD 3 = false → t.power = State.reset.power
  cool : s.pins.active.getLsbD 3 = true → t.power.permit 5 = 4
  mode : t.mode = State.reset.mode
  link : t.link = State.reset.link
  faults : t.faults = State.reset.faults
  cfg : t.cfg = State.reset.cfg
  ledger : t.ledger = State.reset.ledger
  test : t.test = State.reset.test

/-- While COOL_ALARM_N is active, cause 5 holds the step at or below 400 MHz, code 4 (R259, R421). -/
def State.CoolHeld (s : State) : Prop := s.pins.active.getLsbD 3 = true → 4 ≤ s.power.permit 5 ∧ 4 ≤ s.power.ownStep

/-- The mailbox has taken command `code` and will post result `r` with `resp` (R367): it is busy, and no register of the window
tells the outcome yet. -/
structure MailTaken (s t : State) (code r : Nat) (resp : List Byte) : Prop where
  busy : t.sec.busy = true
  cmd : t.sec.cmd.toNat = code
  result : t.sec.nextResult = r
  response : t.sec.nextResponse = resp
  shown : t.sec.result = s.sec.result ∧ t.sec.response = s.sec.response ∧ t.sec.done = s.sec.done

/-- A value of finite elements as a real number. -/
def ClearValue.isReal : ClearValue → ℝ → Prop
  | .fin m e, x => x = (m : ℝ) * (2 : ℝ) ^ e
  | _, _ => False

/-- The bound R65 promises of a part's ROM: with slot values of magnitude at most 2^(45 − s), every packed coefficient is the
exactly rounded one, or 1 off it. Coefficient i of the inverse canonical embedding is
2/N · Σ_j Re(z_j · ζ^(−i·5^j)) with ζ = exp(iπ/N). -/
def PackingBound : Prop :=
  ∀ (k : Nat) (slots : List (Word64 × Word64)) (s : Int) (re im : Nat → ℝ) (c : ℝ) (i : Nat), slots.length = 2 ^ k / 2 → i < 2 ^ k →
    (∀ j < slots.length, (floatValue 11 52 (slots.getD j (0, 0)).1.toNat).isReal (re j) ∧
      (floatValue 11 52 (slots.getD j (0, 0)).2.toNat).isReal (im j) ∧ re j ^ 2 + im j ^ 2 ≤ ((2 : ℝ) ^ (45 - s)) ^ 2) →
    c = 2 / (2 : ℝ) ^ k * ∑ j ∈ Finset.range slots.length,
      (re j * Real.cos (Real.pi * i * 5 ^ j / 2 ^ k) + im j * Real.sin (Real.pi * i * 5 ^ j / 2 ^ k)) →
    |(packCoefficient k slots s i : ℝ) - c * (2 : ℝ) ^ s| ≤ 3 / 2

/-- What no command undoes (R360, R371, R408): fuses once blown stay blown. -/
structure Fuses.Kept (f g : Fuses) : Prop where
  sealDisabled : f.sealDisabled = true → g.sealDisabled = true
  ownerEpoch : f.ownerEpoch.toNat ≤ g.ownerEpoch.toNat
  securityVersion : f.securityVersion.toNat ≤ g.securityVersion.toNat
  retired : f.retired <+: g.retired

end Sys2Proof.Machine
end

