-- ==== Sys2Proof/Certificates/Slice0/Obligations.lean ====
section
/-!
DEFINITION. Obligations: the statements for the provers. Each says what it formalises; `Runs i s P` is that exec answers a
next state with `P`.
-/
open Sys2Proof Sys2Proof.Machine

/-! ### The block -/

/-- A step takes the command at the front of the queue and is exec of it on the state with the queue's rest. -/
def Obligations.StepRunsFrontCommand : Prop :=
  ∀ (s : State) (c : Instr) (rest : List Instr), s.pending = c :: rest → step s = exec c { s with pending := rest }

/-- On an empty queue the step answers a next state that differs at most in the cycle, which advances by one while beats run
and the beat's last cycle is not reached (log entry 12: the model's choice). -/
def Obligations.EmptyQueueCountsCycles : Prop :=
  ∀ s : State, s.pending = [] →
    (s.beating = true ∧ s.cycle.toNat + 1 < 65536 → ∃ t, step s = .next t ∧ t.cycle.toNat = s.cycle.toNat + 1 ∧
      t = { s with cycle := t.cycle }) ∧
    (s.beating = false ∨ s.cycle.toNat = 65535 → step s = .next s)

/-- What a reset leaves: nothing of the last run, the registers at the values the rules give, and the memories in canonical
form; no domain is on and nothing waits. -/
def Obligations.ResetLeavesNothingBehind : Prop :=
  let s := State.reset
  s.Inv ∧ s.CoolHeld ∧ s.defined ∧ s.pending = [] ∧ s.rst.hostReady = false ∧ s.rst.released = 0 ∧ s.rst.domains = 0 ∧
  s.work.jobs = [] ∧ s.work.keySets = [] ∧ s.work.programs = [] ∧ s.host.areas = [] ∧ s.sec.share = none ∧ s.sec.attested = [] ∧
  s.faults.logHead = 0 ∧ s.faults.logTail = 0 ∧ s.faults.logLost = 0 ∧ s.faults.stickyGroups = 0 ∧ s.faults.fencesJ = 0 ∧
  s.faults.fencesW = 0 ∧ s.test.tapInstr = 2 ∧ s.host.bar2Base = 0 ∧
  (∀ p : Fin 68, (s.group p).residency = .none ∧ (s.group p).job = 0) ∧
  ∀ fn : Fin 17, (s.func fn).quota = (if fn = 0 then 4096 else 0) ∧ (s.func fn).evMask = 0xFFFF ∧ (s.func fn).evPending = 0 ∧
    (s.func fn).evActive = 0 ∧ (s.func fn).evStray = 0 ∧ (s.func fn).cq.base = 0 ∧ (s.func fn).cq.log2 = 6 ∧ (s.func fn).rq.log2 = 4 ∧
    (s.func fn).cq.enabled = false ∧ (s.func fn).rq.enabled = false ∧ (s.func fn).cq.phase = true ∧ (s.func fn).creditThreshold = 0 ∧
    (s.func fn).allotLen = 0

/-- Every step from a state that meets the invariant reaches a state that meets it. -/
def Obligations.EveryStepKeepsTheInvariant : Prop :=
  ∀ s t : State, s.Inv → step s = .next t → t.Inv

/-- No step unblows a fuse: seal disable stays, owner epoch and security version never fall, no retirement is undone. -/
def Obligations.EveryStepKeepsBlownFuses : Prop :=
  ∀ s t : State, step s = .next t → s.fuses.Kept t.fuses

/-- Every command answers a next state wherever the device's state is defined, and leaves the queue alone; a step takes exactly
one command from it; after SCAN_DUMP every command stops but those
that can reset the device. -/
def Obligations.EveryCommandAnswers : Prop :=
  ∀ (c : Instr) (s : State),
    (s.rst.scanDumped = false → ∃ t, exec c s = .next t ∧ t.pending = s.pending) ∧
    (∀ t, exec c s = .next t → t.pending = s.pending) ∧
    (∀ t, step s = .next t → t.pending = s.pending.tail) ∧
    (s.rst.scanDumped = true → mayReset c = false → exec c s = .fault .undefinedAfterScanDump)

/-! ### Scalar instructions (R167, R170, R174 to R177) -/

/-- ADD, SUB, MUL and ADDI write their result modulo 2^64 to sd and change nothing but that register and the stream. -/
def Obligations.ScalarArithmetic : Prop :=
  ∀ (s : State) (k : ClusterId) (sd sa sb : BitVec 5) (imm : BitVec 16), s.defined → s.canTake k.num 1 1 →
    let a := ((s.cluster k.num).sreg sa.toNat).toNat
    let b := ((s.cluster k.num).sreg sb.toNat).toNat
    Runs (.add k sd sa sb) s (fun t => ScalarStep s t k.num sd.toNat (BitVec.ofNat 64 (a + b))) ∧
    Runs (.sub k sd sa sb) s (fun t => ScalarStep s t k.num sd.toNat (BitVec.ofNat 64 (a + 2 ^ 64 - b))) ∧
    Runs (.mul k sd sa sb) s (fun t => ScalarStep s t k.num sd.toNat (BitVec.ofNat 64 (a * b))) ∧
    Runs (.addi k sd sa imm) s (fun t => ScalarStep s t k.num sd.toNat (BitVec.ofInt 64 (a + imm.toInt)))

/-- AND, OR, XOR, SHL, SHR and LIH, bit by bit. -/
def Obligations.ScalarLogic : Prop :=
  ∀ (s : State) (k : ClusterId) (sd sa sb : BitVec 5) (pos : BitVec 2) (imm : BitVec 16), s.defined → s.canTake k.num 1 1 →
    let a := (s.cluster k.num).sreg sa.toNat
    let b := (s.cluster k.num).sreg sb.toNat
    let d := (s.cluster k.num).sreg sd.toNat
    let n := b.toNat % 64
    let writes := fun (i : Instr) (bit : Nat → Bool) =>
      Runs i s fun t => ∃ v : Word64, (∀ j, j < 64 → v.getLsbD j = bit j) ∧ ScalarStep s t k.num sd.toNat v
    writes (.and k sd sa sb) (fun j => a.getLsbD j && b.getLsbD j) ∧
    writes (.or k sd sa sb) (fun j => a.getLsbD j || b.getLsbD j) ∧
    writes (.xor k sd sa sb) (fun j => a.getLsbD j != b.getLsbD j) ∧
    writes (.shl k sd sa sb) (fun j => decide (n ≤ j) && a.getLsbD (j - n)) ∧
    writes (.shr k sd sa sb) (fun j => a.getLsbD (j + n)) ∧
    writes (.lih k sd pos imm) (fun j => if j / 16 = pos.toNat then imm.getLsbD (j % 16) else d.getLsbD j)

/-- MOVP reads a parameter register, RDFEAT a job feature word, RDSTAT a status counter; the values RDFEAT gives are those of
R176's table. A reserved index of either fails at the issue port: the port's ISSUE_CHECK message is sent and nothing else changes
(log entry 13: the model's choice). -/
def Obligations.ScalarReads : Prop :=
  ∀ (s : State) (k : ClusterId) (sd : BitVec 5) (pk : BitVec 6) (idx : BitVec 8), s.defined → s.canTake k.num 1 1 →
    let c := s.cluster k.num
    Runs (.movp k sd pk) s (fun t => ScalarStep s t k.num sd.toNat (c.params.toList.getD pk.toNat 0)) ∧
    (idx.toNat < 4 → Runs (.rdstat k sd idx) s fun t => ScalarStep s t k.num sd.toNat
      (([c.sat, c.nan, c.grange, c.rearm].getD idx.toNat 0).zeroExtend 64)) ∧
    (∀ x, s.ctx? k.num = some x → idx.toNat < 11 → Runs (.rdfeat k sd idx) s fun t => ScalarStep s t k.num sd.toNat
      (BitVec.ofNat 64 ([1, x.job.groupCount, x.logical, k.cluster.val, x.span, if x.span = 64 then x.logical % 2 else 0xFF,
        1048576, 16, 8388608, 16, 65536].getD idx.toNat 0))) ∧
    (∀ x, s.ctx? k.num = some x → Runs (.rdfeat k sd 11) s fun t =>
      ScalarStep s t k.num sd.toNat (BitVec.ofNat 64 (s.extentsOf x.job.id.toNat))) ∧
    (4 ≤ idx.toNat → Runs (.rdstat k sd idx) s fun t => s.failsAtPort t k.num 0x23 0x40D) ∧
    (12 ≤ idx.toNat → Runs (.rdfeat k sd idx) s fun t => s.failsAtPort t k.num 0x23 0x40C)

/-- LOOP loads its counter from the count or from pk and goes on, and on 0 goes forward by its offset; a pk above 16,777,215 fails
at the issue port. ENDL decrements and goes back until the counter reaches 0; on a counter that holds 0 it fails at the port. A
failure sends the port's ISSUE_CHECK message and changes nothing else. -/
def Obligations.LoopsCountAndJump : Prop :=
  ∀ (s : State) (k : ClusterId) (lc : BitVec 2) (src : Bool) (fwd : BitVec 11) (count : BitVec 12) (back : BitVec 16),
    s.defined → s.canTake k.num 1 1 →
    let c := s.cluster k.num
    let n := if src then (c.params.toList.getD (count.toNat % 64) 0).toNat else count.toNat
    let v := c.loops[lc.toNat]'lc.isLt
    (n = 0 → Runs (.loop k lc src fwd count) s fun t => s.sameButClusters t ∧
      t.cluster k.num = { c with lastItem := c.pc.toNat, pc := BitVec.ofNat 32 (c.pc.toNat + fwd.toNat), nextAt := c.nextAt + 1,
                                 loops := c.loops.set lc.toNat 0 lc.isLt }) ∧
    (0 < n ∧ n ≤ 16777215 → Runs (.loop k lc src fwd count) s fun t => s.sameButClusters t ∧
      t.cluster k.num = { c with lastItem := c.pc.toNat, pc := c.pc + 1, nextAt := c.nextAt + 1, loops := c.loops.set lc.toNat (BitVec.ofNat 24 n) lc.isLt }) ∧
    (16777215 < n → Runs (.loop k lc src fwd count) s fun t => s.failsAtPort t k.num 0x23 0x410) ∧
    (v = 1 → Runs (.endl k lc back) s fun t => s.sameButClusters t ∧
      t.cluster k.num = { c with lastItem := c.pc.toNat, pc := c.pc + 1, nextAt := c.nextAt + 1, loops := c.loops.set lc.toNat 0 lc.isLt }) ∧
    (1 < v.toNat → Runs (.endl k lc back) s fun t => s.sameButClusters t ∧
      t.cluster k.num = { c with lastItem := c.pc.toNat, pc := BitVec.ofNat 32 (c.pc.toNat - back.toNat), nextAt := c.nextAt + 1,
                                 loops := c.loops.set lc.toNat (v - 1) lc.isLt }) ∧
    (v = 0 → Runs (.endl k lc back) s fun t => s.failsAtPort t k.num 0x23 0x411)

/-- NOP passes; WAITC moves the next item to its cycle of this beat, fails at the issue port with WAITC_LATE when that has passed
and with ISSUE_CHECK where the cycle is outside the program window; WAITB moves it to cycle 0 of the next beat; a wait ends in the
cycle the next item issues in; END ends the stream; SETTW sets a tile window of the lead's group, and on another cluster fails at
the port with ISSUE_CHECK. A failure sends its message and changes nothing else. -/
def Obligations.WaitsAndWindows : Prop :=
  ∀ (s : State) (k : ClusterId) (cyc : BitVec 16) (tk : BitVec 4) (sa : BitVec 5), s.defined →
    let c := s.cluster k.num
    (s.canTake k.num 1 1 → Runs (.nop k) s fun t => s.sameButClusters t ∧
      t.cluster k.num = { c with lastItem := c.pc.toNat, pc := c.pc + 1, nextAt := c.nextAt + 1 }) ∧
    (s.streamLive k.num = true → s.fetches k.num 1 = true → cyc.toNat < 59392 → c.nextAt % 65536 ≤ cyc.toNat →
      Runs (.waitc k cyc) s fun t => s.sameButClusters t ∧
        t.cluster k.num = { c with lastItem := c.pc.toNat, pc := c.pc + 1, nextAt := c.nextAt / 65536 * 65536 + cyc.toNat, state := .waiting }) ∧
    (s.streamLive k.num = true → s.fetches k.num 1 = true → cyc.toNat < 59392 → cyc.toNat < c.nextAt % 65536 →
      Runs (.waitc k cyc) s fun t => s.failsAtPort t k.num 0x22 0x414) ∧
    (s.streamLive k.num = true → s.fetches k.num 1 = true → 59392 ≤ cyc.toNat →
      Runs (.waitc k cyc) s fun t => s.failsAtPort t k.num 0x23 0x414) ∧
    (s.passes k.num = true → s.fetches k.num 1 = true → Runs (.waitb k) s fun t => s.sameButClusters t ∧
      t.cluster k.num = { c with lastItem := c.pc.toNat, pc := c.pc + 1, nextAt := (c.nextAt / 65536 + 1) * 65536, state := .waiting }) ∧
    (c.state = .waiting → s.jobRuns k.group.val = true → c.nextAt ≤ s.now →
      Runs (.waitResume k) s fun t => s.sameButClusters t ∧ t.cluster k.num = { c with state := .issuing }) ∧
    (s.passes k.num = true → s.fetches k.num 1 = true → Runs (.endStream k) s fun t => s.sameButClusters t ∧
      t.cluster k.num = { c with lastItem := c.pc.toNat, pc := c.pc + 1, state := .ended }) ∧
    (s.canTake k.num 1 1 → k.cluster = 0 → Runs (.settw k tk sa) s fun t =>
      t.cluster k.num = { c with lastItem := c.pc.toNat, pc := c.pc + 1, nextAt := c.nextAt + 1 } ∧
      t.unit k.group.val = { s.unit k.group.val with
        tileWindows := (s.unit k.group.val).tileWindows.set tk.toNat ((c.sreg sa.toNat).truncate 16) tk.isLt } ∧
      t = { s with clusters := t.clusters, units := t.units }) ∧
    (s.canTake k.num 1 1 → k.cluster ≠ 0 → Runs (.settw k tk sa) s fun t => s.failsAtPort t k.num 0x23 0x416)

/-! ### Engine commands (R170, R172, R183, R185 to R187) -/

/-- The vector engine's commands of one cluster: accepted at the port and passing their own checks, they issue, hold the engine
for their cost, and leave everything alone that engine commands leave alone. -/
def Obligations.VectorCommandsIssue : Prop :=
  ∀ (s : State) (k : ClusterId) (w : CmdWord) (x : Ctx), s.defined →
    let t0 := (s.cluster k.num).nextAt
    let n := cmdCount w
    let rows := (n + 63) / 64
    let v := wordValue (s.cluster k.num) w % 2 ^ 32
    let done := fun (i : Instr) (occ : Nat) =>
      Runs i s fun t => Issued s t k.num 4 1 ∧ t.heldTo k.num 1 (t0 + occ) ∧ s.EngineFrame t
    (s.Accepts k.num x w shChain 1 → tailOk w = true → chainOk (s.cluster k.num) (x.rset (cmdRset w)) x.share w t0 = true →
      done (.veChain k w) rows) ∧
    (s.Accepts k.num x w shTensor 1 → tailOk w = true → done (.veTensor k w) (2 * rows)) ∧
    (s.Accepts k.num x w shCvtin 1 → tailOk w = true → v < 256 → -32 ≤ signedOf 8 v ∧ signedOf 8 v ≤ 63 →
      done (.veCvtin k w) (rows * cmdW w)) ∧
    (s.Accepts k.num x w shCvtout 1 → tailOk w = true → cmdR0 w = 0 → cmdW w ≤ 4 → v < 256 →
      done (.veCvtout k w) (2 * rows * cmdW w)) ∧
    (s.Accepts k.num x w shGather 1 → v < 2 ^ 31 → done (.veGather k w) ((v % 4096 + 64) / 64 + (n + 15) / 16)) ∧
    (s.Accepts k.num x w shFill 1 → tailOk w = true → done (.veFill k w) rows) ∧
    (s.Accepts k.num x w shLdprog 1 → cmdSpec w + n ≤ 64 → done (.veLdprog k w) ((n + 7) / 8)) ∧
    (s.Accepts k.num x w shLdconst 1 → 8 * cmdR0 w + n ≤ 640 → done (.veLdconst k w) rows)

/-- The commands that a transform's span issues together: every cluster of the span passes and is stamped in the same cycle,
and holds its engine; VE.RESCALE and VE.MODSW hold the transform engine as well. -/
def Obligations.SpanCommandsIssueTogether : Prop :=
  ∀ (s : State) (g : Fin 68) (w : CmdWord) (x : Ctx) (k : Nat), s.defined →
    let ks := s.spanClusters g
    let t0 := (s.cluster (ks.headD 0)).nextAt
    let n := cmdCount w
    let cost := (teCosts x.prog.log2n).1
    let i := s.headInput (ks.headD 0) (cmdA w)
    let lvl := if i.obj then i.hdr.level else 1
    let g' := wordValue (s.cluster (ks.headD 0)) w % 2 ^ 32
    k ∈ ks →
    let done := fun (c : Instr) (e occ : Nat) => Runs c s fun t => Issued s t k 4 1 ∧ t.heldTo k e (t0 + occ) ∧ s.EngineFrame t
    (s.AcceptsTogether ks x w shRescale [1, 2] →
      done (.veRescale g w) 1 (440 + cost * n * (lvl - 1)) ∧ done (.veRescale g w) 2 (300 + cost * n * (lvl - 1)) ∧
      done (.veModsw g w) 1 (440 + cost * n * (lvl - 1)) ∧ done (.veModsw g w) 2 (300 + cost * n * (lvl - 1))) ∧
    (s.AcceptsTogether ks x w shAuto [1] → g' % 2 = 1 → g' < 2 ^ (x.prog.log2n + 1) →
      done (.veAuto g w) 1 (max 1 (x.share / 16) * n)) ∧
    (s.AcceptsTogether ks x w shTe [2] → done (.teFwd g w) 2 (cost * n) ∧ done (.teInv g w) 2 (cost * n))

/-- The residue matrix engine's commands and the refresh, where nothing bars them: each issues and leaves everything alone that
engine commands leave alone. A conversion and an inner product hold their array rows until their last MAC; RME.COMBINE, which the
leads of a ring's groups issue together, holds the store path for its planes. A refresh holds the vector, transform and exchange
engines of every cluster it spans and its leads' units until its last store, and stays with the group where it outlasts the window. -/
def Obligations.MatrixAndRefreshCommandsIssue : Prop :=
  ∀ (s : State) (k : ClusterId) (w : CmdWord) (x : Ctx), s.defined →
    let p := k.group.val
    let t0 := (s.cluster k.num).nextAt
    let n := cmdCount w
    let v := wordValue (s.cluster k.num) w % 2 ^ 32
    let f := convFields v
    let q := kipFields v
    let done := fun (i : Instr) (j : Nat) (P : State → Prop) => Runs i s fun t => Issued s t j 4 1 ∧ s.EngineFrame t ∧ P t
    (s.Accepts k.num x w shBconv 6 (fun s _ _ => s.bconvBar k.num w) → bconvOk (x.rset (cmdRset w)) w f = true →
      done (.rmeBconv k w) k.num fun t => ∀ j, j < f.kk →
        (t.unit p).rmeRows.at (cmdSpec w + j) 0 = t0 + rmeInLatency (cmdA w) + f.j * n - 1) ∧
    (s.Accepts k.num x (withoutW w) shKip 6 (fun s x _ => s.kipBar k.num w x) → kipOk x w q = true →
      done (.rmeKip k w) k.num fun t => ∀ j, j < 2 * q.b →
        (t.unit p).rmeRows.at (cmdSpec w + j) 0 = t0 + (if q.hbm then 1556 else 164) + kipCadence x q.hbm (q.d * q.t * n) - 1) ∧
    (k.cluster = 0 → ∀ lead ∈ (s.spanGroups p).map (32 * ·),
      s.AcceptsTogether ((s.spanGroups p).map (32 * ·)) x w shCombine [6, 9] → v % 2 = 1 → v < 2 ^ (x.prog.log2n + 1) →
      done (.rmeCombine k w) lead fun t =>
        t.heldTo lead 9 ((s.cluster (((s.spanGroups p).map (32 * ·)).headD 0)).nextAt + n * x.combineCycles)) ∧
    (s.Accepts k.num x w shRef 8 (fun s _ t => if s.refreshFree (s.refreshGroups p (refSpan w)) t then none else some (5, 6, 0)) →
      refOk x w = true → done (.refRun k w) k.num fun t =>
        let total := refreshCyclesOf x (x.descriptor w) (refSpan w)
        let last := windowSpan t0 total
        (∀ g ∈ s.refreshGroups p (refSpan w), (∀ c ∈ groupClusters g, ∀ e ∈ [1, 2, 4], t.heldTo c e last) ∧
          ∀ e ∈ leadHeld, t.heldTo (32 * g) e last) ∧
        (windowLeft t0 < total → ∃ f, (t.unit p).refresh = some f ∧ f.cmd = w ∧ f.suspended = false ∧
          f.remaining = total - windowLeft t0))

/-- SU.LOAD and SU.STORE, where nothing bars them, issue and queue their transfers, and no byte of memory changes. On a raw ring
there is one for every eight rows, in address order, the first eligible in the cycle after issue. On an object ring there is one
for every eight rows of each plane share, and one for the head where the command starts a loaded object or ends a stored one. -/
def Obligations.StreamCommandsQueueTransfers : Prop :=
  ∀ (s : State) (k : ClusterId) (w : CmdWord) (x : Ctx), s.defined →
    let t0 := (s.cluster k.num).nextAt
    let n := cmdCount w
    let src := sourceOf (cmdSpec w)
    let a := s.suAddress k.num w src
    let bar := fun out => fun (s : State) (x : Ctx) (_ : Nat) => s.suBar k.num w x (s.suPlan k.num w out).1
    let queues := fun (i : Instr) (P : List Transfer → Prop) => Runs i s fun t =>
      Issued s t k.num 4 1 ∧ s.EngineFrame t ∧ t.mem = s.mem ∧ ∃ trs,
        (t.cluster k.num).transfers.length = (s.cluster k.num).transfers.length + trs.length ∧
        (t.cluster k.num).transfers.drop (s.cluster k.num).transfers.length = trs ∧ P trs
    let raw := fun (out : Bool) (r : Nat) (trs : List Transfer) => trs.length = (n + 7) / 8 ∧
      ∀ i tr, trs[i]? = some tr → tr.addr = a + 2048 * i ∧ tr.rows = min 8 (n - 8 * i) ∧ tr.eligible = t0 + 1 + i ∧
        tr.ring = r ∧ tr.out = out ∧ tr.src = src ∧ tr.tag = none ∧ tr.job = x.job.id.toNat
    let shares := n / max x.perPlane 1 * ((x.perPlane + 7) / 8)
    (∀ r, s.Accepts k.num x w shLoad 3 (bar false) → s.suOk k.num x w false = true → cmdD w = .ring r →
      ((s.ring k.num r).object = false → queues (.suLoad k w) (raw false r)) ∧
      ((s.ring k.num r).object = true → queues (.suLoad k w) fun trs => trs.length = shares + (cmdObjStart w).toNat)) ∧
    (∀ r, s.Accepts k.num x w shStore 3 (bar true) → s.suOk k.num x w true = true → cmdA w = .ring r →
      ((s.ring k.num r).object = false → queues (.suStore k w) (raw true r)) ∧
      ((s.ring k.num r).object = true → queues (.suStore k w) fun trs => trs.length = shares + (cmdObjEnd w).toNat))

/-- SU.LOADS issues on the whole group and gives every cluster whose range is permitted its own transfers, one for each 2,048 source
bytes; SU.TILE queues one for every eight rows; SU.RELAY puts its rows on the chain; SU.PIP issues, and one that expands into a
tile register changes no ring; SU.KFILL begins the fill of its key's directory entry, and one of an entry that is filled or being
filled moves nothing. -/
def Obligations.OtherStreamCommandsIssue : Prop :=
  ∀ (s : State) (k : ClusterId) (w : CmdWord) (x : Ctx), s.defined →
    let p := k.group.val
    let t0 := (s.cluster k.num).nextAt
    let base := s.suAddress (32 * p) w .hbm
    let done := fun (i : Instr) (j : Nat) (P : State → Prop) => Runs i s fun t => Issued s t j 4 1 ∧ s.EngineFrame t ∧ P t
    (∀ j ∈ groupClusters p, s.AcceptsTogether (groupClusters p) x w shLoads [3] (fun s x _ => s.loadsBar (32 * p) x w) →
      s.suAligned (32 * p) w .hbm = true → done (.suLoads k.group w) j fun t => t.mem = s.mem ∧
        ∀ xj, s.ctx? j = some xj → s.rangeRole j xj w .hbm false base (loadsLength xj w) ≠ none →
          (t.cluster j).transfers.length = (s.cluster j).transfers.length + (loadsLength xj w + 2047) / 2048) ∧
    (s.Accepts k.num x w shTile 3 (fun s _ _ => s.tileBar k.num w) → (tileOperands w).isSome = true →
      done (.suTile k w) k.num fun t => t.mem = s.mem ∧
        (t.cluster k.num).transfers.length = (s.cluster k.num).transfers.length + (cmdCount w + 7) / 8) ∧
    (s.Accepts k.num x w shRelay 3 → s.relayOk k.num w x = true → done (.suRelay k w) k.num fun t => t.mem = s.mem ∧
      (t.unit p).relay.length = (s.unit p).relay.length + cmdCount w) ∧
    (s.Accepts k.num x w shPip 3 (fun s x _ => s.pipBar k.num w x) →
      walkOk (x.rset (((s.operandSegment k.num (cmdA w)).map fun g => g.hdr.rset).getD 0)) (cmdR0 w) (cmdW w) = true →
      done (.suPip k w) k.num fun t => ∀ tl, cmdD w = .tile tl → t.mem = s.mem ∧ t.rings = s.rings) ∧
    (∀ ks d e key, s.Accepts k.num x w shKfill 3 → s.kfillOf x w = some (ks, d, e, key) → d.fromHbm = false →
      let a := ks.regionBase + key.offset
      let head := s.mem.readN a 64
      let ok := fillHeaderOk ks d head && !(s.mem.anyPoison a 64)
      (s.absent k.num = false → (e.filled = false ∨ e.bad = true) → e.fill = none → done (.suKfill k w) k.num fun t => ∃ f : KcFill,
        f.job = x.job.id.toNat ∧ f.cluster = k.num ∧ f.first = t0 + 1 ∧ f.next = 0 ∧ f.count = 1 + (key.length - 256 + 2047) / 2048 ∧
        t.work.kcDir = s.work.kcDir.map fun g => if e.same g then
          { g with filled := true, bad := !ok, header := head, fill := some f, landing := [] } else g) ∧
      ((e.filled = true ∧ e.bad = false) ∨ e.fill ≠ none → done (.suKfill k w) k.num fun t => t.mem = s.mem ∧ t.work = s.work))

/-- SU.ARM, where nothing bars the repeat: on a descriptor that never held a command it is a violation; with the last transfer's
stamp reached it repeats at once (on a raw ring, one transfer for every eight rows); with a transfer still outstanding the repeat
is held in the shadow, or refused and counted when one is held already. SHADOW_REPEAT clears the shadow once the last transfer's
stamp is reached. No byte of memory changes. -/
def Obligations.ArmHoldsOneRepeat : Prop :=
  ∀ (s : State) (k : ClusterId) (w : CmdWord) (x : Ctx) (ring : Fin 16), s.defined →
    let r := cmdSpec w % 16
    let d := (s.ring k.num r).desc
    let t0 := (s.cluster k.num).nextAt
    let done := fun (P : State → Prop) => Runs (.suArm k w) s fun t => Issued s t k.num 4 1 ∧ t.mem = s.mem ∧ s.EngineFrame t ∧ P t
    (s.Accepts k.num x w shArm 3 (fun s x _ => s.armBar k.num w x) →
      (d.last = none → done fun t => t.rings = s.rings ∧ (t.cluster k.num).due.length = (s.cluster k.num).due.length + 1) ∧
      (d.last ≠ none → (s.lastStampOf k.num r).any (fun m => decide (m ≤ t0)) = false →
        (d.shadow = false → done fun t => t.ring k.num r = { s.ring k.num r with desc :=
          { d with shadow := true, armWord := (s.cluster k.num).pc.toNat } }) ∧
        (d.shadow = true → done fun t => t.rings = s.rings ∧ (t.cluster k.num).rearm = satInc (s.cluster k.num).rearm)) ∧
      (∀ m op c, s.lastStampOf k.num r = some m → m ≤ t0 → d.last = some (op, c) → op = .load ∨ op = .store →
        (s.ring k.num r).object = false → done fun t =>
          (t.cluster k.num).transfers.length = (s.cluster k.num).transfers.length + (cmdCount c + 7) / 8)) ∧
    (∀ last, (s.ring k.num ring).desc.shadow = true → s.lastStampOf k.num ring = some last → last ≤ s.now →
      s.jobRuns k.group.val = true → s.ctx? k.num = some x → Runs (.shadowRepeat k ring) s fun t =>
        (t.ring k.num ring).desc.shadow = false ∧ t.mem = s.mem ∧ s.EngineFrame t) ∧
    ((s.ring k.num ring).desc.shadow = false → exec (.shadowRepeat k ring) s = .next s)

/-- GX.MOVE, where nothing bars it, holds the GX port of its cluster for its rows, and GX.BCAST that of every cluster of the group;
FUSE takes one issue cycle for itself and one for each member, on every cluster that runs it. -/
def Obligations.ExchangeAndFuseIssue : Prop :=
  ∀ (s : State) (k : ClusterId) (w : CmdWord) (x : Ctx), s.defined →
    let p := k.group.val
    (s.Accepts k.num x w shMove 4 (fun s x _ => s.gxMoveBar k.num w x) → Runs (.gxMove k w) s fun t =>
      Issued s t k.num 4 1 ∧ t.heldTo k.num 4 ((s.cluster k.num).nextAt + cmdCount w) ∧ s.EngineFrame t) ∧
    (∀ j ∈ groupClusters p, s.AcceptsTogether (groupClusters p) x w shBcast [4] → Runs (.gxBcast k.group w) s fun t =>
      Issued s t j 4 1 ∧ t.heldTo j 4 ((s.cluster (32 * p)).nextAt + cmdCount w) ∧ s.EngineFrame t) ∧
    (∀ cs ms ks j, j ∈ ks → s.AcceptsFuse k.num x w cs ms ks → Runs (.fuse k w cs) s fun t =>
      Issued s t j (4 * (cs.length + 1)) (cs.length + 1) ∧ s.EngineFrame t)

/-! ### Transfers, verdicts and landings (R122, R164, R221 to R232, R246) -/

/-- TRANSFER_GRANT, once the relay rows injected by its cycle have claimed their places, gives an open slot to the bid R222 chooses:
each cluster the chosen transfer is served in has one more grant counted, its next grant from that source 16 cycles later, and the
transfer tagged with its stamp; the slot is taken. A store's grant changes no memory. The next piece of a key's fill takes its slot
and stamp alike. A slot that none takes, or that is not open, passes unused. -/
def Obligations.GrantTakesSlotAndTag : Prop :=
  ∀ (s : State) (g : Fin 68) (src : SlotSource) (cyc : BitVec 16), s.defined →
    let t0 := s.beat.toNat * 65536 + cyc.toNat
    let s1 := s.inject t0
    (s.jobRuns g = false ∨ s.slotOpen g src t0 = false → exec (.transferGrant g src cyc) s = .next s) ∧
    (s.jobRuns g = true → s.slotOpen g src t0 = true →
      (s1.chosen g src t0 = none → exec (.transferGrant g src cyc) s = .next s1) ∧
      (∀ b k tr, s1.chosen g src t0 = some b → b.by_ = .transfer k tr → Runs (.transferGrant g src cyc) s fun t =>
        s.EngineFrame t ∧ (t.unit g).lastSlot.at (slotCode src) 0 = t0 + 1 ∧ (tr.out = true → t.mem = s1.mem) ∧
        ∀ k' ∈ s1.slotClusters k tr, ∀ x, s.ctx? k' = some x →
          (t.cluster k').granted = satInc (s1.cluster k').granted ∧ (t.cluster k').nextGrant.at (slotCode src) 0 = t0 + 16 ∧
          (t.cluster k').transfers.length = (s1.cluster k').transfers.length ∧
          ∃ tr' ∈ (t.cluster k').transfers, tr'.ring = tr.ring ∧ tr'.tag = (s1.cluster k').freeTag? ∧
            tr'.stamp = t0 + (match src with | .hbm => 1536 | .keyCache => 160 | .groupBuffer => 16)) ∧
      (∀ b e f, s1.chosen g src t0 = some b → b.by_ = .fill e → e.fill = some f → Runs (.transferGrant g src cyc) s fun t =>
        (t.unit g).lastSlot.at (slotCode .hbm) 0 = t0 + 1 ∧
        ∃ e' ∈ t.work.kcDir, e.same e' = true ∧ e'.landing.find f.next = some (t0 + 1536)))

/-- TRANSFER_STAMP, in the order of stamps and stores and not before its beat, frees the tag, and no other of the cluster's transfers
leaves the stream unit; a one-row load of a running job stands in its ring's row. Out of that order it does nothing. A bound overrun
of a load counts on its stack, raises its fault at the stamp and leaves the late rows poisoned for their landing (log entry 35 says
whose lines count: the model's choice). -/
def Obligations.StampsAndOverruns : Prop :=
  ∀ (s : State) (k : ClusterId) (tag : BitVec 6) (tr : Transfer), s.defined →
    (s.cluster k.num).tagged? tag.toNat = some tr →
    let late := { tr with data := tr.data.map fun _ => poisonRow, marks := List.range (64 * tr.data.length) }
    let due := (s.cluster k.num).stampFirst tr = true ∧ s.storeFirst k.num tr = true ∧ beatOf tr.stamp ≤ s.beat.toNat
    let g := s.ring k.num tr.ring
    (due → Runs (.transferStamp k tag) s fun t =>
      (t.cluster k.num).tagged? tag.toNat = none ∧
      (t.cluster k.num).transfers = (s.cluster k.num).transfers.filter (fun y => decide (y.tag ≠ some tag.toNat)) ∧
      (s.cluster k.num).SameCore (t.cluster k.num) ∧ t.beat = s.beat ∧ t.flash = s.flash ∧ t.fuses = s.fuses ∧
      t.host.hostRam = s.host.hostRam) ∧
    (¬ due → exec (.transferStamp k tag) s = .next s) ∧
    (∀ x row, due → s.ctx? k.num = some x → s.jobRuns k.group.val = true → x.job.id.toNat = tr.job → tr.out = false →
      tr.isHead = false → tr.op ≠ .loads → tr.code = 0 → tr.marks = [] → tr.data = [row] → (∀ e ∈ s.units, e.2.relay = []) →
      Runs (.transferStamp k tag) s fun t => t.mem = s.mem.storeRow (g.addr k.num (tr.ringRow % max g.size.toNat 1)) row 64) ∧
    (tr.out = false → tr.src = .hbm → Runs (.hbmBoundOverrun k tag) s fun t =>
      (t.stack (hbmStack tr.addr)).overruns = satInc (s.stack (hbmStack tr.addr)).overruns ∧
      (∃ w, t.faults.wires = s.faults.wires ++ [w] ∧ w.fireAt = tr.stamp ∧ w.word.toNat / 2 ^ 20 % 256 = 0x40) ∧
      (t.cluster k.num).tagged? tag.toNat = some late ∧ t.mem = s.mem) ∧
    (tr.out = false → tr.src = .keyCache → Runs (.kcBoundOverrun k tag) s fun t => t.memSys = s.memSys ∧
      (∃ w, t.faults.wires = s.faults.wires ++ [w] ∧ w.fireAt = tr.stamp ∧ w.word.toNat / 2 ^ 20 % 256 = 0x41) ∧
      (t.cluster k.num).tagged? tag.toNat = some late ∧ t.mem = s.mem)

/-- Sheepdog counts the oldest violation, keeps the place of the first, and raises its fault in the verdict cycle; of the rows a group
has on the relay chain, once those injected have claimed their places, the one that lands next leaves it and is written to the
places it claimed, if its job runs. A transform's verdict, not before its beat, is judged once: sums that hold raise nothing, one
that fails raises TRANSFORM_CHECKSUM. A suspended refresh of a running job runs on through the window, or ends in it. -/
def Obligations.VerdictsLandingsAndRefresh : Prop :=
  ∀ (s : State) (k : ClusterId) (g : Fin 68) (disturb : Word32), s.defined →
    let p := k.group.val
    (∀ d rest, (s.cluster k.num).due = d :: rest → Runs (.sheepdogVerdict k) s fun t =>
      (t.cluster k.num).due = rest ∧ (t.unit p).sdViolations = satInc (s.unit p).sdViolations ∧
      ((s.unit p).sdViolations = 0 → (t.unit p).sdFirstAt = d.at_ - 2 ∧ (t.unit p).sdCheck = BitVec.ofNat 3 d.check ∧
        (t.unit p).sdCluster.toNat = k.cluster.val) ∧
      ((s.unit p).sdViolations ≠ 0 → (t.unit p).sdFirstAt = (s.unit p).sdFirstAt ∧ (t.unit p).sdCheck = (s.unit p).sdCheck) ∧
      (∃ w, t.faults.wires = s.faults.wires ++ [w] ∧ w.fireAt = d.at_ ∧ w.word.toNat / 2 ^ 20 % 256 = 0x20) ∧
      t.mem = s.mem ∧ s.EngineFrame t) ∧
    (let s1 := match firstStamp (s.unit g).relay with
      | some m => s.inject m
      | none => s
     ∀ i r, nextLanding (s1.unit g).relay = some (i, r) → beatOf r.stamp ≤ s.beat.toNat → Runs (.relayRowLanding g) s fun t =>
      (t.unit g).relay = (s1.unit g).relay.eraseIdx i ∧ t.faults = s1.faults ∧
      (s.jobRuns g = false ∨ (s.jobId g).toNat ≠ r.job → t.mem = s1.mem) ∧
      ∀ j o, s.jobRuns g = true → (s.jobId g).toNat = r.job → r.places = [(j, o)] →
        t.mem = s1.mem.storeRow ((s1.ring j r.ring).addr j (o % max (s1.ring j r.ring).size.toNat 1)) r.data 64) ∧
    (∀ d rest, (s.unit g).teVerdicts = d :: rest → beatOf d.at_ ≤ s.beat.toNat → Runs (.teChecksumVerdict g disturb) s fun t =>
      (t.unit g).teVerdicts = rest ∧ State.EngineFrame { s with cycle := t.cycle } t ∧
      (d.sums.all (sumsHold disturb.toNat) = true → t = { s with cycle := t.cycle, units := t.units }) ∧
      (d.sums.all (sumsHold disturb.toNat) = false → ∃ w, t.faults.wires = s.faults.wires ++ [w] ∧
        w.fireAt = d.at_ ∧ w.word.toNat / 2 ^ 20 % 256 = 0x13)) ∧
    (∀ f x, (s.unit g).refresh = some f → f.suspended = true → s.jobRuns g = true → s.ctx? (32 * g.val) = some x →
      (59392 < f.remaining → Runs (.refreshResume g) s fun t =>
        (t.unit g).refresh = some { f with suspended := false, remaining := f.remaining - 59392 } ∧ t.mem = s.mem ∧
        t.clusters = s.clusters ∧ t.rings = s.rings ∧ s.EngineFrame t) ∧
      (f.remaining ≤ 59392 → g.val ∈ s.refreshGroups g (refSpan f.cmd) → Runs (.refreshResume g) s fun t =>
        (t.unit g).refresh = none ∧ s.EngineFrame t))

/-! ### The fault path (R289 to R300) -/

/-- The oldest message reaches its collector: a closed latch opens with a record of the message's unit, kind and fire time, which
goes to the device collector; an open one merges it, and nothing more goes on. A message word of a checker outside the model
reaches its collector alike, 11 cycles after it fired. A test message is only counted, from the wires and from the group's own
test source. -/
def Obligations.MessagesOpenOrMerge : Prop :=
  ∀ (s : State) (w : FaultWire) (rest : List FaultWire) (v : Word64) (i : CollectorId) (p : Fin 68), s.defined →
    let opens := fun (s t : State) (word fire : Nat) => (t.collector i).isOpen = true ∧
      (t.collector i).messages = satInc (s.collector i).messages ∧
      t.faults.toDevice = s.faults.toDevice ++ [(t.collector i).words] ∧
      recKind (t.collector i).words = word / 2 ^ 20 % 256 ∧ recUnit (t.collector i).words = word % 2 ^ 20 ∧
      recBeat (t.collector i).words = fire / 65536 % 2 ^ 48 ∧ recCycle (t.collector i).words = fire % 65536
    Runs (.testMessage p) s (fun t => t = { s with units := t.units } ∧
      t.unit p = { s.unit p with collector := { (s.unit p).collector with testMsgs := satInc (s.unit p).collector.testMsgs } }) ∧
    ((s.wireOf v).collector = some i → v.toNat / 2 ^ 20 % 256 ≠ 0xFF → (s.collector i).isOpen = false →
      Runs (.faultMessage (some v)) s fun t => t.faults.wires = s.faults.wires ∧ opens s t v.toNat (s.now - 11)) ∧
    (s.faults.wires = w :: rest → w.collector = some i →
    let kind := w.word.toNat / 2 ^ 20 % 256
    (kind ≠ 0xFF → (s.collector i).isOpen = false → Runs (.faultMessage none) s fun t =>
      t.faults.wires = rest ∧ opens s t w.word.toNat w.fireAt ∧ t.mem = s.mem) ∧
    (kind ≠ 0xFF → (s.collector i).isOpen = true → Runs (.faultMessage none) s fun t =>
      t.faults.wires = rest ∧ (t.collector i).isOpen = true ∧ (t.collector i).messages = satInc (s.collector i).messages ∧
      t.faults.toDevice.length = s.faults.toDevice.length ∧ (t.collector i).rec0 = (s.collector i).rec0 ∧
      (t.collector i).rec1.getLsbD 58 = true ∧ t.mem = s.mem) ∧
    (kind = 0xFF → Runs (.faultMessage none) s fun t =>
      t.faults.wires = rest ∧ t.faults.toDevice = s.faults.toDevice ∧
      t.collector i = { s.collector i with testMsgs := satInc (s.collector i).testMsgs } ∧ t.work = s.work ∧ t.mem = s.mem))

/-- The device collector takes the next record and counts the fence by its scope; a restarting kind fences its running job for a restart, a
deterministic one that is no refusal for termination, and the job's outputs of the beat are withheld. -/
def Obligations.RecordsFenceTheirJobs : Prop :=
  ∀ (s : State) (w : List Word64) (rest : List (List Word64)) (j : Job), s.defined → s.Inv →
    s.faults.toDevice = w :: rest →
    let kind := recKind w
    let id := recJob w
    (kindScope kind = .job → Runs (.deviceCollectorRecord) s fun t => t.faults.toDevice.length = rest.length ∧
      t.faults.fencesJ = satInc s.faults.fencesJ ∧ t.faults.fencesW = s.faults.fencesW ∧ t.mem = s.mem) ∧
    (kindScope kind = .all → Runs (.deviceCollectorRecord) s fun t => t.faults.toDevice.length = rest.length ∧
      t.faults.fencesW = satInc s.faults.fencesW ∧ t.faults.fencesJ = s.faults.fencesJ ∧ t.mem = s.mem) ∧
    (kindScope kind = .none → Runs (.deviceCollectorRecord) s fun t => t.faults.toDevice = rest ∧
      t.faults.fencesW = s.faults.fencesW ∧ t.faults.fencesJ = s.faults.fencesJ ∧ t.work.jobs = s.work.jobs ∧ t.mem = s.mem) ∧
    (kindScope kind = .job → s.job? id = some j → j.phase = .running → recBeat w < s.beat.toNat →
      (kindClass kind = .restarting → recSuspect w = false → (s.run id).episodeRestarting = false → (s.run id).restarts < 16 →
        Runs (.deviceCollectorRecord) s fun t => (t.run id).restarts = (s.run id).restarts + 1 ∧
          ∃ j', t.job? id = some j' ∧ j'.phase = .fencedRestart ∧ j'.withheld = true) ∧
      (kindClass kind = .deterministic → isRefusal kind = false →
        Runs (.deviceCollectorRecord) s fun t => ∃ j', t.job? id = some j' ∧ j'.phase = .fencedTerminate ∧ j'.withheld = true))

/-! ### The beat's timetable (R24, R264, R277, R280, R291) -/

/-- The beat boundary starts the next beat at cycle 0 and clears every store signature; the window's end, which suspends every
refresh of a running job, the service scrub, which moves on in every powered group, the ledger sampling, which stores its readings,
the reconciliation, which drains every group's latch, Retriever's verdict and the release decision each stand at or after their
cycle. The decision releases a running job's outputs where nothing withholds them, no fault raised before it is still on its way,
and no token is missing. -/
def Obligations.BeatTimetable : Prop :=
  ∀ s : State, s.defined → s.beating = true →
    Runs .beatBoundary s (fun t => t.beat = s.beat + 1 ∧ t.cycle = 0 ∧ ∀ k, (t.cluster k).storeSig = 0) ∧
    Runs .programWindowEnd s (fun t => t.beat = s.beat ∧ t.cycle.toNat = max s.cycle.toNat 59392 ∧
      ∀ id j p r, s.job? id = some j → j.phase = .running → p ∈ j.groups → (s.unit p).refresh = some r →
        ∃ r', (t.unit p).refresh = some r' ∧ r'.suspended = true ∧ r'.cmd = r.cmd ∧ r'.remaining = r.remaining) ∧
    (∀ finds, Runs (.serviceScrub finds) s fun t => t.beat = s.beat ∧ t.cycle.toNat = max s.cycle.toNat 60928 ∧
      ∀ p, p < 68 → s.powered p = true → (t.unit p).scrubRow = ((s.unit p).scrubRow + 1) % 1024) ∧
    (∀ temps rails, Runs (.ledgerSampling temps rails) s fun t => t.beat = s.beat ∧ t.cycle.toNat = max s.cycle.toNat 62000 ∧
      ∀ r, temps = [r] → r.sensor.toNat < 50 → t.power.sensors.at r.sensor.toNat 0 = r.temp) ∧
    Runs .reconciliation s (fun t => t.beat = s.beat ∧ t.cycle.toNat = max s.cycle.toNat 63488 ∧
      ∀ p, (t.unit p).collector.isOpen = false) ∧
    Runs .retrieverVerdict s (fun t => t.beat = s.beat ∧ t.cycle.toNat = max s.cycle.toNat 63552) ∧
    Runs .releaseDecision s (fun t => t.beat = s.beat ∧ t.cycle.toNat = max s.cycle.toNat 65376 ∧
      (∀ p, (t.unit p).collector.isOpen = false) ∧
      (s.Inv → ∀ id j, s.job? id = some j → j.phase = .running →
        ∃ j', t.job? id = some j' ∧ j'.withheld = false ∧
          j'.decision = some (!j.withheld && !s.faultPending id j (s.beat.toNat * 65536 + 65376) && !s.tokenMissing id j)))

/-- The abort fills of a fenced job run once: its clusters end with no transfer or object left, and every byte of its group buffers
reads as filled. The banks of a committed checkpoint are copied in two turns, each beginning with its job beat, where the job's
area for them lies (log entry 21: the model's choice of place and form), and nothing below that area changes. A token missing by its
cycle withholds the beat and raises WINDFALL_TIMEOUT. -/
def Obligations.AbortCheckpointAndTokens : Prop :=
  ∀ (s : State) (job : BitVec 16) (j : Job), s.defined →
    (s.job? job.toNat = some j → j.phase = .fencedRestart ∨ j.phase = .fencedTerminate → (s.run job.toNat).fills = 0 →
      j.groups ≠ [] → Runs (.abortFill job) s fun t => (t.run job.toNat).fills = 1 ∧
        ∀ p ∈ j.groups, (∀ c, c < 32 → (t.cluster (32 * p + c)).state = .ended ∧ (t.cluster (32 * p + c)).transfers = [] ∧
          (t.cluster (32 * p + c)).objects = []) ∧
          (p < 68 → ∀ a, inRange (0x200000000000 + p * 0x800000) 0x800000 a = true → t.mem.read a = 0xFF)) ∧
    ((s.run job.toNat).fills ≠ 0 → exec (.abortFill job) s = .next s) ∧
    (∀ c, (s.run job.toNat).committed = some c → Runs (.checkpointCopy job) s fun t =>
      (t.run job.toNat).copied = min 2 ((s.run job.toNat).copied + 1) ∧ (t.run job.toNat).committed = some c ∧
      (s.Inv → ∀ i, i < c.cores.length → (s.run job.toNat).copied < 2 → i % 2 = (s.run job.toNat).copied →
        t.mem.readN (s.checkpointArea job.toNat c.half i) 4 = leBytes 4 c.beat) ∧
      (∀ a, a < s.checkpointArea job.toNat c.half 0 → t.mem.read a = s.mem.read a) ∧ t.work.jobs = s.work.jobs ∧ t.faults = s.faults) ∧
    (∀ l, s.job? job.toNat = some j → (s.programOf j).link = some l → j.phase = .running → 1 ≤ j.jobBeat →
      (∀ m, j.releaseMark = some m → m < j.jobBeat) → (s.run job.toNat).owing l.members (j.jobBeat - 1) ≠ [] →
      Runs (.windfallTimeout job) s fun t =>
        (∃ w, t.faults.wires = s.faults.wires ++ [w] ∧ w.word.toNat / 2 ^ 20 % 256 = 0x52 ∧ w.job = job) ∧
        (∃ j', t.job? job.toNat = some j' ∧ j'.withheld = true) ∧ t.mem = s.mem)

/-! ### Integrity of results (R263 to R276) -/

/-- An injection's outcome is noted. A checker that did not fire, or whose message did not arrive, quarantines its group, is counted
and raises its fault; one that fired and whose signatures agree is good in this beat; signatures that differ with no checker fired
quarantine both groups they name, one fault each; a checker that fired in the kernel sends its message and quarantines its group. A
memory-side die that did not fire raises its fault. A retest that passes lifts the quarantine, where the group is not due for
retirement; one that fails makes it so, or takes the group out of use where no fuse slot is left. -/
def Obligations.TerrierProvesCheckers : Prop :=
  ∀ (s : State) (p q : Fin 68) (k : Fin 4) (a b w : Word64) (f r : Bool), s.defined → s.beating = true →
    let beat := s.beat.toNat
    let key := 64 * (beat % 16) + beat / 16 % 64
    let injected := fun (f r : Bool) => some ({ beat := beat, fired := f, arrived := r } : TerrierResult)
    let raises := fun (t : State) (kinds : List Nat) => ∃ ws, t.faults.wires = s.faults.wires ++ ws ∧
      ws.map (fun x => x.word.toNat / 2 ^ 20 % 256) = kinds
    (s.powered p = true → Runs (.terrierInjection (.group p) f r) s fun t =>
      t.unit p = { s.unit p with injection := injected f r } ∧ t = { s with units := t.units }) ∧
    Runs (.terrierInjection (.memoryDie k) f r) s (fun t =>
      t.die k = { s.die k with injection := injected f r } ∧ t = { s with memSys := t.memSys }) ∧
    (s.powered p = true → (s.unit p).injection = injected f r → (f && r) = false →
      Runs (.terrierVerdict (.group p) a a q none) s fun t => (t.group p).quarantine = true ∧
        (t.group p).terrierFails = satInc (s.group p).terrierFails ∧ raises t [0x60] ∧ t.mem = s.mem) ∧
    (s.powered p = true → (s.unit p).injection = injected true true →
      Runs (.terrierVerdict (.group p) a a q none) s fun t => (t.group p).lastGood.at key 0 = beat ∧
        (t.group p).quarantine = (s.group p).quarantine ∧ t = { s with groups := t.groups }) ∧
    (s.powered p = true → (s.unit p).injection = none → a ≠ b →
      Runs (.terrierVerdict (.group p) a b q none) s fun t => (t.group p).quarantine = true ∧ (t.group q).quarantine = true ∧
        raises t (if p = q then [0x61] else [0x61, 0x61]) ∧ t.mem = s.mem) ∧
    (s.powered p = true → (s.unit p).injection = none → Runs (.terrierVerdict (.group p) a b q (some w)) s fun t =>
      (t.group p).quarantine = true ∧ (t.group p).terrierFails = satInc (s.group p).terrierFails ∧ t.mem = s.mem ∧
      ∃ x, t.faults.wires = s.faults.wires ++ [x] ∧ x.word = w ∧ x.fireAt = s.now) ∧
    ((s.die k).injection = injected true true → Runs (.terrierVerdict (.memoryDie k) a b q none) s fun t =>
      t.die k = { s.die k with lastGood := beat } ∧ t = { s with memSys := t.memSys }) ∧
    ((s.die k).injection = injected f r → (f && r) = false →
      Runs (.terrierVerdict (.memoryDie k) a b q none) s fun t => raises t [0x67] ∧ t.mem = s.mem) ∧
    ((s.group p).quarantine = true → (s.group p).quarantineBeat < beat →
      Runs (.terrierRetest p true) s (fun t => (t.group p).quarantine = (s.group p).retireDue ∧
        (t.group p).retests = satInc (s.group p).retests ∧ t = { s with groups := t.groups }) ∧
      (s.fuses.retired.length < 16 → Runs (.terrierRetest p false) s fun t => (t.group p).quarantine = true ∧
        (t.group p).retireDue = true ∧ (t.group p).retests = satInc (s.group p).retests ∧ t = { s with groups := t.groups }) ∧
      (16 ≤ s.fuses.retired.length → Runs (.terrierRetest p false) s fun t => (t.group p).quarantine = true ∧
        (t.group p).role = .failed ∧ (t.group p).retests = satInc (s.group p).retests ∧ t.mem = s.mem))

/-- Retriever's walk: a slice is absorbed for every cluster of the group, the last slice's beat makes the digest, and a PENDING
group whose counted walk gives the model's digest is CONFIRMED at the verdict, while one that does not loses its residency. -/
def Obligations.RetrieverWalksResidency : Prop :=
  ∀ (s : State) (p : Fin 68), s.defined → s.beating = true →
    let g := s.group p
    let u := s.beat.toNat % 128
    let beats := max 1 ((g.resRows.toNat * 256 + 8191) / 8192)
    (s.powered p = true → g.residency ≠ .none → u < beats → Runs (.retrieverAbsorb p) s fun t =>
      (t.group p).walkU.toNat = u ∧ (t.group p).absorbed.length = 32 ∧ (t.group p).walkDone = false ∧
      (u = 0 → (t.group p).walkCounts = true) ∧ t = { s with groups := t.groups }) ∧
    (g.residency ≠ .none → g.walkEpoch = s.beat.toNat / 128 → u + 1 = beats → g.absorbed ≠ [] →
      Runs (.retrieverFinalize p) s fun t => (t.group p).walkDone = true ∧
        (t.group p).digest = digest32 ((List.range 32).flatMap fun c => digest32 (g.absorbed.at c [])) ∧
        t = { s with groups := t.groups }) ∧
    ((∀ q, q < 68 → (s.group q).walkDone = true → (s.group q).residency = .pending) → g.walkDone = true → g.walkCounts = true →
      Runs .retrieverVerdict s fun t => (t.group p).walkDone = false ∧
        (g.digest = g.model → (t.group p).residency = .confirmed) ∧ (g.digest ≠ g.model → (t.group p).residency = .none))

/-! ### Jobs (R29, R202 to R211, R282, R320, R325) -/

/-- A job entry that passes enters the table as a waiting job and changes nothing else; with the table full it completes with
TABLE_FULL (0x4A). -/
def Obligations.JobsEnterTheTable : Prop :=
  ∀ (s : State) (e : Entry), s.defined → s.visibleEntry (fun e => e.type == 3) = some e → s.memSys.hbmFailed = false →
    let j := s.newJob e
    (s.work.jobs.length < 256 → s.inIntake e.fn j.recordAddr j.recordLen = true → 64 ≤ j.recordLen → j.recordLen ≤ 65536 →
      j.id ≠ 0 → s.job? j.id.toNat = none → Runs .jobEntry s fun t =>
        t.job? j.id.toNat = some j ∧ j.phase = .waiting ∧ j.tag = e.tag ∧ (∀ i, i ≠ j.id.toNat → t.job? i = s.job? i) ∧
        t.host = { s.host with visible := s.host.visible.filter fun x => x.seq != e.seq } ∧
        t.work = { s.work with jobs := t.work.jobs, runs := t.work.runs } ∧ t = { s with host := t.host, work := t.work }) ∧
    (256 ≤ s.work.jobs.length → Runs .jobEntry s fun t => Completed s t e.fn 3 0x4A ∧ t.work = s.work ∧ t.mem = s.mem)

/-- R203: a patch scoped to a group takes precedence over one scoped 0xFF, whatever their order; two patches of the same register and
scope make the record invalid (0x40); a register that no patch reaches holds 0. -/
def Obligations.PatchesTakePrecedence : Prop :=
  ∀ (l : List (Nat × Nat × Nat)) (groups g r v : Nat) (s : State) (j : Job),
    let distinct := fun (l : List (Nat × Nat × Nat)) => l.Pairwise fun p q => p.1 ≠ q.1 ∨ p.2.1 ≠ q.2.1
    let held := (paramTable l groups).at (64 * g + r) 0
    (groups ≤ 64 → g < groups → r < 64 → distinct l →
      ((r, g, v) ∈ l → held = BitVec.ofNat 64 v) ∧
      ((∀ q ∈ l, q.1 = r → q.2.1 ≠ g) → (r, 0xFF, v) ∈ l → held = BitVec.ofNat 64 v) ∧
      ((∀ q ∈ l, q.1 = r → q.2.1 ≠ g ∧ q.2.1 ≠ 0xFF) → held = 0)) ∧
    (¬ distinct (recPatchList (s.jobRecord j)) → s.jobStatus j = 0x40)

/-- A waiting job that fits is mapped: its groups hold it, set by set, from this beat; one whose record is refused leaves the
table with its status. -/
def Obligations.JobsMapOntoGroups : Prop :=
  ∀ (s : State) (job : BitVec 16) (j : Job), s.defined → s.beating = true → s.rst.haltStarted = false →
    s.job? job.toNat = some j → j.phase = .waiting →
    (∀ slot p a c, s.jobStatus j = 0 → s.programBy? (slice (s.jobRecord j) 8 32) = some (slot, p) → s.starved j = false →
      s.linkOpen p = true → (p.linked && decide (8 ≤ s.linkedJobs)) = false →
      s.place p (field (s.jobRecord j) 5 1 % 2 == 1 || s.mode.twinAll) [] = some (a, c) →
      (s.grantKeys job.toNat p).isSome = true → Runs (.jobMapping job) s fun t =>
        (∃ j', t.job? job.toNat = some j' ∧ j'.phase = .mapped ∧ j'.set0 = a ∧ j'.set1 = c ∧ j'.program = slot ∧
          j'.mapBeat = s.beat.toNat ∧ j'.jobBeat = 0 ∧ j'.tag = j.tag) ∧
        (∀ q, q ∈ a ∨ q ∈ c → (t.group q).job = job) ∧ t.mem = s.mem) ∧
    (s.jobStatus j ≠ 0 → Runs (.jobMapping job) s fun t => t.job? job.toNat = none ∧ Completed s t j.fn 3 (s.jobStatus j) ∧
      t.groups = s.groups ∧ t.clusters = s.clusters)

/-- A mapped job issues from cycle 0 of a later beat; a job past its deadline is stopped; a fenced job whose fills have run is
mapped again from its checkpoint, if the checkpoint's copy is whole; a copy that is not is a fault and counts as a restart of its
own (log entry 21: the model's choice). -/
def Obligations.JobsStartStopAndRestart : Prop :=
  ∀ (s : State) (job : BitVec 16) (j : Job), s.defined → s.job? job.toNat = some j →
    (s.beating = true → j.phase = .mapped → j.mapBeat < s.beat.toNat → (s.programOf j).linked = false →
      Runs (.jobFirstIssue job) s fun t => (∃ j', t.job? job.toNat = some j' ∧ j'.phase = .running) ∧
        (∀ p ∈ j.groups, ∀ c, c < 32 → (s.cluster (32 * p + c)).state ≠ .ended →
          t.cluster (32 * p + c) = { s.cluster (32 * p + c) with state := .issuing, nextAt := s.beat.toNat * 65536 }) ∧
        t.mem = s.mem ∧ t.rings = s.rings) ∧
    (j.deadline ≠ 0 → j.visible + j.deadline ≤ s.beat.toNat → j.phase = .running → Runs (.jobDeadline job) s fun t =>
      (∃ j', t.job? job.toNat = some j' ∧ j'.phase = .fencedTerminate ∧ j'.deadlineHit = true ∧ j'.withheld = true) ∧
        t.mem = s.mem ∧ t.clusters = s.clusters) ∧
    (∀ a c, s.beating = true → s.rst.haltStarted = false → j.phase = .fencedRestart → s.filled job.toNat = true →
      s.underRepair job.toNat = false →
      (∀ x, (s.run job.toNat).restartFrom (s.programOf j).linked = some x → s.copyWhole job.toNat x = true) → (s.freeGroups j).place (s.programOf j) j.twin (s.run job.toNat).excluded = some (a, c) →
      Runs (.jobRestart job) s fun t =>
        (∃ j', t.job? job.toNat = some j' ∧ j'.phase = .mapped ∧ j'.set0 = a ∧ j'.set1 = c ∧ j'.mapBeat = s.beat.toNat ∧
          j'.jobBeat = (((s.run job.toNat).restartFrom (s.programOf j).linked).map (·.beat)).getD 0) ∧
        (t.run job.toNat).restartNo = (s.run job.toNat).restartNo + 1 ∧
        (∀ q, q ∈ a ∨ q ∈ c → (t.group q).job = job) ∧ t.mem = s.mem) ∧
    (∀ x, s.beating = true → s.rst.haltStarted = false → j.phase = .fencedRestart → s.filled job.toNat = true →
      s.underRepair job.toNat = false → (s.run job.toNat).restartFrom (s.programOf j).linked = some x →
      (s.run job.toNat).committed = some x ∨ (s.run job.toNat).previous = some x → s.copyWhole job.toNat x = false →
      (s.run job.toNat).restarts < 16 → Runs (.jobRestart job) s fun t => t.job? job.toNat = some j ∧
        (t.run job.toNat).restarts = (s.run job.toNat).restarts + 1 ∧ t.mem = s.mem ∧
        ∃ w, t.faults.wires = s.faults.wires ++ [w] ∧ w.word.toNat / 2 ^ 20 % 256 = 0x06 ∧ w.job = job)

/-- A job that is finished, or terminated with its fills run, completes once with its status, leaves the table and frees its groups; a released beat completes with a
release record; the receipt is signed with 32 DRBG bytes when the digests are done, and waits while the DRBG is not healthy. -/
def Obligations.JobsCompleteAndFree : Prop :=
  ∀ (s : State) (job : BitVec 16) (j : Job), s.defined →
    (s.job? job.toNat = some j → j.phase = .finished ∨ (j.phase = .fencedTerminate ∧ 1 ≤ (s.run job.toNat).fills) → j.silent = false → Runs (.jobCompletion job) s fun t =>
      t.job? job.toNat = none ∧ (∀ q ∈ j.groups, (t.group q).job = 0) ∧ Completed s t j.fn 3 (s.finalStatus j) ∧ t.mem = s.mem) ∧
    (∀ x, s.job? job.toNat = some j → j.phase = .running → j.silent = false → s.work.completing.find job.toNat = some x →
      Runs (.jobCompletion job) s fun t => t.work.completing.find job.toNat = none ∧ t.job? job.toNat = some j ∧
        Completed s t j.fn 0x13 0 ∧ t.mem = s.mem) ∧
    (∀ d, (s.work.receiptsDue.find? fun d => d.job.id == job) = some d →
      (s.sec.drbgOk = true → Runs (.extentDigestDone job) s fun t => t.sec.drbgPos = s.sec.drbgPos + 32 ∧
        t.work.receiptsDue = s.work.receiptsDue.filter (fun x => x.serial != d.serial) ∧ t.mem = s.mem) ∧
      (s.sec.drbgOk = false → Runs (.extentDigestDone job) s fun t => t.work = s.work ∧ t.host = s.host ∧ t.mem = s.mem))

/-! ### Submission (R193, R200, R312 to R323) -/

/-- The aperture takes a whole entry of 64 bytes at a multiple of 64 in one write, while credit lasts; it drops and counts every
other write, and a read of it answers ones. -/
def Obligations.ApertureTakesEntries : Prop :=
  ∀ (s : State) (fn : Fin 17) (offset : BitVec 16) (data : List Byte) (tlps len : Nat) (on : Bool), s.defined →
    s.rst.hostReady = true → s.host.pcieHeld = false →
    let wellFormed := data.length = 64 ∧ offset.toNat % 64 = 0 ∧ tlps = 1 ∧ (s.func fn).d3hot = false ∧
      (s.ideRequired = true → on = true)
    (wellFormed → s.freeEntries fn ≠ 0 → Runs (.submissionWrite fn offset data tlps on) s fun t =>
      t = { s with host := t.host } ∧
      t.host = { s.host with nextSeq := t.host.nextSeq, fifo := t.host.fifo } ∧ t.host.nextSeq = s.host.nextSeq + 1 ∧
      t.host.fifo = s.host.fifo ++ [{ fn := fn, raw := data, seq := s.host.nextSeq, visible := 0 }]) ∧
    (wellFormed → s.freeEntries fn = 0 → Runs (.submissionWrite fn offset data tlps on) s fun t =>
      t.func fn = { s.func fn with droppedCredit := satInc (s.func fn).droppedCredit } ∧ t.host.fifo = s.host.fifo ∧
      t = { s with host := t.host }) ∧
    (¬ wellFormed → Runs (.submissionWrite fn offset data tlps on) s fun t =>
      t.func fn = { s.func fn with droppedMalformed := satInc (s.func fn).droppedMalformed } ∧ t.host.fifo = s.host.fifo ∧
      t = { s with host := t.host }) ∧
    Runs (.submissionRead fn len) s (fun t => t.host.lastRead = List.replicate len 0xFF ∧
      t.func fn = { s.func fn with droppedMalformed := satInc (s.func fn).droppedMalformed } ∧ t.host.fifo = s.host.fifo)

/-- DEFINE_AREA makes the area its entry describes and completes; a range or number that R312 refuses completes with its status
and defines nothing. DELETE_AREA removes an idle area of its own function, and refuses a busy one with 0x51. -/
def Obligations.AreasAreDefinedAndDeleted : Prop :=
  ∀ (s : State) (e : Entry), s.defined →
    let num := field e.raw 10 1
    (s.visibleEntry (fun e => e.type == 5 && e.sub == 4) = some e →
      let st := s.areaStatus e.fn (field e.raw 9 1) num (field e.raw 16 8) (field e.raw 24 8)
      (st = 0 → Runs .defineArea s fun t => t.host.areas.find num = some
        { release := field e.raw 9 1 == 1, owner := e.fn, base := field e.raw 16 8, length := field e.raw 24 8 } ∧ Completed s t e.fn 5 0 ∧ t.mem = s.mem) ∧
      (st ≠ 0 → Runs .defineArea s fun t => t.host.areas = s.host.areas ∧ Completed s t e.fn 5 st ∧ t.mem = s.mem)) ∧
    (∀ a, s.visibleEntry (fun e => e.type == 5 && e.sub == 5) = some e → s.host.areas.find num = some a → a.owner = e.fn →
      (s.areaBusy a = false → Runs .deleteArea s fun t => t.host.areas.find num = none ∧ Completed s t e.fn 5 0 ∧ t.mem = s.mem) ∧
      (s.areaBusy a = true → Runs .deleteArea s fun t => t.host.areas = s.host.areas ∧ Completed s t e.fn 5 0x51 ∧ t.mem = s.mem))

/-- A transfer starts when its range holds, else completes with 0x58; at its end a move to the device has written every allowed
byte of a line that is not poisoned and no byte outside its range, and completes with 0; one to the host has put into host memory
what a host read gives, and completes with 0, or with 0x5A where it met a poisoned line. -/
def Obligations.TransfersMoveBytes : Prop :=
  ∀ (s : State) (e : Entry) (fn : Fin 17) (x : HostTransfer), s.defined →
    (s.nextTransfer = some e →
      let ok := s.transferRange (field e.raw 24 8) (field e.raw 16 8) (field e.raw 32 4)
      (ok = true → Runs .transfer s fun t => ∃ x : HostTransfer, t.host.transfers = s.host.transfers ++ [x] ∧
        x.fn = e.fn ∧ x.tag = e.tag ∧ x.toHost = (e.flags % 2 == 1) ∧ x.hostAddr = field e.raw 16 8 ∧
        x.devAddr = field e.raw 24 8 ∧ x.length = field e.raw 32 4 ∧ x.seq = e.seq ∧ t.mem = s.mem) ∧
      (ok = false → Runs .transfer s fun t => t.host.transfers = s.host.transfers ∧ Completed s t e.fn 4 0x58)) ∧
    (∀ fin, (s.host.transfers.find? fun t => t.fn == fn.val) = some x → x.toHost = false → fin = (s.host.ramRead x.hostAddr x.length) →
      Runs (.transferComplete fn true) s fun t => t.host.transfers = s.host.transfers.filter (fun y => y.seq != x.seq) ∧
        Completed s t fn 4 0 ∧
        (∀ i b, s.Inv → fin[i]? = some b → s.byteAllowed fn true (x.devAddr + i) = true → s.mem.linePoisoned (x.devAddr + i) = false →
          t.mem.read (x.devAddr + i) = b) ∧
        (∀ a, s.byteAllowed fn true a = false ∨ a < x.devAddr ∨ x.devAddr + x.length ≤ a → t.mem.read a = s.mem.read a)) ∧
    ((s.host.transfers.find? fun t => t.fn == fn.val) = some x → x.toHost = true → s.canSend fn = true →
      Runs (.transferComplete fn true) s fun t => t.host.transfers = s.host.transfers.filter (fun y => y.seq != x.seq) ∧
        t.mem = s.mem ∧ Completed s t fn 4 (if (s.hostRead fn x.devAddr x.length).2.2 = 0 then 0 else 0x5A) ∧
        (s.Inv → s.cqOpen fn = false → t.host.ramRead x.hostAddr x.length = (s.hostRead fn x.devAddr x.length).1))

/-- CANCEL_JOB ends its function's job, MARKER completes once nothing earlier of its function is open, and REMOVE_PROGRAM empties
its slot unless a job uses it. -/
def Obligations.ControlEntriesAct : Prop :=
  ∀ (s : State) (e : Entry) (j : Job) (p : Program), s.defined →
    let id := field e.raw 12 2
    let slot := field e.raw 9 1
    (s.visibleEntry (fun e => e.type == 5 && e.sub == 6) = some e → s.job? id = some j → j.fn = e.fn → j.phase = .running →
      Runs .cancelJob s fun t => (∃ j', t.job? id = some j' ∧ j'.phase = .fencedTerminate ∧ j'.cancelled = true) ∧
        Completed s t e.fn 5 0 ∧ t.mem = s.mem) ∧
    (s.visibleEntry (fun e => e.type == 5 && e.sub == 6) = some e → s.job? id = none →
      Runs .cancelJob s fun t => t.work = s.work ∧ Completed s t e.fn 5 0x53 ∧ t.mem = s.mem) ∧
    (s.visibleEntry (fun e => e.type == 5 && e.sub == 7 && !s.earlierOpen e.fn e.seq) = some e →
      Runs .marker s fun t => t.work = s.work ∧ Completed s t e.fn 5 0 ∧ t.mem = s.mem) ∧
    (s.visibleEntry (fun e => e.type == 5 && e.sub == 3) = some e → s.work.programs.find slot = some p →
      (s.programInUse slot = false → Runs .removeProgram s fun t => t.work.programs.find slot = none ∧ Completed s t e.fn 5 0) ∧
      (s.programInUse slot = true → Runs .removeProgram s fun t => t.work = s.work ∧ t.mem = s.mem ∧ Completed s t e.fn 5 0x24))

/-- Chunks assemble an object in order, and those of a second object do not mix with an unfinished first (log entry 66); a reference
queues its bytes, and the verification of the object next in line installs it, its data in the slot's data area, or completes with
the rejection. -/
def Obligations.ProgramsAreQueuedAndVerified : Prop :=
  ∀ (s : State) (e : Entry), s.defined →
    (let n := e.flags / 256 % 64
     let off := field e.raw 8 4
     let final := e.flags % 2 == 1
     s.visibleEntry (fun e => e.type == 1) = some e → (n = 48 ∨ (final = true ∧ 1 ≤ n ∧ n ≤ 48)) → s.queueBytes + n ≤ 0x10000000 →
     (s.assembling? e.fn = none → (s.work.queue.any fun q => q.byChunks && !q.complete) = false → s.work.queue.length < 4 → off = 0 →
       Runs .programChunk s fun t => ∃ q, t.work.queue = s.work.queue ++ [q] ∧
         q.fn = e.fn ∧ q.bytes = slice e.raw 12 n ∧ q.complete = final ∧ q.seq = e.seq ∧ t.mem = s.mem) ∧
     (s.assembling? e.fn = none → (s.work.queue.any fun q => q.byChunks && !q.complete) = true →
       Runs .programChunk s fun t => t.work = s.work ∧ t.mem = s.mem ∧ Completed s t e.fn 1 0x21) ∧
     (∀ old, s.assembling? e.fn = some old → off = old.bytes.length → Runs .programChunk s fun t => ∃ q,
       t.work.queue = s.work.queue.filter (fun x => !(x.fn == e.fn && x.byChunks && !x.complete)) ++ [q] ∧
       q.fn = e.fn ∧ q.bytes = old.bytes ++ slice e.raw 12 n ∧ q.complete = final ∧ q.seq = e.seq ∧ t.mem = s.mem)) ∧
    (let a := field e.raw 8 8
     let n := field e.raw 16 4
     s.visibleEntry (fun e => e.type == 2) = some e → s.memSys.hbmFailed = false → n ≠ 0 → s.inIntake e.fn a n = true →
     s.work.queue.length < 4 → s.queueBytes + n ≤ 0x10000000 → Runs .programReference s fun t => ∃ q,
       t.work.queue = s.work.queue ++ [q] ∧ q.fn = e.fn ∧ q.bytes = s.mem.fetch a n ∧ q.complete = true ∧ t.mem = s.mem) ∧
    (∀ q, s.nextProgram = some q →
      (∀ r, s.verify q.bytes q.bytes.length = some r → Runs .programVerification s fun t => t.work.programs = s.work.programs ∧
        t.work.queue = s.work.queue.filter (fun x => x.seq != q.seq) ∧
        Completed s t q.fn (if q.byChunks then 1 else 2) r.code ∧ t.mem = s.mem) ∧
      (s.verify q.bytes q.bytes.length = none → s.mode.sealedTrust = false →
        (s.work.programs.find? fun x => x.2.digest == (parseProgram q.bytes).digest) = none →
        ∀ slot, s.freeProgramSlot = some slot → Runs .programVerification s fun t =>
          t.work.programs.find slot = some (parseProgram q.bytes) ∧
          (s.Inv → t.mem.readN (s.programData slot) (parseProgram q.bytes).data.length = (parseProgram q.bytes).data) ∧
          t.work.queue = s.work.queue.filter (fun x => x.seq != q.seq) ∧
          Completed s t q.fn (if q.byChunks then 1 else 2) 0))

/-- A registration locks its manifest and region until its commit, which puts the key set into a slot, finds it there already,
or completes with the failing step's status; REMOVE_KEYSET empties an unused slot. -/
def Obligations.KeySetsRegisterAndCommit : Prop :=
  ∀ (s : State) (e : Entry) (r : Registration), s.defined →
    (∀ x, s.host.registration = none → s.visibleEntry (fun e => e.type == 5 && e.sub == 1) = some e → s.memSys.hbmFailed = false →
      s.inIntake 0 (field e.raw 16 8) (field e.raw 24 4) = true → field e.raw 24 4 ≠ 0 →
      (s.host.areas.find? fun x => x.2.base == field e.raw 32 8 && x.2.length == field e.raw 40 8 && !x.2.release && x.2.owner == 0) =
        some x →
      Runs .registerKeyset s fun t => (∃ r' : Registration, t.host.registration = some r' ∧ r'.fn = e.fn ∧ r'.tag = e.tag ∧
          r'.manifest = field e.raw 16 8 ∧ r'.manifestLen = field e.raw 24 4 ∧ r'.region = field e.raw 32 8 ∧
          r'.regionLen = field e.raw 40 8 ∧ r'.areaNo = x.1 ∧ r'.seq = e.seq) ∧
        (.registration, field e.raw 16 8, field e.raw 24 4) ∈ t.host.locks ∧ t.mem = s.mem) ∧
    (s.host.registration = some r →
      (∀ st, s.keySetVerdict r = .fail st → Runs .keysetCommit s fun t => t.work = s.work ∧ t.host.registration = none ∧
        Completed s t r.fn 5 st ∧ (∀ l ∈ t.host.locks, l.1 ≠ .registration) ∧ t.mem = s.mem) ∧
      (∀ slot, s.keySetVerdict r = .same slot → Runs .keysetCommit s fun t => t.work = s.work ∧ t.host.registration = none ∧
        Completed s t r.fn 5 0 ∧ t.mem = s.mem) ∧
      (∀ slot k, s.keySetVerdict r = .commit slot k → Runs .keysetCommit s fun t => t.work.keySets.find slot = some k ∧
        t.host.registration = none ∧ t.host.areas.find r.areaNo = none ∧ Completed s t r.fn 5 0 ∧ t.mem = s.mem)) ∧
    (∀ k, s.visibleEntry (fun e => e.type == 5 && e.sub == 2) = some e → s.work.keySets.find (field e.raw 9 1) = some k →
      (s.keySetInUse k = false → Runs .removeKeyset s fun t => t.work.keySets.find (field e.raw 9 1) = none ∧ Completed s t e.fn 5 0) ∧
      (s.keySetInUse k = true → Runs .removeKeyset s fun t => t.work = s.work ∧ t.mem = s.mem ∧ Completed s t e.fn 5 0x0F))

/-- ENCODE takes one entry into the management cores; its end frees them and stores the packed plaintext, or, where an input is
refused, completes with ENCODE_INPUT (0x55) and stores nothing. A backlog drains in order into an open ring. -/
def Obligations.EncodeAndBacklog : Prop :=
  ∀ (s : State) (e : Entry) (fn : Fin 17) (b : BacklogItem), s.defined →
    let inp := field e.raw 16 8
    let out := field e.raw 24 8
    let level := field e.raw 33 1
    let sc := signedOf 8 (field e.raw 34 1)
    let h := s.mem.fetch inp 256
    let len := 256 + tensorCount h * tensorWidth (field h 2 1)
    let fits := fun (k : KeySet) (r : ResidueSet) => k.scheme = 1 ∧ 1 ≤ level ∧ level ≤ r.ordinary.length ∧ -32 ≤ sc ∧ sc ≤ 63 ∧
      inp % 256 = 0 ∧ out % 256 = 0 ∧ tensorOk h = true ∧ s.inIntake 0 inp len = true ∧ tensorSlots h ≤ 2 ^ r.log2n / 2 ∧
      ((s.areaOf out (256 + level * 4 * 2 ^ r.log2n)).any fun a => a.2.owner == 0) = true
    (s.host.encode = none → s.visibleEntry (fun e => e.type == 5 && e.sub == 8) = some e →
      Runs .encode s fun t => t.host.encode = some e ∧ t.mem = s.mem ∧ t.work = s.work) ∧
    (s.host.encode = some e → (∀ k r, s.keySet? (field e.raw 40 8) = some k → k.rsets[field e.raw 32 1]? = some r → ¬ fits k r) →
      Runs .encodeComplete s fun t => t.host.encode = none ∧ Completed s t e.fn 5 0x55 ∧ t.mem = s.mem) ∧
    (∀ k r, s.host.encode = some e → s.keySet? (field e.raw 40 8) = some k → k.rsets[field e.raw 32 1]? = some r → fits k r →
      Runs .encodeComplete s fun t => t.host.encode = none ∧ Completed s t e.fn 5 0 ∧
        t.mem = s.mem.store out (encodeObject k (field e.raw 32 1) level sc (s.mem.fetch inp len))) ∧
    (s.work.unsigned = [] → s.work.noticesDue = [] → (s.func fn).rqBacklog = [] → (s.func fn).cqBacklog = [b] →
      (s.func fn).cq.enabled = true → s.canSend fn = true → 0 < (s.func fn).cq.space 6 16 →
      Runs (.backlogDrain fn) s fun t => (t.func fn).cqBacklog = [] ∧ (t.func fn).seq = (s.func fn).seq + 1 ∧ t.mem = s.mem)

/-! ### The host attachment (R306 to R311, R314, R327 to R330, R333, R357) -/

/-- BAR2: a write stores the bytes the function may write and nothing else, a read answers the bytes it may read and ones for
every other, and what the window refuses without an IDE stream that is required is counted. -/
def Obligations.WindowMovesAllowedBytes : Prop :=
  ∀ (s : State) (fn : Fin 17) (o : BitVec 36) (data : List Byte) (len : Nat) (on : Bool), s.defined → s.hostOpen = true →
    let a := (s.bar2Addr fn o.toNat).1
    let inside := fun i => (s.bar2Addr fn (o.toNat + i)).2
    (s.ideRequired = true → on = false → Runs (.bar2Write fn o data on) s fun t => t = { s with host := t.host } ∧
      t.func fn = { s.func fn with accessRefused := satInc (s.func fn).accessRefused }) ∧
    (s.ideRequired = false ∨ on = true → Runs (.bar2Write fn o data on) s fun t =>
      (∀ i b, s.Inv → data[i]? = some b → inside i = true → s.byteAllowed fn true (a + i) = true → s.mem.linePoisoned (a + i) = false →
        t.mem.read (a + i) = b) ∧
      (∀ x, s.byteAllowed fn true x = false ∨ x < a ∨ a + data.length ≤ x → t.mem.read x = s.mem.read x) ∧
      t = { s with host := t.host, mem := t.mem }) ∧
    Runs (.bar2Read fn o len on) s (fun t => t.mem = s.mem ∧ t.host.lastRead.length = len ∧
      ∀ i, i < len → t.host.lastRead[i]? = some (if (!s.ideRequired || on) && inside i && s.byteAllowed fn false (a + i) &&
        !s.mem.linePoisoned (a + i) then s.mem.read (a + i) else 0xFF))

/-- Configuration requests are told to retry before host-ready and while tripped or halted; a function-level reset cancels the
function's jobs without a completion, discards its entries in the FIFO and its job entries, dooms its areas and clears its event block, and keeps memory,
key sets, programs and residency; PE_PERST_N does so for all of them and holds the attachment; D3hot is entered and left. -/
def Obligations.RequestsResetsAndPowerStates : Prop :=
  ∀ (s : State) (fn : Fin 17) (vf : Fin 16) (acc : ConfigAccess), s.defined → s.Inv →
    let fresh := fun (t : State) (f : Fin 17) =>
      (t.func f).evPending = 0 ∧ (t.func f).evActive = 0 ∧ (t.func f).cq.enabled = false ∧ (t.func f).rq.enabled = false ∧
      (t.func f).seq = 0 ∧ (t.func f).d3hot = false ∧ (t.func f).quota = (s.func f).quota ∧ (∀ e ∈ t.host.fifo, e.fn ≠ f.val) ∧
      (∀ e ∈ t.host.visible, e.fn = f.val → e.type ≠ 3) ∧
      (∀ n a, t.host.areas.find n = some a → a.owner = f.val → a.doomed = true) ∧
      (∀ id j, s.job? id = some j → j.fn = f.val → ∃ j', t.job? id = some j' ∧ j'.silent = true ∧
        (j'.phase = .finished ∨ j'.phase = .fencedTerminate))
    let kept := fun (t : State) => t.mem = s.mem ∧ t.work.keySets = s.work.keySets ∧ t.work.programs = s.work.programs ∧
      t.groups = s.groups ∧ t.clusters = s.clusters ∧ t.rings = s.rings
    (s.host.pcieHeld = false → s.rst.hostReady = false ∨ s.rst.tripped = true ∨ s.rst.halted = true →
      Runs (.configRequest fn acc) s fun t => t.func fn = { s.func fn with cfgRetry := true } ∧ t = { s with host := t.host }) ∧
    (s.host.pcieHeld = false → s.beating = true → Runs (.configRequest fn acc) s fun t =>
      (t.func fn).cfgRetry = false ∧ t = { s with host := t.host, free := t.free }) ∧
    (s.hostOpen = true → Runs (.vfFunctionLevelReset vf) s fun t => fresh t ⟨vf + 1, by omega⟩ ∧ kept t ∧
      ∀ g : Fin 17, g.val ≠ vf + 1 → t.func g = s.func g) ∧
    (s.hostOpen = true → Runs .pfFunctionLevelReset s fun t => kept t ∧ ∀ f, fresh t f) ∧
    Runs (.pePerstN true) s (fun t => kept t ∧ t.host.pcieHeld = true ∧ ∀ f, fresh t f) ∧
    Runs (.pePerstN false) s (fun t => kept t ∧ t.host.pcieHeld = false ∧ t.work = s.work) ∧
    (s.hostOpen = true → Runs (.d3hotEntry fn) s fun t => t.func fn = { s.func fn with d3hot := true } ∧ t = { s with host := t.host }) ∧
    (s.hostOpen = true → Runs (.d0Return fn) s fun t => (t.func fn).d3hot = false ∧ t.mem = s.mem ∧ t.work.jobs = s.work.jobs)

/-- The event controller: a source fires pending, is taken once while it is unmasked and not active, and is completed before it is
taken again; a completion of a source that is not active is counted; a mask write takes what it lets through; unmasking a
vector sends its waiting message. -/
def Obligations.EventsAreTakenOnce : Prop :=
  ∀ (s : State) (fn : Fin 17) (src : Fin 10) (v : Word64) (vec : Fin 64), s.defined →
    let f := s.func fn
    let n := if fn.val = 0 then 10 else 4
    (src.val < n → Runs (.eventSourceFire fn src) s fun t =>
      t.func fn = { f with evPending := setBit f.evPending src } ∧ t = { s with host := t.host }) ∧
    (src.val < n → f.evPending.getLsbD src = true → f.evMask.getLsbD src = false → f.evActive.getLsbD src = false →
      Runs (.eventTaken fn src) s fun t => (t.func fn).evPending = clearBit f.evPending src ∧
        (t.func fn).evActive = setBit f.evActive src ∧ t = { s with host := t.host }) ∧
    (n ≤ src.val ∨ f.evPending.getLsbD src = false ∨ f.evMask.getLsbD src = true ∨ f.evActive.getLsbD src = true →
      exec (.eventTaken fn src) s = .next s) ∧
    (s.hostOpen = true → Runs (.evSet fn v .full) s fun t => t = { s with host := t.host } ∧
      ∀ i, i < n → (t.func fn).evPending.getLsbD i = (f.evPending.getLsbD i || v.getLsbD i)) ∧
    (s.hostOpen = true → Runs (.evComplete fn v .full) s fun t => t = { s with host := t.host } ∧
      (∀ i, i < n → (t.func fn).evActive.getLsbD i =
        (f.evActive.getLsbD i && (!v.getLsbD i || (f.evPending.getLsbD i && !f.evMask.getLsbD i)))) ∧
      ((∃ i, i < n ∧ v.getLsbD i = true ∧ f.evActive.getLsbD i = false) → f.evStray.toNat + 1 < 2 ^ 32 → f.evStray < (t.func fn).evStray)) ∧
    (s.hostOpen = true → Runs (.evMaskWrite fn v .full) s fun t => t = { s with host := t.host } ∧
      ∀ i, i < n → (t.func fn).evMask.getLsbD i = v.getLsbD i ∧
        (t.func fn).evActive.getLsbD i = (f.evActive.getLsbD i || (f.evPending.getLsbD i && !v.getLsbD i))) ∧
    (s.hostOpen = true → Runs (.msixVectorUnmask fn vec) s fun t => (t.func fn).msixMask = clearBit f.msixMask vec ∧
      (s.canSend fn = true → (t.func fn).msixPending.getLsbD vec = false) ∧ t = { s with host := t.host })

/-- Host register writes: enabling a ring empties it; sticky bits are cleared by ones; the log tail moves up to the head and no
further; a ring's BASE is taken while it is disabled only; a write at a row's own offset is that row, one where no block
decodes changes nothing; an IDE key message takes 32 DRBG bytes. -/
def Obligations.HostRegistersTakeWrites : Prop :=
  ∀ (s : State) (fn : Fin 17) (rq : Bool) (v : Word64) (w : AccessWidth) (tail : Word32) (o : BitVec 26) (str : BitVec 8), s.defined →
    s.hostOpen = true →
    let ring := fun (x : State) => if rq then (x.func fn).rq else (x.func fn).cq
    let f := s.faults
    (v.getLsbD 8 = true → (ring s).enabled = false → Runs (.ringEnable fn rq v) s fun t =>
      (ring t).enabled = true ∧ (ring t).head = 0 ∧ (ring t).tail = 0 ∧ (ring t).phase = true ∧ (ring t).base = (ring s).base ∧
      t = { s with host := t.host }) ∧
    (v.getLsbD 8 = false → Runs (.ringEnable fn rq v) s fun t => (ring t).enabled = false ∧ (ring t).tail = (ring s).tail ∧
      t = { s with host := t.host }) ∧
    Runs (.stickyClear 0 v .full) s (fun t => t = { s with faults := t.faults } ∧ t.faults.stickyIo = f.stickyIo ∧
      ∀ i, i < 68 → t.faults.stickyGroups.getLsbD i = (f.stickyGroups.getLsbD i && !(decide (i < 64) && v.getLsbD i))) ∧
    Runs (.stickyClear 1 v .full) s (fun t => t = { s with faults := t.faults } ∧ t.faults.stickyIo = f.stickyIo ∧
      ∀ i, i < 68 → t.faults.stickyGroups.getLsbD i = (f.stickyGroups.getLsbD i && !(decide (64 ≤ i) && v.getLsbD (i - 64)))) ∧
    (∀ r : Fin 3, w ≠ .full → exec (.stickyClear r v w) s = .next s) ∧
    Runs (.stickyClear 2 v .full) s (fun t => t = { s with faults := t.faults } ∧ t.faults.stickyGroups = f.stickyGroups ∧
      (∀ i, i < 4 → t.faults.stickyMsd.getLsbD i = (f.stickyMsd.getLsbD i && !v.getLsbD i)) ∧
      ∀ i, i < 10 → t.faults.stickyIo.getLsbD i = (f.stickyIo.getLsbD i && !v.getLsbD (8 + i))) ∧
    ((f.logHead - tail).toNat ≤ (f.logHead - f.logTail).toNat →
      exec (.logTailWrite tail) s = .next { s with faults := { f with logTail := tail } }) ∧
    ((f.logHead - f.logTail).toNat < (f.logHead - tail).toNat → exec (.logTailWrite tail) s = .next s) ∧
    (Runs (.registerWrite fn 0x30000 v .full) s fun t =>
      (t.func fn).cq.base = (if (s.func fn).cq.enabled then (s.func fn).cq.base else v &&& 0xFFFFFFFFFFFFF000) ∧
      t = { s with host := t.host }) ∧
    exec (.registerWrite fn 0x40018 v w) s = exec (.evSet fn v w) s ∧
    exec (.registerWrite 0 0x60000 v w) s = exec (.hostStep v w) s ∧
    exec (.registerWrite 0 0xC1000 v w) s = exec (.injectionArm v w) s ∧
    (0xD0000 ≤ o.toNat → exec (.registerWrite fn o v w) s = .next s) ∧
    (s.sec.drbgOk = true → Runs (.ideKm fn str) s fun t => t.sec.drbgPos = s.sec.drbgPos + 32 ∧
      ((s.func fn).streams.length < (if fn.val = 0 then 8 else 1) → str ∈ (t.func fn).streams) ∧
      t = { s with host := t.host, sec := t.sec }) ∧
    (s.sec.drbgOk = false → Runs (.ideKm fn str) s fun t => t.sec = { s.sec with drbgOk := !s.sec.drbgLocked } ∧ t = { s with sec := t.sec })

/-! ### The memory system (R91, R250, R253, R254, R256, R258) -/

/-- A line corrected again after its write-back fails its row; a failed row takes a spare of its pseudo-channel, or retires its pages
when none is left; the patrol moves on and counts a pass at its wrap; a repaired extent waits no more; the thermal coupling
asks for its cap, acts once the cap is in effect, and lifts it after 9,155 cool beats. -/
def Obligations.MemoryRepairsItself : Prop :=
  ∀ (s : State) (addr : DevAddr) (n : Fin 8) (pc : Fin 32) (row : BitVec 20) (f : ScrubFind) (x : BitVec 9) (d : Fin 4)
    (temp : BitVec 10), s.defined → s.hbmUp = true →
    let due : RemapDue := { stack := n, pc := pc, row := row.toNat }
    let k := s.stack n
    (addr.toNat < hbmSize →
      Runs (.lineWriteback addr false) s (fun t => t.memSys.failedRows = s.memSys.failedRows ∧ t.mem = s.mem ∧
        (∀ l ∈ t.memSys.writebacks, l ≠ addr.toNat / 64 * 64) ∧ t = { s with memSys := t.memSys, ledger := t.ledger }) ∧
      Runs (.lineWriteback addr true) s (fun t => t.mem = s.mem ∧ t = { s with memSys := t.memSys, ledger := t.ledger } ∧
        { stack := hbmStack addr.toNat, pc := hbmChannel addr.toNat, row := hbmLine addr.toNat / 16 } ∈ t.memSys.failedRows)) ∧
    (due ∈ s.memSys.failedRows → s.ledger.room 4 = true → s.beating = false ∨ 60928 ≤ s.cycle.toNat →
      s.memSys.migrating ≠ some (32 * n.val + pc.val) → k.remap.find (rowKey pc row.toNat) = none → k.remap.length < 2048 →
      (k.sparesUsed.at pc 0 < 64 → Runs (.rowRemap n pc row) s fun t =>
        (t.stack n).remap.find (rowKey pc row.toNat) = some (k.sparesUsed.at pc 0) ∧
        (t.stack n).sparesUsed.at pc 0 = k.sparesUsed.at pc 0 + 1 ∧ due ∉ t.memSys.failedRows ∧ t.mem = s.mem) ∧
      (64 ≤ k.sparesUsed.at pc 0 → Runs (.rowRemap n pc row) s fun t =>
        (∀ a ∈ rowPages n pc row.toNat, a ∈ t.memSys.retiredPages) ∧ due ∉ t.memSys.failedRows ∧ t.mem = s.mem)) ∧
    (s.memSys.patrolEn = true → s.memSys.patrolPos.toNat < hbmSize →
      Runs (.patrolScrub []) s (fun t => t.mem = s.mem ∧ t = { s with memSys := t.memSys } ∧
        (s.memSys.patrolPos.toNat / 64 * 64 + 64 < hbmSize → t.memSys.patrolPos.toNat = s.memSys.patrolPos.toNat / 64 * 64 + 64 ∧
          t.memSys.passes = s.memSys.passes) ∧
        (hbmSize ≤ s.memSys.patrolPos.toNat / 64 * 64 + 64 → t.memSys.patrolPos = 0 ∧ t.memSys.passes = satInc s.memSys.passes)) ∧
      (f.addr.toNat < hbmSize → f.uncorrectable = true → s.mem.linePoisoned f.addr.toNat = false → Runs (.patrolScrub [f]) s fun t =>
        t.mem.linePoisoned f.addr.toNat = true ∧ t.faults.wires.length = s.faults.wires.length + 1 ∧
        { stack := hbmStack f.addr.toNat, pc := hbmChannel f.addr.toNat, row := hbmLine f.addr.toNat / 16 } ∈ t.memSys.failedRows)) ∧
    ((∃ e ∈ s.work.kcDir, x.toNat ∈ e.repairing) → Runs (.kcExtentRepair x) s fun t =>
      (∀ e ∈ t.work.kcDir, x.toNat ∉ e.repairing) ∧ t.work.kcDir.length = s.work.kcDir.length ∧ t = { s with mem := t.mem, work := t.work }) ∧
    (s.rst.hostReady = true → 332 ≤ temp.toInt → Runs (.stackTemperatureTrigger (BitVec.ofNat 6 (42 + n.val)) temp) s fun t =>
      (t.stack n).capAsked = true ∧ (t.stack n).temp = temp ∧ t.power.permit 1 = 2 ∧ t.mem = s.mem) ∧
    (k.capAsked = true → 340 ≤ k.temp.toInt → s.power.pending = none → 2 ≤ s.power.stepCode.toNat →
      Runs (.doubledRefreshEntry n) s fun t => t.stack n = { k with doubledRefresh := true } ∧ t = { s with memSys := t.memSys }) ∧
    ((s.die d).capAsked = true → 400 ≤ (s.die d).temp.toInt → s.power.pending = none → 3 ≤ s.power.stepCode.toNat →
      Runs (.memoryClockSlow d) s fun t => t.die d = { s.die d with slowClock := true } ∧ t = { s with memSys := t.memSys }) ∧
    (s.beating = true → (∀ i : Fin 8, (s.stack i).capAsked = true ∧ (s.stack i).doubledRefresh = false ∧ (s.stack i).temp.toInt < 320 ∧
        (s.stack i).coolSince + 9155 ≤ s.beat.toNat) →
      Runs .couplingCapLift s fun t => (∀ i : Fin 8, (t.stack i).capAsked = false) ∧ t.power.permit 1 = 0 ∧ t.mem = s.mem)

/-! ### Clock, voltage and power (R411, R412, R415, R416, R419, R420, R422) -/

/-- An announced change switches at its cycle; a confirmed voltage announces the step up that waited for it; an abandoned one is
retried after 1,024 beats; each cause moves its permitted step as its rule says. -/
def Obligations.ClockFollowsItsCauses : Prop :=
  ∀ (s : State) (mv : BitVec 10) (amps watts : BitVec 11) (v : Word64) (rail : Fin 9) (r : BitVec 12), s.defined →
    let p := s.power
    let b := s.beat.toNat
    (∀ c code, p.pending = some (c, code) → p.later = none → s.rst.tripped = false → code < 8 → s.beating = false ∨ c / 65536 ≤ b →
      Runs .stepSwitch s fun t => t.power.stepCode.toNat = code ∧ t.power.pending = none ∧
        t.power.stepChanges = satInc p.stepChanges ∧ t.mem = s.mem) ∧
    (∀ code, 7 ≤ s.rst.released → s.rst.tripped = false → s.rst.halted = false → p.awaitingVoltage = some code → p.pending = none →
      amps.toNat ≤ 1450 → mv = p.vddcRequest → Runs (.avsVoltageConfirm mv amps) s fun t =>
        t.power.pending = some (b * 65536 + s.cycle.toNat + 64, code) ∧ t.power.awaitingVoltage = none ∧ t.power.vddcMv = mv ∧
        t.power.vddcAmps = amps ∧ t = { s with power := t.power }) ∧
    (p.awaitingVoltage ≠ none → Runs .stepUpAbandoned s fun t => t.power.awaitingVoltage = none ∧ t.power.retryAt = b + 1024 ∧
      t.power.stepUpAbandoned = satInc p.stepUpAbandoned ∧ t.power.stepCode = p.stepCode ∧ t = { s with power := t.power }) ∧
    (s.beating = true → p.retryAt ≠ 0 → p.retryAt ≤ b → s.mode.linked = false → p.ownStep < p.decided → Runs .stepUpRetry s fun t =>
      t.power.awaitingVoltage = some p.ownStep ∧ t.power.retryAt = 0 ∧ t = { s with power := t.power }) ∧
    (s.beating = true → p.permit 0 ≠ 0 → p.coolSince + 9155 ≤ b → Runs .junctionStepUp s fun t =>
      t.power.permit 0 = p.permit 0 - 1 ∧ t.power.coolSince = b ∧ t.mem = s.mem) ∧
    (s.beating = true → s.mode.capped = true → s.cfgNum 0x0122 < watts.toNat + 506 → Runs (.cappedEvaluation watts) s fun t =>
      t.power.permit 3 = min 6 (p.permit 3 + 1) ∧ t.power.pkgPower.toNat = min 2047 (watts.toNat + 506) ∧ t.mem = s.mem) ∧
    (s.beating = true → p.permit 4 ≠ 0 → p.currentSince + 1024 ≤ b → Runs .vddCCurrentLift s fun t =>
      t.power.permit 4 = 0 ∧ t.mem = s.mem) ∧
    (s.hostOpen = true → Runs (.hostStep v .full) s fun t => t.power.hostStep.toNat = v.toNat / 8 % 8 ∧
      t.power.permit 6 = min 6 (v.toNat / 8 % 8) ∧ t.mem = s.mem) ∧
    (s.rst.released ≠ 0 → s.rst.tripped = false → railExcursion r.toNat (s.railNominal rail) = true → Runs (.railRange rail r) s fun t =>
      t.power.railExcursions.at rail 0 = satInc (p.railExcursions.at rail 0) ∧
      (∃ w, t.faults.wires = s.faults.wires ++ [w] ∧ w.word.toNat / 2 ^ 20 % 256 = 0x83) ∧ t.mem = s.mem)

/-! ### Reset, release and halt (R303, R422 to R428, R430, R463) -/

/-- Every reset source returns the device to its reset state with the source's cause; while tripped only power-on and RESET_N do, and
RESET_N is held back while a logic die is hot or THERM_TRIP_N is low. SW_RESET takes its key; a trip powers down all but the
kept domains. -/
def Obligations.ResetsReturnTheDevice : Prop :=
  ∀ (s : State) (v : Word64) (w : AccessWidth) (sensor : BitVec 6),
    let back := fun (i : Instr) (c : BitVec 4) => Runs i s fun t => AsReset s t c ∧ t.flash = s.flash
    back .powerOnReset 0 ∧
    (s.rst.tripped = false → back .brownOutReset 1 ∧ back .clockFailure 6 ∧ back .lockUp 7 ∧
      (4 ≤ s.rst.released → Runs .watchdog s fun t => AsReset s t 3)) ∧
    (s.rst.tripped = true → exec .brownOutReset s = .next s ∧ exec .clockFailure s = .next s ∧ exec .lockUp s = .next s ∧
      exec .watchdog s = .next s) ∧
    (s.rst.released < 4 → exec .watchdog s = .next s) ∧
    (s.resetHeld = false → back .resetN 2) ∧
    (s.resetHeld = true → Runs .resetN s fun t => t.rst = { s.rst with heldReset := true } ∧ t = { s with rst := t.rst, pins := t.pins }) ∧
    (s.rst.heldReset = true → Runs .heldResetRelease s fun t => t.rst = { State.reset.rst with rstCause := 2 } ∧ t.mem = State.reset.mem ∧
      t.fuses = s.fuses ∧ t.flash = s.flash ∧ t.pins.active.getLsbD 4 = false) ∧
    (s.rst.heldReset = false → exec .heldResetRelease s = .next s) ∧
    (s.hostOpen = true → s.rst.tripped = false → v.toNat / 2 ^ 48 = 0xA5C3 → v.getLsbD 0 = true →
      Runs (.swReset v .full) s fun t => AsReset s t 4) ∧
    (v.toNat / 2 ^ 48 ≠ 0xA5C3 ∨ w ≠ .full ∨ v.getLsbD 0 = false → exec (.swReset v w) s = .next s) ∧
    (s.defined → s.rst.tripped = false → Runs (.thermalTrip sensor) s fun t => t.rst.tripped = true ∧ t.rst.tripSensor = sensor ∧
      t.rst.thermTripN = false ∧ t.mem = s.mem ∧ t.fuses = s.fuses ∧
      ∀ d, d < 190 → t.rst.domains.getLsbD d = (s.rst.domains.getLsbD d && [168, 186, 187, 188, 189].contains d)) ∧
    (s.defined → s.rst.tripped = true → exec (.thermalTrip sensor) s = .next s)

/-- The release order goes step by step and only switches domains on; host-ready starts the beat count at 0; a halt is asked for by
the pin or by its keyed write, ends every job as cancelled at a boundary, and powers down once all is written or at its
limit. -/
def Obligations.ReleaseAndOrderlyHalt : Prop :=
  ∀ (s : State) (o : ReleaseObs) (v : Word64), s.defined →
    let r := s.rst
    (r.tripped = false → r.heldReset = false → r.hostReady = false → r.released < 8 → Runs (.releaseStep o) s fun t =>
      t.rst.released = r.released + 1 ∧ t.rst.hostReady = false ∧ (∀ d, r.domains.getLsbD d = true → t.rst.domains.getLsbD d = true) ∧
      (r.released = 0 → t.rst.domains.getLsbD 186 = true ∧ t.rst.domains.getLsbD 189 = true ∧
        t.rst.strap.toNat = (15 - strapMedian o.strapCodes / 16) % 16) ∧
      (r.released = 2 → t.rst.domains.getLsbD 168 = true) ∧
      (r.released = 3 → t.sec.drbgOk = true ∧ t.cfg.active ≠ none)) ∧
    (r.tripped = false → r.heldReset = false → r.hostReady = false → 8 ≤ r.released → Runs .hostReady s fun t =>
      t.rst.hostReady = true ∧ t.beat = 0 ∧ t.cycle = 0 ∧ t.rst.haltPending = s.pins.active.getLsbD 2 ∧ t.mem = s.mem ∧
      t.mode.sealedTrust = (!s.fuses.sealDisabled && s.cfg.policyOk)) ∧
    (s.beating = true → Runs .haltReqN s fun t => t.rst = { r with haltPending := true } ∧ t.pins.active.getLsbD 2 = true ∧
      t = { s with rst := t.rst, pins := t.pins }) ∧
    (s.beating = true → s.hostOpen = true → v.toNat / 2 ^ 48 = 0xA5C3 → v.getLsbD 1 = true →
      exec (.halt v .full) s = .next { s with rst := { r with haltPending := true } }) ∧
    (r.haltPending = true → r.tripped = false → r.halted = false → r.haltStarted = false → s.cycle = 0 → s.Inv →
      Runs .orderlyHalt s fun t => t.rst.haltStarted = true ∧ t.rst.halted = false ∧ t.mem = s.mem ∧
        ∀ id j, s.job? id = some j → j.held = true → ∃ j', t.job? id = some j' ∧ j'.phase = .fencedTerminate ∧ j'.cancelled = true) ∧
    (r.haltPending = true → r.tripped = false → r.halted = false → r.haltStarted = true → s.drained = true →
      Runs .orderlyHalt s fun t => t.rst.halted = true ∧ t.rst.haltPending = false ∧ t.mem = s.mem ∧
        t.rst.domains = r.domains &&& keptDomains) ∧
    (r.haltPending = true → r.tripped = false → r.halted = false → r.haltStarted = true → Runs .haltDrainLimit s fun t =>
      t.rst.halted = true ∧ t.rst.haltPending = false ∧ t.mem = s.mem ∧ t.rst.domains = r.domains &&& keptDomains)

/-! ### Pins (R350, R421, R439, R453, R462, R463) -/

/-- The coolant alarm holds the clock at 400 MHz while active, forces CAPPED after 1 s and ends the forcing after 10 s; a glitch is
counted and ignored, a racing input becomes active until its episode ends; BEAT_IN numbers the beats; TRST_N resets the TAP. -/
def Obligations.PinsAct : Prop :=
  ∀ (s : State) (p : Fin 7) (wd : Nat), s.defined →
    let a := s.pins.active
    (a.getLsbD 3 = false → Runs (.coolAlarmN true) s fun t => t.pins.active = setBit a 3 ∧ t.power.permit 5 = 4 ∧
      t.pins.sbAlert.getLsbD 2 = true ∧ t.mem = s.mem) ∧
    (a.getLsbD 3 = true → s.isRacing 3 = false → Runs (.coolAlarmN false) s fun t => t.pins.active = clearBit a 3 ∧
      t.power.permit 5 = 0 ∧ t.mem = s.mem) ∧
    (a.getLsbD 3 = true → exec (.coolAlarmN true) s = .next s) ∧
    (a.getLsbD 3 = true → s.pins.coolForcing = false → s.pins.forcingNext = none →
      exec .coolAlarmStuck s = .next { s with pins := { s.pins with forcingNext := some true } }) ∧
    (s.pins.coolForcing = true → a.getLsbD 3 = false →
      exec .coolForcingEnd s = .next { s with pins := { s.pins with coolForcing := false, forcingNext := some false } }) ∧
    (∃ g, exec (.inputGlitch p false) s = .next { s with pins := { s.pins with glitches := g } } ∧ g.at p 0 = satInc (s.pins.glitches.at p 0) ∧
      ∀ q, q ≠ p.val → g.at q 0 = s.pins.glitches.at q 0) ∧
    (s.isRacing p = false → Runs (.inputGlitch p true) s fun t => t.pins.racing.getLsbD p = true ∧
      (p.val ≠ 4 → p.val ≠ 5 → t.pins.active.getLsbD p = true)) ∧
    (s.isRacing p = true → exec (.inputGlitch p true) s = .next s) ∧
    (s.isRacing p = true → Runs (.inputRacingEnd p) s fun t => t.pins.racing.getLsbD p = false ∧ t.pins.active.getLsbD p = false ∧
      t.mem = s.mem) ∧
    (s.beating = true → s.link.beatInUsed = true →
      (wd = 64 ∨ wd = 128 → s.pins.beatInWidths.length < 64 → Runs (.beatIn (.pulse wd)) s fun t =>
        t.pins.beatInWidths = s.pins.beatInWidths ++ [wd] ∧ t.beat = s.beat ∧
        t.cycle = BitVec.ofNat 16 (wd + 65536 - s.cfgNum 0x0104) ∧ t.mem = s.mem) ∧
      (groupOk (s.pins.beatInWidths ++ [192]) = true → Runs (.beatIn (.pulse 192)) s fun t => t.pins.beatInWidths = [] ∧
        t.beat = BitVec.ofNat 48 (groupNumber (s.pins.beatInWidths ++ [192]) + 63) ∧ t.mem = s.mem) ∧
      Runs (.beatIn .lost) s (fun t => t.pins.beatInWidths = [] ∧ t.beat = s.beat ∧ t.cycle = s.cycle ∧ t.mem = s.mem)) ∧
    Runs .trstN s (fun t => t.pins.active = setBit a 6 ∧ t.test.tapInstr = 0x02 ∧ t = { s with pins := t.pins, test := t.test })

/-- R421: while COOL_ALARM_N is active, cause 5 holds the step at or below 400 MHz, whatever step the machine takes; COOL_ALARM is
recorded at each activation (in a full log it is counted lost). -/
def Obligations.CoolAlarmHoldsTheStep : Prop :=
  (∀ s t : State, s.CoolHeld → step s = .next t → t.CoolHeld) ∧
  (∀ s : State, s.defined → s.pins.active.getLsbD 3 = false → s.isRacing 3 = false →
    ∀ i ∈ [Instr.coolAlarmN true, Instr.inputGlitch 3 true], Runs i s fun t => t.CoolHeld ∧
    t.pins.active.getLsbD 3 = true ∧
    (s.faults.logCount ≠ 4096 → t.faults.logHead = s.faults.logHead + 1 ∧
      ∃ w, t.faults.log.find (s.faults.logHead.toNat % 4096) = some w ∧ recKind w = 0x82) ∧
    (s.faults.logCount = 4096 → t.faults.logHead = s.faults.logHead ∧ t.faults.logLost = satInc s.faults.logLost))

/-! ### Blocks and groups (R4, R219, R407, R408, R429) -/

/-- A block asked to go idle is reset and filled at its report, and is counted and escalated at its timeout; a group due for retirement
loses its fuse slot, residency and power, unless no slot is left; a spare is put into use after its proof, or retired. -/
def Obligations.BlocksAndGroupsAreReplaced : Prop :=
  ∀ (s : State) (d : BitVec 8) (p : Fin 68) (ok : Bool), s.defined →
    let g := s.group p
    (d.toNat ∈ s.rst.idleAsked → Runs (.blockIdleReport d) s fun t => d.toNat ∉ t.rst.idleAsked ∧
      t.rst.blockResets = satInc s.rst.blockResets ∧ t.faults = s.faults ∧
      (d.toNat = 2 * p.val → ∀ c, c < 32 → t.cluster (32 * p + c) = {} ∧
        (g.residency = .none → ∀ a, inRange (0x300000000000 + (32 * p.val + c) * 0x100000) 0x100000 a = true → t.mem.read a = 0xFF))) ∧
    (d.toNat ∈ s.rst.idleAsked → Runs (.blockIdle d) s fun t => d.toNat ∉ t.rst.idleAsked ∧
      t.rst.blockTimeouts = satInc s.rst.blockTimeouts ∧
      ∃ w, t.faults.wires = s.faults.wires ++ [w] ∧ w.word.toNat / 2 ^ 20 % 256 = 0x25) ∧
    (d.toNat ∉ s.rst.idleAsked → exec (.blockIdleReport d) s = .next s ∧ exec (.blockIdle d) s = .next s) ∧
    (s.beating = true → s.cycle = 0 → g.role = .usable ∨ g.role = .spare → g.retireDue = true →
      (s.fuses.retired.length < 16 → s.ledger.room 2 = true → Runs (.groupRetirement p) s fun t =>
        t.fuses.retired = s.fuses.retired ++ [p.val] ∧ (t.group p).role = .retired ∧ (t.group p).residency = .none ∧
        t.rst.domains.getLsbD (2 * p) = false ∧ t.rst.domains.getLsbD (2 * p + 1) = false ∧ t.mem = s.mem) ∧
      (16 ≤ s.fuses.retired.length → Runs (.groupRetirement p) s fun t => t.fuses = s.fuses ∧ (t.group p).role = .failed ∧
        t.mem = s.mem)) ∧
    (s.beating = true → g.proving = true → g.provedFrom + 1024 ≤ s.beat.toNat → Runs (.spareProven p ok) s fun t =>
      (t.group p).proving = false ∧ t.fuses = s.fuses ∧ (∀ c, c < 32 → t.cluster (32 * p + c) = {}) ∧
      (ok = true → (t.group p).role = g.role ∧ (t.group p).retireDue = g.retireDue) ∧
      (ok = false → s.fuses.retired.length < 16 → (t.group p).role = g.role ∧ (t.group p).retireDue = true) ∧
      (ok = false → 16 ≤ s.fuses.retired.length → (t.group p).role = .failed ∧ (t.group p).failed = true))

/-! ### Peer links (R337 to R356, R424) -/

/-- Ports: once the port's reset before it is done, training ends up or failed by its cause; one lane is spared once, at the agreed beat; 4,096 silent slots retrain the port
and fault its jobs; a lost reference takes every port down; a write enables, disables or retrains. -/
def Obligations.LinkPortsTrainAndSpare : Prop :=
  ∀ (s : State) (n : Fin 16) (tr : PortTraining) (lane : Fin 5) (k : Nat) (v : Word64), s.defined →
    let p := s.port n
    let idle := s.rst.idleAsked.contains (169 + n.val) = false
    let admitted := s.mode.sealedTrust = false ∨ tr.peerDigest ∈ chunks 32 64 (s.cfgBytes 0x0003)
    (p.state = 1 → idle → 4 ≤ tr.lanes.length → tr.locked = true → admitted → tr.latency ≤ 88 → Runs (.portTraining n tr) s fun t =>
      (t.port n).state = 2 ∧ (t.port n).peerValid = true ∧ (t.port n).peerPosition = tr.peerPosition ∧ (t.port n).failCause = 0 ∧
      (t.port n).latency.toNat = tr.latency ∧ t.mem = s.mem ∧ t.work = s.work) ∧
    (p.state = 1 → idle → tr.lanes.length < 4 ∨ tr.locked = false → Runs (.portTraining n tr) s fun t =>
      (t.port n).state = 4 ∧ (t.port n).failCause = 1 ∧ t.work = s.work) ∧
    (p.state = 1 → idle → 4 ≤ tr.lanes.length → tr.locked = true → ¬ admitted → Runs (.portTraining n tr) s fun t =>
      (t.port n).state = 4 ∧ (t.port n).failCause = 2 ∧ t.work = s.work) ∧
    (p.state = 1 → idle → 4 ≤ tr.lanes.length → tr.locked = true → admitted → 88 < tr.latency → Runs (.portTraining n tr) s fun t =>
      (t.port n).state = 4 ∧ (t.port n).failCause = 3 ∧ t.work = s.work) ∧
    (p.state ≠ 1 ∨ ¬ idle → exec (.portTraining n tr) s = .next s) ∧
    (p.state = 2 → p.spareUsed = false → p.spareLane ≠ none → p.lanesActive.getLsbD lane = true → s.cfgNum 0x0106 < k →
      Runs (.spareRequest n lane k) s fun t => (t.port n).state = 3 ∧ (t.port n).sparing = some lane.val ∧
        (t.port n).laneRequest = some lane.val ∧ t.mem = s.mem) ∧
    (p.state = 3 → p.swapAt = none → Runs (.spareAcknowledge n) s fun t =>
      t.port n = { p with laneAck := true, swapAt := some (s.beat.toNat + 2) } ∧ t = { s with link := t.link }) ∧
    (∀ old new b, p.state = 3 → p.sparing = some old → p.spareLane = some new → p.swapAt = some b → b ≤ s.beat.toNat →
      Runs (.laneSwap n) s fun t => (t.port n).state = 2 ∧ (t.port n).lanesActive = setBit (clearBit p.lanesActive old) new ∧
        (t.port n).spareUsed = true ∧ (∃ w, t.faults.wires = s.faults.wires ++ [w] ∧ w.word.toNat / 2 ^ 20 % 256 = 0x55) ∧
        t.mem = s.mem) ∧
    (p.isUp = true → p.enabled = true → s.rst.linkReference = true → Runs (.linkKeepalive n) s fun t =>
      (t.port n).state = 1 ∧ (t.port n).retrains = satInc p.retrains ∧
      t.faults.wires.length = s.faults.wires.length + (s.jobsOnPort n).length ∧ t.mem = s.mem) ∧
    Runs .linkReferenceLoss s (fun t => t.rst.linkReference = false ∧ (∀ m : Fin 16, (t.port m).state = 0) ∧ t.mem = s.mem ∧
      t.work = s.work ∧ t.faults = s.faults) ∧
    (s.hostOpen = true → ∀ i ∈ [Instr.portEnable n v .full, Instr.retrain n v .full],
      (p.enabled = false → v.getLsbD 0 = true → v.getLsbD 1 = false → Runs i s fun t => (t.port n).enabled = true ∧
        t.rst.domains.getLsbD (169 + n) = true ∧ (s.rst.linkReference = true → (t.port n).state = 1) ∧ t.mem = s.mem) ∧
      (p.enabled = true → v.getLsbD 0 = false → Runs i s fun t => (t.port n).enabled = false ∧ (t.port n).state = 0 ∧
        t.rst.domains.getLsbD (169 + n) = false ∧ t.mem = s.mem) ∧
      (p.enabled = true → s.rst.linkReference = true → v.getLsbD 0 = true → v.getLsbD 1 = true → Runs i s fun t =>
        (t.port n).state = 1 ∧ (t.port n).retrains = satInc p.retrains ∧ t.mem = s.mem))

/-- Frames: an intact data frame of the plan stores its rows where the message says and nowhere else; an uncorrectable one is counted
and NAKed once; a message is sent in its slot, and only signed in a replay; a NAKed slot goes out again once. -/
def Obligations.LinkFramesCarryMessages : Prop :=
  ∀ (s : State) (n : Fin 16) (slot : BitVec 12) (fr : List Byte) (k : Nat) (x : Planned), s.defined → s.beating = true →
    (s.port n).isUp = true →
    let fs := field fr 2 2 % 4096
    let i := field fr 11 1
    (frameIntact fr = true → field fr 0 1 = 1 → s.messageAt n fs true = some x → field fr 16 8 = x.msg.id → field fr 24 8 = x.key →
      i + x.msg.slot = fs → x.index ∉ (s.run x.id).spoiled → x.job.replays = false →
      Runs (.linkFrameReceive n fr false k) s fun t => t.mem = s.mem.store (s.messageAddr x + 2048 * i) (slice fr 64 2048) ∧
        (t.port n).corrected = satAdd (s.port n).corrected k ∧ t.faults = s.faults ∧ t.clusters = s.clusters) ∧
    (s.messageAt n fs true = some x → fs ≠ x.msg.slot + x.msg.frames + 15 → (s.run x.id).badFrames.at x.index 0 = 0 →
      Runs (.linkFrameReceive n fr true k) s fun t => (t.port n).framesBad = satInc (s.port n).framesBad ∧ (t.port n).nak = some fs ∧
        (t.run x.id).badFrames.at x.index 0 = 1 ∧ t.mem = s.mem ∧ t.faults = s.faults) ∧
    (s.messageAt n fs true = none → Runs (.linkFrameReceive n fr true k) s fun t =>
      (t.port n).framesBad = satInc (s.port n).framesBad ∧ t = { s with link := t.link }) ∧
    (s.messageAt n slot.toNat false = some x → x.msg.slot = slot.toNat → 0 < x.msg.frames →
      (x.job.replays = false → Runs (.linkMessageSend n slot) s fun t => t.mem = s.mem ∧ t.faults = s.faults ∧
        ∃ e ∈ (t.port n).replay, e.1 = x.msg.slot + x.msg.frames - 1 ∧ (t.port n).sent = [e.2]) ∧
      (x.job.replays = true → Runs (.linkMessageSend n slot) s fun t => t.mem = s.mem ∧ t.link = s.link ∧ t.faults = s.faults)) ∧
    (∀ e, (s.port n).peerNak = some slot.toNat → s.messageAt n slot.toNat false = some x →
      ((s.port n).replay.find? fun e => e.1 == slot.toNat) = some e → (s.run x.id).badFrames.at x.index 0 = 0 →
      Runs (.linkRetransmit n slot) s fun t => (t.port n).retransmits = satInc (s.port n).retransmits ∧ (t.port n).peerNak = none ∧
        (t.run x.id).badFrames.at x.index 0 = 1 ∧ t.mem = s.mem ∧ t.faults = s.faults)

/-- The beat domain: a follower's markers count its alignment or lose it; the first intact copy of a control record acts on its job and
is forwarded, a later copy does nothing; a domain step changes at its beat; a LINKED job starts after every member's READY. -/
def Obligations.LinkRecordsActOnce : Prop :=
  ∀ (s : State) (r : ControlRecord) (b : BeatNo) (err : Int) (job : BitVec 16), s.defined → s.beating = true → s.mode.linked = true →
    let l := s.link
    let new := fun (kind : Nat) => r.origin ≠ l.position ∧ ¬ (l.seen.any fun x => x.take 6 == recordName r kind) = true
    let sent := fun (t : State) (kind : Nat) => (r.hops.toNat < 15 → [kind, r.origin.toNat, r.hops.toNat + 1, r.value.toNat, r.beat.toNat,
      r.key.toNat, r.plan.toNat] ∈ t.link.outgoing) ∧ (t.link.seen.any fun x => x.take 6 == recordName r kind) = true ∧ t.mem = s.mem
    (l.position ≠ 0 → (s.port l.upstream.toNat).isUp = true → -2 ≤ err → err ≤ 2 → Runs (.beatMarker true b err) s fun t =>
      t.link.alignRun = l.alignRun + 1 ∧ t.link.aligned = l.aligned ∧ t.faults = s.faults ∧
      t.beat = if l.aligned = false ∧ l.alignRun = 0 then b else s.beat) ∧
    (l.position ≠ 0 → Runs (.beatMarker false b err) s fun t => t.link.aligned = false ∧ t.link.alignRun = 0 ∧
      t.link.alignLosses = satInc l.alignLosses ∧ (∃ w, t.faults.wires = s.faults.wires ++ [w] ∧ w.word.toNat / 2 ^ 20 % 256 = 0x54)) ∧
    (l.position ≠ 0 → 64 ≤ l.alignRun → exec .aligned s = .next { s with link := { l with aligned := true } }) ∧
    (∀ i ∈ [(1, Instr.clear r), (2, Instr.fail r), (3, Instr.ready r), (4, Instr.restart r), (5, Instr.terminate r), (6, Instr.step r)],
      (r.origin = l.position → exec i.2 s = .next s) ∧
      (r.origin ≠ l.position → ¬ new i.1 → Runs i.2 s fun t => t.link = { l with membersNow := setBit l.membersNow r.origin.toNat } ∧
        t = { s with link := t.link })) ∧
    (∀ id j p, s.jobByKey r.key.toNat = some (id, j, p) →
      (new 1 → Runs (.clear r) s fun t => sent t 1 ∧ (r.origin.toNat, r.beat.toNat) ∉ (t.run id).windfall ∧ t.work.jobs = s.work.jobs) ∧
      (new 2 → Runs (.fail r) s fun t => sent t 2 ∧ (t.run id).provisionalFailed = true ∧
        ∃ w, t.faults.wires = s.faults.wires ++ [w] ∧ w.word.toNat / 2 ^ 20 % 256 = 0x53) ∧
      (new 4 → Runs (.restart r) s fun t => sent t 4 ∧ t.work = s.work ∧
        ∃ w, t.faults.wires = s.faults.wires ++ [w] ∧ w.word.toNat / 2 ^ 20 % 256 = 0x53) ∧
      (new 5 → isRefusal r.value.toNat = false → Runs (.terminate r) s fun t => sent t 5 ∧
        ∃ j', t.job? id = some j' ∧ j'.phase = .fencedTerminate)) ∧
    (new 3 → Runs (.ready r) s fun t => sent t 3 ∧ [r.key.toNat, r.value.toNat, r.origin.toNat, r.plan.toNat] ∈ t.link.readies) ∧
    (new 6 → Runs (.step r) s fun t => sent t 6 ∧ t.link.memberSteps.at r.origin.toNat 0 = min 6 r.value.toNat ∧
      (r.beat.toNat + 2, t.link.lowest) ∈ t.link.stepDue ∧ t.power = s.power) ∧
    (∀ e code, (l.stepDue.find? fun d => decide (d.1 ≤ s.beat.toNat)) = some (e, code) → code < 8 → Runs .domainStepChange s fun t =>
      t.power.stepCode.toNat = code ∧ t.link.domainStep.toNat = code ∧ t.mem = s.mem) ∧
    (∀ j p, s.job? job.toNat = some j → (s.programOf j).link = some p → j.phase = .mapped → s.planClash p = false →
      s.allReady job.toNat p = true → (s.run job.toNat).linkStart.getD j.mapBeat < s.beat.toNat →
      Runs (.linkedJobStart job) s fun t => (∃ j', t.job? job.toNat = some j' ∧ j'.phase = .running) ∧ t.mem = s.mem)

/-! ### The security block (R358, R365 to R383) -/

/-- The mailbox: a command given while it is busy is counted and nothing else, a malformed one fails with 0x01, the plain ones answer
their records, and the response is posted once, with its event, when the command ends. -/
def Obligations.MailboxTakesOneCommand : Prop :=
  ∀ s : State, s.defined →
    (s.hostOpen = true → s.sec.busy = true → ∀ i ∈ [Instr.identity, .ownerState, .loadCurve, .importOffer, .importShare, .eraseShare, .attest,
        .partialDecrypt, .pointCheck, .scalarMultiplication, .ecdsaVerify, .modularExponentiation],
      exec i s = .next { s with sec := { s.sec with refused := satInc s.sec.refused } }) ∧
    (s.hostOpen = true → s.sec.busy = false → s.requestOk [] = true →
      Runs .identity s (fun t => MailTaken s t 1 0 s.identityRecord ∧ t.mem = s.mem ∧ t.fuses = s.fuses) ∧
      Runs .ownerState s (fun t => MailTaken s t 2 0 t.sec.nextResponse ∧ t.mem = s.mem ∧
        t.sec.nextResponse.take 3 = [s.fuses.ownerEpoch.zeroExtend 8, s.fuses.securityVersion.zeroExtend 8, if s.fuses.sealDisabled then 1 else 0] ∧
        t.sec.nextResponse.drop 8 = s.ownerDigest) ∧
      Runs .eraseShare s (fun t => MailTaken s t 6 0 [] ∧ t.sec.share = none ∧ t.sec.pdTable = [] ∧ t.mem = s.mem)) ∧
    (s.hostOpen = true → s.sec.busy = false → s.requestOk [] = false →
      Runs .identity s (fun t => MailTaken s t 1 1 []) ∧ Runs .ownerState s (fun t => MailTaken s t 2 1 []) ∧
      Runs .eraseShare s (fun t => MailTaken s t 6 1 [] ∧ t.sec.share = s.sec.share)) ∧
    (s.sec.busy = true → Runs .mailboxResponse s fun t => t.sec.busy = false ∧ t.sec.result = BitVec.ofNat 8 s.sec.nextResult ∧
      t.sec.response = s.sec.nextResponse ∧ t.sec.done = satInc s.sec.done ∧ (t.func 0).evPending.getLsbD 9 = true ∧
      (∀ l ∈ t.host.locks, l.1 ≠ .mailbox) ∧ t.mem = s.mem) ∧
    (s.sec.busy = false → exec .mailboxResponse s = .next s) ∧
    (4 ≤ s.rst.released → Runs .drbgHealthFailure s fun t => t.sec.drbgOk = false ∧ t.sec.drbgFailures = s.sec.drbgFailures + 1 ∧
      t.sec.drbgLocked = (s.sec.drbgLocked || decide (2 ≤ s.sec.drbgFailures)) ∧ t.mem = s.mem) ∧
    (2 ^ 20 ≤ s.sec.drbgRequests → exec .drbgReseed s = .next { s with sec := { s.sec with drbgRequests := 0 } })

/-- The Quince engine: a loaded curve passes its checks; sizes come before the slot and values after it; the value checks go in their
order; modular exponentiation compares base^e mod m with the expected value. -/
def Obligations.QuinceChecksInOrder : Prop :=
  ∀ (s : State) (c : Curve), s.defined → s.hostOpen = true → s.sec.busy = false →
    let a := s.request 8 8
    let n := s.request 16 4
    let b := s.mem.fetch a n
    let w := fun i => leNat (slice b (i * c.len) c.len)
    let on := fun x y => y * y % c.p = (x * x * x + c.a * x + c.b) % c.p ∧ (x ≠ 0 ∨ y ≠ 0)
    let gives := fun (i : Instr) (code r : Nat) => Runs i s fun t => t.sec.busy = true ∧ t.sec.cmd.toNat = code ∧ t.sec.nextResult = r ∧
      t.mem = s.mem
    (n ≠ 0 → s.inIntake 0 a n = true →
      (s.requestOk [(0, 1), (8, 8), (16, 4)] = true → s.request 0 1 ≤ 3 → s.sec.session = none →
        24 ≤ field b 0 1 → field b 0 1 ≤ 66 → n = 6 * field b 0 1 + 9 → allZero (slice b 1 7) = true →
        ((curveOf b).ok = true → Runs .loadCurve s fun t => MailTaken s t 3 0 (curveOf b).digest ∧ t.mem = s.mem ∧
          t.sec.curves.find (s.request 0 1) = some (curveOf b)) ∧
        ((curveOf b).ok = false → Runs .loadCurve s fun t => MailTaken s t 3 0x20 [] ∧ t.mem = s.mem ∧ t.sec.curves = s.sec.curves)) ∧
      (s.requestOk quinceFields = true → s.request 1 1 ≤ 3 →
        (s.sec.curves.find (s.request 1 1) = none → gives .pointCheck 9 0x21 ∧ gives .scalarMultiplication 9 0x21 ∧ gives .ecdsaVerify 9 0x21) ∧
        (s.sec.curves.find (s.request 1 1) = some c →
          (n = 2 * c.len → b.length = n →
            (c.p ≤ w 0 ∨ c.p ≤ w 1 → gives .pointCheck 9 0x22) ∧
            (w 0 < c.p → w 1 < c.p → ¬ on (w 0) (w 1) → gives .pointCheck 9 0x23) ∧
            (w 0 < c.p → w 1 < c.p → on (w 0) (w 1) → gives .pointCheck 9 0)) ∧
          (n = 3 * c.len → b.length = n →
            (c.n ≤ w 0 → gives .scalarMultiplication 9 0x22) ∧
            (w 1 < c.p → w 2 < c.p → w 0 < c.n → ¬ on (w 1) (w 2) → gives .scalarMultiplication 9 0x23) ∧
            (w 1 < c.p → w 2 < c.p → w 0 < c.n → on (w 1) (w 2) → ∀ x y, pointMul c.p c.a (w 0) (some (w 1, w 2)) = some (x, y) →
              Runs .scalarMultiplication s fun t => MailTaken s t 9 0 (leBytes c.len x ++ leBytes c.len y) ∧ t.mem = s.mem)) ∧
          (n = 5 * c.len → b.length = n → w 3 < c.p → w 4 < c.p →
            (w 1 = 0 ∨ c.n ≤ w 1 ∨ w 2 = 0 ∨ c.n ≤ w 2 → gives .ecdsaVerify 9 0x22) ∧
            (0 < w 1 → w 1 < c.n → 0 < w 2 → w 2 < c.n → ¬ on (w 3) (w 4) → gives .ecdsaVerify 9 0x23))) ∧
        (∀ k, n = 3 * k + 4 → b.length = n → 128 ≤ k → k ≤ 512 → 1024 ≤ bitLength (leNat (b.take k)) →
          let m := leNat (b.take k)
          let e := leNat (slice b k 4)
          let base := leNat (slice b (k + 4) k)
          (m % 2 = 0 ∨ m ≤ base → gives .modularExponentiation 9 0x22) ∧
          (m % 2 = 1 → base < m → gives .modularExponentiation 9 (if base ^ e % m = leNat (slice b (2 * k + 4) k) then 0 else 0x25)))))

/-- Shares: an offer opens one session, an import ends it whatever its outcome, attestations are kept once, a partial decryption writes
its output alone and enters the once-only table, and a verified SEAL_DISABLE blows its fuse and erases the share. -/
def Obligations.SharesAreGuarded : Prop :=
  ∀ (s : State) (k : KeySet) (c : Curve) (sh : Share), s.defined → s.hostOpen = true → s.sec.busy = false →
    let ok := s.requestOk [(0, 1), (8, 8)] = true ∧ s.request 0 1 ≤ 3
    let a := s.request 8 8
    (ok → s.notSealed = true → Runs .importOffer s fun t => MailTaken s t 4 2 [] ∧ t.sec.session = s.sec.session) ∧
    (ok → s.notSealed = false → s.sec.share ≠ none → Runs .importOffer s fun t => MailTaken s t 4 5 [] ∧ t.sec.session = s.sec.session) ∧
    (ok → s.notSealed = false → s.sec.share = none → s.keySet? a = some k → s.sec.curves.find (s.request 0 1) = some c →
      (s.sec.drbgOk = true → Runs .importOffer s fun t => t.sec.busy = true ∧ t.sec.nextResult = 0 ∧ t.sec.sessions = s.sec.sessions + 1 ∧
        (∃ x, t.sec.session = some x ∧ x.number = s.sec.sessions + 1 ∧ x.slot = s.request 0 1 ∧ x.ksid = k.ksid ∧
          x.offerDigest = digest32 t.sec.nextResponse) ∧ t.mem = s.mem) ∧
      (s.sec.drbgOk = false → Runs .importOffer s fun t => MailTaken s t 4 0x10 [] ∧ t.sec.session = s.sec.session ∧ t.mem = s.mem)) ∧
    (s.requestOk [(8, 8), (16, 4)] = true → s.notSealed = false →
      (s.sec.session = none → Runs .importShare s fun t => MailTaken s t 5 4 [] ∧ t.sec.share = s.sec.share) ∧
      (s.sec.session ≠ none → Runs .importShare s fun t => t.sec.busy = true ∧ t.sec.cmd = 5 ∧ t.sec.session = none ∧ t.mem = s.mem)) ∧
    (s.requestOk [(8, 8)] = true → s.inIntake 0 a 3373 = true →
      let b := s.mem.fetch a 3373
      s.ownerRecord 0x10 b = 0 → allZero (slice b 48 16) = true → s.mode.sealedTrust = true → s.fuses.sealDisabled = false →
      (Config.mldsaVerify s.ownerKey (ascii "LNM-ATTEST") (b.take 64) (slice b 64 3309) = false →
        Runs .attest s fun t => MailTaken s t 7 3 [] ∧ t.sec.attested = s.sec.attested) ∧
      (Config.mldsaVerify s.ownerKey (ascii "LNM-ATTEST") (b.take 64) (slice b 64 3309) = true → s.sec.attested.length < 64 →
        Runs .attest s fun t => MailTaken s t 7 0 [] ∧ (slice b 8 32, field b 40 8) ∈ t.sec.attested ∧ t.sec.attested.length ≤ 64)) ∧
    (s.requestOk [(8, 8), (16, 8)] = true →
      (s.notSealed = true → Runs .partialDecrypt s fun t => MailTaken s t 8 2 [] ∧ t.mem = s.mem) ∧
      (s.notSealed = false → s.sec.share = none → Runs .partialDecrypt s fun t => MailTaken s t 8 6 [] ∧ t.mem = s.mem) ∧
      (let h := headerOf (s.mem.fetch a 64)
       let size := 256 + 2 * h.level * 4 * 2 ^ h.log2n
       let out := s.request 16 8
       let obj := s.mem.fetch a size
       s.notSealed = false → s.sec.share = some sh → s.inRelease 0 a 256 = true → h.log2n ≤ 17 → s.inRelease 0 a size = true →
       (∀ p, a / 2048 ≤ p → p < (a + size + 2047) / 2048 → s.pageReleased (2048 * p) = true) →
       s.bulkOut out (256 + h.level * 4 * 2 ^ h.log2n) = true → s.decryptStatus sh obj ((digest32 obj).take 16) = 0 →
       Runs .partialDecrypt s fun t => t.sec.busy = true ∧ t.sec.nextResult = 0 ∧ (digest32 obj).take 16 ∈ t.sec.pdTable ∧
         t.sec.drbgPos = s.sec.drbgPos + 8 * 2 ^ (headerOf obj).log2n ∧ t.fuses = s.fuses ∧
         ∀ x, x < out → t.mem.read x = s.mem.read x)) ∧
    (s.ledger.room 2 = true → s.requestOk [(8, 8)] = true → s.inIntake 0 a 3413 = true →
      let b := s.mem.fetch a 3413
      s.ownerRecord 0x11 b = 0 → slice b 8 32 = identityDigest → allZero (slice b 40 64) = true →
      Config.mldsaVerify s.ownerKey (ascii "LNM-UNSEAL") (b.take 104) (slice b 104 3309) = true → s.fuses.sealDisabled = false →
      Runs .sealDisable s fun t => MailTaken s t 0x0A 0 [] ∧ t.fuses = { s.fuses with sealDisabled := true } ∧ t.sec.share = none ∧
        t.sec.attested = [] ∧ t.sec.session = none ∧ t.mem = s.mem)

/-! ### Images (R402 to R406) -/

/-- Staging writes the inactive slot only and judges it; an adoption goes piece by piece, switches at its beat, serves one group a beat and
retrains one pseudo-channel at a time; an abort, a timeout and a failed piece end it with their result. -/
def Obligations.ImagesAreStagedAndAdopted : Prop :=
  ∀ (s : State) (i : Image) (p : Fin 68), s.defined → s.hostOpen = true →
    let c := s.cfg
    let a := c.stageAddr.toNat
    let n := c.stageLen.toNat
    let slot := s.inactiveSlot
    let aborted := fun (t : State) (r : Byte) => t.cfg.adoptState = 3 ∧ t.cfg.adoptResult = r ∧ t.cfg.adoptPiece = 0 ∧ t.cfg.revert = true ∧
      t.mem = s.mem
    (c.stageState ≠ 1 → c.stageState ≠ 2 → s.mode.adopting = false → n ≠ 0 → s.inIntake 0 a n = true → Runs (.stageGo .full) s fun t =>
      t.cfg.stageState = 1 ∧ (.staging, a, n) ∈ t.host.locks ∧ t.mem = s.mem ∧
      ∀ x, inRange (slotBase slot) (slotSize slot) x = false → cellAt erasedByte t.flash.cells x = cellAt erasedByte s.flash.cells x) ∧
    (c.stageState = 1 ∨ s.mode.adopting = true → exec (.stageGo .full) s = .next { s with cfg := { c with refused := satInc c.refused } }) ∧
    (c.stageState = 1 →
      (let r := s.stageVerdict (s.flash.readN (slotBase slot) n)
       Runs (.stageComplete true) s fun t => t.cfg.stageState = (if r = 0 then 3 else 4) ∧ t.cfg.stageResult = BitVec.ofNat 8 r ∧
         (t.cfg.staged ≠ none ↔ r = 0) ∧ t.flash = s.flash ∧ t.mem = s.mem) ∧
      Runs (.stageComplete false) s (fun t => t.cfg.stageState = 4 ∧ t.cfg.stageResult = 7 ∧ t.mem = s.mem ∧
        ∀ x, inRange (slotBase slot) (slotSize slot) x = true → cellAt erasedByte t.flash.cells x = 0xFF)) ∧
    (c.staged = none → Runs (.adoptGo .full) s fun t => t.cfg.adoptResult = 0x10 ∧ t.cfg.refused = satInc c.refused ∧ t.mode = s.mode ∧
      t.mem = s.mem) ∧
    (c.staged = some i → c.stageState = 3 → s.mode.adopting = false → i.ownerChange = false → s.deadChange i = false →
      Runs (.adoptGo .full) s fun t => t.mode.adopting = true ∧ t.cfg.adoptState = 1 ∧ t.cfg.adoptPiece = 1 ∧ t.cfg.fields = c.fields ∧
        t.mem = s.mem) ∧
    (s.beating = true → c.staged = some i → c.adoptState = 1 →
      (∀ q, c.adoptPiece.toNat = q → 1 ≤ q → q ≤ 5 → s.pieceEnded = true → s.ledger.room 2 = true → Runs (.adoptionPiece true) s fun t =>
        t.cfg.adoptPiece.toNat = q + 1 ∧ t.cfg.adoptState = 1 ∧ t.mem = s.mem) ∧
      (c.adoptPiece = 6 → Runs (.adoptionPiece true) s fun t => t.cfg.adoptState = 2 ∧ t.cfg.adoptPiece = 0 ∧ t.cfg.active = some i ∧
        t.cfg.staged = none ∧ t.cfg.appliedDigest = i.digest ∧ t.mem = s.mem) ∧
      Runs (.adoptionPiece false) s (fun t => aborted t 0x15) ∧
      (∀ b, c.switchBeat = some b → b ≤ s.beat.toNat → Runs .adoptSwitch s fun t => t.cfg.bank = !c.bank ∧ t.cfg.switchBeat = none ∧
        t.cfg.oldFields = c.fields ∧ t.mem = s.mem) ∧
      (c.adoptPiece = 3 → s.nextTable (s.tableGroups.filter fun q => !c.groupsTabled.contains q) = some p.val → s.tableFree p = true →
        Runs (.groupTableApply p) s fun t => (t.unit p).tableSerial = i.serial ∧ (t.unit p).heldBeat = some s.beat.toNat ∧
          p.val ∈ t.cfg.groupsTabled ∧ t.mem = s.mem)) ∧
    (c.adoptState = 1 → c.adoptPiece = 5 → c.retrainNext < 256 →
      Runs (.pseudoChannelRetrain true) s (fun t => t.cfg = { c with retrainNext := c.retrainNext + 1 } ∧
        t.memSys.migrating = (if c.retrainNext < 255 then some (c.retrainNext + 1) else none) ∧ t.mem = s.mem) ∧
      Runs (.pseudoChannelRetrain false) s (fun t => aborted t 0x15)) ∧
    (c.adoptState = 1 → Runs (.adoptAbort .full) s (fun t => aborted t 0x13) ∧ Runs .adoptTimeout s (fun t => aborted t 0x14)) ∧
    (c.adoptState ≠ 1 → exec (.adoptAbort .full) s = .next s ∧ exec .adoptTimeout s = .next s)

/-! ### Factory, modes and injection (R304, R433, R434, R438, R439) -/

/-- A factory authorization that checks is pending, one that does not is counted; entry erases the share and changes the axis at cycle 0; a
mode write waits for its boundary; an injection is armed in FACTORY only and fires once. -/
def Obligations.FactoryAndInjection : Prop :=
  ∀ (s : State) (rec : List Byte) (v : Word64) (w : AccessWidth), s.defined →
    (4 ≤ s.rst.released → s.mode.factory = false → s.factoryOk rec = true → Runs (.factoryAuth rec) s fun t =>
      t.mode = { s.mode with factoryPending := true } ∧ t = { s with mode := t.mode, pins := t.pins, test := t.test }) ∧
    (4 ≤ s.rst.released → s.mode.factory = false → s.factoryOk rec = false → Runs (.factoryAuth rec) s fun t =>
      t.mode = { s.mode with authRefused := satInc s.mode.authRefused } ∧ t = { s with mode := t.mode, pins := t.pins, test := t.test }) ∧
    (s.beating = true → s.mode.factoryPending = true → s.sec.busy = false → Runs .factoryEntry s fun t =>
      t.sec.share = none ∧ t.sec.session = none ∧ t.mem = s.mem ∧ (s.cycle = 0 → t.mode.factory = true ∧ t.mode.factoryPending = false) ∧
      (s.cycle ≠ 0 → t.mode = s.mode)) ∧
    (s.hostOpen = true → ∀ i ∈ [Instr.powerReq v .full, Instr.twinAll v .full],
      exec i s = .next { s with mode := { s.mode with twinAllNext := v.getLsbD 0, powerReq := v.getLsbD 1 } }) ∧
    (s.hostOpen = true → s.mode.factory = true → Runs (.injectionArm v .full) s fun t => t = { s with test := t.test } ∧
      t.test.injMode.toNat = v.toNat / 2 % 4 ∧ t.test.injUnit.toNat = v.toNat / 8 % 2 ^ 20 ∧ t.test.injKind.toNat = v.toNat / 2 ^ 23 % 256 ∧
      t.test.injArm = (s.test.injArm || v.getLsbD 0)) ∧
    (s.mode.factory = false → exec (.injectionArm v w) s = .next s) ∧
    (s.mode.factory = true → s.test.injArm = true → s.beating = true → s.cycle.toNat < 59392 → s.test.injMode.toNat < 2 →
      Runs .injectionFire s fun t => t.test = { s.test with injArm := false, injFired := satInc s.test.injFired } ∧
        (∃ x, t.faults.wires = s.faults.wires ++ [x] ∧ x.injected = true ∧ x.word.toNat % 2 ^ 20 = s.test.injUnit.toNat) ∧ t.mem = s.mem) ∧
    (s.test.injArm = false → exec .injectionFire s = .next s)

/-! ### The life ledger (R443 to R450) -/

/-- The oldest event is written at the ring's next place and leaves the buffer; a sector that takes no write is skipped and counted; a
snapshot serves a standing request; a durable copy is written once; the window shows the 4 KiB at its offset. -/
def Obligations.LedgerWritesRecords : Prop :=
  ∀ (s : State) (e : LedgerEvent) (rest : List LedgerEvent) (v : Word64), s.defined →
    let l := s.ledger
    let skipped := fun (t : State) => t.ledger.writeErrors = satInc l.writeErrors ∧ t.ledger.events = l.events ∧
      t.ledger.badSectors.toNat = min 128 (l.badSectors.toNat + 1) ∧ t = { s with ledger := t.ledger }
    (2 ≤ s.rst.released → l.events = e :: rest → l.failed = false → l.lostPending = 0 → Runs (.ledgerEventWrite true) s fun t =>
      t.ledger.events = rest ∧ t.mem = s.mem ∧ t.fuses = s.fuses ∧
      (s.Inv → t.flash.readN (ringBase + s.keepDurable.ledger.place (36 + e.body.length)) 3 = [0x15, 1, 1])) ∧
    (2 ≤ s.rst.released → l.events = e :: rest → l.failed = false → Runs (.ledgerEventWrite false) s skipped) ∧
    (l.events = [] → exec (.ledgerEventWrite true) s = .next s) ∧
    (2 ≤ s.rst.released → l.failed = false → Runs (.ledgerSnapshot true) s fun t => t.ledger.flushAsked = false ∧
      t.ledger.flushBusy = false ∧ t.ledger.flushes = satInc l.flushes ∧ t.mem = s.mem ∧ t.ledger.events = l.events) ∧
    (2 ≤ s.rst.released → l.failed = false → Runs (.ledgerSnapshot false) s skipped) ∧
    (s.hostOpen = true → l.failed = false →
      exec (.flushNow .full) s = .next { s with ledger := { l with flushAsked := true, flushBusy := true } }) ∧
    (2 ≤ s.rst.released → l.durableAsked = true → l.failed = false →
      Runs (.durableCopy true) s (fun t => t.ledger.durableAsked = false ∧ t.mem = s.mem ∧ t.memSys = s.memSys ∧
        (s.Inv → t.flash.readN (ringBase + l.place (32 + s.durableBody.length)) 3 = [0x15, 1, 3])) ∧
      Runs (.durableCopy false) s skipped) ∧
    (l.durableAsked = false → exec (.durableCopy true) s = .next s) ∧
    (s.hostOpen = true → Runs (.windowOffset v .full) s fun t => t.ledger.windowOffset.toNat = v.toNat % 2 ^ 23 / 4096 * 4096 ∧
      t.ledger.windowReady = false ∧ t = { s with ledger := t.ledger }) ∧
    (s.hostOpen = true → l.windowReady = false → Runs .windowReady s fun t => t.ledger.windowReady = true ∧
      t.ledger.window = s.flash.readN (0x2000000 + l.windowOffset.toNat) 4096 ∧ t = { s with ledger := t.ledger })

/-! ### Observation, test and sideband (R424, R435, R451 to R454, R463, R466) -/

/-- A selection takes effect where the device's state permits its class and is counted elsewhere; the TAP's instructions answer from their
registers or act as BYPASS; DEBUG_RESET and SCAN_DUMP need the states they name; the sideband answers its registers. -/
def Obligations.ObservationTestAndSideband : Prop :=
  ∀ (s : State) (pin : Fin 4) (v : Word64) (bits : List Bool) (b : Bool), s.defined →
    let code := v.toNat % 256
    let digital := code < 4 ∨ (0x10 ≤ code ∧ code < 0x16 ∧ s.mode.sealedTrust = false) ∨
      (0x20 ≤ code ∧ code < 0x22 ∧ s.mode.sealedTrust = false ∧ s.mode.factory = true)
    let analog := code = 0 ∨ (code < 4 ∧ s.mode.sealedTrust = false)
    let open_ := s.pins.active.getLsbD 0 = true ∨ s.rst.halted = true ∨ s.rst.tripped = true
    let refused := { s with test := { s.test with selRefused := satInc s.test.selRefused } }
    let tapOnly := fun (i : Instr) (c : Byte) => Runs i s fun t => t.test = { s.test with tapInstr := c } ∧ t = { s with pins := t.pins, test := t.test }
    let bypassed := fun (i : Instr) => Runs i s fun t => t.test = { s.test with tapInstr := 0xFF, jtagRefused := satInc s.test.jtagRefused } ∧
      t = { s with pins := t.pins, test := t.test }
    let answers := fun (i : Instr) (x : BitVec 16) => 0 < s.rst.released → exec i s = .next { s with pins := { s.pins with sbAnswer := x } }
    (s.hostOpen = true → digital → Runs (.obsSel pin v .full) s fun t => t.test.obsSel.at pin 0 = v.truncate 16 ∧ t = { s with test := t.test }) ∧
    (s.hostOpen = true → ¬ digital → exec (.obsSel pin v .full) s = .next refused) ∧
    (s.hostOpen = true → analog → exec (.anaSel v .full) s = .next { s with test := { s.test with anaSel := v.truncate 16 } }) ∧
    (s.hostOpen = true → ¬ analog → exec (.anaSel v .full) s = .next refused) ∧
    (open_ → tapOnly .clamp 3 ∧ tapOnly .highz 4 ∧ Runs .extest s fun t => t.test.tapInstr = 0 ∧ t.test.tdo.length = s.test.boundary.length ∧
      t = { s with pins := t.pins, test := t.test, free := t.free }) ∧
    (¬ open_ → bypassed .clamp ∧ bypassed .highz ∧ bypassed .extest) ∧
    Runs (.samplePreload bits) s (fun t => t.test.tapInstr = 1 ∧ t.test.boundary = bits ∧ t.test.tdo.length = bits.length ∧
      t = { s with pins := t.pins, test := t.test, free := t.free }) ∧
    Runs .idcode s (fun t => t.test.tapInstr = 2 ∧ t.test.tdo = (List.range 32).map (0xB204898F : Nat).testBit ∧
      t = { s with pins := t.pins, test := t.test }) ∧
    Runs (.bypass b) s (fun t => t.test = { s.test with tapInstr := 0xFF, tdo := [s.test.bypassBit], bypassBit := b } ∧
      t = { s with pins := t.pins, test := t.test }) ∧
    tapOnly (.debugReset false) 0x11 ∧
    (s.mode.sealedTrust = false ∨ s.mode.factory = true → s.rst.tripped = false → Runs (.debugReset true) s fun t => AsReset { s with pins := t.pins } t 5) ∧
    (s.mode.sealedTrust = true → s.mode.factory = false → Runs (.debugReset true) s fun t =>
      t.test = { s.test with tapInstr := 0x11, jtagRefused := satInc s.test.jtagRefused } ∧ t = { s with pins := t.pins, test := t.test }) ∧
    (s.mode.factory = true → s.mode.sealedTrust = false → s.rst.halted = true → Runs .scanDump s fun t => t.rst.scanDumped = true) ∧
    (s.mode.factory = false ∨ s.mode.sealedTrust = true ∨ s.rst.halted = false → bypassed .scanDump) ∧
    answers .tj (BitVec.ofNat 16 s.power.tjMax.toNat) ∧ answers .sbStep (BitVec.ofNat 16 s.power.stepCode.toNat) ∧
    answers .cause (BitVec.ofNat 16 s.rst.rstCause.toNat) ∧ answers .power (BitVec.ofNat 16 s.power.pkgPower.toNat) ∧
    (0 < s.rst.released → Runs .status s fun t => t.pins = { s.pins with sbAnswer := t.pins.sbAnswer } ∧ t = { s with pins := t.pins } ∧
      t.pins.sbAnswer.getLsbD 0 = s.rst.hostReady ∧ t.pins.sbAnswer.getLsbD 1 = s.rst.halted ∧ t.pins.sbAnswer.getLsbD 2 = s.rst.tripped ∧
      t.pins.sbAnswer.getLsbD 3 = (!s.faults.faultN) ∧ t.pins.sbAnswer.getLsbD 4 = s.mode.capped ∧ t.pins.sbAnswer.getLsbD 5 = s.mode.sealedTrust) ∧
    (0 < s.rst.released → exec .alert s = .next { s with pins := { s.pins with sbAnswer := BitVec.ofNat 16 s.pins.sbAlert.toNat, sbAlert := 0 } }) ∧
    exec .smbusTimeout s = .next { s with pins := { s.pins with sbAnswer := 0 } }
end

