-- ==== Sys2Proof/Laws/Checks.lean ====
section
/-!
SUPPORT. Laws.Checks: the two checks of R33 pass on every exact result, and find every wrong one.
-/
namespace Sys2Proof.Machine

theorem resultOk_divMod (q e : Nat) (hq : 0 < q) : resultOk q e (e / q) (e % q) = true := by
  have h := Nat.div_add_mod' e q
  simp only [resultOk, checkModuli, List.all_cons, List.all_nil, Bool.and_true, Bool.and_eq_true, decide_eq_true_eq, beq_iff_eq]
  refine ⟨Nat.mod_lt _ hq, ?_, ?_⟩ <;> (conv_lhs => rw [← h]) <;> simp [Nat.add_mod, Nat.mul_mod]

theorem addMod_resultOk (q x y : Nat) (hq : 0 < q) : resultOk q (x + y) ((x + y) / q) (addMod q x y) = true := by
  simpa [addMod, hq.ne'] using resultOk_divMod q (x + y) hq

theorem mulMod_resultOk (q x y : Nat) (hq : 0 < q) : resultOk q (x * y) (x * y / q) (mulMod q x y) = true := by
  simpa [mulMod, hq.ne'] using resultOk_divMod q (x * y) hq

theorem subMod_resultOk (q x y : Nat) (hq : 0 < q) :
    resultOk q (x + (q - y % q)) ((x + (q - y % q)) / q) (subMod q x y) = true := by
  simpa [subMod, hq.ne'] using resultOk_divMod q (x + (q - y % q)) hq

/-- A wrong result fails a check: two results that pass with the same quotient are the same. -/
theorem resultOk_unique {q e k r r' : Nat} (hq : q ≤ 8191 * 131071) (h : resultOk q e k r = true) (h' : resultOk q e k r' = true) :
    r = r' := by
  simp only [resultOk, checkModuli, List.all_cons, List.all_nil, Bool.and_true, Bool.and_eq_true, decide_eq_true_eq, beq_iff_eq] at h h'
  obtain ⟨h0, h1, h2⟩ := h
  obtain ⟨h0', h1', h2'⟩ := h'
  omega

end Sys2Proof.Machine
end

