-- ==== Sys2Proof/Laws/Memory.lean ====
section
/-!
SUPPORT. Laws.Memory: a canonical list stays canonical under every operation, what a byte reads after a write, and that each
memory operation leaves other bytes alone.
-/
namespace Sys2Proof.Machine

/-! ### Canonical lists -/

/-- Every address of a list lies above `a`. -/
def cellsAbove (a : Nat) (l : List Host.Cell) : Prop := ∀ c ∈ l, a < c.1

theorem cellsWf_cons (d : Nat → Byte) (a : Nat) (b : Byte) (l : List Host.Cell) :
    cellsWf d ((a, b) :: l) = true ↔ b ≠ d a ∧ cellsAbove a l ∧ cellsWf d l = true := by
  induction l generalizing a b with
  | nil => simp [cellsWf, cellsAbove]
  | cons c t ih =>
    obtain ⟨i, v⟩ := c
    constructor
    · intro h
      simp only [cellsWf, Bool.and_eq_true, bne_iff_ne, ne_eq, decide_eq_true_eq] at h
      obtain ⟨⟨h1, h2⟩, h3⟩ := h
      refine ⟨h1, ?_, h3⟩
      intro c hc
      rcases List.mem_cons.1 hc with rfl | hc
      · exact h2
      · have := ((ih i v).1 h3).2.1 c hc
        omega
    · rintro ⟨h1, h2, h3⟩
      simp only [cellsWf, Bool.and_eq_true, bne_iff_ne, ne_eq, decide_eq_true_eq]
      exact ⟨⟨h1, h2 (i, v) (by simp)⟩, h3⟩

theorem cellsAbove_put (d : Nat → Byte) (x : Nat) (l : List Host.Cell) (a : Nat) (b : Byte) (hx : x < a) (h : cellsAbove x l) :
    cellsAbove x (cellPut d l a b) := by
  induction l with
  | nil => by_cases hb : b = d a <;> simp [cellPut, hb, cellsAbove, hx]
  | cons c t ih =>
    obtain ⟨i, v⟩ := c
    have hi : x < i := h (i, v) (by simp)
    have ht : cellsAbove x t := fun c hc => h c (by simp [hc])
    intro c hc
    unfold cellPut at hc
    split at hc
    · split at hc
      · exact h c hc
      · rcases List.mem_cons.1 hc with rfl | hc
        · exact hx
        · exact h c hc
    · split at hc
      · split at hc
        · exact ht c hc
        · rcases List.mem_cons.1 hc with rfl | hc
          · exact hx
          · exact ht c hc
      · rcases List.mem_cons.1 hc with rfl | hc
        · exact hi
        · exact ih ht c hc

/-- Writing a byte keeps a list canonical. -/
theorem cellPut_wf (d : Nat → Byte) (l : List Host.Cell) (a : Nat) (b : Byte) (h : cellsWf d l = true) : cellsWf d (cellPut d l a b) = true := by
  induction l with
  | nil => by_cases hb : b = d a <;> simp [cellPut, hb, cellsWf]
  | cons c t ih =>
    obtain ⟨i, v⟩ := c
    obtain ⟨h1, h2, h3⟩ := (cellsWf_cons d i v t).1 h
    unfold cellPut
    split
    · rename_i hlt
      split
      · exact h
      · rename_i hb
        refine (cellsWf_cons d a b _).2 ⟨hb, ?_, h⟩
        intro c hc
        rcases List.mem_cons.1 hc with rfl | hc
        · exact hlt
        · have := h2 c hc; omega
    · split
      · rename_i heq
        subst heq
        split
        · exact h3
        · rename_i hb; exact (cellsWf_cons d a b t).2 ⟨hb, h2, h3⟩
      · rename_i hnl hne
        exact (cellsWf_cons d i v _).2 ⟨h1, cellsAbove_put d i t a b (by omega) h2, ih h3⟩

theorem cellAt_above (d : Nat → Byte) (l : List Host.Cell) (a : Nat) (h : cellsAbove a l) : cellAt d l a = d a := by
  induction l with
  | nil => rfl
  | cons c t ih =>
    obtain ⟨i, v⟩ := c
    have hi : a < i := h (i, v) (by simp)
    have hne : ¬ i = a := by omega
    simp only [cellAt, hne, if_false]
    exact ih fun c hc => h c (by simp [hc])

/-- A byte just written reads as written. -/
theorem cellAt_put_same (d : Nat → Byte) (l : List Host.Cell) (a : Nat) (b : Byte) (h : cellsWf d l = true) :
    cellAt d (cellPut d l a b) a = b := by
  induction l with
  | nil => by_cases hb : b = d a <;> simp [cellPut, hb, cellAt]
  | cons c t ih =>
    obtain ⟨i, v⟩ := c
    obtain ⟨h1, h2, h3⟩ := (cellsWf_cons d i v t).1 h
    unfold cellPut
    split
    · rename_i hlt
      split
      · rename_i hb
        rw [hb]
        apply cellAt_above
        intro c hc
        rcases List.mem_cons.1 hc with rfl | hc
        · exact hlt
        · have := h2 c hc; omega
      · simp [cellAt]
    · split
      · rename_i heq
        subst heq
        split
        · rename_i hb; rw [hb]; exact cellAt_above d t a h2
        · simp [cellAt]
      · rename_i hne
        have hne' : ¬ i = a := fun e => hne e.symm
        simp only [cellAt, hne', if_false]
        exact ih h3

/-- Every other byte reads as before. -/
theorem cellAt_put_other (d : Nat → Byte) (l : List Host.Cell) (a x : Nat) (b : Byte) (hx : x ≠ a) :
    cellAt d (cellPut d l a b) x = cellAt d l x := by
  have hx' : ¬ a = x := fun e => hx e.symm
  induction l with
  | nil => by_cases hb : b = d a <;> simp [cellPut, hb, cellAt, hx']
  | cons c t ih =>
    obtain ⟨i, v⟩ := c
    unfold cellPut
    split
    · split
      · rfl
      · simp [cellAt, hx']
    · split
      · rename_i heq
        subst heq
        split <;> simp [cellAt, hx']
      · by_cases hi : i = x
        · simp [cellAt, hi]
        · simp [cellAt, hi, ih]

theorem cellsWf_filter (d : Nat → Byte) (p : Host.Cell → Bool) (l : List Host.Cell) (h : cellsWf d l = true) : cellsWf d (l.filter p) = true := by
  induction l with
  | nil => rfl
  | cons c t ih =>
    obtain ⟨i, v⟩ := c
    obtain ⟨h1, h2, h3⟩ := (cellsWf_cons d i v t).1 h
    simp only [List.filter_cons]
    split
    · exact (cellsWf_cons d i v _).2 ⟨h1, fun c hc => h2 c (List.mem_filter.1 hc).1, ih h3⟩
    · exact ih h3

/-! ### The device memory -/

/-- Writing one byte keeps the memory canonical. -/
theorem Memory.write_wf (m : Memory) (a : Nat) (b : Byte) (h : m.wf = true) : (m.write a b).wf = true := cellPut_wf _ _ _ _ h

/-- Writing bytes keeps the memory canonical. -/
theorem Memory.writeN_wf (bs : List Byte) (m : Memory) (a : Nat) (h : m.wf = true) : (m.writeN a bs).wf = true := by
  induction bs generalizing m a with
  | nil => exact h
  | cons b t ih => exact ih _ _ (m.write_wf a b h)

/-- Clearing marks keeps the memory canonical. -/
theorem Memory.unmark_wf (m : Memory) (a n : Nat) (h : m.wf = true) : (m.unmark a n).wf = true := h

/-- A device write keeps the memory canonical. -/
theorem Memory.store_wf (m : Memory) (a : Nat) (bs : List Byte) (h : m.wf = true) : (m.store a bs).wf = true := m.writeN_wf bs a h

/-- Writing a row keeps the memory canonical. -/
theorem Memory.storeRow_wf (m : Memory) (a : Nat) (r : Row) (n : Nat) (h : m.wf = true) : (m.storeRow a r n).wf = true := m.store_wf a _ h

/-- A fill keeps the memory canonical. -/
theorem Memory.fill_wf (n : Nat) (m : Memory) (a : Nat) (b : Byte) (h : m.wf = true) : (m.fill a b n).wf = true := by
  induction n generalizing m with
  | zero => exact h
  | succ n ih => exact ih _ (m.write_wf _ b h)

/-- Marking a line or a word keeps the memory canonical. -/
theorem Memory.markLine_wf (m : Memory) (a : Nat) (h : m.wf = true) : (m.markLine a).wf = true := h
@[inherit_doc Memory.markLine_wf] theorem Memory.markWord_wf (m : Memory) (a : Nat) (h : m.wf = true) : (m.markWord a).wf = true := h

/-- Forgetting a range keeps the memory canonical. -/
theorem Memory.poisonFill_wf (m : Memory) (a n : Nat) (h : m.wf = true) : (m.poisonFill a n).wf = true := cellsWf_filter _ _ _ h

/-- A fold of steps that keep the memory canonical keeps it. -/
theorem Memory.foldl_wf {α : Type} (f : Memory → α → Memory) (l : List α) (m : Memory) (hf : ∀ m x, m.wf = true → (f m x).wf = true)
    (h : m.wf = true) : (l.foldl f m).wf = true := by
  induction l generalizing m with
  | nil => exact h
  | cons x t ih => exact ih _ (hf _ _ h)

/-- A key's copy into its extents keeps the memory canonical. -/
theorem copyKey_wf (m : Memory) (src : Nat) (ex : List Nat) (len : Nat) (h : m.wf = true) : (copyKey m src ex len).wf = true := by
  unfold copyKey
  apply Memory.foldl_wf _ _ _ _ h
  intro m i hm
  apply Memory.foldl_wf _ _ _ _ hm
  intro m j hm
  apply Memory.foldl_wf _ _ _ _ (Memory.store_wf _ _ _ hm)
  intro m w hm
  exact hm

/-- A byte outside a write reads as before. -/
theorem Memory.read_write_other (m : Memory) (a x : Nat) (b : Byte) (h : x ≠ a) : (m.write a b).read x = m.read x := cellAt_put_other _ _ _ _ _ h

/-- The byte written reads as written. -/
theorem Memory.read_write_same (m : Memory) (a : Nat) (b : Byte) (h : m.wf = true) : (m.write a b).read a = b := cellAt_put_same _ _ _ _ h

/-- Bytes outside the range written read as before. -/
theorem Memory.read_writeN_outside (bs : List Byte) (m : Memory) (a x : Nat) (h : x < a ∨ a + bs.length ≤ x) : (m.writeN a bs).read x = m.read x := by
  induction bs generalizing m a with
  | nil => rfl
  | cons b t ih =>
    simp only [List.length_cons] at h
    simp only [Memory.writeN]
    rw [ih _ _ (by omega), Memory.read_write_other _ _ _ _ (by omega)]

/-- Bytes outside a store read as before. -/
theorem Memory.read_store_outside (m : Memory) (a x : Nat) (bs : List Byte) (h : x < a ∨ a + bs.length ≤ x) : (m.store a bs).read x = m.read x :=
  m.read_writeN_outside bs a x h

/-- A byte written reads as written. -/
theorem Memory.read_writeN_inside (bs : List Byte) (m : Memory) (a i : Nat) (b : Byte) (hm : m.wf = true) (h : bs[i]? = some b) :
    (m.writeN a bs).read (a + i) = b := by
  induction bs generalizing m a i with
  | nil => simp at h
  | cons c t ih =>
    simp only [Memory.writeN]
    cases i with
    | zero =>
      simp only [List.getElem?_cons_zero, Option.some.injEq] at h
      subst h
      rw [Memory.read_writeN_outside _ _ _ _ (by omega)]
      exact Memory.read_write_same _ _ _ hm
    | succ i =>
      simp only [List.getElem?_cons_succ] at h
      have := ih (m.write a c) (a + 1) i (m.write_wf a c hm) h
      rwa [show a + 1 + i = a + (i + 1) by omega] at this

/-! ### Host memory and flash -/

/-- Writing host memory keeps it canonical. -/
theorem ramWriteN_wf (bs : List Byte) (l : List Host.Cell) (a : Nat) (h : cellsWf zeroByte l = true) : cellsWf zeroByte (ramWriteN l a bs) = true := by
  induction bs generalizing l a with
  | nil => exact h
  | cons b t ih => exact ih _ _ (cellPut_wf _ _ _ _ h)

/-- Writing receipt slots keeps host memory canonical. -/
theorem writeSlots_wf (cs : List (List Byte)) (l : List Host.Cell) (base n slot : Nat) (h : cellsWf zeroByte l = true) :
    cellsWf zeroByte (writeSlots l base n slot cs) = true := by
  induction cs generalizing l slot with
  | nil => exact h
  | cons c t ih => exact ih _ _ (ramWriteN_wf _ _ _ h)

/-- Programming the flash keeps it canonical. -/
theorem flashWriteN_wf (bs : List Byte) (l : List Host.Cell) (a : Nat) (h : cellsWf erasedByte l = true) :
    cellsWf erasedByte (Flash.writeN l a bs) = true := by
  induction bs generalizing l a with
  | nil => exact h
  | cons b t ih => exact ih _ _ (cellPut_wf _ _ _ _ h)

end Sys2Proof.Machine
end

