-- ==== Sys2Proof/Laws/State.lean ====
section
/-!
SUPPORT. Laws.State: one lemma per field per named update of the state, and what a table answers after an update.
-/
namespace Sys2Proof.Machine

/-! ### Tables -/

@[simp] theorem Table.find_put_same {α : Type} (t : Table α) (k : Nat) (v : α) : (t.put k v).find k = some v := by
  induction t with
  | nil => simp [Table.put, Table.find]
  | cons e t ih =>
    obtain ⟨i, w⟩ := e
    by_cases h1 : k < i
    · simp [Table.put, Table.find, h1]
    · by_cases h2 : k = i
      · simp [Table.put, Table.find, h2]
      · have h3 : i ≠ k := fun e => h2 e.symm
        simp [Table.put, Table.find, h1, h2, h3, ih]

theorem Table.find_put_other {α : Type} (t : Table α) (k j : Nat) (v : α) (h : j ≠ k) : (t.put k v).find j = t.find j := by
  induction t with
  | nil =>
    have hk : k ≠ j := fun e => h e.symm
    simp [Table.put, Table.find, hk]
  | cons e t ih =>
    obtain ⟨i, w⟩ := e
    have hk : k ≠ j := fun e => h e.symm
    by_cases h1 : k < i
    · simp [Table.put, Table.find, h1, hk]
    · by_cases h2 : k = i
      · subst h2; simp [Table.put, Table.find, hk]
      · simp [Table.put, Table.find, h1, h2, ih]

@[simp] theorem Table.at_put_same {α : Type} (t : Table α) (k : Nat) (v d : α) : (t.put k v).at k d = v := by
  simp [Table.at]

theorem Table.at_put_other {α : Type} (t : Table α) (k j : Nat) (v d : α) (h : j ≠ k) : (t.put k v).at j d = t.at j d := by
  simp [Table.at, Table.find_put_other t k j v h]

/-! ### Fields under updates -/

variable (s : State)


@[simp] theorem State.modGroup_pending (p : Nat) (f : Group → Group) : (s.modGroup p f).pending = s.pending := rfl
@[simp] theorem State.modGroup_beat (p : Nat) (f : Group → Group) : (s.modGroup p f).beat = s.beat := rfl
@[simp] theorem State.modGroup_cycle (p : Nat) (f : Group → Group) : (s.modGroup p f).cycle = s.cycle := rfl
@[simp] theorem State.modGroup_free (p : Nat) (f : Group → Group) : (s.modGroup p f).free = s.free := rfl
@[simp] theorem State.modGroup_mem (p : Nat) (f : Group → Group) : (s.modGroup p f).mem = s.mem := rfl
@[simp] theorem State.modGroup_groups (p : Nat) (f : Group → Group) : (s.modGroup p f).groups = s.groups.put p (f (s.group p)) := rfl
@[simp] theorem State.modGroup_units (p : Nat) (f : Group → Group) : (s.modGroup p f).units = s.units := rfl
@[simp] theorem State.modGroup_clusters (p : Nat) (f : Group → Group) : (s.modGroup p f).clusters = s.clusters := rfl
@[simp] theorem State.modGroup_rings (p : Nat) (f : Group → Group) : (s.modGroup p f).rings = s.rings := rfl
@[simp] theorem State.modGroup_work (p : Nat) (f : Group → Group) : (s.modGroup p f).work = s.work := rfl
@[simp] theorem State.modGroup_host (p : Nat) (f : Group → Group) : (s.modGroup p f).host = s.host := rfl
@[simp] theorem State.modGroup_faults (p : Nat) (f : Group → Group) : (s.modGroup p f).faults = s.faults := rfl
@[simp] theorem State.modGroup_memSys (p : Nat) (f : Group → Group) : (s.modGroup p f).memSys = s.memSys := rfl
@[simp] theorem State.modGroup_fuses (p : Nat) (f : Group → Group) : (s.modGroup p f).fuses = s.fuses := rfl
@[simp] theorem State.modGroup_power (p : Nat) (f : Group → Group) : (s.modGroup p f).power = s.power := rfl
@[simp] theorem State.modGroup_rst (p : Nat) (f : Group → Group) : (s.modGroup p f).rst = s.rst := rfl
@[simp] theorem State.modGroup_mode (p : Nat) (f : Group → Group) : (s.modGroup p f).mode = s.mode := rfl
@[simp] theorem State.modGroup_pins (p : Nat) (f : Group → Group) : (s.modGroup p f).pins = s.pins := rfl
@[simp] theorem State.modGroup_link (p : Nat) (f : Group → Group) : (s.modGroup p f).link = s.link := rfl
@[simp] theorem State.modGroup_sec (p : Nat) (f : Group → Group) : (s.modGroup p f).sec = s.sec := rfl
@[simp] theorem State.modGroup_cfg (p : Nat) (f : Group → Group) : (s.modGroup p f).cfg = s.cfg := rfl
@[simp] theorem State.modGroup_flash (p : Nat) (f : Group → Group) : (s.modGroup p f).flash = s.flash := rfl
@[simp] theorem State.modGroup_ledger (p : Nat) (f : Group → Group) : (s.modGroup p f).ledger = s.ledger := rfl
@[simp] theorem State.modGroup_test (p : Nat) (f : Group → Group) : (s.modGroup p f).test = s.test := rfl

@[simp] theorem State.modUnit_pending (p : Nat) (f : GroupUnits → GroupUnits) : (s.modUnit p f).pending = s.pending := rfl
@[simp] theorem State.modUnit_beat (p : Nat) (f : GroupUnits → GroupUnits) : (s.modUnit p f).beat = s.beat := rfl
@[simp] theorem State.modUnit_cycle (p : Nat) (f : GroupUnits → GroupUnits) : (s.modUnit p f).cycle = s.cycle := rfl
@[simp] theorem State.modUnit_free (p : Nat) (f : GroupUnits → GroupUnits) : (s.modUnit p f).free = s.free := rfl
@[simp] theorem State.modUnit_mem (p : Nat) (f : GroupUnits → GroupUnits) : (s.modUnit p f).mem = s.mem := rfl
@[simp] theorem State.modUnit_groups (p : Nat) (f : GroupUnits → GroupUnits) : (s.modUnit p f).groups = s.groups := rfl
@[simp] theorem State.modUnit_units (p : Nat) (f : GroupUnits → GroupUnits) : (s.modUnit p f).units = s.units.put p (f (s.unit p)) := rfl
@[simp] theorem State.modUnit_clusters (p : Nat) (f : GroupUnits → GroupUnits) : (s.modUnit p f).clusters = s.clusters := rfl
@[simp] theorem State.modUnit_rings (p : Nat) (f : GroupUnits → GroupUnits) : (s.modUnit p f).rings = s.rings := rfl
@[simp] theorem State.modUnit_work (p : Nat) (f : GroupUnits → GroupUnits) : (s.modUnit p f).work = s.work := rfl
@[simp] theorem State.modUnit_host (p : Nat) (f : GroupUnits → GroupUnits) : (s.modUnit p f).host = s.host := rfl
@[simp] theorem State.modUnit_faults (p : Nat) (f : GroupUnits → GroupUnits) : (s.modUnit p f).faults = s.faults := rfl
@[simp] theorem State.modUnit_memSys (p : Nat) (f : GroupUnits → GroupUnits) : (s.modUnit p f).memSys = s.memSys := rfl
@[simp] theorem State.modUnit_fuses (p : Nat) (f : GroupUnits → GroupUnits) : (s.modUnit p f).fuses = s.fuses := rfl
@[simp] theorem State.modUnit_power (p : Nat) (f : GroupUnits → GroupUnits) : (s.modUnit p f).power = s.power := rfl
@[simp] theorem State.modUnit_rst (p : Nat) (f : GroupUnits → GroupUnits) : (s.modUnit p f).rst = s.rst := rfl
@[simp] theorem State.modUnit_mode (p : Nat) (f : GroupUnits → GroupUnits) : (s.modUnit p f).mode = s.mode := rfl
@[simp] theorem State.modUnit_pins (p : Nat) (f : GroupUnits → GroupUnits) : (s.modUnit p f).pins = s.pins := rfl
@[simp] theorem State.modUnit_link (p : Nat) (f : GroupUnits → GroupUnits) : (s.modUnit p f).link = s.link := rfl
@[simp] theorem State.modUnit_sec (p : Nat) (f : GroupUnits → GroupUnits) : (s.modUnit p f).sec = s.sec := rfl
@[simp] theorem State.modUnit_cfg (p : Nat) (f : GroupUnits → GroupUnits) : (s.modUnit p f).cfg = s.cfg := rfl
@[simp] theorem State.modUnit_flash (p : Nat) (f : GroupUnits → GroupUnits) : (s.modUnit p f).flash = s.flash := rfl
@[simp] theorem State.modUnit_ledger (p : Nat) (f : GroupUnits → GroupUnits) : (s.modUnit p f).ledger = s.ledger := rfl
@[simp] theorem State.modUnit_test (p : Nat) (f : GroupUnits → GroupUnits) : (s.modUnit p f).test = s.test := rfl

@[simp] theorem State.modCluster_pending (k : Nat) (f : Cluster → Cluster) : (s.modCluster k f).pending = s.pending := rfl
@[simp] theorem State.modCluster_beat (k : Nat) (f : Cluster → Cluster) : (s.modCluster k f).beat = s.beat := rfl
@[simp] theorem State.modCluster_cycle (k : Nat) (f : Cluster → Cluster) : (s.modCluster k f).cycle = s.cycle := rfl
@[simp] theorem State.modCluster_free (k : Nat) (f : Cluster → Cluster) : (s.modCluster k f).free = s.free := rfl
@[simp] theorem State.modCluster_mem (k : Nat) (f : Cluster → Cluster) : (s.modCluster k f).mem = s.mem := rfl
@[simp] theorem State.modCluster_groups (k : Nat) (f : Cluster → Cluster) : (s.modCluster k f).groups = s.groups := rfl
@[simp] theorem State.modCluster_units (k : Nat) (f : Cluster → Cluster) : (s.modCluster k f).units = s.units := rfl
@[simp] theorem State.modCluster_clusters (k : Nat) (f : Cluster → Cluster) : (s.modCluster k f).clusters = s.clusters.put k (f (s.cluster k)) := rfl
@[simp] theorem State.modCluster_rings (k : Nat) (f : Cluster → Cluster) : (s.modCluster k f).rings = s.rings := rfl
@[simp] theorem State.modCluster_work (k : Nat) (f : Cluster → Cluster) : (s.modCluster k f).work = s.work := rfl
@[simp] theorem State.modCluster_host (k : Nat) (f : Cluster → Cluster) : (s.modCluster k f).host = s.host := rfl
@[simp] theorem State.modCluster_faults (k : Nat) (f : Cluster → Cluster) : (s.modCluster k f).faults = s.faults := rfl
@[simp] theorem State.modCluster_memSys (k : Nat) (f : Cluster → Cluster) : (s.modCluster k f).memSys = s.memSys := rfl
@[simp] theorem State.modCluster_fuses (k : Nat) (f : Cluster → Cluster) : (s.modCluster k f).fuses = s.fuses := rfl
@[simp] theorem State.modCluster_power (k : Nat) (f : Cluster → Cluster) : (s.modCluster k f).power = s.power := rfl
@[simp] theorem State.modCluster_rst (k : Nat) (f : Cluster → Cluster) : (s.modCluster k f).rst = s.rst := rfl
@[simp] theorem State.modCluster_mode (k : Nat) (f : Cluster → Cluster) : (s.modCluster k f).mode = s.mode := rfl
@[simp] theorem State.modCluster_pins (k : Nat) (f : Cluster → Cluster) : (s.modCluster k f).pins = s.pins := rfl
@[simp] theorem State.modCluster_link (k : Nat) (f : Cluster → Cluster) : (s.modCluster k f).link = s.link := rfl
@[simp] theorem State.modCluster_sec (k : Nat) (f : Cluster → Cluster) : (s.modCluster k f).sec = s.sec := rfl
@[simp] theorem State.modCluster_cfg (k : Nat) (f : Cluster → Cluster) : (s.modCluster k f).cfg = s.cfg := rfl
@[simp] theorem State.modCluster_flash (k : Nat) (f : Cluster → Cluster) : (s.modCluster k f).flash = s.flash := rfl
@[simp] theorem State.modCluster_ledger (k : Nat) (f : Cluster → Cluster) : (s.modCluster k f).ledger = s.ledger := rfl
@[simp] theorem State.modCluster_test (k : Nat) (f : Cluster → Cluster) : (s.modCluster k f).test = s.test := rfl

@[simp] theorem State.modRing_pending (k r : Nat) (f : Ring → Ring) : (s.modRing k r f).pending = s.pending := rfl
@[simp] theorem State.modRing_beat (k r : Nat) (f : Ring → Ring) : (s.modRing k r f).beat = s.beat := rfl
@[simp] theorem State.modRing_cycle (k r : Nat) (f : Ring → Ring) : (s.modRing k r f).cycle = s.cycle := rfl
@[simp] theorem State.modRing_free (k r : Nat) (f : Ring → Ring) : (s.modRing k r f).free = s.free := rfl
@[simp] theorem State.modRing_mem (k r : Nat) (f : Ring → Ring) : (s.modRing k r f).mem = s.mem := rfl
@[simp] theorem State.modRing_groups (k r : Nat) (f : Ring → Ring) : (s.modRing k r f).groups = s.groups := rfl
@[simp] theorem State.modRing_units (k r : Nat) (f : Ring → Ring) : (s.modRing k r f).units = s.units := rfl
@[simp] theorem State.modRing_clusters (k r : Nat) (f : Ring → Ring) : (s.modRing k r f).clusters = s.clusters := rfl
@[simp] theorem State.modRing_rings (k r : Nat) (f : Ring → Ring) : (s.modRing k r f).rings = s.rings.put (16 * k + r) (f (s.ring k r)) := rfl
@[simp] theorem State.modRing_work (k r : Nat) (f : Ring → Ring) : (s.modRing k r f).work = s.work := rfl
@[simp] theorem State.modRing_host (k r : Nat) (f : Ring → Ring) : (s.modRing k r f).host = s.host := rfl
@[simp] theorem State.modRing_faults (k r : Nat) (f : Ring → Ring) : (s.modRing k r f).faults = s.faults := rfl
@[simp] theorem State.modRing_memSys (k r : Nat) (f : Ring → Ring) : (s.modRing k r f).memSys = s.memSys := rfl
@[simp] theorem State.modRing_fuses (k r : Nat) (f : Ring → Ring) : (s.modRing k r f).fuses = s.fuses := rfl
@[simp] theorem State.modRing_power (k r : Nat) (f : Ring → Ring) : (s.modRing k r f).power = s.power := rfl
@[simp] theorem State.modRing_rst (k r : Nat) (f : Ring → Ring) : (s.modRing k r f).rst = s.rst := rfl
@[simp] theorem State.modRing_mode (k r : Nat) (f : Ring → Ring) : (s.modRing k r f).mode = s.mode := rfl
@[simp] theorem State.modRing_pins (k r : Nat) (f : Ring → Ring) : (s.modRing k r f).pins = s.pins := rfl
@[simp] theorem State.modRing_link (k r : Nat) (f : Ring → Ring) : (s.modRing k r f).link = s.link := rfl
@[simp] theorem State.modRing_sec (k r : Nat) (f : Ring → Ring) : (s.modRing k r f).sec = s.sec := rfl
@[simp] theorem State.modRing_cfg (k r : Nat) (f : Ring → Ring) : (s.modRing k r f).cfg = s.cfg := rfl
@[simp] theorem State.modRing_flash (k r : Nat) (f : Ring → Ring) : (s.modRing k r f).flash = s.flash := rfl
@[simp] theorem State.modRing_ledger (k r : Nat) (f : Ring → Ring) : (s.modRing k r f).ledger = s.ledger := rfl
@[simp] theorem State.modRing_test (k r : Nat) (f : Ring → Ring) : (s.modRing k r f).test = s.test := rfl

@[simp] theorem State.modRun_pending (id : Nat) (f : JobRun → JobRun) : (s.modRun id f).pending = s.pending := rfl
@[simp] theorem State.modRun_beat (id : Nat) (f : JobRun → JobRun) : (s.modRun id f).beat = s.beat := rfl
@[simp] theorem State.modRun_cycle (id : Nat) (f : JobRun → JobRun) : (s.modRun id f).cycle = s.cycle := rfl
@[simp] theorem State.modRun_free (id : Nat) (f : JobRun → JobRun) : (s.modRun id f).free = s.free := rfl
@[simp] theorem State.modRun_mem (id : Nat) (f : JobRun → JobRun) : (s.modRun id f).mem = s.mem := rfl
@[simp] theorem State.modRun_groups (id : Nat) (f : JobRun → JobRun) : (s.modRun id f).groups = s.groups := rfl
@[simp] theorem State.modRun_units (id : Nat) (f : JobRun → JobRun) : (s.modRun id f).units = s.units := rfl
@[simp] theorem State.modRun_clusters (id : Nat) (f : JobRun → JobRun) : (s.modRun id f).clusters = s.clusters := rfl
@[simp] theorem State.modRun_rings (id : Nat) (f : JobRun → JobRun) : (s.modRun id f).rings = s.rings := rfl
@[simp] theorem State.modRun_work (id : Nat) (f : JobRun → JobRun) : (s.modRun id f).work = { s.work with runs := s.work.runs.put id (f (s.run id)) } := rfl
@[simp] theorem State.modRun_host (id : Nat) (f : JobRun → JobRun) : (s.modRun id f).host = s.host := rfl
@[simp] theorem State.modRun_faults (id : Nat) (f : JobRun → JobRun) : (s.modRun id f).faults = s.faults := rfl
@[simp] theorem State.modRun_memSys (id : Nat) (f : JobRun → JobRun) : (s.modRun id f).memSys = s.memSys := rfl
@[simp] theorem State.modRun_fuses (id : Nat) (f : JobRun → JobRun) : (s.modRun id f).fuses = s.fuses := rfl
@[simp] theorem State.modRun_power (id : Nat) (f : JobRun → JobRun) : (s.modRun id f).power = s.power := rfl
@[simp] theorem State.modRun_rst (id : Nat) (f : JobRun → JobRun) : (s.modRun id f).rst = s.rst := rfl
@[simp] theorem State.modRun_mode (id : Nat) (f : JobRun → JobRun) : (s.modRun id f).mode = s.mode := rfl
@[simp] theorem State.modRun_pins (id : Nat) (f : JobRun → JobRun) : (s.modRun id f).pins = s.pins := rfl
@[simp] theorem State.modRun_link (id : Nat) (f : JobRun → JobRun) : (s.modRun id f).link = s.link := rfl
@[simp] theorem State.modRun_sec (id : Nat) (f : JobRun → JobRun) : (s.modRun id f).sec = s.sec := rfl
@[simp] theorem State.modRun_cfg (id : Nat) (f : JobRun → JobRun) : (s.modRun id f).cfg = s.cfg := rfl
@[simp] theorem State.modRun_flash (id : Nat) (f : JobRun → JobRun) : (s.modRun id f).flash = s.flash := rfl
@[simp] theorem State.modRun_ledger (id : Nat) (f : JobRun → JobRun) : (s.modRun id f).ledger = s.ledger := rfl
@[simp] theorem State.modRun_test (id : Nat) (f : JobRun → JobRun) : (s.modRun id f).test = s.test := rfl

@[simp] theorem State.modFunc_pending (fn : Nat) (f : Func → Func) : (s.modFunc fn f).pending = s.pending := rfl
@[simp] theorem State.modFunc_beat (fn : Nat) (f : Func → Func) : (s.modFunc fn f).beat = s.beat := rfl
@[simp] theorem State.modFunc_cycle (fn : Nat) (f : Func → Func) : (s.modFunc fn f).cycle = s.cycle := rfl
@[simp] theorem State.modFunc_free (fn : Nat) (f : Func → Func) : (s.modFunc fn f).free = s.free := rfl
@[simp] theorem State.modFunc_mem (fn : Nat) (f : Func → Func) : (s.modFunc fn f).mem = s.mem := rfl
@[simp] theorem State.modFunc_groups (fn : Nat) (f : Func → Func) : (s.modFunc fn f).groups = s.groups := rfl
@[simp] theorem State.modFunc_units (fn : Nat) (f : Func → Func) : (s.modFunc fn f).units = s.units := rfl
@[simp] theorem State.modFunc_clusters (fn : Nat) (f : Func → Func) : (s.modFunc fn f).clusters = s.clusters := rfl
@[simp] theorem State.modFunc_rings (fn : Nat) (f : Func → Func) : (s.modFunc fn f).rings = s.rings := rfl
@[simp] theorem State.modFunc_work (fn : Nat) (f : Func → Func) : (s.modFunc fn f).work = s.work := rfl
@[simp] theorem State.modFunc_host (fn : Nat) (f : Func → Func) : (s.modFunc fn f).host = { s.host with funcs := s.host.funcs.put fn (f (s.func fn)) } := rfl
@[simp] theorem State.modFunc_faults (fn : Nat) (f : Func → Func) : (s.modFunc fn f).faults = s.faults := rfl
@[simp] theorem State.modFunc_memSys (fn : Nat) (f : Func → Func) : (s.modFunc fn f).memSys = s.memSys := rfl
@[simp] theorem State.modFunc_fuses (fn : Nat) (f : Func → Func) : (s.modFunc fn f).fuses = s.fuses := rfl
@[simp] theorem State.modFunc_power (fn : Nat) (f : Func → Func) : (s.modFunc fn f).power = s.power := rfl
@[simp] theorem State.modFunc_rst (fn : Nat) (f : Func → Func) : (s.modFunc fn f).rst = s.rst := rfl
@[simp] theorem State.modFunc_mode (fn : Nat) (f : Func → Func) : (s.modFunc fn f).mode = s.mode := rfl
@[simp] theorem State.modFunc_pins (fn : Nat) (f : Func → Func) : (s.modFunc fn f).pins = s.pins := rfl
@[simp] theorem State.modFunc_link (fn : Nat) (f : Func → Func) : (s.modFunc fn f).link = s.link := rfl
@[simp] theorem State.modFunc_sec (fn : Nat) (f : Func → Func) : (s.modFunc fn f).sec = s.sec := rfl
@[simp] theorem State.modFunc_cfg (fn : Nat) (f : Func → Func) : (s.modFunc fn f).cfg = s.cfg := rfl
@[simp] theorem State.modFunc_flash (fn : Nat) (f : Func → Func) : (s.modFunc fn f).flash = s.flash := rfl
@[simp] theorem State.modFunc_ledger (fn : Nat) (f : Func → Func) : (s.modFunc fn f).ledger = s.ledger := rfl
@[simp] theorem State.modFunc_test (fn : Nat) (f : Func → Func) : (s.modFunc fn f).test = s.test := rfl

@[simp] theorem State.modPort_pending (n : Nat) (f : Port → Port) : (s.modPort n f).pending = s.pending := rfl
@[simp] theorem State.modPort_beat (n : Nat) (f : Port → Port) : (s.modPort n f).beat = s.beat := rfl
@[simp] theorem State.modPort_cycle (n : Nat) (f : Port → Port) : (s.modPort n f).cycle = s.cycle := rfl
@[simp] theorem State.modPort_free (n : Nat) (f : Port → Port) : (s.modPort n f).free = s.free := rfl
@[simp] theorem State.modPort_mem (n : Nat) (f : Port → Port) : (s.modPort n f).mem = s.mem := rfl
@[simp] theorem State.modPort_groups (n : Nat) (f : Port → Port) : (s.modPort n f).groups = s.groups := rfl
@[simp] theorem State.modPort_units (n : Nat) (f : Port → Port) : (s.modPort n f).units = s.units := rfl
@[simp] theorem State.modPort_clusters (n : Nat) (f : Port → Port) : (s.modPort n f).clusters = s.clusters := rfl
@[simp] theorem State.modPort_rings (n : Nat) (f : Port → Port) : (s.modPort n f).rings = s.rings := rfl
@[simp] theorem State.modPort_work (n : Nat) (f : Port → Port) : (s.modPort n f).work = s.work := rfl
@[simp] theorem State.modPort_host (n : Nat) (f : Port → Port) : (s.modPort n f).host = s.host := rfl
@[simp] theorem State.modPort_faults (n : Nat) (f : Port → Port) : (s.modPort n f).faults = s.faults := rfl
@[simp] theorem State.modPort_memSys (n : Nat) (f : Port → Port) : (s.modPort n f).memSys = s.memSys := rfl
@[simp] theorem State.modPort_fuses (n : Nat) (f : Port → Port) : (s.modPort n f).fuses = s.fuses := rfl
@[simp] theorem State.modPort_power (n : Nat) (f : Port → Port) : (s.modPort n f).power = s.power := rfl
@[simp] theorem State.modPort_rst (n : Nat) (f : Port → Port) : (s.modPort n f).rst = s.rst := rfl
@[simp] theorem State.modPort_mode (n : Nat) (f : Port → Port) : (s.modPort n f).mode = s.mode := rfl
@[simp] theorem State.modPort_pins (n : Nat) (f : Port → Port) : (s.modPort n f).pins = s.pins := rfl
@[simp] theorem State.modPort_link (n : Nat) (f : Port → Port) : (s.modPort n f).link = { s.link with ports := s.link.ports.put n (f (s.port n)) } := rfl
@[simp] theorem State.modPort_sec (n : Nat) (f : Port → Port) : (s.modPort n f).sec = s.sec := rfl
@[simp] theorem State.modPort_cfg (n : Nat) (f : Port → Port) : (s.modPort n f).cfg = s.cfg := rfl
@[simp] theorem State.modPort_flash (n : Nat) (f : Port → Port) : (s.modPort n f).flash = s.flash := rfl
@[simp] theorem State.modPort_ledger (n : Nat) (f : Port → Port) : (s.modPort n f).ledger = s.ledger := rfl
@[simp] theorem State.modPort_test (n : Nat) (f : Port → Port) : (s.modPort n f).test = s.test := rfl

@[simp] theorem State.modStack_pending (n : Nat) (f : Stack → Stack) : (s.modStack n f).pending = s.pending := rfl
@[simp] theorem State.modStack_beat (n : Nat) (f : Stack → Stack) : (s.modStack n f).beat = s.beat := rfl
@[simp] theorem State.modStack_cycle (n : Nat) (f : Stack → Stack) : (s.modStack n f).cycle = s.cycle := rfl
@[simp] theorem State.modStack_free (n : Nat) (f : Stack → Stack) : (s.modStack n f).free = s.free := rfl
@[simp] theorem State.modStack_mem (n : Nat) (f : Stack → Stack) : (s.modStack n f).mem = s.mem := rfl
@[simp] theorem State.modStack_groups (n : Nat) (f : Stack → Stack) : (s.modStack n f).groups = s.groups := rfl
@[simp] theorem State.modStack_units (n : Nat) (f : Stack → Stack) : (s.modStack n f).units = s.units := rfl
@[simp] theorem State.modStack_clusters (n : Nat) (f : Stack → Stack) : (s.modStack n f).clusters = s.clusters := rfl
@[simp] theorem State.modStack_rings (n : Nat) (f : Stack → Stack) : (s.modStack n f).rings = s.rings := rfl
@[simp] theorem State.modStack_work (n : Nat) (f : Stack → Stack) : (s.modStack n f).work = s.work := rfl
@[simp] theorem State.modStack_host (n : Nat) (f : Stack → Stack) : (s.modStack n f).host = s.host := rfl
@[simp] theorem State.modStack_faults (n : Nat) (f : Stack → Stack) : (s.modStack n f).faults = s.faults := rfl
@[simp] theorem State.modStack_memSys (n : Nat) (f : Stack → Stack) : (s.modStack n f).memSys = { s.memSys with hbmStacks := s.memSys.hbmStacks.put n (f (s.stack n)) } := rfl
@[simp] theorem State.modStack_fuses (n : Nat) (f : Stack → Stack) : (s.modStack n f).fuses = s.fuses := rfl
@[simp] theorem State.modStack_power (n : Nat) (f : Stack → Stack) : (s.modStack n f).power = s.power := rfl
@[simp] theorem State.modStack_rst (n : Nat) (f : Stack → Stack) : (s.modStack n f).rst = s.rst := rfl
@[simp] theorem State.modStack_mode (n : Nat) (f : Stack → Stack) : (s.modStack n f).mode = s.mode := rfl
@[simp] theorem State.modStack_pins (n : Nat) (f : Stack → Stack) : (s.modStack n f).pins = s.pins := rfl
@[simp] theorem State.modStack_link (n : Nat) (f : Stack → Stack) : (s.modStack n f).link = s.link := rfl
@[simp] theorem State.modStack_sec (n : Nat) (f : Stack → Stack) : (s.modStack n f).sec = s.sec := rfl
@[simp] theorem State.modStack_cfg (n : Nat) (f : Stack → Stack) : (s.modStack n f).cfg = s.cfg := rfl
@[simp] theorem State.modStack_flash (n : Nat) (f : Stack → Stack) : (s.modStack n f).flash = s.flash := rfl
@[simp] theorem State.modStack_ledger (n : Nat) (f : Stack → Stack) : (s.modStack n f).ledger = s.ledger := rfl
@[simp] theorem State.modStack_test (n : Nat) (f : Stack → Stack) : (s.modStack n f).test = s.test := rfl

@[simp] theorem State.modDie_pending (n : Nat) (f : MemoryDie → MemoryDie) : (s.modDie n f).pending = s.pending := rfl
@[simp] theorem State.modDie_beat (n : Nat) (f : MemoryDie → MemoryDie) : (s.modDie n f).beat = s.beat := rfl
@[simp] theorem State.modDie_cycle (n : Nat) (f : MemoryDie → MemoryDie) : (s.modDie n f).cycle = s.cycle := rfl
@[simp] theorem State.modDie_free (n : Nat) (f : MemoryDie → MemoryDie) : (s.modDie n f).free = s.free := rfl
@[simp] theorem State.modDie_mem (n : Nat) (f : MemoryDie → MemoryDie) : (s.modDie n f).mem = s.mem := rfl
@[simp] theorem State.modDie_groups (n : Nat) (f : MemoryDie → MemoryDie) : (s.modDie n f).groups = s.groups := rfl
@[simp] theorem State.modDie_units (n : Nat) (f : MemoryDie → MemoryDie) : (s.modDie n f).units = s.units := rfl
@[simp] theorem State.modDie_clusters (n : Nat) (f : MemoryDie → MemoryDie) : (s.modDie n f).clusters = s.clusters := rfl
@[simp] theorem State.modDie_rings (n : Nat) (f : MemoryDie → MemoryDie) : (s.modDie n f).rings = s.rings := rfl
@[simp] theorem State.modDie_work (n : Nat) (f : MemoryDie → MemoryDie) : (s.modDie n f).work = s.work := rfl
@[simp] theorem State.modDie_host (n : Nat) (f : MemoryDie → MemoryDie) : (s.modDie n f).host = s.host := rfl
@[simp] theorem State.modDie_faults (n : Nat) (f : MemoryDie → MemoryDie) : (s.modDie n f).faults = s.faults := rfl
@[simp] theorem State.modDie_memSys (n : Nat) (f : MemoryDie → MemoryDie) : (s.modDie n f).memSys = { s.memSys with dies := s.memSys.dies.put n (f (s.die n)) } := rfl
@[simp] theorem State.modDie_fuses (n : Nat) (f : MemoryDie → MemoryDie) : (s.modDie n f).fuses = s.fuses := rfl
@[simp] theorem State.modDie_power (n : Nat) (f : MemoryDie → MemoryDie) : (s.modDie n f).power = s.power := rfl
@[simp] theorem State.modDie_rst (n : Nat) (f : MemoryDie → MemoryDie) : (s.modDie n f).rst = s.rst := rfl
@[simp] theorem State.modDie_mode (n : Nat) (f : MemoryDie → MemoryDie) : (s.modDie n f).mode = s.mode := rfl
@[simp] theorem State.modDie_pins (n : Nat) (f : MemoryDie → MemoryDie) : (s.modDie n f).pins = s.pins := rfl
@[simp] theorem State.modDie_link (n : Nat) (f : MemoryDie → MemoryDie) : (s.modDie n f).link = s.link := rfl
@[simp] theorem State.modDie_sec (n : Nat) (f : MemoryDie → MemoryDie) : (s.modDie n f).sec = s.sec := rfl
@[simp] theorem State.modDie_cfg (n : Nat) (f : MemoryDie → MemoryDie) : (s.modDie n f).cfg = s.cfg := rfl
@[simp] theorem State.modDie_flash (n : Nat) (f : MemoryDie → MemoryDie) : (s.modDie n f).flash = s.flash := rfl
@[simp] theorem State.modDie_ledger (n : Nat) (f : MemoryDie → MemoryDie) : (s.modDie n f).ledger = s.ledger := rfl
@[simp] theorem State.modDie_test (n : Nat) (f : MemoryDie → MemoryDie) : (s.modDie n f).test = s.test := rfl

@[simp] theorem State.draw_pending (n : Nat) : (s.draw n).pending = s.pending := rfl
@[simp] theorem State.draw_beat (n : Nat) : (s.draw n).beat = s.beat := rfl
@[simp] theorem State.draw_cycle (n : Nat) : (s.draw n).cycle = s.cycle := rfl
@[simp] theorem State.draw_free (n : Nat) : (s.draw n).free = s.free := rfl
@[simp] theorem State.draw_mem (n : Nat) : (s.draw n).mem = s.mem := rfl
@[simp] theorem State.draw_groups (n : Nat) : (s.draw n).groups = s.groups := rfl
@[simp] theorem State.draw_units (n : Nat) : (s.draw n).units = s.units := rfl
@[simp] theorem State.draw_clusters (n : Nat) : (s.draw n).clusters = s.clusters := rfl
@[simp] theorem State.draw_rings (n : Nat) : (s.draw n).rings = s.rings := rfl
@[simp] theorem State.draw_work (n : Nat) : (s.draw n).work = s.work := rfl
@[simp] theorem State.draw_host (n : Nat) : (s.draw n).host = s.host := rfl
@[simp] theorem State.draw_faults (n : Nat) : (s.draw n).faults = s.faults := rfl
@[simp] theorem State.draw_memSys (n : Nat) : (s.draw n).memSys = s.memSys := rfl
@[simp] theorem State.draw_fuses (n : Nat) : (s.draw n).fuses = s.fuses := rfl
@[simp] theorem State.draw_power (n : Nat) : (s.draw n).power = s.power := rfl
@[simp] theorem State.draw_rst (n : Nat) : (s.draw n).rst = s.rst := rfl
@[simp] theorem State.draw_mode (n : Nat) : (s.draw n).mode = s.mode := rfl
@[simp] theorem State.draw_pins (n : Nat) : (s.draw n).pins = s.pins := rfl
@[simp] theorem State.draw_link (n : Nat) : (s.draw n).link = s.link := rfl
@[simp] theorem State.draw_sec (n : Nat) : (s.draw n).sec = { s.sec with drbgPos := s.sec.drbgPos + n, drbgRequests := s.sec.drbgRequests + 1 } := rfl
@[simp] theorem State.draw_cfg (n : Nat) : (s.draw n).cfg = s.cfg := rfl
@[simp] theorem State.draw_flash (n : Nat) : (s.draw n).flash = s.flash := rfl
@[simp] theorem State.draw_ledger (n : Nat) : (s.draw n).ledger = s.ledger := rfl
@[simp] theorem State.draw_test (n : Nat) : (s.draw n).test = s.test := rfl

@[simp] theorem State.count_pending (i n : Nat) : (s.count i n).pending = s.pending := rfl
@[simp] theorem State.count_beat (i n : Nat) : (s.count i n).beat = s.beat := rfl
@[simp] theorem State.count_cycle (i n : Nat) : (s.count i n).cycle = s.cycle := rfl
@[simp] theorem State.count_free (i n : Nat) : (s.count i n).free = s.free := rfl
@[simp] theorem State.count_mem (i n : Nat) : (s.count i n).mem = s.mem := rfl
@[simp] theorem State.count_groups (i n : Nat) : (s.count i n).groups = s.groups := rfl
@[simp] theorem State.count_units (i n : Nat) : (s.count i n).units = s.units := rfl
@[simp] theorem State.count_clusters (i n : Nat) : (s.count i n).clusters = s.clusters := rfl
@[simp] theorem State.count_rings (i n : Nat) : (s.count i n).rings = s.rings := rfl
@[simp] theorem State.count_work (i n : Nat) : (s.count i n).work = s.work := rfl
@[simp] theorem State.count_host (i n : Nat) : (s.count i n).host = s.host := rfl
@[simp] theorem State.count_faults (i n : Nat) : (s.count i n).faults = s.faults := rfl
@[simp] theorem State.count_memSys (i n : Nat) : (s.count i n).memSys = s.memSys := rfl
@[simp] theorem State.count_fuses (i n : Nat) : (s.count i n).fuses = s.fuses := rfl
@[simp] theorem State.count_power (i n : Nat) : (s.count i n).power = s.power := rfl
@[simp] theorem State.count_rst (i n : Nat) : (s.count i n).rst = s.rst := rfl
@[simp] theorem State.count_mode (i n : Nat) : (s.count i n).mode = s.mode := rfl
@[simp] theorem State.count_pins (i n : Nat) : (s.count i n).pins = s.pins := rfl
@[simp] theorem State.count_link (i n : Nat) : (s.count i n).link = s.link := rfl
@[simp] theorem State.count_sec (i n : Nat) : (s.count i n).sec = s.sec := rfl
@[simp] theorem State.count_cfg (i n : Nat) : (s.count i n).cfg = s.cfg := rfl
@[simp] theorem State.count_flash (i n : Nat) : (s.count i n).flash = s.flash := rfl
@[simp] theorem State.count_ledger (i n : Nat) : (s.count i n).ledger = { s.ledger with counters := s.ledger.counters.modify i 0 fun c => satAdd c n } := rfl
@[simp] theorem State.count_test (i n : Nat) : (s.count i n).test = s.test := rfl

@[simp] theorem State.fire_pending (fn i : Nat) : (s.fire fn i).pending = s.pending := rfl
@[simp] theorem State.fire_beat (fn i : Nat) : (s.fire fn i).beat = s.beat := rfl
@[simp] theorem State.fire_cycle (fn i : Nat) : (s.fire fn i).cycle = s.cycle := rfl
@[simp] theorem State.fire_free (fn i : Nat) : (s.fire fn i).free = s.free := rfl
@[simp] theorem State.fire_mem (fn i : Nat) : (s.fire fn i).mem = s.mem := rfl
@[simp] theorem State.fire_groups (fn i : Nat) : (s.fire fn i).groups = s.groups := rfl
@[simp] theorem State.fire_units (fn i : Nat) : (s.fire fn i).units = s.units := rfl
@[simp] theorem State.fire_clusters (fn i : Nat) : (s.fire fn i).clusters = s.clusters := rfl
@[simp] theorem State.fire_rings (fn i : Nat) : (s.fire fn i).rings = s.rings := rfl
@[simp] theorem State.fire_work (fn i : Nat) : (s.fire fn i).work = s.work := rfl
@[simp] theorem State.fire_host (fn i : Nat) : (s.fire fn i).host = { s.host with funcs := s.host.funcs.put fn { s.func fn with evPending := setBit (s.func fn).evPending i } } := rfl
@[simp] theorem State.fire_faults (fn i : Nat) : (s.fire fn i).faults = s.faults := rfl
@[simp] theorem State.fire_memSys (fn i : Nat) : (s.fire fn i).memSys = s.memSys := rfl
@[simp] theorem State.fire_fuses (fn i : Nat) : (s.fire fn i).fuses = s.fuses := rfl
@[simp] theorem State.fire_power (fn i : Nat) : (s.fire fn i).power = s.power := rfl
@[simp] theorem State.fire_rst (fn i : Nat) : (s.fire fn i).rst = s.rst := rfl
@[simp] theorem State.fire_mode (fn i : Nat) : (s.fire fn i).mode = s.mode := rfl
@[simp] theorem State.fire_pins (fn i : Nat) : (s.fire fn i).pins = s.pins := rfl
@[simp] theorem State.fire_link (fn i : Nat) : (s.fire fn i).link = s.link := rfl
@[simp] theorem State.fire_sec (fn i : Nat) : (s.fire fn i).sec = s.sec := rfl
@[simp] theorem State.fire_cfg (fn i : Nat) : (s.fire fn i).cfg = s.cfg := rfl
@[simp] theorem State.fire_flash (fn i : Nat) : (s.fire fn i).flash = s.flash := rfl
@[simp] theorem State.fire_ledger (fn i : Nat) : (s.fire fn i).ledger = s.ledger := rfl
@[simp] theorem State.fire_test (fn i : Nat) : (s.fire fn i).test = s.test := rfl

@[simp] theorem State.spend_pending (n : Nat) : (s.spend n).pending = s.pending := rfl
@[simp] theorem State.spend_beat (n : Nat) : (s.spend n).beat = s.beat := rfl
@[simp] theorem State.spend_cycle (n : Nat) : (s.spend n).cycle = s.cycle := rfl
@[simp] theorem State.spend_free (n : Nat) : (s.spend n).free = s.free + n := rfl
@[simp] theorem State.spend_mem (n : Nat) : (s.spend n).mem = s.mem := rfl
@[simp] theorem State.spend_groups (n : Nat) : (s.spend n).groups = s.groups := rfl
@[simp] theorem State.spend_units (n : Nat) : (s.spend n).units = s.units := rfl
@[simp] theorem State.spend_clusters (n : Nat) : (s.spend n).clusters = s.clusters := rfl
@[simp] theorem State.spend_rings (n : Nat) : (s.spend n).rings = s.rings := rfl
@[simp] theorem State.spend_work (n : Nat) : (s.spend n).work = s.work := rfl
@[simp] theorem State.spend_host (n : Nat) : (s.spend n).host = s.host := rfl
@[simp] theorem State.spend_faults (n : Nat) : (s.spend n).faults = s.faults := rfl
@[simp] theorem State.spend_memSys (n : Nat) : (s.spend n).memSys = s.memSys := rfl
@[simp] theorem State.spend_fuses (n : Nat) : (s.spend n).fuses = s.fuses := rfl
@[simp] theorem State.spend_power (n : Nat) : (s.spend n).power = s.power := rfl
@[simp] theorem State.spend_rst (n : Nat) : (s.spend n).rst = s.rst := rfl
@[simp] theorem State.spend_mode (n : Nat) : (s.spend n).mode = s.mode := rfl
@[simp] theorem State.spend_pins (n : Nat) : (s.spend n).pins = s.pins := rfl
@[simp] theorem State.spend_link (n : Nat) : (s.spend n).link = s.link := rfl
@[simp] theorem State.spend_sec (n : Nat) : (s.spend n).sec = s.sec := rfl
@[simp] theorem State.spend_cfg (n : Nat) : (s.spend n).cfg = s.cfg := rfl
@[simp] theorem State.spend_flash (n : Nat) : (s.spend n).flash = s.flash := rfl
@[simp] theorem State.spend_ledger (n : Nat) : (s.spend n).ledger = s.ledger := rfl
@[simp] theorem State.spend_test (n : Nat) : (s.spend n).test = s.test := rfl

@[simp] theorem State.advance_pending (k w c : Nat) : (s.advance k w c).pending = s.pending := rfl
@[simp] theorem State.advance_beat (k w c : Nat) : (s.advance k w c).beat = s.beat := rfl
@[simp] theorem State.advance_cycle (k w c : Nat) : (s.advance k w c).cycle = s.cycle := rfl
@[simp] theorem State.advance_free (k w c : Nat) : (s.advance k w c).free = s.free := rfl
@[simp] theorem State.advance_mem (k w c : Nat) : (s.advance k w c).mem = s.mem := rfl
@[simp] theorem State.advance_groups (k w c : Nat) : (s.advance k w c).groups = s.groups := rfl
@[simp] theorem State.advance_units (k w c : Nat) : (s.advance k w c).units = s.units := rfl
@[simp] theorem State.advance_clusters (k w c : Nat) : (s.advance k w c).clusters = s.clusters.put k { s.cluster k with lastItem := (s.cluster k).pc.toNat, pc := (s.cluster k).pc + BitVec.ofNat 32 w, nextAt := (s.cluster k).nextAt + c } := rfl
@[simp] theorem State.advance_rings (k w c : Nat) : (s.advance k w c).rings = s.rings := rfl
@[simp] theorem State.advance_work (k w c : Nat) : (s.advance k w c).work = s.work := rfl
@[simp] theorem State.advance_host (k w c : Nat) : (s.advance k w c).host = s.host := rfl
@[simp] theorem State.advance_faults (k w c : Nat) : (s.advance k w c).faults = s.faults := rfl
@[simp] theorem State.advance_memSys (k w c : Nat) : (s.advance k w c).memSys = s.memSys := rfl
@[simp] theorem State.advance_fuses (k w c : Nat) : (s.advance k w c).fuses = s.fuses := rfl
@[simp] theorem State.advance_power (k w c : Nat) : (s.advance k w c).power = s.power := rfl
@[simp] theorem State.advance_rst (k w c : Nat) : (s.advance k w c).rst = s.rst := rfl
@[simp] theorem State.advance_mode (k w c : Nat) : (s.advance k w c).mode = s.mode := rfl
@[simp] theorem State.advance_pins (k w c : Nat) : (s.advance k w c).pins = s.pins := rfl
@[simp] theorem State.advance_link (k w c : Nat) : (s.advance k w c).link = s.link := rfl
@[simp] theorem State.advance_sec (k w c : Nat) : (s.advance k w c).sec = s.sec := rfl
@[simp] theorem State.advance_cfg (k w c : Nat) : (s.advance k w c).cfg = s.cfg := rfl
@[simp] theorem State.advance_flash (k w c : Nat) : (s.advance k w c).flash = s.flash := rfl
@[simp] theorem State.advance_ledger (k w c : Nat) : (s.advance k w c).ledger = s.ledger := rfl
@[simp] theorem State.advance_test (k w c : Nat) : (s.advance k w c).test = s.test := rfl

@[simp] theorem State.stamp_pending (k t : Nat) : (s.stamp k t).pending = s.pending := rfl
@[simp] theorem State.stamp_beat (k t : Nat) : (s.stamp k t).beat = s.beat := rfl
@[simp] theorem State.stamp_cycle (k t : Nat) : (s.stamp k t).cycle = s.cycle := rfl
@[simp] theorem State.stamp_free (k t : Nat) : (s.stamp k t).free = s.free := rfl
@[simp] theorem State.stamp_mem (k t : Nat) : (s.stamp k t).mem = s.mem := rfl
@[simp] theorem State.stamp_groups (k t : Nat) : (s.stamp k t).groups = s.groups := rfl
@[simp] theorem State.stamp_units (k t : Nat) : (s.stamp k t).units = s.units := rfl
@[simp] theorem State.stamp_clusters (k t : Nat) : (s.stamp k t).clusters = s.clusters.put k { s.cluster k with issueAt := t, issued := true } := rfl
@[simp] theorem State.stamp_rings (k t : Nat) : (s.stamp k t).rings = s.rings := rfl
@[simp] theorem State.stamp_work (k t : Nat) : (s.stamp k t).work = s.work := rfl
@[simp] theorem State.stamp_host (k t : Nat) : (s.stamp k t).host = s.host := rfl
@[simp] theorem State.stamp_faults (k t : Nat) : (s.stamp k t).faults = s.faults := rfl
@[simp] theorem State.stamp_memSys (k t : Nat) : (s.stamp k t).memSys = s.memSys := rfl
@[simp] theorem State.stamp_fuses (k t : Nat) : (s.stamp k t).fuses = s.fuses := rfl
@[simp] theorem State.stamp_power (k t : Nat) : (s.stamp k t).power = s.power := rfl
@[simp] theorem State.stamp_rst (k t : Nat) : (s.stamp k t).rst = s.rst := rfl
@[simp] theorem State.stamp_mode (k t : Nat) : (s.stamp k t).mode = s.mode := rfl
@[simp] theorem State.stamp_pins (k t : Nat) : (s.stamp k t).pins = s.pins := rfl
@[simp] theorem State.stamp_link (k t : Nat) : (s.stamp k t).link = s.link := rfl
@[simp] theorem State.stamp_sec (k t : Nat) : (s.stamp k t).sec = s.sec := rfl
@[simp] theorem State.stamp_cfg (k t : Nat) : (s.stamp k t).cfg = s.cfg := rfl
@[simp] theorem State.stamp_flash (k t : Nat) : (s.stamp k t).flash = s.flash := rfl
@[simp] theorem State.stamp_ledger (k t : Nat) : (s.stamp k t).ledger = s.ledger := rfl
@[simp] theorem State.stamp_test (k t : Nat) : (s.stamp k t).test = s.test := rfl

@[simp] theorem State.occupy_pending (k e t : Nat) : (s.occupy k e t).pending = s.pending := rfl
@[simp] theorem State.occupy_beat (k e t : Nat) : (s.occupy k e t).beat = s.beat := rfl
@[simp] theorem State.occupy_cycle (k e t : Nat) : (s.occupy k e t).cycle = s.cycle := rfl
@[simp] theorem State.occupy_free (k e t : Nat) : (s.occupy k e t).free = s.free := rfl
@[simp] theorem State.occupy_mem (k e t : Nat) : (s.occupy k e t).mem = s.mem := rfl
@[simp] theorem State.occupy_groups (k e t : Nat) : (s.occupy k e t).groups = s.groups := rfl
@[simp] theorem State.occupy_units (k e t : Nat) : (s.occupy k e t).units = s.units := rfl
@[simp] theorem State.occupy_clusters (k e t : Nat) : (s.occupy k e t).clusters = s.clusters.put k { s.cluster k with busy := (s.cluster k).busy.put e (max t ((s.cluster k).busy.at e 0)) } := rfl
@[simp] theorem State.occupy_rings (k e t : Nat) : (s.occupy k e t).rings = s.rings := rfl
@[simp] theorem State.occupy_work (k e t : Nat) : (s.occupy k e t).work = s.work := rfl
@[simp] theorem State.occupy_host (k e t : Nat) : (s.occupy k e t).host = s.host := rfl
@[simp] theorem State.occupy_faults (k e t : Nat) : (s.occupy k e t).faults = s.faults := rfl
@[simp] theorem State.occupy_memSys (k e t : Nat) : (s.occupy k e t).memSys = s.memSys := rfl
@[simp] theorem State.occupy_fuses (k e t : Nat) : (s.occupy k e t).fuses = s.fuses := rfl
@[simp] theorem State.occupy_power (k e t : Nat) : (s.occupy k e t).power = s.power := rfl
@[simp] theorem State.occupy_rst (k e t : Nat) : (s.occupy k e t).rst = s.rst := rfl
@[simp] theorem State.occupy_mode (k e t : Nat) : (s.occupy k e t).mode = s.mode := rfl
@[simp] theorem State.occupy_pins (k e t : Nat) : (s.occupy k e t).pins = s.pins := rfl
@[simp] theorem State.occupy_link (k e t : Nat) : (s.occupy k e t).link = s.link := rfl
@[simp] theorem State.occupy_sec (k e t : Nat) : (s.occupy k e t).sec = s.sec := rfl
@[simp] theorem State.occupy_cfg (k e t : Nat) : (s.occupy k e t).cfg = s.cfg := rfl
@[simp] theorem State.occupy_flash (k e t : Nat) : (s.occupy k e t).flash = s.flash := rfl
@[simp] theorem State.occupy_ledger (k e t : Nat) : (s.occupy k e t).ledger = s.ledger := rfl
@[simp] theorem State.occupy_test (k e t : Nat) : (s.occupy k e t).test = s.test := rfl

@[simp] theorem State.modJob_pending (id : Nat) (f : Job → Job) : (s.modJob id f).pending = s.pending := by
  unfold State.modJob; split <;> rfl
@[simp] theorem State.modJob_beat (id : Nat) (f : Job → Job) : (s.modJob id f).beat = s.beat := by
  unfold State.modJob; split <;> rfl
@[simp] theorem State.modJob_cycle (id : Nat) (f : Job → Job) : (s.modJob id f).cycle = s.cycle := by
  unfold State.modJob; split <;> rfl
@[simp] theorem State.modJob_free (id : Nat) (f : Job → Job) : (s.modJob id f).free = s.free := by
  unfold State.modJob; split <;> rfl
@[simp] theorem State.modJob_mem (id : Nat) (f : Job → Job) : (s.modJob id f).mem = s.mem := by
  unfold State.modJob; split <;> rfl
@[simp] theorem State.modJob_groups (id : Nat) (f : Job → Job) : (s.modJob id f).groups = s.groups := by
  unfold State.modJob; split <;> rfl
@[simp] theorem State.modJob_units (id : Nat) (f : Job → Job) : (s.modJob id f).units = s.units := by
  unfold State.modJob; split <;> rfl
@[simp] theorem State.modJob_clusters (id : Nat) (f : Job → Job) : (s.modJob id f).clusters = s.clusters := by
  unfold State.modJob; split <;> rfl
@[simp] theorem State.modJob_rings (id : Nat) (f : Job → Job) : (s.modJob id f).rings = s.rings := by
  unfold State.modJob; split <;> rfl
@[simp] theorem State.modJob_host (id : Nat) (f : Job → Job) : (s.modJob id f).host = s.host := by
  unfold State.modJob; split <;> rfl
@[simp] theorem State.modJob_faults (id : Nat) (f : Job → Job) : (s.modJob id f).faults = s.faults := by
  unfold State.modJob; split <;> rfl
@[simp] theorem State.modJob_memSys (id : Nat) (f : Job → Job) : (s.modJob id f).memSys = s.memSys := by
  unfold State.modJob; split <;> rfl
@[simp] theorem State.modJob_fuses (id : Nat) (f : Job → Job) : (s.modJob id f).fuses = s.fuses := by
  unfold State.modJob; split <;> rfl
@[simp] theorem State.modJob_power (id : Nat) (f : Job → Job) : (s.modJob id f).power = s.power := by
  unfold State.modJob; split <;> rfl
@[simp] theorem State.modJob_rst (id : Nat) (f : Job → Job) : (s.modJob id f).rst = s.rst := by
  unfold State.modJob; split <;> rfl
@[simp] theorem State.modJob_mode (id : Nat) (f : Job → Job) : (s.modJob id f).mode = s.mode := by
  unfold State.modJob; split <;> rfl
@[simp] theorem State.modJob_pins (id : Nat) (f : Job → Job) : (s.modJob id f).pins = s.pins := by
  unfold State.modJob; split <;> rfl
@[simp] theorem State.modJob_link (id : Nat) (f : Job → Job) : (s.modJob id f).link = s.link := by
  unfold State.modJob; split <;> rfl
@[simp] theorem State.modJob_sec (id : Nat) (f : Job → Job) : (s.modJob id f).sec = s.sec := by
  unfold State.modJob; split <;> rfl
@[simp] theorem State.modJob_cfg (id : Nat) (f : Job → Job) : (s.modJob id f).cfg = s.cfg := by
  unfold State.modJob; split <;> rfl
@[simp] theorem State.modJob_flash (id : Nat) (f : Job → Job) : (s.modJob id f).flash = s.flash := by
  unfold State.modJob; split <;> rfl
@[simp] theorem State.modJob_ledger (id : Nat) (f : Job → Job) : (s.modJob id f).ledger = s.ledger := by
  unfold State.modJob; split <;> rfl
@[simp] theorem State.modJob_test (id : Nat) (f : Job → Job) : (s.modJob id f).test = s.test := by
  unfold State.modJob; split <;> rfl

@[simp] theorem State.raise_pending (u k o t a x : Nat) (j : BitVec 16) (p : Bool) : (s.raise u k o t a x j p).pending = s.pending := rfl
@[simp] theorem State.raise_beat (u k o t a x : Nat) (j : BitVec 16) (p : Bool) : (s.raise u k o t a x j p).beat = s.beat := rfl
@[simp] theorem State.raise_cycle (u k o t a x : Nat) (j : BitVec 16) (p : Bool) : (s.raise u k o t a x j p).cycle = s.cycle := rfl
@[simp] theorem State.raise_free (u k o t a x : Nat) (j : BitVec 16) (p : Bool) : (s.raise u k o t a x j p).free = s.free := rfl
@[simp] theorem State.raise_mem (u k o t a x : Nat) (j : BitVec 16) (p : Bool) : (s.raise u k o t a x j p).mem = s.mem := rfl
@[simp] theorem State.raise_groups (u k o t a x : Nat) (j : BitVec 16) (p : Bool) : (s.raise u k o t a x j p).groups = s.groups := rfl
@[simp] theorem State.raise_units (u k o t a x : Nat) (j : BitVec 16) (p : Bool) : (s.raise u k o t a x j p).units = s.units := rfl
@[simp] theorem State.raise_clusters (u k o t a x : Nat) (j : BitVec 16) (p : Bool) : (s.raise u k o t a x j p).clusters = s.clusters := rfl
@[simp] theorem State.raise_rings (u k o t a x : Nat) (j : BitVec 16) (p : Bool) : (s.raise u k o t a x j p).rings = s.rings := rfl
@[simp] theorem State.raise_work (u k o t a x : Nat) (j : BitVec 16) (p : Bool) : (s.raise u k o t a x j p).work = s.work := rfl
@[simp] theorem State.raise_host (u k o t a x : Nat) (j : BitVec 16) (p : Bool) : (s.raise u k o t a x j p).host = s.host := rfl
@[simp] theorem State.raise_memSys (u k o t a x : Nat) (j : BitVec 16) (p : Bool) : (s.raise u k o t a x j p).memSys = s.memSys := rfl
@[simp] theorem State.raise_fuses (u k o t a x : Nat) (j : BitVec 16) (p : Bool) : (s.raise u k o t a x j p).fuses = s.fuses := rfl
@[simp] theorem State.raise_power (u k o t a x : Nat) (j : BitVec 16) (p : Bool) : (s.raise u k o t a x j p).power = s.power := rfl
@[simp] theorem State.raise_rst (u k o t a x : Nat) (j : BitVec 16) (p : Bool) : (s.raise u k o t a x j p).rst = s.rst := rfl
@[simp] theorem State.raise_mode (u k o t a x : Nat) (j : BitVec 16) (p : Bool) : (s.raise u k o t a x j p).mode = s.mode := rfl
@[simp] theorem State.raise_pins (u k o t a x : Nat) (j : BitVec 16) (p : Bool) : (s.raise u k o t a x j p).pins = s.pins := rfl
@[simp] theorem State.raise_link (u k o t a x : Nat) (j : BitVec 16) (p : Bool) : (s.raise u k o t a x j p).link = s.link := rfl
@[simp] theorem State.raise_sec (u k o t a x : Nat) (j : BitVec 16) (p : Bool) : (s.raise u k o t a x j p).sec = s.sec := rfl
@[simp] theorem State.raise_cfg (u k o t a x : Nat) (j : BitVec 16) (p : Bool) : (s.raise u k o t a x j p).cfg = s.cfg := rfl
@[simp] theorem State.raise_flash (u k o t a x : Nat) (j : BitVec 16) (p : Bool) : (s.raise u k o t a x j p).flash = s.flash := rfl
@[simp] theorem State.raise_ledger (u k o t a x : Nat) (j : BitVec 16) (p : Bool) : (s.raise u k o t a x j p).ledger = s.ledger := rfl
@[simp] theorem State.raise_test (u k o t a x : Nat) (j : BitVec 16) (p : Bool) : (s.raise u k o t a x j p).test = s.test := rfl

@[simp] theorem State.event_pending (c : Nat) (b : List Byte) : (s.event c b).pending = s.pending := by
  unfold State.event; split <;> rfl
@[simp] theorem State.event_beat (c : Nat) (b : List Byte) : (s.event c b).beat = s.beat := by
  unfold State.event; split <;> rfl
@[simp] theorem State.event_cycle (c : Nat) (b : List Byte) : (s.event c b).cycle = s.cycle := by
  unfold State.event; split <;> rfl
@[simp] theorem State.event_free (c : Nat) (b : List Byte) : (s.event c b).free = s.free := by
  unfold State.event; split <;> rfl
@[simp] theorem State.event_mem (c : Nat) (b : List Byte) : (s.event c b).mem = s.mem := by
  unfold State.event; split <;> rfl
@[simp] theorem State.event_groups (c : Nat) (b : List Byte) : (s.event c b).groups = s.groups := by
  unfold State.event; split <;> rfl
@[simp] theorem State.event_units (c : Nat) (b : List Byte) : (s.event c b).units = s.units := by
  unfold State.event; split <;> rfl
@[simp] theorem State.event_clusters (c : Nat) (b : List Byte) : (s.event c b).clusters = s.clusters := by
  unfold State.event; split <;> rfl
@[simp] theorem State.event_rings (c : Nat) (b : List Byte) : (s.event c b).rings = s.rings := by
  unfold State.event; split <;> rfl
@[simp] theorem State.event_work (c : Nat) (b : List Byte) : (s.event c b).work = s.work := by
  unfold State.event; split <;> rfl
@[simp] theorem State.event_host (c : Nat) (b : List Byte) : (s.event c b).host = s.host := by
  unfold State.event; split <;> rfl
@[simp] theorem State.event_faults (c : Nat) (b : List Byte) : (s.event c b).faults = s.faults := by
  unfold State.event; split <;> rfl
@[simp] theorem State.event_memSys (c : Nat) (b : List Byte) : (s.event c b).memSys = s.memSys := by
  unfold State.event; split <;> rfl
@[simp] theorem State.event_fuses (c : Nat) (b : List Byte) : (s.event c b).fuses = s.fuses := by
  unfold State.event; split <;> rfl
@[simp] theorem State.event_power (c : Nat) (b : List Byte) : (s.event c b).power = s.power := by
  unfold State.event; split <;> rfl
@[simp] theorem State.event_rst (c : Nat) (b : List Byte) : (s.event c b).rst = s.rst := by
  unfold State.event; split <;> rfl
@[simp] theorem State.event_mode (c : Nat) (b : List Byte) : (s.event c b).mode = s.mode := by
  unfold State.event; split <;> rfl
@[simp] theorem State.event_pins (c : Nat) (b : List Byte) : (s.event c b).pins = s.pins := by
  unfold State.event; split <;> rfl
@[simp] theorem State.event_link (c : Nat) (b : List Byte) : (s.event c b).link = s.link := by
  unfold State.event; split <;> rfl
@[simp] theorem State.event_sec (c : Nat) (b : List Byte) : (s.event c b).sec = s.sec := by
  unfold State.event; split <;> rfl
@[simp] theorem State.event_cfg (c : Nat) (b : List Byte) : (s.event c b).cfg = s.cfg := by
  unfold State.event; split <;> rfl
@[simp] theorem State.event_flash (c : Nat) (b : List Byte) : (s.event c b).flash = s.flash := by
  unfold State.event; split <;> rfl
@[simp] theorem State.event_test (c : Nat) (b : List Byte) : (s.event c b).test = s.test := by
  unfold State.event; split <;> rfl

/-! ### Units under updates -/

@[simp] theorem State.cluster_modCluster (k : Nat) (f : Cluster → Cluster) : (s.modCluster k f).cluster k = f (s.cluster k) := by
  simp [State.cluster]

theorem State.cluster_modCluster_other (k j : Nat) (f : Cluster → Cluster) (h : j ≠ k) : (s.modCluster k f).cluster j = s.cluster j := by
  simp [State.cluster, Table.at_put_other _ _ _ _ _ h]

@[simp] theorem State.group_modGroup (p : Nat) (f : Group → Group) : (s.modGroup p f).group p = f (s.group p) := by
  simp [State.group]

theorem State.group_modGroup_other (p q : Nat) (f : Group → Group) (h : q ≠ p) : (s.modGroup p f).group q = s.group q := by
  simp [State.group, Table.at_put_other _ _ _ _ _ h]

@[simp] theorem State.unit_modUnit (p : Nat) (f : GroupUnits → GroupUnits) : (s.modUnit p f).unit p = f (s.unit p) := by
  simp [State.unit]

theorem State.unit_modUnit_other (p q : Nat) (f : GroupUnits → GroupUnits) (h : q ≠ p) : (s.modUnit p f).unit q = s.unit q := by
  simp [State.unit, Table.at_put_other _ _ _ _ _ h]

@[simp] theorem State.ring_modRing (k r : Nat) (f : Ring → Ring) : (s.modRing k r f).ring k r = f (s.ring k r) := by
  simp [State.ring]

theorem State.ring_modRing_other (k r k' r' : Nat) (f : Ring → Ring) (h : 16 * k' + r' ≠ 16 * k + r) :
    (s.modRing k r f).ring k' r' = s.ring k' r' := by
  simp [State.ring, Table.at_put_other _ _ _ _ _ h]

@[simp] theorem State.func_modFunc (n : Nat) (f : Func → Func) : (s.modFunc n f).func n = f (s.func n) := by
  simp [State.func]

theorem State.func_modFunc_other (n m : Nat) (f : Func → Func) (h : m ≠ n) : (s.modFunc n f).func m = s.func m := by
  simp [State.func, Table.at_put_other _ _ _ _ _ h]

@[simp] theorem State.port_modPort (n : Nat) (f : Port → Port) : (s.modPort n f).port n = f (s.port n) := by
  simp [State.port]

@[simp] theorem State.stack_modStack (n : Nat) (f : Stack → Stack) : (s.modStack n f).stack n = f (s.stack n) := by
  simp [State.stack]

@[simp] theorem State.die_modDie (n : Nat) (f : MemoryDie → MemoryDie) : (s.modDie n f).die n = f (s.die n) := by
  simp [State.die]

@[simp] theorem State.run_modRun (n : Nat) (f : JobRun → JobRun) : (s.modRun n f).run n = f (s.run n) := by
  simp [State.run]

theorem State.job_modJob (n : Nat) (f : Job → Job) (j : Job) (h : s.job? n = some j) : (s.modJob n f).job? n = some (f j) := by
  simp [State.modJob, State.job?] at *
  simp [h]

/-- The clusters under an advance: the port's own moves past the item (R170). -/
@[simp] theorem State.cluster_advance (k w c : Nat) : (s.advance k w c).cluster k =
    { s.cluster k with lastItem := (s.cluster k).pc.toNat, pc := (s.cluster k).pc + BitVec.ofNat 32 w, nextAt := (s.cluster k).nextAt + c } := by
  simp [State.advance]

theorem State.cluster_advance_other (k w c j : Nat) (h : j ≠ k) : (s.advance k w c).cluster j = s.cluster j := by
  simp [State.advance, State.cluster_modCluster_other _ _ _ _ h]

/-- A meaning answers its next state while the device's state is defined (R454). -/
@[simp] theorem live_defined (s t : State) (h : s.rst.scanDumped = false) : live s t = .next t := by simp [live, h]

end Sys2Proof.Machine
end

