-- ==== Sys2Proof/Laws/Kept.lean ====
section
/-!
SUPPORT. Laws.Kept: what every operation of the machine carries from the state before to the state after: the queue, canonical
memories, blown fuses, and the free values already used.
-/
namespace Sys2Proof.Machine

/-- Nothing is lost of the fuses that stay. -/
theorem Fuses.Kept.refl (f : Fuses) : f.Kept f := ⟨id, Nat.le_refl _, Nat.le_refl _, List.prefix_refl _⟩

theorem Fuses.Kept.trans {f g k : Fuses} (a : f.Kept g) (b : g.Kept k) : f.Kept k :=
  ⟨fun h => b.1 (a.1 h), Nat.le_trans a.2 b.2, Nat.le_trans a.3 b.3, List.IsPrefix.trans a.4 b.4⟩

theorem Table.rising_put {α : Type} (t : Table α) (k : Nat) (v : α) (h : t.rising) : (t.put k v).rising := by
  unfold Table.rising at *
  induction t with
  | nil => simp [Table.put]
  | cons e t ih =>
    obtain ⟨i, w⟩ := e
    simp only [List.map_cons, List.pairwise_cons] at h
    by_cases h1 : k < i
    · simp only [Table.put, h1, if_true, List.map_cons, List.pairwise_cons]
      refine ⟨?_, h.1, h.2⟩
      intro a ha
      rcases List.mem_cons.1 ha with rfl | ha
      · exact h1
      · exact Nat.lt_trans h1 (h.1 a ha)
    · by_cases h2 : k = i
      · subst h2
        simpa [Table.put] using h
      · simp only [Table.put, h1, h2, if_false, List.map_cons, List.pairwise_cons]
        refine ⟨?_, ih h.2⟩
        intro a ha
        have hk : i < k := by omega
        clear ih h1 h2
        induction t with
        | nil => simp [Table.put] at ha; omega
        | cons e t ih =>
          obtain ⟨j, x⟩ := e
          simp only [List.map_cons, List.pairwise_cons] at h
          by_cases h1 : k < j
          · simp [Table.put, h1] at ha
            rcases ha with rfl | rfl | ha
            · exact hk
            · exact h.1 _ (by simp)
            · exact h.1 _ (by simp; exact Or.inr ha)
          · by_cases h2 : k = j
            · subst h2
              simp [Table.put] at ha
              rcases ha with rfl | ha
              · exact hk
              · exact h.1 _ (by simp; exact Or.inr ha)
            · simp [Table.put, h1, h2] at ha
              rcases ha with rfl | ha
              · exact h.1 _ (by simp)
              · exact ih ⟨fun a m => h.1 a (by simp; simp at m; exact Or.inr m), h.2.2⟩ (by simpa using ha)

theorem Table.rising_filter {α : Type} (t : Table α) (p : Nat × α → Bool) (h : t.rising) : Table.rising (t.filter p) := by
  unfold Table.rising at *
  exact List.Pairwise.sublist (List.Sublist.map _ List.filter_sublist) h

theorem Table.rising_del {α : Type} (t : Table α) (k : Nat) (h : t.rising) : (t.del k).rising := Table.rising_filter t _ h

/-- What is carried from `s` to `t`. -/
structure Kept (s t : State) : Prop where
  pending : t.pending = s.pending
  free : s.free ≤ t.free
  memory : s.mem.wf = true → t.mem.wf = true
  hostRam : cellsWf zeroByte s.host.hostRam = true → cellsWf zeroByte t.host.hostRam = true
  flash : cellsWf erasedByte s.flash.cells = true → cellsWf erasedByte t.flash.cells = true
  fuses : s.fuses.Kept t.fuses
  jobs : s.work.jobs.rising → t.work.jobs.rising

/-- What is carried to the next state a meaning answers, if it answers one. -/
def KeptOut (s : State) (o : Out) : Prop := ∀ t, o = .next t → Kept s t

theorem Kept.refl (s : State) : Kept s s := ⟨rfl, Nat.le_refl _, id, id, id, Fuses.Kept.refl _, id⟩

theorem Kept.trans {s t u : State} (a : Kept s t) (b : Kept t u) : Kept s u :=
  ⟨b.1.trans a.1, Nat.le_trans a.2 b.2, fun h => b.3 (a.3 h), fun h => b.4 (a.4 h), fun h => b.5 (a.5 h), a.6.trans b.6, fun h => b.7 (a.7 h)⟩

/-- The invariant is among what is carried. -/
theorem Kept.inv {s t : State} (h : Kept s t) (i : s.Inv) : t.Inv := ⟨h.3 i.1, h.4 i.2, h.5 i.3, h.7 i.4⟩

/-- A state written field by field from `s` carries what the six fields carry. -/
theorem Kept.upd {s0 s : State} {p : List Instr} {b : BeatNo} {c : BitVec 16} {f : Nat} {m : Memory} {g : Table Group} {u : Table GroupUnits}
    {cl : Table Cluster} {r : Table Ring} {w : WorkUnit} {ho : HostUnit} {fa : FaultUnit} {ms : MemorySystem} {fu : Fuses} {po : PowerUnit}
    {rs : ResetUnit} {mo : ModeUnit} {pi : PinUnit} {li : LinkUnit} {se : SecurityUnit} {cf : ConfigUnit} {fl : Flash} {le : LedgerUnit} {te : TestUnit}
    (h : Kept s0 s) (hp : s.pending = p) (hf : s.free ≤ f) (hm : s.mem.wf = true → m.wf = true)
    (hh : cellsWf zeroByte s.host.hostRam = true → cellsWf zeroByte ho.hostRam = true)
    (hl : cellsWf erasedByte s.flash.cells = true → cellsWf erasedByte fl.cells = true) (hu : s.fuses.Kept fu)
    (hj : s.work.jobs.rising → w.jobs.rising) :
    Kept s0 ⟨p, b, c, f, m, g, u, cl, r, w, ho, fa, ms, fu, po, rs, mo, pi, li, se, cf, fl, le, te⟩ :=
  h.trans ⟨hp.symm, hf, hm, hh, hl, hu, hj⟩

theorem kept_foldl {α : Type} {s0 s : State} {f : State → α → State} {l : List α} (h : Kept s0 s)
    (hf : ∀ s x, Kept s0 s → Kept s0 (f s x)) : Kept s0 (l.foldl f s) := by
  induction l generalizing s with
  | nil => exact h
  | cons x t ih => exact ih (hf _ _ h)

theorem kept_foldl_snd {α β : Type} {s0 : State} {a : β × State} {f : β × State → α → β × State} {l : List α} (h : Kept s0 a.2)
    (hf : ∀ a x, Kept s0 a.2 → Kept s0 (f a x).2) : Kept s0 (l.foldl f a).2 := by
  induction l generalizing a with
  | nil => exact h
  | cons x t ih => exact ih (hf _ _ h)

theorem kept_forAll {s0 s : State} {f : State → Nat → State} {l : List Nat} (h : Kept s0 s)
    (hf : ∀ s x, Kept s0 s → Kept s0 (f s x)) : Kept s0 (s.forAll l f) := kept_foldl h hf

theorem kept_of_snd {α : Type} {s0 t : State} {F : α × State} {a : α} (e : F = (a, t)) (h : Kept s0 F.2) : Kept s0 t := by
  rw [e] at h; exact h

theorem kept_ite {s0 a b : State} {c : Prop} [Decidable c] (ha : Kept s0 a) (hb : Kept s0 b) : Kept s0 (if c then a else b) := by
  split <;> assumption

theorem keptOut_live {s0 s t : State} (h : Kept s0 t) : KeptOut s0 (live s t) := by
  intro u hu
  unfold live at hu
  split at hu
  · cases hu
  · cases hu; exact h

theorem keptOut_next {s0 t : State} (h : Kept s0 t) : KeptOut s0 (.next t) := by
  intro u hu; cases hu; exact h

end Sys2Proof.Machine
end

