-- ==== Sys2Proof/WellFormed.lean ====
section
/-!
DEFINITION. WellFormed: which commands the table's rows admit: a row that carries a 128-bit command carries that row's word
(R179, R185, R186), and operands keep the lengths of what they stand for.
-/
namespace Sys2Proof

/-- Mark, engine and opcode of a command word (R179). -/
def CmdWord.mark (c : CmdWord) : Nat := c.w0.toNat / 2 ^ 30
@[inherit_doc CmdWord.mark] def CmdWord.engine (c : CmdWord) : Nat := c.w0.toNat / 2 ^ 26 % 16
@[inherit_doc CmdWord.mark] def CmdWord.opcode (c : CmdWord) : Nat := c.w0.toNat / 2 ^ 20 % 64

/-- The command word an instruction carries. -/
def Instr.word? : Instr → Option CmdWord
  | .veChain _ c => some c
  | .veTensor _ c => some c
  | .veRescale _ c => some c
  | .veModsw _ c => some c
  | .veCvtin _ c => some c
  | .veCvtout _ c => some c
  | .veGather _ c => some c
  | .veAuto _ c => some c
  | .veFill _ c => some c
  | .veLdprog _ c => some c
  | .veLdconst _ c => some c
  | .teFwd _ c => some c
  | .teInv _ c => some c
  | .rmeBconv _ c => some c
  | .rmeKip _ c => some c
  | .rmeCombine _ c => some c
  | .refRun _ c => some c
  | .suLoad _ c => some c
  | .suLoads _ c => some c
  | .suStore _ c => some c
  | .suArm _ c => some c
  | .suRelay _ c => some c
  | .suKfill _ c => some c
  | .suPip _ c => some c
  | .suTile _ c => some c
  | .gxMove _ c => some c
  | .gxBcast _ c => some c
  | .fuse _ c _ => some c
  | _ => none

/-- Engine and opcode of the row an instruction stands for (R179, R185). -/
def Instr.code? : Instr → Option (Nat × Nat)
  | .veChain _ _ => some (1, 1)
  | .veTensor _ _ => some (1, 2)
  | .veRescale _ _ => some (1, 3)
  | .veModsw _ _ => some (1, 4)
  | .veCvtin _ _ => some (1, 5)
  | .veCvtout _ _ => some (1, 6)
  | .veGather _ _ => some (1, 7)
  | .veAuto _ _ => some (1, 8)
  | .veFill _ _ => some (1, 9)
  | .veLdprog _ _ => some (1, 10)
  | .veLdconst _ _ => some (1, 11)
  | .teFwd _ _ => some (2, 1)
  | .teInv _ _ => some (2, 2)
  | .suLoad _ _ => some (3, 1)
  | .suLoads _ _ => some (3, 2)
  | .suStore _ _ => some (3, 3)
  | .suArm _ _ => some (3, 4)
  | .suRelay _ _ => some (3, 5)
  | .suKfill _ _ => some (3, 6)
  | .suPip _ _ => some (3, 7)
  | .suTile _ _ => some (3, 8)
  | .gxMove _ _ => some (4, 1)
  | .gxBcast _ _ => some (4, 2)
  | .rmeBconv _ _ => some (6, 1)
  | .rmeKip _ _ => some (6, 2)
  | .rmeCombine _ _ => some (6, 3)
  | .refRun _ _ => some (8, 1)
  | .fuse _ _ _ => some (9, 1)
  | _ => none

/-- The word an instruction carries is its row's: MARK 0b11, ENGINE and OPCODE (R179, R185). -/
def Instr.wordOk (i : Instr) : Bool :=
  match i.word?, i.code? with
  | some c, some (e, o) => c.mark == 3 && c.engine == e && c.opcode == o
  | _, _ => true

/-- The operands' own lengths: a fused command has two to four members, as many as its COUNT, each a marked command
(R186); the strap is sampled sixteen times (R427). -/
def Instr.lengthOk : Instr → Bool
  | .fuse _ c ms => decide (2 ≤ ms.length ∧ ms.length ≤ 4) && c.w2.toNat % 2 ^ 17 == ms.length && ms.all fun m => m.mark == 3
  | .releaseStep obs => obs.strapCodes.length == 16
  | _ => true

/-- A command of the table. -/
def Instr.wellFormed (i : Instr) : Bool := i.wordOk && i.lengthOk

end Sys2Proof
end

