-- ==== Sys2Proof/Laws/PerInstr.lean ====
section
/-!
SUPPORT. PerInstr: what holds of every command as syntax, one lemma per constructor. Family Written: a well-formed command that
carries a command word carries its own row's (R179, R185).
-/
namespace Sys2Proof.Laws

/-- A well-formed command's word has the mark, and the engine and opcode of its row. -/
def Written.Statement (i : Instr) : Prop :=
  i.wellFormed = true → ∀ c, i.word? = some c → c.mark = 3 ∧ i.code? = some (c.engine, c.opcode)

/-- The statement holds of every command whose word is judged by `wordOk`. -/
theorem Written.of_wordOk (i : Instr) : Written.Statement i := by
  intro h c hc
  simp only [Instr.wellFormed, Bool.and_eq_true] at h
  have hw := h.1
  unfold Instr.wordOk at hw
  rw [hc] at hw
  cases hk : i.code? with
  | none => cases i <;> simp [Instr.word?, Instr.code?] at hc hk
  | some e =>
    obtain ⟨a, b⟩ := e
    simp only [hk, Bool.and_eq_true, beq_iff_eq] at hw
    exact ⟨hw.1.1, by rw [hw.1.2, hw.2]⟩

theorem Written.nop (k : ClusterId) : Statement (.nop k) := of_wordOk _
theorem Written.add (k : ClusterId) (sd sa sb : BitVec 5) : Statement (.add k sd sa sb) := of_wordOk _
theorem Written.sub (k : ClusterId) (sd sa sb : BitVec 5) : Statement (.sub k sd sa sb) := of_wordOk _
theorem Written.and (k : ClusterId) (sd sa sb : BitVec 5) : Statement (.and k sd sa sb) := of_wordOk _
theorem Written.or (k : ClusterId) (sd sa sb : BitVec 5) : Statement (.or k sd sa sb) := of_wordOk _
theorem Written.xor (k : ClusterId) (sd sa sb : BitVec 5) : Statement (.xor k sd sa sb) := of_wordOk _
theorem Written.shl (k : ClusterId) (sd sa sb : BitVec 5) : Statement (.shl k sd sa sb) := of_wordOk _
theorem Written.shr (k : ClusterId) (sd sa sb : BitVec 5) : Statement (.shr k sd sa sb) := of_wordOk _
theorem Written.mul (k : ClusterId) (sd sa sb : BitVec 5) : Statement (.mul k sd sa sb) := of_wordOk _
theorem Written.addi (k : ClusterId) (sd sa : BitVec 5) (imm : BitVec 16) : Statement (.addi k sd sa imm) := of_wordOk _
theorem Written.lih (k : ClusterId) (sd : BitVec 5) (pos : BitVec 2) (imm : BitVec 16) : Statement (.lih k sd pos imm) := of_wordOk _
theorem Written.movp (k : ClusterId) (sd : BitVec 5) (pk : BitVec 6) : Statement (.movp k sd pk) := of_wordOk _
theorem Written.rdfeat (k : ClusterId) (sd : BitVec 5) (idx : BitVec 8) : Statement (.rdfeat k sd idx) := of_wordOk _
theorem Written.rdstat (k : ClusterId) (sd : BitVec 5) (idx : BitVec 8) : Statement (.rdstat k sd idx) := of_wordOk _
theorem Written.loop (k : ClusterId) (lc : BitVec 2) (src : Bool) (forward : BitVec 11) (count : BitVec 12) : Statement (.loop k lc src forward count) := of_wordOk _
theorem Written.endl (k : ClusterId) (lc : BitVec 2) (back : BitVec 16) : Statement (.endl k lc back) := of_wordOk _
theorem Written.waitc (k : ClusterId) (c : BitVec 16) : Statement (.waitc k c) := of_wordOk _
theorem Written.waitb (k : ClusterId) : Statement (.waitb k) := of_wordOk _
theorem Written.waitResume (k : ClusterId) : Statement (.waitResume k) := of_wordOk _
theorem Written.settw (k : ClusterId) (tk : BitVec 4) (sa : BitVec 5) : Statement (.settw k tk sa) := of_wordOk _
theorem Written.endStream (k : ClusterId) : Statement (.endStream k) := of_wordOk _
theorem Written.veChain (k : ClusterId) (c : CmdWord) : Statement (.veChain k c) := of_wordOk _
theorem Written.veTensor (k : ClusterId) (c : CmdWord) : Statement (.veTensor k c) := of_wordOk _
theorem Written.veRescale (g : Fin 68) (c : CmdWord) : Statement (.veRescale g c) := of_wordOk _
theorem Written.veModsw (g : Fin 68) (c : CmdWord) : Statement (.veModsw g c) := of_wordOk _
theorem Written.veCvtin (k : ClusterId) (c : CmdWord) : Statement (.veCvtin k c) := of_wordOk _
theorem Written.veCvtout (k : ClusterId) (c : CmdWord) : Statement (.veCvtout k c) := of_wordOk _
theorem Written.veGather (k : ClusterId) (c : CmdWord) : Statement (.veGather k c) := of_wordOk _
theorem Written.veAuto (g : Fin 68) (c : CmdWord) : Statement (.veAuto g c) := of_wordOk _
theorem Written.veFill (k : ClusterId) (c : CmdWord) : Statement (.veFill k c) := of_wordOk _
theorem Written.veLdprog (k : ClusterId) (c : CmdWord) : Statement (.veLdprog k c) := of_wordOk _
theorem Written.veLdconst (k : ClusterId) (c : CmdWord) : Statement (.veLdconst k c) := of_wordOk _
theorem Written.teFwd (g : Fin 68) (c : CmdWord) : Statement (.teFwd g c) := of_wordOk _
theorem Written.teInv (g : Fin 68) (c : CmdWord) : Statement (.teInv g c) := of_wordOk _
theorem Written.teChecksumVerdict (g : Fin 68) (disturb : Word32) : Statement (.teChecksumVerdict g disturb) := of_wordOk _
theorem Written.rmeBconv (k : ClusterId) (c : CmdWord) : Statement (.rmeBconv k c) := of_wordOk _
theorem Written.rmeKip (k : ClusterId) (c : CmdWord) : Statement (.rmeKip k c) := of_wordOk _
theorem Written.rmeCombine (k : ClusterId) (c : CmdWord) : Statement (.rmeCombine k c) := of_wordOk _
theorem Written.refRun (k : ClusterId) (c : CmdWord) : Statement (.refRun k c) := of_wordOk _
theorem Written.refreshResume (g : Fin 68) : Statement (.refreshResume g) := of_wordOk _
theorem Written.suLoad (k : ClusterId) (c : CmdWord) : Statement (.suLoad k c) := of_wordOk _
theorem Written.suLoads (g : Fin 68) (c : CmdWord) : Statement (.suLoads g c) := of_wordOk _
theorem Written.suStore (k : ClusterId) (c : CmdWord) : Statement (.suStore k c) := of_wordOk _
theorem Written.suArm (k : ClusterId) (c : CmdWord) : Statement (.suArm k c) := of_wordOk _
theorem Written.shadowRepeat (k : ClusterId) (ring : Fin 16) : Statement (.shadowRepeat k ring) := of_wordOk _
theorem Written.suRelay (k : ClusterId) (c : CmdWord) : Statement (.suRelay k c) := of_wordOk _
theorem Written.suKfill (k : ClusterId) (c : CmdWord) : Statement (.suKfill k c) := of_wordOk _
theorem Written.suPip (k : ClusterId) (c : CmdWord) : Statement (.suPip k c) := of_wordOk _
theorem Written.suTile (k : ClusterId) (c : CmdWord) : Statement (.suTile k c) := of_wordOk _
theorem Written.gxMove (k : ClusterId) (c : CmdWord) : Statement (.gxMove k c) := of_wordOk _
theorem Written.gxBcast (g : Fin 68) (c : CmdWord) : Statement (.gxBcast g c) := of_wordOk _
theorem Written.fuse (k : ClusterId) (c : CmdWord) (members : List CmdWord) : Statement (.fuse k c members) := of_wordOk _
theorem Written.sheepdogVerdict (k : ClusterId) : Statement (.sheepdogVerdict k) := of_wordOk _
theorem Written.transferGrant (g : Fin 68) (src : SlotSource) (cycle : BitVec 16) : Statement (.transferGrant g src cycle) := of_wordOk _
theorem Written.transferStamp (k : ClusterId) (tag : BitVec 6) : Statement (.transferStamp k tag) := of_wordOk _
theorem Written.relayRowLanding (g : Fin 68) : Statement (.relayRowLanding g) := of_wordOk _
theorem Written.hbmBoundOverrun (k : ClusterId) (tag : BitVec 6) : Statement (.hbmBoundOverrun k tag) := of_wordOk _
theorem Written.kcBoundOverrun (k : ClusterId) (tag : BitVec 6) : Statement (.kcBoundOverrun k tag) := of_wordOk _
theorem Written.faultMessage (wire : Option Word64) : Statement (.faultMessage wire) := of_wordOk _
theorem Written.testMessage (p : Fin 68) : Statement (.testMessage p) := of_wordOk _
theorem Written.deviceCollectorRecord : Statement (.deviceCollectorRecord) := of_wordOk _
theorem Written.beatBoundary : Statement (.beatBoundary) := of_wordOk _
theorem Written.programWindowEnd : Statement (.programWindowEnd) := of_wordOk _
theorem Written.terrierInjection (u : TerrierUnit) (fires arrives : Bool) : Statement (.terrierInjection u fires arrives) := of_wordOk _
theorem Written.terrierVerdict (u : TerrierUnit) (own peer : Word64) (peerGroup : Fin 68) (firedUnit : Option Word64) : Statement (.terrierVerdict u own peer peerGroup firedUnit) := of_wordOk _
theorem Written.terrierRetest (p : Fin 68) (passes : Bool) : Statement (.terrierRetest p passes) := of_wordOk _
theorem Written.serviceScrub (finds : List ScrubFind) : Statement (.serviceScrub finds) := of_wordOk _
theorem Written.abortFill (job : BitVec 16) : Statement (.abortFill job) := of_wordOk _
theorem Written.retrieverAbsorb (p : Fin 68) : Statement (.retrieverAbsorb p) := of_wordOk _
theorem Written.retrieverFinalize (p : Fin 68) : Statement (.retrieverFinalize p) := of_wordOk _
theorem Written.ledgerSampling (temps : List TempReading) (rails : List RailReading) : Statement (.ledgerSampling temps rails) := of_wordOk _
theorem Written.reconciliation : Statement (.reconciliation) := of_wordOk _
theorem Written.retrieverVerdict : Statement (.retrieverVerdict) := of_wordOk _
theorem Written.windfallTimeout (job : BitVec 16) : Statement (.windfallTimeout job) := of_wordOk _
theorem Written.releaseDecision : Statement (.releaseDecision) := of_wordOk _
theorem Written.checkpointCopy (job : BitVec 16) : Statement (.checkpointCopy job) := of_wordOk _
theorem Written.submissionWrite (fn : Fin 17) (offset : BitVec 16) (data : List Byte) (tlps : Nat) (onStream : Bool) : Statement (.submissionWrite fn offset data tlps onStream) := of_wordOk _
theorem Written.submissionRead (fn : Fin 17) (length : Nat) : Statement (.submissionRead fn length) := of_wordOk _
theorem Written.programChunk : Statement (.programChunk) := of_wordOk _
theorem Written.programReference : Statement (.programReference) := of_wordOk _
theorem Written.programVerification : Statement (.programVerification) := of_wordOk _
theorem Written.jobEntry : Statement (.jobEntry) := of_wordOk _
theorem Written.jobMapping (job : BitVec 16) : Statement (.jobMapping job) := of_wordOk _
theorem Written.jobFirstIssue (job : BitVec 16) : Statement (.jobFirstIssue job) := of_wordOk _
theorem Written.jobDeadline (job : BitVec 16) : Statement (.jobDeadline job) := of_wordOk _
theorem Written.jobRestart (job : BitVec 16) : Statement (.jobRestart job) := of_wordOk _
theorem Written.jobCompletion (job : BitVec 16) : Statement (.jobCompletion job) := of_wordOk _
theorem Written.transfer : Statement (.transfer) := of_wordOk _
theorem Written.transferComplete (fn : Fin 17) (hostOk : Bool) : Statement (.transferComplete fn hostOk) := of_wordOk _
theorem Written.registerKeyset : Statement (.registerKeyset) := of_wordOk _
theorem Written.keysetCommit : Statement (.keysetCommit) := of_wordOk _
theorem Written.removeKeyset : Statement (.removeKeyset) := of_wordOk _
theorem Written.removeProgram : Statement (.removeProgram) := of_wordOk _
theorem Written.defineArea : Statement (.defineArea) := of_wordOk _
theorem Written.deleteArea : Statement (.deleteArea) := of_wordOk _
theorem Written.cancelJob : Statement (.cancelJob) := of_wordOk _
theorem Written.marker : Statement (.marker) := of_wordOk _
theorem Written.encode : Statement (.encode) := of_wordOk _
theorem Written.backlogDrain (fn : Fin 17) : Statement (.backlogDrain fn) := of_wordOk _
theorem Written.extentDigestDone (job : BitVec 16) : Statement (.extentDigestDone job) := of_wordOk _
theorem Written.bar2Write (fn : Fin 17) (offset : BitVec 36) (data : List Byte) (onStream : Bool) : Statement (.bar2Write fn offset data onStream) := of_wordOk _
theorem Written.bar2Read (fn : Fin 17) (offset : BitVec 36) (length : Nat) (onStream : Bool) : Statement (.bar2Read fn offset length onStream) := of_wordOk _
theorem Written.configRequest (fn : Fin 17) (a : ConfigAccess) : Statement (.configRequest fn a) := of_wordOk _
theorem Written.vfFunctionLevelReset (vf : Fin 16) : Statement (.vfFunctionLevelReset vf) := of_wordOk _
theorem Written.pfFunctionLevelReset : Statement (.pfFunctionLevelReset) := of_wordOk _
theorem Written.pePerstN (active : Bool) : Statement (.pePerstN active) := of_wordOk _
theorem Written.d3hotEntry (fn : Fin 17) : Statement (.d3hotEntry fn) := of_wordOk _
theorem Written.eventSourceFire (fn : Fin 17) (source : Fin 10) : Statement (.eventSourceFire fn source) := of_wordOk _
theorem Written.eventTaken (fn : Fin 17) (source : Fin 10) : Statement (.eventTaken fn source) := of_wordOk _
theorem Written.evSet (fn : Fin 17) (v : Word64) (w : AccessWidth) : Statement (.evSet fn v w) := of_wordOk _
theorem Written.evComplete (fn : Fin 17) (v : Word64) (w : AccessWidth) : Statement (.evComplete fn v w) := of_wordOk _
theorem Written.evMaskWrite (fn : Fin 17) (v : Word64) (w : AccessWidth) : Statement (.evMaskWrite fn v w) := of_wordOk _
theorem Written.ringEnable (fn : Fin 17) (receipts : Bool) (v : Word64) : Statement (.ringEnable fn receipts v) := of_wordOk _
theorem Written.stickyClear (reg : Fin 3) (v : Word64) (w : AccessWidth) : Statement (.stickyClear reg v w) := of_wordOk _
theorem Written.logTailWrite (v : Word32) : Statement (.logTailWrite v) := of_wordOk _
theorem Written.registerWrite (fn : Fin 17) (offset : BitVec 26) (v : Word64) (w : AccessWidth) : Statement (.registerWrite fn offset v w) := of_wordOk _
theorem Written.lineWriteback (addr : DevAddr) (secondReadCorrects : Bool) : Statement (.lineWriteback addr secondReadCorrects) := of_wordOk _
theorem Written.rowRemap (stack : Fin 8) (pc : Fin 32) (row : BitVec 20) : Statement (.rowRemap stack pc row) := of_wordOk _
theorem Written.patrolScrub (finds : List ScrubFind) : Statement (.patrolScrub finds) := of_wordOk _
theorem Written.kcExtentRepair (extent : BitVec 9) : Statement (.kcExtentRepair extent) := of_wordOk _
theorem Written.stackTemperatureTrigger (sensor : BitVec 6) (temp : BitVec 10) : Statement (.stackTemperatureTrigger sensor temp) := of_wordOk _
theorem Written.doubledRefreshEntry (stack : Fin 8) : Statement (.doubledRefreshEntry stack) := of_wordOk _
theorem Written.memoryClockSlow (die : Fin 4) : Statement (.memoryClockSlow die) := of_wordOk _
theorem Written.couplingCapLift : Statement (.couplingCapLift) := of_wordOk _
theorem Written.stepSwitch : Statement (.stepSwitch) := of_wordOk _
theorem Written.avsVoltageConfirm (mv : BitVec 10) (amps : BitVec 11) : Statement (.avsVoltageConfirm mv amps) := of_wordOk _
theorem Written.stepUpAbandoned : Statement (.stepUpAbandoned) := of_wordOk _
theorem Written.stepUpRetry : Statement (.stepUpRetry) := of_wordOk _
theorem Written.junctionStepUp : Statement (.junctionStepUp) := of_wordOk _
theorem Written.cappedEvaluation (vddcWatts : BitVec 11) : Statement (.cappedEvaluation vddcWatts) := of_wordOk _
theorem Written.vddCCurrentLift : Statement (.vddCCurrentLift) := of_wordOk _
theorem Written.hostStep (v : Word64) (w : AccessWidth) : Statement (.hostStep v w) := of_wordOk _
theorem Written.railRange (rail : Fin 9) (mv : BitVec 12) : Statement (.railRange rail mv) := of_wordOk _
theorem Written.thermalTrip (sensor : BitVec 6) : Statement (.thermalTrip sensor) := of_wordOk _
theorem Written.powerOnReset : Statement (.powerOnReset) := of_wordOk _
theorem Written.brownOutReset : Statement (.brownOutReset) := of_wordOk _
theorem Written.clockFailure : Statement (.clockFailure) := of_wordOk _
theorem Written.lockUp : Statement (.lockUp) := of_wordOk _
theorem Written.resetN : Statement (.resetN) := of_wordOk _
theorem Written.watchdog : Statement (.watchdog) := of_wordOk _
theorem Written.swReset (v : Word64) (w : AccessWidth) : Statement (.swReset v w) := of_wordOk _
theorem Written.releaseStep (obs : ReleaseObs) : Statement (.releaseStep obs) := of_wordOk _
theorem Written.hostReady : Statement (.hostReady) := of_wordOk _
theorem Written.haltReqN : Statement (.haltReqN) := of_wordOk _
theorem Written.halt (v : Word64) (w : AccessWidth) : Statement (.halt v w) := of_wordOk _
theorem Written.orderlyHalt : Statement (.orderlyHalt) := of_wordOk _
theorem Written.coolAlarmN (active : Bool) : Statement (.coolAlarmN active) := of_wordOk _
theorem Written.coolAlarmStuck : Statement (.coolAlarmStuck) := of_wordOk _
theorem Written.coolForcingEnd : Statement (.coolForcingEnd) := of_wordOk _
theorem Written.inputGlitch (pin : Fin 7) (racing : Bool) : Statement (.inputGlitch pin racing) := of_wordOk _
theorem Written.inputRacingEnd (pin : Fin 7) : Statement (.inputRacingEnd pin) := of_wordOk _
theorem Written.beatIn (p : BeatPulse) : Statement (.beatIn p) := of_wordOk _
theorem Written.trstN : Statement (.trstN) := of_wordOk _
theorem Written.blockIdleReport (domain : BitVec 8) : Statement (.blockIdleReport domain) := of_wordOk _
theorem Written.blockIdle (domain : BitVec 8) : Statement (.blockIdle domain) := of_wordOk _
theorem Written.groupRetirement (p : Fin 68) : Statement (.groupRetirement p) := of_wordOk _
theorem Written.spareProven (p : Fin 68) (passes : Bool) : Statement (.spareProven p passes) := of_wordOk _
theorem Written.linkFrameReceive (port : Fin 16) (frame : List Byte) (uncorrectable : Bool) (corrected : Nat) : Statement (.linkFrameReceive port frame uncorrectable corrected) := of_wordOk _
theorem Written.linkMessageSend (port : Fin 16) (slot : BitVec 12) : Statement (.linkMessageSend port slot) := of_wordOk _
theorem Written.linkRetransmit (port : Fin 16) (slot : BitVec 12) : Statement (.linkRetransmit port slot) := of_wordOk _
theorem Written.linkKeepalive (port : Fin 16) : Statement (.linkKeepalive port) := of_wordOk _
theorem Written.portTraining (port : Fin 16) (t : PortTraining) : Statement (.portTraining port t) := of_wordOk _
theorem Written.spareRequest (port : Fin 16) (lane : Fin 5) (corrected : Nat) : Statement (.spareRequest port lane corrected) := of_wordOk _
theorem Written.spareAcknowledge (port : Fin 16) : Statement (.spareAcknowledge port) := of_wordOk _
theorem Written.laneSwap (port : Fin 16) : Statement (.laneSwap port) := of_wordOk _
theorem Written.beatMarker (intact : Bool) (beat : BeatNo) (error : Int) : Statement (.beatMarker intact beat error) := of_wordOk _
theorem Written.aligned : Statement (.aligned) := of_wordOk _
theorem Written.clear (r : ControlRecord) : Statement (.clear r) := of_wordOk _
theorem Written.fail (r : ControlRecord) : Statement (.fail r) := of_wordOk _
theorem Written.ready (r : ControlRecord) : Statement (.ready r) := of_wordOk _
theorem Written.restart (r : ControlRecord) : Statement (.restart r) := of_wordOk _
theorem Written.terminate (r : ControlRecord) : Statement (.terminate r) := of_wordOk _
theorem Written.step (r : ControlRecord) : Statement (.step r) := of_wordOk _
theorem Written.domainStepChange : Statement (.domainStepChange) := of_wordOk _
theorem Written.linkedJobStart (job : BitVec 16) : Statement (.linkedJobStart job) := of_wordOk _
theorem Written.portEnable (port : Fin 16) (v : Word64) (w : AccessWidth) : Statement (.portEnable port v w) := of_wordOk _
theorem Written.retrain (port : Fin 16) (v : Word64) (w : AccessWidth) : Statement (.retrain port v w) := of_wordOk _
theorem Written.identity : Statement (.identity) := of_wordOk _
theorem Written.ownerState : Statement (.ownerState) := of_wordOk _
theorem Written.loadCurve : Statement (.loadCurve) := of_wordOk _
theorem Written.importOffer : Statement (.importOffer) := of_wordOk _
theorem Written.importShare : Statement (.importShare) := of_wordOk _
theorem Written.eraseShare : Statement (.eraseShare) := of_wordOk _
theorem Written.attest : Statement (.attest) := of_wordOk _
theorem Written.partialDecrypt : Statement (.partialDecrypt) := of_wordOk _
theorem Written.pointCheck : Statement (.pointCheck) := of_wordOk _
theorem Written.scalarMultiplication : Statement (.scalarMultiplication) := of_wordOk _
theorem Written.ecdsaVerify : Statement (.ecdsaVerify) := of_wordOk _
theorem Written.modularExponentiation : Statement (.modularExponentiation) := of_wordOk _
theorem Written.sealDisable : Statement (.sealDisable) := of_wordOk _
theorem Written.mailboxResponse : Statement (.mailboxResponse) := of_wordOk _
theorem Written.drbgHealthFailure : Statement (.drbgHealthFailure) := of_wordOk _
theorem Written.drbgReseed : Statement (.drbgReseed) := of_wordOk _
theorem Written.stageGo (w : AccessWidth) : Statement (.stageGo w) := of_wordOk _
theorem Written.stageComplete (flashOk : Bool) : Statement (.stageComplete flashOk) := of_wordOk _
theorem Written.adoptGo (w : AccessWidth) : Statement (.adoptGo w) := of_wordOk _
theorem Written.adoptionPiece (ok : Bool) : Statement (.adoptionPiece ok) := of_wordOk _
theorem Written.adoptSwitch : Statement (.adoptSwitch) := of_wordOk _
theorem Written.groupTableApply (p : Fin 68) : Statement (.groupTableApply p) := of_wordOk _
theorem Written.pseudoChannelRetrain (ok : Bool) : Statement (.pseudoChannelRetrain ok) := of_wordOk _
theorem Written.adoptAbort (w : AccessWidth) : Statement (.adoptAbort w) := of_wordOk _
theorem Written.adoptTimeout : Statement (.adoptTimeout) := of_wordOk _
theorem Written.factoryAuth (record : List Byte) : Statement (.factoryAuth record) := of_wordOk _
theorem Written.factoryEntry : Statement (.factoryEntry) := of_wordOk _
theorem Written.powerReq (v : Word64) (w : AccessWidth) : Statement (.powerReq v w) := of_wordOk _
theorem Written.twinAll (v : Word64) (w : AccessWidth) : Statement (.twinAll v w) := of_wordOk _
theorem Written.injectionArm (v : Word64) (w : AccessWidth) : Statement (.injectionArm v w) := of_wordOk _
theorem Written.injectionFire : Statement (.injectionFire) := of_wordOk _
theorem Written.ledgerEventWrite (flashOk : Bool) : Statement (.ledgerEventWrite flashOk) := of_wordOk _
theorem Written.ledgerSnapshot (flashOk : Bool) : Statement (.ledgerSnapshot flashOk) := of_wordOk _
theorem Written.flushNow (w : AccessWidth) : Statement (.flushNow w) := of_wordOk _
theorem Written.durableCopy (flashOk : Bool) : Statement (.durableCopy flashOk) := of_wordOk _
theorem Written.windowOffset (v : Word64) (w : AccessWidth) : Statement (.windowOffset v w) := of_wordOk _
theorem Written.windowReady : Statement (.windowReady) := of_wordOk _
theorem Written.obsSel (pin : Fin 4) (v : Word64) (w : AccessWidth) : Statement (.obsSel pin v w) := of_wordOk _
theorem Written.anaSel (v : Word64) (w : AccessWidth) : Statement (.anaSel v w) := of_wordOk _
theorem Written.extest : Statement (.extest) := of_wordOk _
theorem Written.samplePreload (bits : List Bool) : Statement (.samplePreload bits) := of_wordOk _
theorem Written.idcode : Statement (.idcode) := of_wordOk _
theorem Written.clamp : Statement (.clamp) := of_wordOk _
theorem Written.highz : Statement (.highz) := of_wordOk _
theorem Written.debugReset (bit : Bool) : Statement (.debugReset bit) := of_wordOk _
theorem Written.scanDump : Statement (.scanDump) := of_wordOk _
theorem Written.bypass (tdi : Bool) : Statement (.bypass tdi) := of_wordOk _
theorem Written.status : Statement (.status) := of_wordOk _
theorem Written.tj : Statement (.tj) := of_wordOk _
theorem Written.sbStep : Statement (.sbStep) := of_wordOk _
theorem Written.cause : Statement (.cause) := of_wordOk _
theorem Written.power : Statement (.power) := of_wordOk _
theorem Written.alert : Statement (.alert) := of_wordOk _
theorem Written.smbusTimeout : Statement (.smbusTimeout) := of_wordOk _
theorem Written.linkReferenceLoss : Statement (.linkReferenceLoss) := of_wordOk _
theorem Written.heldResetRelease : Statement (.heldResetRelease) := of_wordOk _
theorem Written.haltDrainLimit : Statement (.haltDrainLimit) := of_wordOk _
theorem Written.encodeComplete : Statement (.encodeComplete) := of_wordOk _
theorem Written.d0Return (fn : Fin 17) : Statement (.d0Return fn) := of_wordOk _
theorem Written.msixVectorUnmask (fn : Fin 17) (vector : Fin 64) : Statement (.msixVectorUnmask fn vector) := of_wordOk _
theorem Written.ideKm (fn : Fin 17) (stream : BitVec 8) : Statement (.ideKm fn stream) := of_wordOk _

end Sys2Proof.Laws
end

