-- ==== Sys2Proof/Machine/RegisterView.lean ====
section
/-!
DEFINITION. RegisterView: what a read of BAR0 shows (R10, R178, R239, R259, R288, R305, R306, R310, R331 to R334, R356,
R370, R401, R430, R442, R450, R452, R468). A read changes nothing but in the submission aperture, whose reads are the
command SUBMISSION_READ; so the view is a function of the state and no command.
-/
namespace Sys2Proof.Machine

/-- A register's value from its fields: each a value, its width and its lowest bit. -/
def pack (l : List (Nat × Nat × Nat)) : Word64 := BitVec.ofNat 64 ((l.map fun e => e.1 % 2 ^ e.2.1 * 2 ^ e.2.2).sum)

/-- A bit as a number. -/
def bitNat (b : Bool) : Nat := if b then 1 else 0

/-! ### Identity and feature words (R331) -/

/-- The two bits of GROUP_MAP for a physical group: 0 usable, 1 spare, 2 fused off, 3 retired or failed. -/
def State.mapCode (s : State) (p : Nat) : Nat :=
  if (s.group p).failed then 3
  else match (s.group p).role with
    | .usable => 0
    | .spare => 1
    | .fusedOff => 2
    | .retired | .failed => 3

/-- GROUP_MAP of `n` groups from `p` on. -/
def State.groupMap (s : State) (p n : Nat) : Word64 := pack ((List.range n).map fun i => (s.mapCode (p + i), 2, 2 * i))

/-- Spares not yet substituted. -/
def State.sparesFree (s : State) : Nat := ((List.range 68).filter fun p => (s.group p).role == .spare).length

/-- The block at 0. -/
def State.identityWord (s : State) (fn o : Nat) : Word64 :=
  match o with
  | 0x00 => pack [(0x2048, 16, 0), (s.fuses.grade.toNat, 4, 16), (s.fuses.stepping.toNat, 8, 20), (1, 16, 28)]
  | 0x08 => pack [(s.usableGroups.length * 32, 12, 0), (s.usableGroups.length, 7, 12), (s.fuses.retired.length, 7, 19),
      (s.sparesFree, 3, 26), (16 - s.fuses.retired.length, 5, 29)]
  | 0x10 => s.groupMap 0 32
  | 0x18 => s.groupMap 32 32
  | 0x20 => s.groupMap 64 4
  | 0x28 => pack [(512, 10, 0), (if fn = 0 then s.host.hostHbmMib.toNat else (s.func fn).allotLen.toNat / 16, 32, 32)]
  | 0x30 => pack [(s.beat.toNat, 48, 0)]
  | 0x38 => pack [(bitNat s.rst.hostReady, 1, 0), (bitNat s.mode.sealedTrust, 1, 1), (s.host.linkWidth.toNat, 4, 2),
      (s.host.linkRate.toNat, 4, 6), (bitNat s.host.flit, 1, 10)]
  | _ => 0

/-! ### Queue and credit status, rings, events (R332 to R334) -/

/-- The block at 0x2_0000. -/
def State.queueWord (s : State) (fn o : Nat) : Word64 :=
  let f := s.func fn
  if o < 0x28 then
    match o with
    | 0x00 => pack [(s.freeEntries fn, 13, 0), (f.quota.toNat, 13, 16)]
    | 0x08 => pack [(f.droppedCredit.toNat, 32, 0), (f.droppedMalformed.toNat, 32, 32)]
    | 0x10 => pack [((s.work.jobs.filter fun e => e.2.fn == fn).length, 9, 0)]
    | 0x18 => pack [(f.accessRefused.toNat, 32, 0), (f.poisonReads.toNat, 32, 32)]
    | 0x20 => pack [(f.creditThreshold.toNat, 13, 0)]
    | _ => 0
  else if fn ≠ 0 then 0
  else if o = 0x28 then pack [(s.host.bar2Base.toNat, 8, 0)]
  else if inRange 0x100 0x220 o then
    let g := s.func ((o - 0x100) / 32)
    match (o - 0x100) % 32 with
    | 0 => pack [(g.quota.toNat, 13, 0)]
    | 8 => pack [(g.allotBase.toNat, 22, 16)]
    | 16 => pack [(g.allotLen.toNat, 21, 16)]
    | _ => 0
  else 0

/-- The block at 0x3_0000. -/
def Func.ringWord (f : Func) (o : Nat) : Word64 :=
  match o with
  | 0x00 => f.cq.base
  | 0x08 => pack [(f.cq.log2.toNat, 5, 0), (bitNat f.cq.enabled, 1, 8)]
  | 0x10 => pack [(f.cq.head.toNat, 16, 0)]
  | 0x18 => pack [(f.cq.tail.toNat, 16, 0), (bitNat f.cq.phase, 1, 16), (f.cqBacklog.length, 15, 32)]
  | 0x20 => f.rq.base
  | 0x28 => pack [(f.rq.log2.toNat, 4, 0), (bitNat f.rq.enabled, 1, 8)]
  | 0x30 => pack [(f.rq.head.toNat, 12, 0)]
  | 0x38 => pack [(f.rq.tail.toNat, 12, 0), (bitNat f.rq.phase, 1, 16), (f.rqBacklog.length, 11, 32)]
  | _ => 0

/-- The block at 0x4_0000. -/
def Func.eventWord (f : Func) (fn o : Nat) : Word64 :=
  let bits := fun (x : BitVec 16) => pack [(x.toNat, sourcesOf fn, 0)]
  if inRange 0x40 0x80 o then
    if sourcesOf fn ≤ (o - 0x40) / 8 then 0 else pack [((f.evVector.toList.getD ((o - 0x40) / 8) 0).toNat, 6, 0)]
  else if inRange 0x1000 0x400 o then f.msixTable.at ((o - 0x1000) / 8) (if (o - 0x1000) / 8 % 2 = 0 then 0 else 0x100000000)
  else match o with
    | 0x00 => bits f.evPending
    | 0x08 => bits f.evActive
    | 0x10 => bits f.evMask
    | 0x28 => pack [(f.evStray.toNat, 32, 0)]
    | 0x2000 => f.msixPending
    | _ => 0

/-! ### Device fault collector (R306) -/

/-- The block at 0x5_0000. -/
def FaultUnit.word (f : FaultUnit) (o : Nat) : Word64 :=
  match o with
  | 0x00 => pack [(f.stickyGroups.toNat, 64, 0)]
  | 0x08 => pack [(f.stickyGroups.toNat / 2 ^ 64, 4, 0)]
  | 0x10 => pack [(f.stickyMsd.toNat, 4, 0), (f.stickyIo.toNat, 10, 8)]
  | 0x18 => pack [(f.fencesJ.toNat, 32, 0), (f.fencesW.toNat, 32, 32)]
  | 0x20 => pack [(f.logHead.toNat, 32, 0)]
  | 0x28 => pack [(f.logTail.toNat, 32, 0)]
  | 0x30 => pack [(f.logLost.toNat, 32, 0)]
  | 0x38 => pack [(f.logIndex.toNat, 12, 0)]
  | _ => if inRange 0x40 0x20 o then (f.log.at f.logIndex.toNat []).getD ((o - 0x40) / 8) 0 else 0

/-! ### Mode, power, clocks and pins (R430, R442, R468) -/

/-- A sensor exists and is powered: the numbers of R418 while the sensor domain is on. -/
def State.sensorValid (s : State) (n : Nat) : Bool := decide (n < 50) && s.rst.domains.getLsbD 189

/-- Domains `d` to `d + n − 1` as bits. -/
def State.domainBits (s : State) (d n : Nat) : Word64 := pack [(s.rst.domains.toNat / 2 ^ d, n, 0)]

/-- The power and clock registers. -/
def State.powerWord (s : State) (o : Nat) : Word64 :=
  let p := s.power
  let rail := p.railSelect.toNat
  match o with
  | 0x00 => pack [(p.stepCode.toNat, 3, 0), (p.hostStep.toNat, 3, 3),
      (p.causes, 9, 8), (bitNat p.capUnmet, 1, 17), (bitNat p.pending.isSome, 1, 18)]
  | 0x08 => pack [(p.stepChanges.toNat, 32, 0), (p.stepUpAbandoned.toNat, 32, 32)]
  | 0x10 => pack [(p.tjMax.toNat, 10, 0), (p.tjSensor.toNat, 6, 10), (p.throttleStart.toNat, 7, 16), (bitNat (s.pins.active.getLsbD 3), 1, 23)]
  | 0x18 => pack [(p.pkgPower.toNat, 11, 0), (p.vddcAmps.toNat, 11, 11), (p.vddcMv.toNat, 10, 22), (bitNat s.mode.capped, 1, 32)]
  | 0x20 => pack [(p.sensorSelect.toNat, 6, 0)]
  | 0x28 => pack [((p.sensors.at p.sensorSelect.toNat 0).toNat, 10, 0), (bitNat (s.sensorValid p.sensorSelect.toNat), 1, 10)]
  | 0x30 => pack [(rail, 4, 0)]
  | 0x38 => pack [((p.railMv.at rail 0).toNat, 12, 0), ((p.railMin.at rail 0xFFF).toNat, 12, 12), ((p.railMax.at rail 0).toNat, 12, 24),
      ((p.railExcursions.at rail 0).toNat, 12, 36)]
  | 0x40 => pack [(s.rst.rstCause.toNat, 4, 0)]
  | 0x50 => pack [(bitNat s.rst.haltPending, 1, 0), (bitNat s.rst.halted, 1, 1)]
  | 0x58 => s.domainBits 0 64
  | 0x60 => s.domainBits 64 64
  | 0x68 => s.domainBits 128 62
  | 0x70 => pack [(s.rst.blockResets.toNat, 32, 0), (s.rst.blockTimeouts.toNat, 32, 32)]
  | _ => 0

/-- The mode registers. -/
def State.modeWord (s : State) (o : Nat) : Word64 :=
  let m := s.mode
  match o with
  | 0x100 => pack [(bitNat m.sealedTrust, 1, 0), (bitNat m.capped, 1, 1), (bitNat m.powerForced, 1, 2), (bitNat m.linked, 1, 3),
      (bitNat m.adopting, 1, 4), (bitNat m.factory, 1, 5)]
  | 0x108 => pack [(bitNat m.twinAllNext, 1, 0), (bitNat m.powerReq, 1, 1)]
  | 0x110 => pack [(if m.factory then m.factoryBeat.toNat else 0, 48, 0)]
  | 0x118 => pack [((s.work.jobs.filter fun e => e.2.held && e.2.twin).length, 9, 0), (m.authRefused.toNat, 16, 16)]
  | _ => 0

/-- The pin status registers. -/
def PinUnit.word (p : PinUnit) (o : Nat) : Word64 :=
  if o = 0x200 then pack [(p.active.toNat, 7, 0), (p.racing.toNat, 7, 8), (bitNat p.coolForcing, 1, 15)]
  else if o = 0x240 then pack [(p.coolStuck.toNat, 16, 0)]
  else if inRange 0x208 0x38 o then pack [((p.glitches.at ((o - 0x208) / 8) 0).toNat, 32, 0)] else 0

/-! ### Configuration report, ledger, mailbox (R401, R450, R370) -/

/-- The report that REPORT_STAGED selects, cut to the 256 entries it holds (R400). -/
def State.fullReport (s : State) (staged : Bool) : List (List Byte) :=
  match if staged then s.cfg.staged else s.cfg.active with
  | some i => i.report staged
  | none => []

/-- The usable groups of each compute die, which the configuration report shows once a spare has replaced a group of another
die (R16). R400 and R401 give the count no entry and no register: it stands here by itself (log entry 129). -/
def State.usablePerDie (s : State) : List Nat := (List.range 4).map fun d => (s.usableGroups.filter fun p => p / 17 == d).length

/-- The block at 0x7_0000; the strap's choice of the ×1 bus reads as XSPI_X8 0 (R401, R426). -/
def State.configWord (s : State) (o : Nat) : Word64 :=
  let c := s.cfg
  let whole := (s.fullReport false).length
  if inRange 0x10 0x20 o then pack [(field c.appliedDigest (o - 0x10) 8, 64, 0)]
  else if inRange 0x38 0x20 o then
    pack [(field (((s.fullReport c.reportStaged).take 256).getD c.reportIndex.toNat []) (o - 0x38) 8, 64, 0)]
  else match o with
    | 0x00 => pack [(c.bootSlot.toNat, 2, 0), (s.rst.strap.toNat % 4, 2, 2), (bitNat (!s.rst.strap.getLsbD 2), 1, 4), (bitNat (s.rst.strap.getLsbD 3), 1, 5), (bitNat c.policyOk, 1, 6), (bitNat c.ownerChanged, 1, 7),
        (min 256 whole, 9, 8), (min 65535 (whole - 256), 16, 32)]
    | 0x08 => (c.active.map Image.serial).getD 0
    | 0x30 => pack [(c.reportIndex.toNat, 8, 0), (bitNat c.reportStaged, 1, 8)]
    | 0x58 => pack [(c.slotA.toNat, 2, 0), (c.slotB.toNat, 2, 2), (c.recovery.toNat, 2, 4)]
    | 0x60 => pack [(c.stageAddr.toNat, 48, 0)]
    | 0x68 => pack [(c.stageLen.toNat, 25, 0)]
    | 0x78 => pack [(c.stageState.toNat, 3, 0), (c.stageResult.toNat, 8, 8), (c.adoptPiece.toNat, 4, 16), (c.adoptState.toNat, 4, 20),
        (c.adoptResult.toNat, 8, 24), (c.groupsTabled.length, 7, 32)]
    | 0x80 => pack [(c.refused.toNat, 32, 0)]
    | _ => 0

/-- The block at 0x8_0000. -/
def LedgerUnit.word (l : LedgerUnit) (o : Nat) : Word64 :=
  let v := l.counters.at l.cntIndex.toNat 0
  if inRange 0x1000 0x1000 o then if l.windowReady then pack [(field l.window (o - 0x1000) 8, 64, 0)] else 0
  else match o with
    | 0x00 => pack [(bitNat l.valid, 1, 0), (bitNat l.fresh, 1, 1), (bitNat l.flushBusy, 1, 2), (bitNat l.failed, 1, 3),
        (l.resetCount.toNat, 24, 16)]
    | 0x08 => l.sequence
    | 0x10 => pack [(l.flushes.toNat, 32, 0), (l.writeErrors.toNat, 32, 32)]
    | 0x18 => pack [(l.eventsLost.toNat, 32, 0), (l.badSectors.toNat, 8, 32)]
    | 0x28 => pack [(l.cntIndex.toNat, 12, 0)]
    | 0x30 => pack [(v.toNat, 48, 0), (bitNat (v == BitVec.allOnes 48), 1, 63)]
    | 0x38 => pack [(l.windowOffset.toNat, 23, 0)]
    | 0x40 => pack [(bitNat l.windowReady, 1, 0)]
    | _ => 0

/-- The block at 0x9_0000. -/
def State.mailboxWord (s : State) (o : Nat) : Word64 :=
  let m := s.sec
  if inRange 0x1000 0x1000 o then
    pack ((List.range 8).map fun i => ((cellAt zeroByte m.request (o - 0x1000 + i)).toNat, 8, 8 * i))
  else if inRange 0x8000 0x8000 o then pack [(field m.response (o - 0x8000) 8, 64, 0)]
  else match o with
    | 0x00 => pack [(m.cmd.toNat, 8, 0)]
    | 0x08 => pack [(bitNat m.busy, 1, 0), (m.result.toNat, 8, 8), (m.respLen.toNat, 16, 16), (m.done.toNat, 32, 32)]
    | 0x10 => pack [(m.refused.toNat, 32, 0)]
    | 0x18 => pack [(bitNat s.mode.sealedTrust, 1, 0), (bitNat m.share.isSome, 1, 1), (bitNat m.drbgOk, 1, 2), (bitNat m.drbgLocked, 1, 3),
        (s.fuses.ownerEpoch.toNat, 4, 4), (s.fuses.securityVersion.toNat, 6, 8), (bitNat s.fuses.sealDisabled, 1, 14),
        (bitNat m.session.isSome, 1, 15), (m.attested.length, 7, 16)]
    | 0x20 => pack [(m.pdDone.toNat, 32, 0), (min 65535 m.pdTable.length, 16, 32)]
    | _ => 0

/-! ### Link ports, memory system, observation (R356, R259, R452, R304) -/

/-- Port `n`'s block. -/
def Port.word (p : Port) (o : Nat) : Word64 :=
  match o with
  | 0x00 => pack [(p.state.toNat, 3, 0), (p.failCause.toNat, 3, 3), (p.peerPosition.toNat, 6, 6), (bitNat p.peerValid, 1, 12),
      (p.lanesActive.toNat, 5, 13), (bitNat p.spareUsed, 1, 18)]
  | 0x08 => pack [(p.latency.toNat, 8, 0)]
  | 0x10 => pack [(p.corrected.toNat, 32, 0), (p.framesBad.toNat, 32, 32)]
  | 0x18 => pack [(p.retransmits.toNat, 32, 0), (p.retrains.toNat, 32, 32)]
  | 0x20 => pack [(bitNat p.enabled, 1, 0)]
  | _ => 0

/-- The block at 0xA_0000. -/
def State.linkWord (s : State) (o : Nat) : Word64 :=
  let l := s.link
  if inRange 0x1000 0x1000 o then (s.port ((o - 0x1000) / 256)).word ((o - 0x1000) % 256)
  else match o with
    | 0x00 => pack [(l.position.toNat, 6, 0), (bitNat (l.position == 0), 1, 6), (bitNat l.aligned, 1, 7), (l.upstream.toNat, 4, 8),
        (l.domainStep.toNat, 3, 12), (bitNat l.beatInUsed, 1, 15), (l.alignErr.toNat, 8, 16)]
    | 0x08 => pack [(l.alignLosses.toNat, 32, 0), (s.linkedJobs, 4, 32)]
    | 0x10 => l.membersSeen
    | _ => 0

/-- A stack's block; the spares left show once its tables are reloaded (R259). -/
def Stack.word (k : Stack) (loaded : Bool) (o : Nat) : Word64 :=
  match o with
  | 0x00 => pack [(k.remap.length, 12, 0), (if loaded then 2048 - (k.sparesUsed.map (·.2)).sum else 0, 12, 12), (k.deadRows.length, 12, 24)]
  | 0x08 => pack [(k.corrected.toNat, 32, 0), (k.uncorrectable.toNat, 32, 32)]
  | 0x10 => pack [(k.retries.toNat, 32, 0), (k.overruns.toNat, 32, 32)]
  | 0x18 => pack [(k.temp.toNat, 10, 0), (k.laneSpares.toNat, 32, 32)]
  | _ => 0

/-- The block at 0xB_0000. -/
def State.memoryWord (s : State) (o : Nat) : Word64 :=
  let m := s.memSys
  let bits := fun (n : Nat) (f : Nat → Bool) => ((List.range n).map fun i => bitNat (f i) * 2 ^ i).sum
  if inRange 0x100 0x200 o then (s.stack ((o - 0x100) / 64)).word (decide (2 ≤ s.rst.released)) ((o - 0x100) % 64)
  else if inRange 0x400 0x80 o then
    let k := (o - 0x400) / 32
    let d := s.die k
    match (o - 0x400) % 32 with
    | 0 => pack [(d.kcCorrected.toNat, 32, 0), (d.kcUncorrectable.toNat, 32, 32)]
    | 8 => pack [(d.temp.toNat, 10, 0), (s.rst.domains.toNat / 2 ^ (140 + 7 * k), 4, 10), ((s.work.kcDir.flatMap (·.repairing)).length, 10, 14)]
    | _ => 0
  else match o with
    | 0x00 => pack [(bits 8 fun i => (s.stack i).ready, 8, 0), (bitNat m.hbmReady, 1, 8), (bitNat m.hbmFailed, 1, 9),
        (max (s.power.permits.at 1 0) (s.power.permits.at 2 0), 3, 13), (bits 8 fun i => (s.stack i).doubledRefresh, 8, 16),
        (bits 4 fun i => (s.die i).slowClock, 4, 24)]
    | 0x08 => pack [(m.retiredPages.length, 27, 0)]
    | 0x10 => pack [(m.retiredIndex.toNat, 27, 0)]
    | 0x18 => pack [(m.retiredPages.getD m.retiredIndex.toNat 0, 27, 0), (bitNat (decide (m.retiredIndex.toNat < m.retiredPages.length)), 1, 63)]
    | 0x20 => pack [(bitNat m.patrolEn, 1, 0), (m.patrolHours.toNat, 5, 1)]
    | 0x28 => pack [(m.patrolPos.toNat, 38, 0), (m.passes.toNat, 16, 48)]
    | 0x30 => pack [(m.pcSelect.toNat, 8, 0)]
    | 0x38 => pack [((m.pcCorrected.at m.pcSelect.toNat 0).toNat, 32, 0), ((m.pcUncorrectable.at m.pcSelect.toNat 0).toNat, 32, 32)]
    | _ => 0

/-- The block at 0xC_0000; the injection registers read 0 outside FACTORY (R304). -/
def TestUnit.word (t : TestUnit) (factory : Bool) (o : Nat) : Word64 :=
  if o < 0x20 then pack [((t.obsSel.at (o / 8) 0).toNat, 16, 0)]
  else match o with
    | 0x20 => pack [(t.anaSel.toNat, 16, 0)]
    | 0x28 => pack [(t.selRefused.toNat, 32, 0), (t.jtagRefused.toNat, 32, 32)]
    | 0x1000 => if factory then pack [(t.injMode.toNat, 2, 1), (t.injUnit.toNat, 20, 3), (t.injKind.toNat, 8, 23)] else 0
    | 0x1008 => if factory then pack [(t.injFired.toNat, 32, 0)] else 0
    | _ => 0

/-! ### Group windows (R178, R239, R288, R305) -/

/-- Cluster `k`'s block (R178). -/
def State.coreWord (s : State) (k o : Nat) : Word64 :=
  let c := s.cluster k
  match o with
  | 0x00 => pack [(match c.state with | .idle => 0 | .issuing => 1 | .waiting => 2 | .ended => 3, 2, 0), (bitNat (k % 32 == 0), 1, 2),
      ((s.group (k / 32)).job.toNat, 16, 16), (c.pc.toNat, 32, 32)]
  | 0x08 => pack [(cycleOf c.issueAt, 16, 0), (beatOf c.issueAt, 48, 16)]
  | 0x10 => pack [(c.sat.toNat, 32, 0)]
  | 0x18 => pack [(c.nan.toNat, 32, 0)]
  | 0x20 => pack [(c.grange.toNat, 32, 0)]
  | 0x28 => pack [(c.rearm.toNat, 32, 0)]
  | _ => 0

/-- A ring's block (R239) at cycle `now`. -/
def Ring.word (g : Ring) (now o : Nat) : Word64 :=
  let g := g.settle now
  match o with
  | 0x00 => pack [(g.base.toNat, 12, 0), (g.size.toNat, 13, 12), (bitNat g.resident, 1, 25), (bitNat g.object, 1, 26)]
  | 0x08 => pack [(g.head.toNat, 12, 0), (g.tail.toNat, 12, 16), (g.claim.toNat, 12, 32)]
  | 0x10 => pack [(g.credit.toNat, 13, 0), (g.occupancy.toNat, 13, 16), (g.hq.length, 4, 32), (bitNat g.desc.shadow, 1, 36)]
  | 0x18 => pack [(g.desc.cursor, 48, 0)]
  | 0x20 => pack [(cycleOf g.pushAt, 16, 0), (beatOf g.pushAt, 48, 16)]
  | _ => 0

/-- The SU block of cluster `k` (R239). -/
def Cluster.suWord (c : Cluster) : Word64 :=
  pack [((c.transfers.filter fun t => t.tag.isSome).length, 7, 0), (c.granted.toNat, 32, 32)]

/-- A group's Sheepdog block (R239). -/
def GroupUnits.sheepdogWord (u : GroupUnits) (o : Nat) : Word64 :=
  match o with
  | 0x00 => pack [(u.sdViolations.toNat, 32, 0)]
  | 0x08 => pack [(cycleOf u.sdFirstAt, 16, 0), (beatOf u.sdFirstAt, 48, 16)]
  | 0x10 => pack [(u.sdCluster.toNat, 5, 0), (u.sdEngine.toNat, 4, 5), (u.sdRing.toNat, 4, 9), (u.sdCheck.toNat, 3, 13)]
  | _ => 0

/-- A group's integrity block (R288). LAST_GOOD_f is the earliest last-good beat of the family's instances. -/
def Group.integrityWord (g : Group) (o : Nat) : Word64 :=
  if inRange 0x40 0x80 o then pack [(g.oldestGood ((o - 0x40) / 8) 1, 48, 0)]
  else if inRange 0x10 0x20 o then pack [(field g.digest (o - 0x10) 8, 64, 0)]
  else match o with
    | 0x00 => pack [(match g.residency with | .none => 0 | .pending => 1 | .confirmed => 2, 2, 0), (bitNat g.quarantine, 1, 2),
        (bitNat (g.role == .retired), 1, 3), (g.resRows.toNat, 13, 4), (g.walkU.toNat, 7, 17)]
    | 0x08 => pack [(g.lastMatch.toNat, 48, 0)]
    | 0x30 => pack [(g.terrierFails.toNat, 16, 0), (g.retests.toNat, 16, 16), (g.lastFamily.toNat, 4, 32), (g.lastVisit.toNat, 6, 36)]
    | 0x38 => pack [(g.restartFaults.toNat, 16, 0), (g.lastRestartBeat.toNat, 48, 16)]
    | _ => 0

/-- A group's collector block (R305). -/
def Collector.word (c : Collector) (o : Nat) : Word64 :=
  match o with
  | 0x00 => c.rec0
  | 0x08 => c.rec1
  | 0x10 => c.rec2
  | 0x18 => c.rec3
  | 0x20 => pack [(bitNat c.isOpen, 1, 0), (bitNat (c.rec1.getLsbD 57), 1, 1)]
  | 0x28 => pack [(c.testMsgs.toNat, 32, 0), (c.messages.toNat, 32, 32)]
  | _ => 0

/-- Physical group `p`'s window. -/
def State.groupWindow (s : State) (p o : Nat) : Word64 :=
  if inRange 0x20000 0x2000 o then s.coreWord (32 * p + (o - 0x20000) / 256) (o % 256)
  else if inRange 0x30000 0x8000 o then (s.ring (32 * p + (o - 0x30000) / 1024) ((o - 0x30000) / 64 % 16)).word s.now (o % 64)
  else if inRange 0x38000 0x200 o then if o % 16 = 0 then (s.cluster (32 * p + (o - 0x38000) / 16)).suWord else 0
  else if inRange 0x39000 0x1000 o then (s.unit p).sheepdogWord (o - 0x39000)
  else if inRange 0x3A000 0x1000 o then (s.group p).integrityWord (o - 0x3A000)
  else if inRange 0x3B000 0x1000 o then (s.unit p).collector.word (o - 0x3B000)
  else 0

/-! ### A read of BAR0 (R310) -/

/-- What function `fn` reads at a register's offset: the PF's blocks read 0 in a VF, and so does every offset that no
block decodes. -/
def State.readRegister (s : State) (fn : Nat) (offset : Nat) : Word64 :=
  let o := offset / 8 * 8
  if o < 0x10000 then s.identityWord fn o
  else if o < 0x20000 then 0xFFFFFFFFFFFFFFFF
  else if o < 0x30000 then s.queueWord fn (o - 0x20000)
  else if o < 0x40000 then (s.func fn).ringWord (o - 0x30000)
  else if o < 0x50000 then (s.func fn).eventWord fn (o - 0x40000)
  else if fn ≠ 0 then 0
  else if o < 0x60000 then s.faults.word (o - 0x50000)
  else if o < 0x60100 then s.powerWord (o - 0x60000)
  else if o < 0x60120 then s.modeWord (o - 0x60000)
  else if o < 0x60200 then 0
  else if o < 0x70000 then s.pins.word (o - 0x60000)
  else if o < 0x80000 then s.configWord (o - 0x70000)
  else if o < 0x90000 then s.ledger.word (o - 0x80000)
  else if o < 0xA0000 then s.mailboxWord (o - 0x90000)
  else if o < 0xB0000 then s.linkWord (o - 0xA0000)
  else if o < 0xC0000 then s.memoryWord (o - 0xB0000)
  else if o < 0xD0000 then s.test.word s.mode.factory (o - 0xC0000)
  else if inRange 0x1000000 (68 * 0x40000) o then s.groupWindow ((o - 0x1000000) / 0x40000) ((o - 0x1000000) % 0x40000)
  else 0

/-! ### Observation pins (R451) -/

/-- The level a whitelisted digital selection drives; none where the level is a signal of one implementation or a clock. -/
def State.obsPin (s : State) (n : Nat) : Option Bool :=
  let x := s.test.obsSel.at n 0
  match x.toNat % 256 with
  | 0x00 => some false
  | 0x01 => some (decide (s.cycle.toNat < 16))
  | 0x02 => some ((s.group (x.toNat / 256)).job != 0)
  | 0x10 => some (decide (63488 ≤ s.cycle.toNat))
  | _ => none

end Sys2Proof.Machine
end

