-- ==== Sys2Proof/Tests/Slice0.lean ====
section
/-!
SUPPORT. Slice0: the tests. A theorem named witness_… shows a concrete state and operands that meet the hypotheses of a
statement in Certificates/Slice0/Obligations.lean, clause by clause, at the ends of a clause's range where it has one; one
named test_… checks one step or one function against a value worked out from the rule it cites. Where a hypothesis asks
an answer of an opaque constant of Config (a signature that verifies, a prime that passes its rounds), the witness shows
the hypotheses beside it: that answer can be neither proved nor refuted.
-/
open Sys2Proof Sys2Proof.Machine
namespace Sys2Proof.Tests

/-! The kernel evaluates these theorems one after the other. -/
set_option Elab.async false

/-- The device after host-ready, every domain on and its memory up. -/
def up : State :=
  { State.reset with
    rst := { State.reset.rst with hostReady := true, released := 8, domains := BitVec.allOnes 190 }
    memSys := { State.reset.memSys with hbmReady := true } }

/-- The cluster of group 0 with number 0. -/
def k0 : ClusterId := ⟨0, 0⟩

/-- A residue set of two ordinary moduli and one special modulus. -/
def rs : ResidueSet := ⟨12, [97, 193], [257], 1, 0⟩
/-- A key set of that residue set and one key. -/
def ks : KeySet :=
  { digest := [], ksid := 7, scheme := 1, seed := [], ownerKey := [], rsets := [rs], bounds := {},
    keys := [⟨0, 0, 0, 0, 1, 1, 1, 0, 4096⟩], regionBase := 0x100000, regionLen := 0x100000 }
/-- A program of one group over that key set: register 1 points to an intake area, register 2 to a release area. -/
def prog : Program :=
  { refreshed := true, ksid := 7, keys := [⟨0, 0, 1, 0, false⟩], descriptors := [[0, 0, 0]],
    params := [{}, { role := 4, hi := 2 ^ 40, extent := 65536 }, { role := 5, hi := 2 ^ 40, extent := 65536 }] }
/-- Job 1, on group 0. -/
def job : Job :=
  { id := 1, fn := 0, tag := 9, recordAddr := 0x1000, recordLen := 64, visible := 0, seq := 0, groupCount := 1, set0 := [0],
    phase := .running }
/-- A cluster in the first cycle of beat 0. -/
def issuing : Cluster :=
  { state := .issuing, image := List.replicate 32 0,
    params := ((Vector.replicate 64 (0 : Word64)).set 1 0x20000).set 2 0x40000 }
/-- A state in which job 1's clusters issue, with four rings of 64 rows each. -/
def eng : State :=
  { up with
    groups := [(0, { job := 1 })]
    clusters := (List.range 32).map fun k => (k, issuing)
    rings := (List.range 32).flatMap fun k => (List.range 4).map fun r =>
      (16 * k + r, { base := BitVec.ofNat 12 (64 * r), size := 64, credit := 64 })
    work := { up.work with jobs := [(1, job)], programs := [(0, prog)], keySets := [(0, ks)] } }
/-- What the clusters of group 0 know of their job. -/
def ctx (k : Nat) : Ctx := { job := job, prog := prog, ks := some ks, logical := 0, span := 32, index := k, share := 128 }

/-- A command word of R179 to R182: engine, opcode, flags below the opcode, operands, COUNT with R0 and W, word 3. -/
def word (e o w0 w1 w2 : Nat) (w3 : Nat := 0) : CmdWord :=
  ⟨BitVec.ofNat 32 (3 * 2 ^ 30 + e * 2 ^ 26 + o * 2 ^ 20 + w0), BitVec.ofNat 32 w1, BitVec.ofNat 32 w2, BitVec.ofNat 32 w3⟩
/-- Operand codes of R180. -/
def rg (r : Nat) : Nat := 16 + r
/-- Operands A to E packed (R180). -/
def ops (a b c d e : Nat) : Nat := a + 64 * (b + 64 * (c + 64 * (d + 64 * e)))

theorem ctx_eng : eng.ctx? 0 = some (ctx 0) := rfl

theorem witness_scalar : eng.defined ∧ eng.canTake k0.num 1 1 :=
  ⟨rfl, by decide +kernel, by decide +kernel⟩

def wFill : CmdWord := word 1 9 0 (ops 0 0 0 (rg 0) 0) (64 + 2 ^ 24)

/-! ### Engine commands -/

theorem can_eng : eng.canTake k0.num 4 1 := ⟨by decide +kernel, by decide +kernel⟩

theorem accepts {w : CmdWord} {sh : Shape} {e : Nat} (h : eng.guard 0 (ctx 0) sh w e 0 = .pass) :
    eng.Accepts k0.num (ctx 0) w sh e :=
  ⟨can_eng, rfl, h, rfl⟩

/-- The same with what Sheepdog adds. -/
theorem acceptsBar {w : CmdWord} {sh : Shape} {e : Nat} {bar : State → Ctx → Nat → Barred}
    (h : eng.guard 0 (ctx 0) sh w e 0 = .pass ∧ bar eng (ctx 0) 0 = none) : eng.Accepts k0.num (ctx 0) w sh e bar :=
  ⟨can_eng, rfl, h.1, h.2⟩

theorem span_eng : eng.spanClusters 0 = groupClusters 0 := by decide +kernel

theorem together_eng : eng.together (groupClusters 0) 4 1 0 = true := by decide +kernel

theorem together {w : CmdWord} {sh : Shape} {es : List Nat} {bar : State → Ctx → Nat → Barred}
    (h : (shapeOk (ctx 0) sh w true && eng.enginesFree (groupClusters 0) es 0) = true)
    (h' : ((groupClusters 0).all fun k => (eng.undeclared k w).isNone) = true) (hb : bar eng (ctx 0) 0 = none) :
    eng.AcceptsTogether (groupClusters 0) (ctx 0) w sh es bar where
  nonempty := by decide
  distinct := by decide
  job := rfl
  shape := ((Bool.and_eq_true _ _).mp h).1
  resident := rfl
  declared := fun k hk => by simpa using List.all_eq_true.mp h' k hk
  free := ((Bool.and_eq_true _ _).mp h).2
  clear := hb
  together := together_eng

/-- The words of the vector engine's commands, each with the least and the greatest operands that its row admits where
they bound a clause. -/
def wChain : CmdWord := word 1 1 0 (ops (rg 0) 0 0 (rg 1) 0) (64 + 2 ^ 24)
def wTensor : CmdWord := word 1 2 0 (ops (rg 0) (rg 1) 0 (rg 2) 0) (64 + 2 ^ 24)
def wCvtin (v : Nat) : CmdWord := word 1 5 0 (ops (rg 0) 0 0 (rg 1) 0) (64 + 2 * 2 ^ 24) v
def wCvtout (v : Nat) : CmdWord := word 1 6 0 (ops (rg 0) 0 0 (rg 1) 0) (64 + 2 * 2 ^ 24) v
def wGather : CmdWord := word 1 7 0 (ops (rg 0) (32 + 1) 0 (rg 2) 0) 64 (2 ^ 31 - 1)
def wLdprog : CmdWord := word 1 10 (8 * 63) (ops (rg 0) 0 0 0 0) 1
def wLdconst : CmdWord := word 1 11 0 (ops (rg 0) 0 0 0 0) (8 + 79 * 2 ^ 17)

/-- `eng` with the chain program D = A in slot 0. -/
def engChain : State := eng.modCluster 0 fun c => { c with progs := [(0, ⟨0, [0x109, 0, 0, 0, 0, 0, 0, 0], []⟩)] }

theorem witness_chain : engChain.Accepts k0.num (ctx 0) wChain shChain 1 ∧ tailOk wChain = true ∧
    chainOk (engChain.cluster k0.num) ((ctx 0).rset (cmdRset wChain)) (ctx 0).share wChain 0 = true :=
  ⟨⟨⟨by decide +kernel, by decide +kernel⟩, rfl, by decide +kernel, rfl⟩, by decide +kernel, by decide +kernel⟩

theorem witness_vector : eng.defined ∧ (eng.Accepts k0.num (ctx 0) wTensor shTensor 1 ∧ tailOk wTensor = true) ∧
    (∀ v ∈ [0x00, 0x3F, 0xE0, 0xFF], eng.Accepts k0.num (ctx 0) (wCvtin v) shCvtin 1 ∧ tailOk (wCvtin v) = true ∧
      -32 ≤ signedOf 8 v ∧ signedOf 8 v ≤ 63) ∧
    (∀ v ∈ [0x00, 0xFF], eng.Accepts k0.num (ctx 0) (wCvtout v) shCvtout 1 ∧ tailOk (wCvtout v) = true ∧ cmdR0 (wCvtout v) = 0 ∧
      cmdW (wCvtout v) ≤ 4) ∧
    eng.Accepts k0.num (ctx 0) wGather shGather 1 ∧ (eng.Accepts k0.num (ctx 0) wFill shFill 1 ∧ tailOk wFill = true) ∧
    (eng.Accepts k0.num (ctx 0) wLdprog shLdprog 1 ∧ cmdSpec wLdprog + cmdCount wLdprog ≤ 64) ∧
    eng.Accepts k0.num (ctx 0) wLdconst shLdconst 1 ∧ 8 * cmdR0 wLdconst + cmdCount wLdconst ≤ 640 := by
  refine ⟨rfl, ⟨accepts ?_, ?_⟩, ?_, ?_, accepts ?_, ⟨accepts ?_, ?_⟩, ⟨accepts ?_, ?_⟩, accepts ?_, ?_⟩
  case refine_3 =>
    have h : ∀ v ∈ [0x00, 0x3F, 0xE0, 0xFF], eng.guard 0 (ctx 0) shCvtin (wCvtin v) 1 0 = .pass ∧ tailOk (wCvtin v) = true ∧
      -32 ≤ signedOf 8 v ∧ signedOf 8 v ≤ 63 := by decide +kernel
    exact fun v hv => ⟨accepts (h v hv).1, (h v hv).2⟩
  case refine_4 =>
    have h : ∀ v ∈ [0x00, 0xFF], eng.guard 0 (ctx 0) shCvtout (wCvtout v) 1 0 = .pass ∧ tailOk (wCvtout v) = true ∧
      cmdR0 (wCvtout v) = 0 ∧ cmdW (wCvtout v) ≤ 4 := by decide +kernel
    exact fun v hv => ⟨accepts (h v hv).1, (h v hv).2⟩
  all_goals decide +kernel

def wRescale : CmdWord := word 1 3 0 (ops (rg 0) 0 0 (rg 1) 0) 2
def wAuto : CmdWord := word 1 8 0 (ops (rg 0) 0 0 (rg 1) 0) (1 + 2 ^ 24) (2 ^ 13 - 1)
def wTe : CmdWord := word 2 1 0 (ops (rg 0) 0 0 (rg 1) 0) (2 + 2 ^ 24)

theorem witness_span : 31 ∈ eng.spanClusters (0 : Fin 68) ∧
    eng.AcceptsTogether (eng.spanClusters (0 : Fin 68)) (ctx 0) wRescale shRescale [1, 2] ∧
    (eng.AcceptsTogether (eng.spanClusters (0 : Fin 68)) (ctx 0) wAuto shAuto [1] ∧ (2 ^ 13 - 1) % 2 = 1 ∧
      2 ^ 13 - 1 < 2 ^ ((ctx 0).prog.log2n + 1)) ∧
    eng.AcceptsTogether (eng.spanClusters (0 : Fin 68)) (ctx 0) wTe shTe [2] := by
  rw [show eng.spanClusters ((0 : Fin 68) : Nat) = groupClusters 0 from span_eng]
  refine ⟨?_, together ?_ ?_ rfl, ⟨together ?_ ?_ rfl, ?_⟩, together ?_ ?_ rfl⟩ <;> decide +kernel

def wBconv : CmdWord := word 6 1 0 (ops (rg 0) 0 0 (rg 1) 0) 64 (64 + 2 * 2 ^ 18)
def wKip : CmdWord := word 6 2 0 (ops (rg 0) 0 0 (rg 1) 0) (64 + 2 ^ 24) 0
def wCombine : CmdWord := word 6 3 0 (ops (rg 0) (rg 1) (rg 2) (rg 3) 0) 2 (2 ^ 13 - 1)
def wRef : CmdWord := word 8 1 0 (ops (rg 0) 0 0 (rg 1) 0) 1
/-- `eng` with the directory entry of the job's key. -/
def engKey (e : KcEntry) : State := { eng with work := { eng.work with kcDir := [e] } }
/-- An entry of the job's key: filled or not, a fill under way or none. -/
def keyEntry (filled : Bool) (fill : Option KcFill) : KcEntry :=
  { ksid := 7, index := 0, hi := 1, extents := [5], jobs := [1], filled := filled, bad := false, repairing := [], fill := fill }
theorem accepts_key {e : KcEntry} {w : CmdWord} {sh : Shape} {g : Nat} {bar : State → Ctx → Nat → Barred}
    (h : (engKey e).guard 0 (ctx 0) sh w g 0 = .pass ∧ bar (engKey e) (ctx 0) 0 = none) :
    (engKey e).Accepts k0.num (ctx 0) w sh g bar :=
  ⟨can_eng, ctx_eng, h.1, h.2⟩

theorem witness_bconv : eng.Accepts k0.num (ctx 0) wBconv shBconv 6 (fun s _ _ => s.bconvBar k0.num wBconv) ∧
    bconvOk ((ctx 0).rset 0) wBconv (convFields wBconv.w3.toNat) = true :=
  ⟨acceptsBar (by decide +kernel), by decide +kernel⟩

theorem witness_kip : (engKey (keyEntry true none)).Accepts k0.num (ctx 0) (withoutW wKip) shKip 6
      (fun s x _ => s.kipBar k0.num wKip x) ∧ kipOk (ctx 0) wKip (kipFields 0) = true :=
  ⟨accepts_key (by decide +kernel), by decide +kernel⟩

theorem leads_eng : (eng.spanGroups 0).map (32 * ·) = [0] := by decide +kernel
theorem witness_combine : (0 : Nat) ∈ (eng.spanGroups k0.group).map (32 * ·) ∧
    eng.AcceptsTogether ((eng.spanGroups k0.group).map (32 * ·)) (ctx 0) wCombine shCombine [6, 9] ∧ (2 ^ 13 - 1) % 2 = 1 ∧
    2 ^ 13 - 1 < 2 ^ ((ctx 0).prog.log2n + 1) := by
  rw [show (eng.spanGroups (k0.group : Nat)).map (32 * ·) = [0] from leads_eng]
  refine ⟨by decide, ⟨by decide, by decide, rfl, ?_, rfl, ?_, ?_, rfl, ?_⟩, by decide, by decide⟩ <;> decide +kernel

/-- `eng` with the RS-16 descriptor of R158 over sets of log2 N = 16. -/
def eng16 : State :=
  { eng with work := { eng.work with
      programs := [(0, { prog with log2n := 16, descriptors := [[0, 0, 0, 15, 3, 3, 1, 48, 0, 0x1E, 0, 0x1E]] })]
      keySets := [(0, { ks with rsets := [{ rs with log2n := 16 }] })] } }
theorem witness_refresh : ∃ x, eng16.Accepts k0.num x wRef shRef 8
      (fun s _ t => if s.refreshFree (s.refreshGroups 0 (refSpan wRef)) t then none else some (5, 6, 0)) ∧
    refOk x wRef = true ∧ windowLeft 0 < refreshCyclesOf x (x.descriptor wRef) (refSpan wRef) := by
  refine ⟨(eng16.ctx? 0).get (by decide +kernel), ⟨⟨?_, ?_⟩, (Option.some_get _).symm, ?_, ?_⟩, ?_, ?_⟩ <;> decide +kernel

def wLoad : CmdWord := word 3 1 (2 ^ 18) (ops 0 0 0 (rg 0) 0) 16 1
def wStore : CmdWord := word 3 3 (2 ^ 18) (ops (rg 0) 0 0 0 0) 16 2
def wLoads : CmdWord := word 3 2 (2 ^ 18) (ops 0 0 0 (rg 0) 0) 64 1
def wTile : CmdWord := word 3 8 0 (ops (rg 0) 0 0 48 0) 1
def wRelay (v : Nat) : CmdWord := word 3 5 0 (ops (rg 0) 0 0 (rg 1) 0) 1 v
def wPip : CmdWord := word 3 7 0 (ops 32 0 0 1 0) (1 + 2 ^ 24)
def wKfill : CmdWord := word 3 6 0 0 1
/-- `eng` with ring 0 of cluster 0 as an object ring. -/
def engObj : State := eng.modRing 0 0 fun g => { g with object := true }
/-- A load that starts an object and a store that ends one. -/
def wLoadObj : CmdWord := word 3 1 (2 ^ 18 + 2 ^ 16) (ops 0 0 0 (rg 0) 0) 4 1
def wStoreObj : CmdWord := word 3 3 (2 ^ 18 + 2 ^ 16) (ops (rg 0) 0 0 0 0) 4 2
theorem witness_stream :
    (eng.Accepts k0.num (ctx 0) wLoad shLoad 3 (fun s x _ => s.suBar k0.num wLoad x (s.suPlan k0.num wLoad false).1) ∧
      eng.suOk k0.num (ctx 0) wLoad false = true ∧ cmdD wLoad = .ring 0 ∧ (eng.ring k0.num 0).object = false) ∧
    (eng.Accepts k0.num (ctx 0) wStore shStore 3 (fun s x _ => s.suBar k0.num wStore x (s.suPlan k0.num wStore true).1) ∧
      eng.suOk k0.num (ctx 0) wStore true = true ∧ cmdA wStore = .ring 0) := by
  refine ⟨⟨acceptsBar ?_, ?_⟩, ⟨acceptsBar ?_, ?_⟩⟩ <;> decide +kernel

theorem witness_stream_object :
    (engObj.Accepts k0.num (ctx 0) wLoadObj shLoad 3 (fun s x _ => s.suBar k0.num wLoadObj x (s.suPlan k0.num wLoadObj false).1) ∧
      engObj.suOk k0.num (ctx 0) wLoadObj false = true ∧ cmdD wLoadObj = .ring 0 ∧ (engObj.ring k0.num 0).object = true) ∧
    (engObj.Accepts k0.num (ctx 0) wStoreObj shStore 3 (fun s x _ => s.suBar k0.num wStoreObj x (s.suPlan k0.num wStoreObj true).1) ∧
      engObj.suOk k0.num (ctx 0) wStoreObj true = true ∧ cmdA wStoreObj = .ring 0) := by
  refine ⟨⟨⟨⟨?_, ?_⟩, rfl, ?_, ?_⟩, ?_⟩, ⟨⟨?_, ?_⟩, rfl, ?_, ?_⟩, ?_⟩ <;> decide +kernel

theorem witness_stream_other :
    (eng.AcceptsTogether (groupClusters 0) (ctx 0) wLoads shLoads [3] (fun s x _ => s.loadsBar 0 x wLoads) ∧
      eng.suAligned 0 wLoads .hbm = true ∧
      eng.rangeRole 0 (ctx 0) wLoads .hbm false (eng.suAddress 0 wLoads .hbm) (loadsLength (ctx 0) wLoads) ≠ none) ∧
    (eng.Accepts k0.num (ctx 0) wTile shTile 3 (fun s _ _ => s.tileBar k0.num wTile) ∧ (tileOperands wTile).isSome = true) ∧
    (∀ v ∈ [0, 31, 63, 127 * 64], eng.Accepts k0.num (ctx 0) (wRelay v) shRelay 3 ∧ eng.relayOk k0.num (wRelay v) (ctx 0) = true) ∧
    eng.Accepts k0.num (ctx 0) wPip shPip 3 (fun s x _ => s.pipBar k0.num wPip x) ∧
      walkOk ((ctx 0).rset (((eng.operandSegment k0.num (cmdA wPip)).map fun g => g.hdr.rset).getD 0)) (cmdR0 wPip) (cmdW wPip) = true := by
  refine ⟨⟨together ?_ ?_ ?_, ?_⟩, ⟨acceptsBar ?_, ?_⟩, ?_, acceptsBar ?_, ?_⟩
  case refine_7 =>
    have h : ∀ v ∈ [0, 31, 63, 127 * 64], eng.guard 0 (ctx 0) shRelay (wRelay v) 3 0 = .pass ∧
      eng.relayOk k0.num (wRelay v) (ctx 0) = true := by decide +kernel
    exact fun v hv => ⟨accepts (h v hv).1, (h v hv).2⟩
  all_goals decide +kernel

/-- A fill of that key's entry under way. -/
def aFill : KcFill := { job := 1, cluster := 0, first := 1, next := 0, count := 3, opc := 0, word := 0 }
theorem witness_kfill : ∀ e ∈ [keyEntry false none, keyEntry true none, keyEntry true (some aFill)],
    (engKey e).Accepts k0.num (ctx 0) wKfill shKfill 3 ∧ (engKey e).absent k0.num = false ∧
    ∃ d key, (engKey e).kfillOf (ctx 0) wKfill = some (ks, d, e, key) ∧ d.fromHbm = false := by
  have h : ∀ e ∈ [keyEntry false none, keyEntry true none, keyEntry true (some aFill)],
      (engKey e).guard 0 (ctx 0) shKfill wKfill 3 0 = .pass ∧ (engKey e).absent k0.num = false ∧
      (engKey e).kfillOf (ctx 0) wKfill = some (ks, ⟨0, 0, 1, 0, false⟩, e, ⟨0, 0, 0, 0, 1, 1, 1, 0, 4096⟩) := by decide +kernel
  exact fun e he => ⟨accepts_key ⟨(h e he).1, rfl⟩, (h e he).2.1, _, _, (h e he).2.2, rfl⟩

/-- `eng` with ring r's descriptor as given, and a transfer of the ring ungranted. -/
def engArm (r : Nat) (d : StreamDesc) (ts : List Transfer := []) : State :=
  (eng.modRing 0 r fun g => { g with desc := d }).modCluster 0 fun c => { c with transfers := ts }
def wArm (r : Nat) : CmdWord := word 3 4 (8 * r) 0 1
def busyDesc (shadow : Bool) : StreamDesc := { last := some (.load, wLoad), outstanding := 1, shadow := shadow, base := 0x20000, cursor := 0x20000 }
/-- A load of eight rows into ring 0, waiting for a slot. -/
def load8 : Transfer :=
  { op := .load, src := .hbm, ring := 0, index := 0, addr := 0x20000, rows := 8, bytes := 2048, ringRow := 0, eligible := 1,
    isHead := false, isLast := true, job := 1, role := 4 }
theorem accepts_arm {r : Nat} {d : StreamDesc} {ts : List Transfer}
    (h : (engArm r d ts).canIssue 0 1 = true ∧ (engArm r d ts).fetches 0 4 = true ∧ (engArm r d ts).ctx? 0 = some (ctx 0) ∧
      (engArm r d ts).guard 0 (ctx 0) shArm (wArm r) 3 0 = .pass ∧ (engArm r d ts).armBar 0 (wArm r) (ctx 0) = none ∧
      ((engArm r d ts).cluster 0).nextAt = 0) :
    (engArm r d ts).Accepts k0.num (ctx 0) (wArm r) shArm 3 (fun s x _ => s.armBar k0.num (wArm r) x) :=
  ⟨⟨h.1, h.2.1⟩, h.2.2.1, h.2.2.2.2.2 ▸ h.2.2.2.1, h.2.2.2.2.1⟩

theorem witness_arm :
    (∀ b : Bool, let s := engArm 0 (busyDesc b) [load8]
      s.Accepts k0.num (ctx 0) (wArm 0) shArm 3 (fun s x _ => s.armBar k0.num (wArm 0) x) ∧ (s.ring k0.num 0).desc = busyDesc b ∧
      (s.lastStampOf k0.num 0).any (fun m => decide (m ≤ 0)) = false) ∧
    (let s := engArm 0 {}
     s.Accepts k0.num (ctx 0) (wArm 0) shArm 3 (fun s x _ => s.armBar k0.num (wArm 0) x) ∧ (s.ring k0.num 0).desc.last = none) ∧
    (let s := engArm 0 (busyDesc false)
     s.Accepts k0.num (ctx 0) (wArm 0) shArm 3 (fun s x _ => s.armBar k0.num (wArm 0) x) ∧ s.lastStampOf k0.num 0 = some 0 ∧
     (s.ring k0.num 0).object = false) ∧
    (let s := engArm 0 { busyDesc true with outstanding := 0 }
     (s.ring k0.num 0).desc.shadow = true ∧ s.lastStampOf k0.num 0 = some 0 ∧ 0 ≤ s.now ∧ s.jobRuns k0.group = true ∧
     s.ctx? k0.num = some (ctx 0)) := by
  refine ⟨fun b => ⟨accepts_arm ?_, rfl, ?_⟩, ⟨accepts_arm ?_, rfl⟩, ⟨accepts_arm ?_, ?_, rfl⟩, rfl, ?_, Nat.zero_le _, ?_, rfl⟩
  case refine_1 => cases b <;> decide +kernel
  case refine_2 => cases b <;> decide +kernel
  all_goals decide +kernel

def wMove : CmdWord := word 4 1 0 (ops (rg 0) 0 0 (rg 1) 0) 1
def wBcast : CmdWord := word 4 2 (8 * 31) (ops (rg 0) 0 0 (rg 1) 0) 1
def wFuse : CmdWord := word 9 1 0 0 2
/-- The members of a fused command: a fill handed to nobody, and a load. -/
def fused : List CmdWord := [wFill, { wLoad with w1 := BitVec.ofNat 32 (ops 0 0 0 (rg 1) 0) }]
theorem witness_exchange : eng.Accepts k0.num (ctx 0) wMove shMove 4 (fun s x _ => s.gxMoveBar k0.num wMove x) ∧
    eng.AcceptsTogether (groupClusters 0) (ctx 0) wBcast shBcast [4] :=
  ⟨acceptsBar (by decide +kernel), together (by decide +kernel) (by decide +kernel) rfl⟩

theorem witness_fuse : ∃ ms, eng.AcceptsFuse k0.num (ctx 0) wFuse fused ms [0] := by
  refine ⟨fused.filterMap fun c => (memberOf (ctx 0) c).map fun m => (c, m), rfl, rfl, ?_, ?_, ?_, ?_, ?_, ⟨?_, ?_⟩, ?_⟩ <;> decide +kernel

/-! ### Transfers, verdicts and landings -/

/-- That load, granted: it holds tag 63. -/
def granted (src : SlotSource) : Transfer :=
  { load8 with src := src, tag := some 63, stamp := 1544, data := List.replicate 8 (List.replicate 64 0) }
def engMoves (ts : List Transfer) : State := eng.modCluster 0 fun c => { c with transfers := ts }

theorem witness_grant : ((eng.inject 0).chosen (0 : Fin 68) .hbm 0 = none) ∧
    (let s := engMoves [load8]
     s.defined ∧ s.jobRuns (0 : Fin 68) = true ∧ s.slotOpen (0 : Fin 68) .hbm 8 = true ∧
     ∃ b, (s.inject 8).chosen (0 : Fin 68) .hbm 8 = some b ∧ b.by_ = .transfer 0 load8 ∧ 0 ∈ (s.inject 8).slotClusters 0 load8 ∧
       s.ctx? 0 = some (ctx 0)) ∧
    (let s := engKey (keyEntry true (some aFill))
     s.jobRuns (0 : Fin 68) = true ∧ s.slotOpen (0 : Fin 68) .hbm 8 = true ∧
     ∃ b e, (s.inject 8).chosen (0 : Fin 68) .hbm 8 = some b ∧ b.by_ = .fill e ∧ e.fill = some aFill) := by
  refine ⟨by decide +kernel, ⟨rfl, by decide +kernel, by decide +kernel, ?_⟩, by decide +kernel, by decide +kernel, ?_⟩
  · exact ⟨((engMoves [load8]).inject 8 |>.chosen 0 .hbm 8).get (by decide +kernel), by decide +kernel, by decide +kernel,
      by decide +kernel, rfl⟩
  · exact ⟨((engKey (keyEntry true (some aFill))).inject 8 |>.chosen 0 .hbm 8).get (by decide +kernel), keyEntry true (some aFill),
      by decide +kernel, by decide +kernel, rfl⟩

theorem witness_stamp : ∀ src : SlotSource, let s := engMoves [granted src]
    s.defined ∧ (s.cluster k0.num).tagged? 63 = some (granted src) ∧ (s.cluster k0.num).stampFirst (granted src) = true ∧
    s.storeFirst k0.num (granted src) = true ∧ beatOf (granted src).stamp ≤ s.beat.toNat ∧ (granted src).out = false := by
  intro src
  cases src <;> exact ⟨rfl, by decide +kernel, by decide +kernel, rfl, by decide +kernel, rfl⟩

/-- A load of one row at its stamp. -/
def oneRow : Transfer := { granted .hbm with rows := 1, data := [List.replicate 64 7] }
theorem witness_stamp_row : let s := engMoves [oneRow]
    (s.cluster k0.num).tagged? 63 = some oneRow ∧ (s.cluster k0.num).stampFirst oneRow = true ∧ s.ctx? k0.num = some (ctx 0) ∧
    s.jobRuns k0.group = true ∧ (ctx 0).job.id.toNat = oneRow.job ∧ oneRow.isHead = false ∧ oneRow.op ≠ .loads ∧ oneRow.marks = [] ∧
    s.units = [] :=
  ⟨by decide +kernel, by decide +kernel, rfl, by decide +kernel, rfl, rfl, by decide, rfl, rfl⟩

def due : SheepdogDue := { at_ := 5, check := 2, engine := 1, ring := 3, op := 65, addr := 0, refusedIssue := true, word := 0 }
def landing : RelayRow :=
  { from_ := 0, injectAt := 0, op := 0, word := 0, job := 1, targetGroup := 0, targetCluster := 0, ring := 0, stamp := 9, data := [],
    code := 0, claimed := true, places := [(0, 0)] }
def verdict (w : Nat) : TeVerdict :=
  { at_ := 9, cmd := wTe, sums := [⟨97, 1, w, 1, 1⟩], hdr := none, code := 0, rows := 0, inverse := false, outs := [] }
def longRefresh (n : Nat) : Refresh := { cmd := wRef, hdr := {}, code := 0, words := [], descriptor := [], remaining := n, suspended := true }

theorem witness_verdicts :
    (let s := eng.modCluster 0 fun c => { c with due := [due] }
     (s.cluster k0.num).due = [due] ∧ (s.unit k0.group).sdViolations = 0) ∧
    (let s := (eng.modCluster 0 fun c => { c with due := [due] }).modUnit 0 fun u => { u with sdViolations := 1 }
     (s.cluster k0.num).due = [due] ∧ (s.unit k0.group).sdViolations ≠ 0) ∧
    (let s := eng.modUnit 0 fun u => { u with relay := [landing] }
     let s1 := s.inject 9
     firstStamp (s.unit k0.group).relay = some 9 ∧ nextLanding (s1.unit k0.group).relay = some (0, landing) ∧ beatOf landing.stamp ≤ 0 ∧
     s.jobRuns k0.group = true ∧ (s.jobId k0.group).toNat = landing.job) ∧
    (∀ w ∈ [1, 2], let s := eng.modUnit 0 fun u => { u with teVerdicts := [verdict w] }
     (s.unit (0 : Fin 68)).teVerdicts = [verdict w] ∧ beatOf (verdict w).at_ ≤ s.beat.toNat ∧
     (verdict w).sums.all (sumsHold (0 : Word32).toNat) = (w == 1)) ∧
    (∀ n ∈ [59393, 59392], let s := eng.modUnit 0 fun u => { u with refresh := some (longRefresh n) }
     (s.unit (0 : Fin 68)).refresh = some (longRefresh n) ∧ (longRefresh n).suspended = true ∧ s.jobRuns (0 : Fin 68) = true ∧
     0 ∈ s.refreshGroups 0 (refSpan (longRefresh n).cmd)) := by
  decide +kernel

theorem witness_refresh_ctx : (eng.modUnit 0 fun u => { u with refresh := some (longRefresh 59393) }).ctx? 0 = some (ctx 0) := rfl

/-! ### Scalar instructions -/

theorem witness_loops :
    (∀ n ∈ [0, 1, 16777215, 16777216], let s := eng.modCluster 0 fun c => { c with params := c.params.set 3 (BitVec.ofNat 64 n) };
      s.canIssue k0.num 1 = true ∧ s.fetches k0.num 1 = true ∧ ((s.cluster k0.num).params.toList.getD 3 0).toNat = n) ∧
    (∀ v ∈ [0, 1, 2], let s := eng.modCluster 0 fun c => { c with loops := c.loops.set 3 (BitVec.ofNat 24 v) };
      s.canIssue k0.num 1 = true ∧ s.fetches k0.num 1 = true ∧ (s.cluster k0.num).loops[3] = BitVec.ofNat 24 v) := by
  decide +kernel

theorem witness_waits : (eng.streamLive k0.num = true ∧ eng.fetches k0.num 1 = true ∧ eng.passes k0.num = true) ∧
    (let s := eng.modCluster 0 fun c => { c with nextAt := 59391 }
     s.streamLive k0.num = true ∧ s.fetches k0.num 1 = true ∧ (s.cluster k0.num).nextAt % 65536 ≤ 59391 ∧
     59390 < (s.cluster k0.num).nextAt % 65536) ∧
    (let s := eng.modCluster 0 fun c => { c with state := .waiting }
     (s.cluster k0.num).state = .waiting ∧ s.jobRuns k0.group = true ∧ (s.cluster k0.num).nextAt ≤ s.now) ∧
    (let k : ClusterId := ⟨0, 1⟩
     eng.canIssue k.num 1 = true ∧ eng.fetches k.num 1 = true ∧ k.cluster ≠ 0) := by
  decide +kernel

/-! ### The block -/

theorem inv_of_tables {s : State} (h : s.mem.wf = true) (h' : cellsWf zeroByte s.host.hostRam = true)
    (hf : cellsWf erasedByte s.flash.cells = true) (hj : (s.work.jobs.map (·.1)).Pairwise (· < ·)) : s.Inv := ⟨h, h', hf, hj⟩
theorem inv_up : up.Inv := inv_of_tables rfl rfl rfl .nil
theorem inv_eng : eng.Inv := inv_of_tables rfl rfl rfl (by simp [eng])

/-- The state after a command, where it answers one of which `p` holds. -/
def after (i : Instr) (s : State) (p : State → Bool) : Bool :=
  match exec i s with
  | .next t => p t
  | _ => false

theorem runs_of_after {i : Instr} {s : State} {p : State → Bool} (h : after i s p = true) : Runs i s fun t => p t = true := by
  unfold after at h
  split at h
  · next t e => exact ⟨t, e, h⟩
  · cases h

theorem witness_block : (let s := { up with pending := [Instr.beatBoundary] };
      s.pending = .beatBoundary :: [] ∧ s.defined) ∧ (let s := { up with cycle := 65534 };
      s.pending = [] ∧ s.beating = true ∧ s.cycle.toNat + 1 < 65536) ∧
    (let s := { up with cycle := 65535 };
      s.pending = [] ∧ s.cycle.toNat = 65535) ∧ (State.reset.pending = [] ∧ State.reset.beating = false) ∧
    (let s := { up with rst := { up.rst with scanDumped := true } };
      s.rst.scanDumped = true ∧ mayReset .beatBoundary = false) :=
  ⟨⟨rfl, rfl⟩, by decide +kernel, by decide +kernel, by decide +kernel, by decide +kernel⟩

theorem witness_invariant : eng.Inv ∧ ∃ t, step { eng with pending := [Instr.sealDisable, .beatBoundary] } = .next t := by
  obtain ⟨t, h, _⟩ := runs_of_after (i := .sealDisable) (s := { eng with pending := [.beatBoundary] }) (p := fun _ => true)
    (by decide +kernel)
  exact ⟨inv_eng, t, h⟩

/-! ### The fault path and the beat -/

/-- A message of a group's vector engine of kind `kind`. -/
def wire (kind : Nat) : FaultWire :=
  { word := BitVec.ofNat 64 (groupUnit 0 0 1 0 + kind * 2 ^ 20), fireAt := 65541, job := 1, addr := 0, poisoned := false,
    detSuspect := false, injected := false }
/-- A record of kind `kind` against job 1 of beat 0. -/
def fault (kind : Nat) : List Word64 := [0, BitVec.ofNat 64 (groupUnit 0 0 1 0 + kind * 2 ^ 20 + 2 ^ 40), 0, 0]
def engFault (kind : Nat) : State :=
  { eng with beat := 1, faults := { eng.faults with toDevice := [fault kind] },
             work := { eng.work with runs := [(1, { restarts := 15 })] } }

theorem witness_messages : (∀ kind ∈ [0x00, 0x13, 0xFF], (wire kind).collector = some (.group 0) ∧
      (wire kind).word.toNat / 2 ^ 20 % 256 = kind) ∧
    (let s := { up with faults := { up.faults with wires := [wire 0x13] } }
     s.faults.wires = [wire 0x13] ∧ (s.collector (.group 0)).isOpen = false) ∧
    (let s := ({ up with faults := { up.faults with wires := [wire 0x13] } } : State).modUnit 0 fun u =>
       { u with collector := { u.collector with isOpen := true } }
     s.faults.wires = [wire 0x13] ∧ (s.collector (.group 0)).isOpen = true) := by
  decide +kernel

theorem witness_records : (∀ kind, (engFault kind).defined ∧ (engFault kind).Inv) ∧
    (∀ e ∈ [(0x13, FenceScope.job), (0x20, .job), (0x67, .all), (0x84, .all), (0x62, .none), (0x66, .none), (0x09, .none)],
      recKind (fault e.1) = e.1 ∧ kindScope e.1 = e.2 ∧ recJob (fault e.1) = 1) ∧
    (kindClass 0x13 = .restarting ∧ recSuspect (fault 0x13) = false ∧ ((engFault 0x13).run 1).episodeRestarting = false ∧
      ((engFault 0x13).run 1).restarts < 16) ∧ (kindClass 0x20 = .deterministic ∧ isRefusal 0x20 = false) ∧
    (∀ kind ∈ [0x13, 0x20], (engFault kind).job? 1 = some job ∧ job.phase = .running ∧
      recBeat (fault kind) < (engFault kind).beat.toNat) :=
  ⟨fun kind => ⟨rfl, inv_of_tables rfl rfl rfl (by simp [engFault, eng])⟩, by decide +kernel⟩

def reading (n : Nat) : List TempReading := [⟨BitVec.ofNat 6 n, 100⟩]
theorem witness_timetable : up.defined ∧ up.beating = true ∧ (reading 49).all (fun r => decide (r.sensor.toNat < 50)) = true ∧
    up.powered 67 = true ∧
    (let s := eng.modUnit 0 fun u => { u with refresh := some (longRefresh 1) }
     s.job? 1 = some job ∧ job.phase = .running ∧ 0 ∈ job.groups ∧ (s.unit 0).refresh = some (longRefresh 1)) :=
  ⟨rfl, by decide +kernel⟩

/-- A checkpoint of job beat 3. -/
def bank : Checkpoint := { beat := 3, cores := [], windows := [] }
/-- A LINKED job of two members: one message of sixteen frames into port 0 and one out of it. -/
def plan : LinkPlan :=
  { key := 5, digest := [], members := 2, position := 1, diameter := 1, ports := [0],
    messages := [⟨0, 100, 16, 0, true, false, 0, 1, 0, 77⟩, ⟨0, 200, 16, 0, false, false, 0, 2, 0, 78⟩] }
/-- A checkpoint of one cluster. -/
def unwritten : Checkpoint :=
  { bank with cores := [(0, ⟨Vector.replicate 32 0, Vector.replicate 4 0, 0, .ended, 0, 0, 0, 0⟩)] }
/-- `eng` with job 1 in phase `ph`, its program LINKED, its run record `r`. -/
def engJob (ph : JobPhase) (linked : Bool) (jobBeat : Nat) (r : JobRun) : State :=
  { eng with
    beat := 1
    work := { eng.work with
      jobs := [(1, { job with phase := ph, jobBeat := jobBeat })]
      programs := [(0, { prog with linked := linked, link := if linked then some plan else none })]
      runs := [(1, r)] } }

theorem witness_abort : (∀ ph ∈ [JobPhase.fencedRestart, .fencedTerminate], let s := engJob ph false 0 {}
      s.job? 1 = some { job with phase := ph } ∧ (s.run 1).fills = 0 ∧ job.groups ≠ []) ∧
    (let s := engJob .running false 0 { committed := some bank }; (s.run 1).committed = some bank) ∧
    (let s := engJob .running true 1 {}
     s.job? 1 = some { job with jobBeat := 1 } ∧ (s.programOf { job with jobBeat := 1 }).link = some plan ∧
     (s.run 1).owing plan.members 0 ≠ []) := by
  decide +kernel

/-! ### Integrity of results -/

def proven (f r : Bool) : TerrierResult := { beat := 0, fired := f, arrived := r }
theorem witness_terrier : up.powered 67 = true ∧
    (∀ e ∈ [(true, false), (false, true), (false, false)], (e.1 && e.2) = false) ∧
    (∀ x ∈ [none, some (proven true false), some (proven false true), some (proven true true)], let s := up.modUnit 67 fun u => { u with injection := x }
      (s.unit 67).injection = x ∧ s.powered 67 = true ∧ s.beat.toNat = 0) ∧
    ((up.modUnit 67 fun u => { u with injection := none }).unit 67).injection = none ∧ (67 : Fin 68) ≠ 0 ∧
    (let s := { up with memSys := { up.memSys with dies := [(3, { injection := some (proven true true) })] } }
     (s.die 3).injection = some (proven true true)) ∧
    (let s := { up.modGroup 67 fun g => { g with quarantine := true, quarantineBeat := 0 } with beat := 1 }
     (s.group 67).quarantine = true ∧ (s.group 67).quarantineBeat < s.beat.toNat) ∧
    (∀ n ∈ [15, 16], ({ up.fuses with retired := List.range n } : Fuses).retired.length = n) := by
  decide +kernel

/-- Group 3 holds residency of one slice, counted from the start of the epoch. -/
def held (done : Bool) : State :=
  up.modGroup 3 fun g => { g with residency := .pending, resRows := 32, walkDone := done, walkCounts := true, absorbed := [(0, [1])] }
theorem witness_retriever : (held false).powered 3 = true ∧ ((held false).group 3).residency ≠ .none ∧
    (held false).beat.toNat % 128 < max 1 ((((held false).group 3).resRows.toNat * 256 + 8191) / 8192) ∧
    (((held false).group 3).walkEpoch = 0 ∧ 0 + 1 = max 1 ((((held false).group 3).resRows.toNat * 256 + 8191) / 8192) ∧
      ((held false).group 3).absorbed ≠ []) ∧
    (∀ q, q < 68 → ((held true).group q).walkDone = true → ((held true).group q).residency = .pending) ∧
    ((held true).group 3).walkDone = true ∧ ((held true).group 3).walkCounts = true ∧
    ((held true).group 3).digest = ((held true).group 3).model := by
  decide +kernel

/-! ### Jobs -/

/-- A job record of one group and no patch, for job 2 and the program of digest 0. -/
def record : List Byte := withCrc32c (leBytes 2 0x0109 ++ leBytes 2 2 ++ leBytes 4 1 ++ List.replicate 52 0)
/-- The program of digest 0: one group, no parameters. -/
def plain : Program := { digest := List.replicate 32 0 }
/-- `up` with an intake area of the PF, the record at its first byte, and the program in slot 0. -/
def ready : State :=
  { up with
    mem := up.mem.store 0x10000 record
    host := { up.host with areas := [(0, { release := false, owner := 0, base := 0x10000, length := 0x20000 })] }
    work := { up.work with programs := [(0, plain)] } }
/-- A visible entry of the PF whose bytes begin so. -/
def entry (b : List Byte) : Entry := { fn := 0, raw := b ++ List.replicate (64 - b.length) 0, seq := 4, visible := 0 }
def shown (s : State) (e : Entry) : State := { s with host := { s.host with visible := [e] } }
def jobEntry : Entry := entry (leBytes 8 3 ++ leBytes 8 0x10000 ++ leBytes 4 64)
def full : State := { ready with work := { ready.work with jobs := (List.range 256).map fun i => (i + 1, job) } }

theorem witness_job_entry : (let s := shown ready jobEntry
      s.visibleEntry (fun e => e.type == 3) = some jobEntry ∧ s.memSys.hbmFailed = false ∧ s.work.jobs.length < 256 ∧
      (let j := s.newJob jobEntry
       s.inIntake 0 j.recordAddr j.recordLen = true ∧ 64 ≤ j.recordLen ∧ j.recordLen ≤ 65536 ∧ j.id ≠ 0 ∧ s.job? j.id.toNat = none)) ∧
    (let s := shown full jobEntry
     s.visibleEntry (fun e => e.type == 3) = some jobEntry ∧ 256 ≤ s.work.jobs.length) := by
  decide +kernel

/-- `ready` with job 2 waiting, its record for `len` bytes. -/
def waiting (len : Nat) : State :=
  { ready with work := { ready.work with jobs := [(2, { job with id := 2, phase := .waiting, recordAddr := 0x10000, recordLen := len })] } }
def job2 (len : Nat) : Job := { job with id := 2, phase := .waiting, recordAddr := 0x10000, recordLen := len }
theorem witness_mapping : (let s := waiting 64
      s.job? 2 = some (job2 64) ∧ (job2 64).phase = .waiting ∧ s.jobStatus (job2 64) = 0 ∧
      s.programBy? (slice (s.jobRecord (job2 64)) 8 32) = some (0, plain) ∧ s.starved (job2 64) = false ∧ s.linkOpen plain = true ∧
      (plain.linked && decide (8 ≤ s.linkedJobs)) = false ∧
      s.place plain (field (s.jobRecord (job2 64)) 5 1 % 2 == 1 || s.mode.twinAll) [] = some ([0], []) ∧
      (s.grantKeys 2 plain).isSome = true) ∧
    (let s := waiting 80
     s.job? 2 = some (job2 80) ∧ s.jobStatus (job2 80) ≠ 0) := by
  decide +kernel

theorem witness_patches : (let l := [(63, 0xFF, 1), (63, 0, 2), (0, 1, 3)]
      (1 ≤ 64 ∧ 0 < 1 ∧ 63 < 64) ∧ (l.Pairwise fun p q => p.1 ≠ q.1 ∨ p.2.1 ≠ q.2.1) ∧ (63, 0, 2) ∈ l ∧
      ((∀ q ∈ l, q.1 = 63 → q.2.1 ≠ 1) ∧ (63, 0xFF, 1) ∈ l) ∧ (∀ q ∈ l, q.1 = 0 → q.2.1 ≠ 0 ∧ q.2.1 ≠ 0xFF)) ∧
    ¬ ([(0, 0, 0), (0, 0, 0)] : List (Nat × Nat × Nat)).Pairwise fun p q => p.1 ≠ q.1 ∨ p.2.1 ≠ q.2.1 := by
  decide +kernel

theorem witness_start : (let s := engJob .mapped false 0 {}
      s.beating = true ∧ s.job? 1 = some { job with phase := .mapped } ∧ job.mapBeat < s.beat.toNat ∧ (s.programOf job).linked = false) ∧
    (let j := { job with deadline := 1 }
     let s := { eng with beat := 1, work := { eng.work with jobs := [(1, j)] } }
     s.job? 1 = some j ∧ j.deadline ≠ 0 ∧ j.visible + j.deadline ≤ s.beat.toNat ∧ j.phase = .running) ∧
    (let s := engJob .fencedRestart false 0 { fills := 1 }
     let j := { job with phase := .fencedRestart }
     s.beating = true ∧ s.rst.haltStarted = false ∧ s.job? 1 = some j ∧ s.filled 1 = true ∧ s.underRepair 1 = false ∧
     (s.run 1).restartFrom (s.programOf j).linked = none ∧ (s.freeGroups j).place (s.programOf j) j.twin (s.run 1).excluded = some ([0], [])) ∧
    (let s := engJob .fencedRestart false 0 { fills := 1, copied := 2, committed := some unwritten, restarts := 15 }
     let s := { s with mem := s.mem.markLine (s.checkpointArea 1 false 0) }
     let j := { job with phase := .fencedRestart }
     s.job? 1 = some j ∧ s.filled 1 = true ∧ s.underRepair 1 = false ∧ (s.run 1).restartFrom (s.programOf j).linked = some unwritten ∧
     s.copyWhole 1 unwritten = false ∧ (s.run 1).restarts < 16) := by
  decide +kernel

def receipt : ReceiptDue := { job := job, run := {}, status := 0, serial := 6, prog := prog, ksDigest := [] }
theorem witness_completion : (let s := engJob .finished false 0 {}
      s.job? 1 = some { job with phase := .finished } ∧ job.silent = false) ∧
    (let s := engJob .fencedTerminate false 0 { fills := 1 }
     s.job? 1 = some { job with phase := .fencedTerminate } ∧ 1 ≤ (s.run 1).fills) ∧
    (let s := { eng with work := { eng.work with completing := [(1, (0, 0))] } }
     s.job? 1 = some job ∧ s.work.completing.find 1 = some (0, 0)) ∧
    (∀ ok : Bool, let s := { eng with work := { eng.work with receiptsDue := [receipt] }, sec := { eng.sec with drbgOk := ok } }
     (s.work.receiptsDue.find? fun d => d.job.id == 1) = some receipt ∧ s.sec.drbgOk = ok) := by
  decide +kernel

/-! ### Submission -/

theorem witness_aperture : up.rst.hostReady = true ∧ up.host.pcieHeld = false ∧ up.ideRequired = false ∧
    (up.func (0 : Fin 17)).d3hot = false ∧ up.freeEntries (0 : Fin 17) = 4096 ∧ up.freeEntries (16 : Fin 17) = 0 ∧
    (∀ o ∈ [0, 65472], o % 64 = 0) := by
  decide +kernel

def defineArea (kind num base len : Nat) : Entry :=
  entry (leBytes 8 5 ++ [4, BitVec.ofNat 8 kind] ++ leBytes 6 num ++ leBytes 8 base ++ leBytes 8 len)
def deleteArea : Entry := entry (leBytes 8 5 ++ [5])
def moving (toHost : Bool) : HostTransfer :=
  { fn := 0, tag := 9, toHost := toHost, hostAddr := 0, devAddr := 0x10000, length := 256, seq := 1 }
theorem witness_areas : (∀ e ∈ [((0, 1, 0x30000, 0x10000), 0), ((2, 1, 0x30000, 0x10000), 0x50), ((0, 1, 0x20000, 0x10000), 0x50),
        ((0, 0, 0x30000, 0x10000), 0x52), ((1, 255, 0x30000, 0x10000), 0)],
      let s := shown { ready with host := { ready.host with hostHbmMib := 64 } } (defineArea e.1.1 e.1.2.1 e.1.2.2.1 e.1.2.2.2)
      s.visibleEntry (fun e => e.type == 5 && e.sub == 4) = some (defineArea e.1.1 e.1.2.1 e.1.2.2.1 e.1.2.2.2) ∧
      s.areaStatus 0 e.1.1 e.1.2.1 e.1.2.2.1 e.1.2.2.2 = e.2) ∧
    (∀ busy : Bool, let s := { shown ready deleteArea with host := { (shown ready deleteArea).host with
          transfers := if busy then [moving false] else [] } }
      s.visibleEntry (fun e => e.type == 5 && e.sub == 5) = some deleteArea ∧
      ∃ a, s.host.areas.find 0 = some a ∧ a.owner = 0 ∧ s.areaBusy a = busy) := by
  refine ⟨by decide +kernel, fun busy => ?_⟩
  cases busy <;> exact ⟨by decide +kernel, _, rfl, rfl, by decide +kernel⟩

def transferEntry (len : Nat) : Entry :=
  entry (leBytes 16 4 ++ leBytes 8 0x1000 ++ leBytes 8 0x10000 ++ leBytes 4 len)
theorem witness_transfers : (∀ e ∈ [(0, false), (256, true), (0x20000, true), (0x20100, false)],
      let s := shown ready (transferEntry e.1)
      s.nextTransfer = some (transferEntry e.1) ∧ s.transferRange 0x10000 0x1000 e.1 = e.2) ∧
    (∀ b : Bool, let s := { ready with host := { ready.host with transfers := [moving b], hostHbmMib := 64 } }
      (s.host.transfers.find? fun t => t.fn == 0) = some (moving b) ∧ s.canSend 0 = true ∧ s.byteAllowed 0 true 0x10000 = true ∧
      s.byteAllowed 0 true (hbmSize - 1) = false ∧ s.mem.linePoisoned 0x10000 = false) ∧ ready.Inv :=
  ⟨by decide +kernel, by decide +kernel, inv_of_tables (by decide +kernel) rfl rfl .nil⟩

def control (sub num id : Nat) : Entry := entry (leBytes 8 5 ++ [BitVec.ofNat 8 sub, BitVec.ofNat 8 num, 0, 0] ++ leBytes 2 id)
theorem witness_control : (let s := shown eng (control 6 0 1)
      s.visibleEntry (fun e => e.type == 5 && e.sub == 6) = some (control 6 0 1) ∧ s.job? 1 = some job ∧ job.fn = 0) ∧
    (let s := shown eng (control 6 0 2)
     s.visibleEntry (fun e => e.type == 5 && e.sub == 6) = some (control 6 0 2) ∧ s.job? 2 = none) ∧
    (let s := shown up (control 7 0 0)
     s.visibleEntry (fun e => e.type == 5 && e.sub == 7 && !s.earlierOpen e.fn e.seq) = some (control 7 0 0)) ∧
    (∀ s ∈ [(shown ready (control 3 0 0), false), (shown { eng with work := { eng.work with jobs := [(1, { job with checked := true })] } }
        (control 3 0 0), true)], s.1.visibleEntry (fun e => e.type == 5 && e.sub == 3) = some (control 3 0 0) ∧
      (s.1.work.programs.find 0).isSome = true ∧ s.1.programInUse 0 = s.2) := by
  decide +kernel

def chunk : Entry := entry (leBytes 2 1 ++ leBytes 6 (48 * 256 + 1) ++ leBytes 4 0)
def reference : Entry := entry (leBytes 8 2 ++ leBytes 8 0x10000 ++ leBytes 4 0x20000)
/-- An object whole in the queue. -/
def queued (b : List Byte) : QueuedProgram := { fn := 0, tag := 0, byChunks := true, bytes := b, complete := true, seq := 0 }
def queueing (b : List Byte) : State := { up with work := { up.work with queue := [queued b] } }
theorem witness_programs : (let s := shown up chunk
      s.visibleEntry (fun e => e.type == 1) = some chunk ∧ s.assembling? 0 = none ∧
      (s.work.queue.any fun q => q.byChunks && !q.complete) = false ∧ s.work.queue.length < 4 ∧
      field chunk.raw 2 2 / 256 % 64 = 48 ∧ field chunk.raw 8 4 = 0 ∧ s.queueBytes + 48 ≤ 0x10000000) ∧
    (let s := { shown up chunk with work := { up.work with queue := [{ queued [] with fn := 1, complete := false }] } }
     s.assembling? 0 = none ∧ (s.work.queue.any fun q => q.byChunks && !q.complete) = true) ∧
    (let s := { shown up chunk with work := { up.work with queue := [{ queued [] with complete := false }] } }
     s.assembling? 0 = some { queued [] with complete := false }) ∧
    (let s := shown ready reference
     s.visibleEntry (fun e => e.type == 2) = some reference ∧ s.memSys.hbmFailed = false ∧
     s.inIntake 0 (field reference.raw 8 8) (field reference.raw 16 4) = true) ∧
    (∀ b, (queueing b).nextProgram = some (queued b)) ∧ ((queueing []).verify [] 0).isSome = true ∧
    up.mode.sealedTrust = false ∧ (∀ d, (up.work.programs.find? fun x => x.2.digest == d) = none) ∧
    up.freeProgramSlot = some 0 :=
  ⟨by decide +kernel, by decide +kernel, by decide +kernel, by decide +kernel, fun _ => rfl, by decide +kernel, rfl, fun _ => rfl, by decide +kernel⟩

def register : Entry :=
  entry (leBytes 16 (5 + 2 ^ 64) ++ leBytes 8 0x10000 ++ leBytes 8 64 ++ leBytes 8 0x40000 ++ leBytes 8 0x10000)
def keyArea : Nat × Area := (1, { release := false, owner := 0, base := 0x40000, length := 0x10000 })
def registration : Registration :=
  { fn := 0, tag := 0, manifest := 0x10000, manifestLen := 64, region := 0x40000, regionLen := 0x10000, areaNo := 1, seq := 0 }
/-- `up` with the key set in slot 0, used by a program or not. -/
def usingSet (used : Bool) : State :=
  { up with work := { up.work with keySets := [(0, ks)], programs := if used then [(0, prog)] else [] } }
theorem witness_keysets : (let s := shown { ready with host := { ready.host with areas := ready.host.areas ++ [keyArea] } } register
      s.host.registration = none ∧ s.visibleEntry (fun e => e.type == 5 && e.sub == 1) = some register ∧ s.memSys.hbmFailed = false ∧
      s.inIntake 0 (field register.raw 16 8) (field register.raw 24 4) = true ∧ field register.raw 24 4 ≠ 0 ∧
      (s.host.areas.find? fun x => x.2.base == field register.raw 32 8 && x.2.length == field register.raw 40 8 && !x.2.release &&
        x.2.owner == 0) = some keyArea) ∧
    (let s := { ready with host := { ready.host with registration := some registration } }
     s.host.registration = some registration ∧ s.keySetVerdict registration = .fail 1) ∧
    (∀ used : Bool, let s := shown (usingSet used) (control 2 0 0)
      s.visibleEntry (fun e => e.type == 5 && e.sub == 2) = some (control 2 0 0) ∧ s.work.keySets.find 0 = some ks ∧
      s.keySetInUse ks = used) := by
  decide +kernel

/-- The head of a tensor of one int8, and ENCODE of it at scale 0 and level 2. -/
def tensorHead : List Byte :=
  withCrc32c ([3, 1, 1, 1] ++ (List.replicate 4 (leBytes 4 1)).flatten ++ List.replicate 40 0) ++ List.replicate 192 0
def encodeEntry : Entry :=
  entry (leBytes 8 5 ++ [8] ++ leBytes 7 0 ++ leBytes 8 0x10000 ++ leBytes 8 0x20000 ++ [0, 2, 0] ++ leBytes 5 0 ++ leBytes 8 7)
theorem witness_encode_fits : let s := { ready with
      mem := up.mem.store 0x10000 tensorHead
      host := { ready.host with encode := some encodeEntry }
      work := { ready.work with keySets := [(0, ks)] } }
    let e := encodeEntry
    s.host.encode = some e ∧ s.keySet? (field e.raw 40 8) = some ks ∧ ks.rsets[field e.raw 32 1]? = some rs ∧ ks.scheme = 1 ∧
    field e.raw 33 1 = 2 ∧ rs.ordinary.length = 2 ∧ signedOf 8 (field e.raw 34 1) = 0 ∧ field e.raw 16 8 = 0x10000 ∧
    field e.raw 24 8 = 0x20000 ∧ s.mem.fetch 0x10000 256 = tensorHead ∧ tensorOk tensorHead = true ∧
    tensorCount tensorHead * tensorWidth (field tensorHead 2 1) = 1 ∧ s.inIntake 0 0x10000 257 = true ∧ tensorSlots tensorHead = 1 ∧
    ((s.areaOf 0x20000 (256 + 2 * 4 * 2 ^ 12)).any fun a => a.2.owner == 0) = true := by
  decide +kernel

def waitingItem : BacklogItem := { bytes := List.replicate 64 0, job := 0, kind := 3 }
theorem witness_encode : (let s := shown up (control 8 0 0)
      s.host.encode = none ∧ s.visibleEntry (fun e => e.type == 5 && e.sub == 8) = some (control 8 0 0)) ∧
    (let s := { up with host := { up.host with encode := some (control 8 0 0) } }
     s.host.encode = some (control 8 0 0) ∧ s.keySet? (field (control 8 0 0).raw 40 8) = none) ∧
    (let s := up.modFunc 16 fun f => { f with cqBacklog := [waitingItem], cq := { f.cq with enabled := true, head := 63, tail := 61 } }
     s.work.unsigned = [] ∧ s.work.noticesDue = [] ∧ (s.func (16 : Fin 17)).rqBacklog = [] ∧
     (s.func (16 : Fin 17)).cqBacklog = [waitingItem] ∧ (s.func (16 : Fin 17)).cq.enabled = true ∧ s.canSend (16 : Fin 17) = true ∧
     (s.func (16 : Fin 17)).cq.space 6 16 = 1) := by
  decide +kernel

/-! ### The host attachment -/

/-- `up` with IDE required: SEALED, and policy field 0x0004 set. -/
def ide : State :=
  { up with mode := { up.mode with sealedTrust := true },
            cfg := { up.cfg with fields := [(0x0004, { num := 1, bytes := [], reason := 0, flags := 0, given := 1 })] } }
theorem witness_window : up.hostOpen = true ∧ up.ideRequired = false ∧ (ide.hostOpen = true ∧ ide.ideRequired = true) ∧
    ((up.bar2Addr (0 : Fin 17) 0).2 = true ∧ (up.bar2Addr (16 : Fin 17) 0).2 = false) ∧ up.Inv ∧
    (let s := { ready with host := { ready.host with hostHbmMib := 64 } }
     s.byteAllowed 0 true 0x10000 = true ∧ s.mem.linePoisoned 0x10000 = false) :=
  ⟨rfl, by decide +kernel, by decide +kernel, by decide +kernel, inv_up, by decide +kernel⟩

theorem witness_requests : State.reset.host.pcieHeld = false ∧ State.reset.rst.hostReady = false ∧
    ({ up with rst := { up.rst with tripped := true } } : State).rst.tripped = true ∧
    ({ up with rst := { up.rst with halted := true } } : State).rst.halted = true ∧ up.beating = true ∧ up.hostOpen = true ∧
    eng.Inv ∧ eng.job? 1 = some job := ⟨rfl, rfl, rfl, rfl, rfl, rfl, inv_eng, rfl⟩

theorem witness_events : (∀ e ∈ [((0 : Fin 17), (9 : Fin 10)), (1, 3)],
      let s := up.modFunc e.1 fun f => { f with evPending := 0x3FF, evMask := 0 }
      e.2.val < (if e.1.val = 0 then 10 else 4) ∧ (s.func e.1).evPending.getLsbD e.2 = true ∧ (s.func e.1).evMask.getLsbD e.2 = false ∧
      (s.func e.1).evActive.getLsbD e.2 = false) ∧ (up.func (0 : Fin 17)).evPending.getLsbD 9 = false ∧ up.hostOpen = true ∧
    (let s := up.modFunc 0 fun f => { f with evActive := 0 }
     (∃ i, i < 10 ∧ (1 : Word64).getLsbD i = true ∧ (s.func 0).evActive.getLsbD i = false) ∧ (s.func 0).evStray.toNat + 1 < 2 ^ 32) ∧
    up.canSend (0 : Fin 17) = true :=
  ⟨by decide +kernel, by decide +kernel, rfl, ⟨⟨0, by decide, by decide, by decide +kernel⟩, by decide +kernel⟩, by decide +kernel⟩

theorem witness_host_registers : up.defined ∧ up.hostOpen = true ∧
    ((0x100 : Word64).getLsbD 8 = true ∧ (up.func 0).cq.enabled = false ∧ (up.func 0).rq.enabled = false) ∧
    AccessWidth.lowHalf ≠ .full ∧
    (let f := { up.faults with logHead := 5, logTail := 2 }
     ((f.logHead - 2).toNat ≤ (f.logHead - f.logTail).toNat ∧ (f.logHead - 5).toNat ≤ (f.logHead - f.logTail).toNat) ∧
     (f.logHead - f.logTail).toNat < (f.logHead - 1).toNat ∧ (f.logHead - f.logTail).toNat < (f.logHead - 6).toNat) ∧
    0xD0000 ≤ (0xD0000 : BitVec 26).toNat ∧
    (∀ b : Bool, ({ up with sec := { up.sec with drbgOk := b } } : State).sec.drbgOk = b) :=
  ⟨rfl, rfl, by decide +kernel, by decide, by decide, by decide, fun _ => rfl⟩

/-! ### The memory system -/

/-- Row 0 of stack 0's first pseudo-channel has failed, in the service slice of a beat, with `n` spares used. -/
def failing (n : Nat) : State :=
  { up with cycle := 60928
            memSys := { up.memSys with failedRows := [⟨0, 0, 0⟩], hbmStacks := [(0, { sparesUsed := [(0, n)] })] } }
def hotStack : Stack := { capAsked := true, temp := 340 }
def stepAt (c : BitVec 3) (m : MemorySystem) : State :=
  { up with power := { up.power with stepCode := c }, memSys := { m with hbmReady := true } }
theorem witness_memory : up.hbmUp = true ∧ (0 : DevAddr).toNat < hbmSize ∧ (BitVec.ofNat 48 (hbmSize - 1)).toNat < hbmSize ∧
    (∀ n ∈ [0, 63, 64], let s := failing n
      s.hbmUp = true ∧ (⟨0, 0, 0⟩ : RemapDue) ∈ s.memSys.failedRows ∧ s.ledger.room 4 = true ∧ 60928 ≤ s.cycle.toNat ∧
      s.memSys.migrating ≠ some 0 ∧ (s.stack 0).remap.find (rowKey 0 0) = none ∧ (s.stack 0).remap.length < 2048 ∧
      (s.stack 0).sparesUsed.at 0 0 = n) ∧
    (∀ pos ∈ [0, hbmSize - 64], let s := { up with memSys := { up.memSys with patrolPos := BitVec.ofNat 38 pos } }
      s.memSys.patrolEn = true ∧ s.memSys.patrolPos.toNat < hbmSize ∧ s.memSys.patrolPos.toNat = pos ∧ s.hbmUp = true) ∧
    up.mem.linePoisoned 0 = false ∧
    (let s := { eng with work := { eng.work with kcDir := [{ keyEntry true none with repairing := [511] }] } }
     ∃ e ∈ s.work.kcDir, (511 : BitVec 9).toNat ∈ e.repairing) ∧
    (332 : BitVec 10).toInt = 332 ∧
    (let s := stepAt 2 { hbmStacks := [(7, hotStack)] }
     (s.stack (7 : Fin 8)).capAsked = true ∧ 340 ≤ (s.stack (7 : Fin 8)).temp.toInt ∧ s.power.pending = none ∧ 2 ≤ s.power.stepCode.toNat) ∧
    (let s := stepAt 3 { dies := [(3, { capAsked := true, temp := 400 })] }
     (s.die (3 : Fin 4)).capAsked = true ∧ 400 ≤ (s.die (3 : Fin 4)).temp.toInt ∧ s.power.pending = none ∧ 3 ≤ s.power.stepCode.toNat) ∧
    (let s := { up with beat := 9155
                        memSys := { up.memSys with hbmStacks := (List.range 8).map fun i => (i, { capAsked := true, temp := 319 }) } }
     s.beating = true ∧ ∀ i : Fin 8, (s.stack i).capAsked = true ∧ (s.stack i).doubledRefresh = false ∧ (s.stack i).temp.toInt < 320 ∧
       (s.stack i).coolSince + 9155 ≤ s.beat.toNat) := by
  refine ⟨by decide +kernel, by decide, by decide, by decide +kernel, by decide +kernel, rfl, ?_, by decide, by decide +kernel,
    by decide +kernel, by decide +kernel⟩
  exact ⟨_, .head _, by decide⟩

/-! ### Clock, voltage and power -/

def powered (p : PowerUnit) (beat : BeatNo) : State := { up with power := p, beat := beat }
theorem witness_clock : (let s := powered { pending := some (65536, 7) } 1
      s.power.pending = some (65536, 7) ∧ s.power.later = none ∧ s.rst.tripped = false ∧ 65536 / 65536 ≤ s.beat.toNat) ∧
    (let s := powered { awaitingVoltage := some 0 } 0
     7 ≤ s.rst.released ∧ s.rst.tripped = false ∧ s.rst.halted = false ∧ s.power.awaitingVoltage = some 0 ∧ s.power.pending = none ∧
     (1450 : BitVec 11).toNat ≤ 1450 ∧ (750 : BitVec 10) = s.power.vddcRequest) ∧
    (let s := powered { retryAt := 1, stepCode := 1 } 1
     s.beating = true ∧ s.power.retryAt ≠ 0 ∧ s.power.retryAt ≤ s.beat.toNat ∧ s.mode.linked = false ∧ s.power.ownStep < s.power.decided) ∧
    (let s := powered { permits := [(0, 1), (4, 1)] } 9155
     s.beating = true ∧ s.power.permit 0 ≠ 0 ∧ s.power.coolSince + 9155 ≤ s.beat.toNat ∧ s.power.permit 4 ≠ 0 ∧
     s.power.currentSince + 1024 ≤ s.beat.toNat) ∧
    (let s := { up with mode := { up.mode with capped := true } }
     s.beating = true ∧ s.mode.capped = true ∧ s.cfgNum 0x0122 < (2047 : BitVec 11).toNat + 506) ∧ up.hostOpen = true ∧
    (up.rst.released ≠ 0 ∧ railExcursion 773 (up.railNominal 1) = true ∧
      railExcursion 690 (up.railNominal 1) = true ∧ up.railNominal 1 = 750) := by
  decide +kernel

/-! ### Reset, release and halt -/

def rst (f : ResetUnit → ResetUnit) : State := { up with rst := f up.rst }
def key (v : Nat) : Word64 := BitVec.ofNat 64 (0xA5C3 * 2 ^ 48 + v)
theorem witness_resets : up.rst.tripped = false ∧ 4 ≤ up.rst.released ∧ State.reset.rst.released < 4 ∧
    (rst fun r => { r with tripped := true }).rst.tripped = true ∧ up.resetHeld = false ∧
    ({ (rst fun r => { r with tripped := true }) with pins := { up.pins with active := 16 } } : State).resetHeld = true ∧
    (rst fun r => { r with heldReset := true }).rst.heldReset = true ∧ up.rst.heldReset = false ∧ up.hostOpen = true ∧
    (key 1).toNat / 2 ^ 48 = 0xA5C3 ∧ (key 1).getLsbD 0 = true ∧ (key 2).getLsbD 0 = false ∧ up.defined := by
  refine ⟨rfl, by decide, by decide, rfl, ?_, ?_, rfl, rfl, rfl, ?_, ?_, ?_, rfl⟩ <;> decide +kernel

theorem witness_release : (∀ n ∈ [0, 2, 3, 7], let s := { State.reset with rst := { State.reset.rst with released := n } }
      s.rst.tripped = false ∧ s.rst.heldReset = false ∧ s.rst.hostReady = false ∧ s.rst.released < 8) ∧
    (let s := { State.reset with rst := { State.reset.rst with released := 8 } }
     s.rst.hostReady = false ∧ 8 ≤ s.rst.released) ∧ up.beating = true ∧ up.hostOpen = true ∧
    ((key 2).toNat / 2 ^ 48 = 0xA5C3 ∧ (key 2).getLsbD 1 = true) ∧
    (let s := { eng with rst := { eng.rst with haltPending := true } }
     s.rst.haltPending = true ∧ s.rst.haltStarted = false ∧ s.cycle = 0 ∧ s.job? 1 = some job ∧ job.held = true) ∧
    (let s := rst fun r => { r with haltPending := true, haltStarted := true }
     s.rst.haltPending = true ∧ s.rst.haltStarted = true ∧ s.rst.halted = false ∧ s.drained = true) := by
  decide +kernel

/-! ### Pins -/

def pins (f : PinUnit → PinUnit) : State := { up with pins := f up.pins }
/-- The first 63 pulses of BEAT_IN for beat 0. -/
def widths : List Nat := List.replicate 63 64
theorem witness_pins : up.pins.active.getLsbD 3 = false ∧ up.isRacing 3 = false ∧
    (pins fun p => { p with active := 8 }).pins.active.getLsbD 3 = true ∧ (pins fun p => { p with active := 8 }).isRacing 3 = false ∧
    (pins fun p => { p with active := 8 }).pins.coolForcing = false ∧ (pins fun p => { p with active := 8 }).pins.forcingNext = none ∧
    (pins fun p => { p with coolForcing := true }).pins.coolForcing = true ∧ (pins fun p => { p with racing := 64 }).isRacing 6 = true ∧
    (let s := { pins (fun p => { p with beatInWidths := widths }) with link := { up.link with beatInUsed := true } }
     s.beating = true ∧ s.link.beatInUsed = true ∧ s.pins.beatInWidths.length < 64 ∧ groupOk (s.pins.beatInWidths ++ [192]) = true) := by
  decide +kernel

theorem witness_alarm : State.reset.CoolHeld ∧ (pins fun p => { p with active := 8 }).pins.active.getLsbD 3 = true ∧
    ({ pins (fun p => { p with active := 8 }) with power := { up.power with permits := [(5, 4)] } } : State).CoolHeld ∧
    up.faults.logCount ≠ 4096 ∧ ({ up.faults with logHead := 4096 } : FaultUnit).logCount = 4096 :=
  ⟨fun h => absurd h (by decide), rfl, fun _ => by decide +kernel, by decide, by decide⟩

/-! ### Blocks and groups -/

theorem witness_blocks : (∀ d ∈ [0, 134, 189], d ∈ (rst fun r => { r with idleAsked := [0, 134, 189] }).rst.idleAsked) ∧
    1 ∉ up.rst.idleAsked ∧
    (∀ n ∈ [0, 15, 16], let s := { up.modGroup 67 fun g => { g with retireDue := true } with
          fuses := { up.fuses with retired := (List.range n) } }
      s.beating = true ∧ s.cycle = 0 ∧ (s.group 67).role = .spare ∧ (s.group 67).retireDue = true ∧ s.ledger.room 2 = true ∧
      s.fuses.retired.length = n ∧ (n < 16 ∨ 16 ≤ s.fuses.retired.length)) ∧ (up.group 0).role = .usable ∧
    (let s := { up.modGroup 67 fun g => { g with proving := true, provedFrom := 0 } with beat := 1024 }
     s.beating = true ∧ (s.group 67).proving = true ∧ (s.group 67).provedFrom + 1024 ≤ s.beat.toNat) := by
  decide +kernel

/-! ### Peer links -/

def portUp (f : Port → Port) : State :=
  { up with link := { up.link with ports := [(15, f { state := 1, spareLane := some 4, lanesActive := 15 })] } }
def trained (n : Nat) (lock : Bool) (lat : Nat) : PortTraining :=
  { lanes := ([0, 1, 2, 3, 4] : List (Fin 5)).take n, locked := lock, peerDigest := [], peerPosition := 2, latency := lat }
theorem witness_ports : ((portUp id).port 15).state = 1 ∧ (portUp id).rst.idleAsked.contains (169 + (15 : Fin 16).val) = false ∧
    ((portUp id).askBlock 184).rst.idleAsked.contains (169 + (15 : Fin 16).val) = true ∧ (portUp id).mode.sealedTrust = false ∧
    (4 ≤ (trained 4 true 88).lanes.length ∧ (trained 4 true 88).latency ≤ 88 ∧ (trained 3 true 88).lanes.length < 4 ∧
     88 < (trained 5 true 89).latency) ∧
    (let s := { portUp id with mode := { up.mode with sealedTrust := true } }
     ¬ (s.mode.sealedTrust = false ∨ (trained 4 true 88).peerDigest ∈ chunks 32 64 (s.cfgBytes 0x0003))) ∧ (up.port 0).state ≠ 1 ∧
    (let p := (portUp fun p => { p with state := 2 }).port 15
     p.state = 2 ∧ p.spareUsed = false ∧ p.spareLane ≠ none ∧ p.lanesActive.getLsbD 3 = true ∧ p.isUp = true ∧ p.enabled = true) ∧
    up.cfgNum 0x0106 < 65536 ∧ ((portUp fun p => { p with state := 3 }).port 15).swapAt = none ∧
    (let s := portUp fun p => { p with state := 3, sparing := some 3, swapAt := some 0 }
     (s.port 15).state = 3 ∧ (s.port 15).sparing = some 3 ∧ (s.port 15).spareLane = some 4 ∧ (s.port 15).swapAt = some 0 ∧
     0 ≤ s.beat.toNat) ∧ up.rst.linkReference = true ∧ up.hostOpen = true ∧
    (∀ b : Bool, ((portUp fun p => { p with enabled := b }).port 15).enabled = b) := by
  decide +kernel

/-- Job 1 LINKED and running at job beat 0, port 0 up, nothing released. -/
def linked (f : Port → Port) : State :=
  { engJob .running true 0 {} with mode := { up.mode with linked := true }
                                   link := { up.link with position := 1, ports := [(0, f { state := 2 })] } }
def planned (i : Nat) : Planned := { id := 1, job := job, key := 5, index := i, msg := plan.messages.getD i ⟨0, 0, 0, 0, false, false, 0, 0, 0, 0⟩ }
/-! A frame is intact by its construction: kernel evaluation of a CRC over 2,560 bytes is replaced by its bound. -/

theorem crcStep_lt (x : Nat) (h : x < 2 ^ 64) : crcStep 64 0x42F0E1EBA9EA3693 x < 2 ^ 64 := by
  unfold crcStep
  split
  · exact Nat.mod_lt _ (Nat.two_pow_pos 64)
  · simp only [Nat.shiftRight_eq_div_pow, Nat.shiftLeft_eq] at *
    omega

theorem crc64From_lt (l : List Byte) : ∀ i, i < 2 ^ 64 → crc64From i l < 2 ^ 64 := by
  induction l with
  | nil => exact fun i h => h
  | cons b l ih =>
    intro i h
    refine ih _ ?_
    have hb : b.toNat <<< 56 < 2 ^ 64 := by
      have := b.isLt
      simp only [Nat.shiftLeft_eq]
      omega
    have hx : i ^^^ b.toNat <<< 56 < 2 ^ 64 := Nat.xor_lt_two_pow h hb
    simp only [iterate]
    repeat apply crcStep_lt
    exact hx

theorem leNat_leBytes8 (c : Nat) (h : c < 2 ^ 64) : leNat (leBytes 8 c) = c := by
  simp only [leBytes, leNat, BitVec.toNat_ofNat]
  omega
theorem slice_mid (a b c : List Byte) : slice (a ++ b ++ c) a.length b.length = b := by
  simp [slice]

theorem frameIntact_of (body t : List Byte) (h : body.length = 2560) (ht : t.length = 2)
    (hc : crc32c (slice body 0 60) = field body 60 4) : frameIntact (body ++ leBytes 8 (crc64 body) ++ t) = true := by
  have l8 : (leBytes 8 (crc64 body)).length = 8 := rfl
  have e1 : slice (body ++ leBytes 8 (crc64 body) ++ t) 0 2560 = body := by
    have := slice_mid [] body (leBytes 8 (crc64 body) ++ t)
    simpa [h] using this
  have e2 : slice (body ++ leBytes 8 (crc64 body) ++ t) 2560 8 = leBytes 8 (crc64 body) := by
    have := slice_mid body (leBytes 8 (crc64 body)) t
    rwa [h, l8] at this
  have e3 : ∀ o n, o + n ≤ 2560 → slice (body ++ leBytes 8 (crc64 body) ++ t) o n = slice body o n := by
    intro o n hn
    simp [slice, List.drop_append, List.take_append, h, show n - (2560 - o) = 0 by omega]
  unfold frameIntact field
  rw [e1, e2, e3 0 60 (by omega), e3 60 4 (by omega), leNat_leBytes8 (crc64 body) (crc64From_lt _ _ (Nat.two_pow_pos 64))]
  rw [hc]
  simp [field, h, l8, ht]

/-- A data frame of slot 115, the last of the first message: header, payload and CRC. -/
def frameHead : List Byte :=
  withCrc32c (leBytes 2 1 ++ leBytes 2 115 ++ leBytes 7 0 ++ leBytes 5 15 ++ leBytes 8 77 ++ leBytes 8 5 ++ List.replicate 28 0)
def frameBody : List Byte := frameHead ++ List.replicate 2496 0
def frame : List Byte := frameBody ++ leBytes 8 (crc64 frameBody) ++ [0, 0]
theorem witness_frame_intact : frameIntact frame = true :=
  frameIntact_of frameBody [0, 0] (by rw [frameBody, List.length_append, List.length_replicate, show frameHead.length = 64 from rfl]) rfl
    (by decide +kernel)
theorem witness_frames : (linked id).beating = true ∧ ((linked id).port 0).isUp = true ∧ field frame 0 1 = 1 ∧
    (linked id).messageAt 0 (field frame 2 2 % 4096) true = some (planned 0) ∧ field frame 16 8 = 77 ∧ field frame 24 8 = 5 ∧
    field frame 11 1 + 100 = field frame 2 2 % 4096 ∧ 0 ∉ ((linked id).run 1).spoiled ∧ job.replays = false := by
  decide +kernel

theorem witness_frames_bad : (linked id).messageAt 0 100 true = some (planned 0) ∧ (100 : Nat) ≠ 100 + 16 + 15 ∧
    ((linked id).run 1).badFrames.at 0 0 = 0 ∧ (linked id).messageAt 0 99 true = none ∧
    (linked id).messageAt 0 200 false = some (planned 1) ∧ (planned 1).msg.slot = 200 ∧ 0 < (planned 1).msg.frames ∧
    (∀ m : Option Nat, ({ job with releaseMark := m }).replays = m.isSome) ∧
    (let s := linked fun p => { p with peerNak := some 200, replay := [(200, [])] }
     (s.port 0).peerNak = some 200 ∧ s.messageAt 0 200 false = some (planned 1) ∧
     ((s.port 0).replay.find? fun e => e.1 == 200) = some (200, []) ∧ (s.run 1).badFrames.at 1 0 = 0) := by
  refine ⟨by decide +kernel, by decide, by decide +kernel, by decide +kernel, by decide +kernel, rfl, by decide, ?_, by decide +kernel⟩
  intro m
  cases m <;> simp [Job.replays, job]

def control0 : ControlRecord := { origin := 0, hops := 14, value := 6, beat := 0, key := 5, plan := 0 }
theorem witness_records_link : (linked id).beating = true ∧ (linked id).mode.linked = true ∧
    (control0.origin ≠ (linked id).link.position ∧ ∀ kind < 7, ¬ ((linked id).link.seen.any fun x => x.take 6 == recordName control0 kind) = true) ∧
    control0.hops.toNat < 15 ∧ ({ control0 with origin := 1 } : ControlRecord).origin = (linked id).link.position ∧
    (let s := { linked id with link := { (linked id).link with seen := [recordName control0 1] } }
     (s.link.seen.any fun x => x.take 6 == recordName control0 1) = true) ∧
    ((linked id).link.position ≠ 0 ∧ ((linked id).port (linked id).link.upstream.toNat).isUp = true) ∧
    (let s := { linked id with link := { (linked id).link with alignRun := 64 } }
     64 ≤ s.link.alignRun) ∧
    (linked id).jobByKey 5 = some (1, job, plan) ∧ isRefusal 6 = false ∧
    (let s := { linked id with link := { (linked id).link with stepDue := [(1, 7)] } }
     (s.link.stepDue.find? fun d => decide (d.1 ≤ s.beat.toNat)) = some (1, 7)) ∧
    (let s := { engJob .mapped true 0 { linkReady := [0, 1] } with mode := { up.mode with linked := true } }
     let j := { job with phase := .mapped }
     s.job? 1 = some j ∧ (s.programOf j).link = some plan ∧ s.planClash plan = false ∧ s.allReady 1 plan = true ∧
     (s.run 1).linkStart.getD j.mapBeat < s.beat.toNat) := by
  decide +kernel

/-! ### The security block -/

/-- `ready` with the mailbox's request cells as given. -/
def asked (l : List (Nat × Byte)) : State := { ready with sec := { up.sec with drbgOk := true, request := l.map fun e => ⟨e.1, e.2⟩ } }
theorem witness_mailbox : (asked []).requestOk [] = true ∧ (asked [(0, 1)]).requestOk [] = false ∧ (asked []).sec.busy = false ∧
    (asked []).hostOpen = true ∧ 4 ≤ up.rst.released ∧ ({ up.sec with busy := true } : SecurityUnit).busy = true ∧
    (∀ n ∈ [2 ^ 20], 2 ^ 20 ≤ ({ up.sec with drbgRequests := n } : SecurityUnit).drbgRequests) := by
  decide +kernel

/-- The curve y² = x³ + 2x + 2 modulo 17, of order 19, in an engine of one-byte operands. -/
def curve17 : Curve := { len := 1, p := 17, a := 2, b := 2, gx := 5, gy := 1, n := 19, h := 1, digest := [] }
/-- The mailbox asked for `n` bytes at 0x10000, which hold `b`; the curve stands in slot 3. -/
def quince (b : List Byte) : State :=
  let s := asked ([(1, 3), (10, 1)] ++ (List.range 2).filterMap fun i =>
    let v := BitVec.ofNat 8 (b.length / 256 ^ i); if v = 0 then none else some (16 + i, v))
  { s with mem := up.mem.store 0x10000 b, sec := { s.sec with curves := [(3, curve17)] } }
def operands (b : List Byte) : Nat × Nat × List Byte :=
  ((quince b).request 8 8, (quince b).request 16 4, (quince b).mem.fetch ((quince b).request 8 8) ((quince b).request 16 4))
theorem witness_quince : (∀ b ∈ [[5, 1], [17, 1], [5, 17], [5, 2], [0, 5, 1], [18, 5, 1], [19, 5, 1], [0, 5, 2], [1, 0, 1, 5, 1],
        [1, 1, 18, 5, 2], [1, 19, 1, 5, 1]],
      operands b = (0x10000, b.length, b) ∧ (quince b).requestOk quinceFields = true ∧ (quince b).request 1 1 ≤ 3 ∧
      (quince b).sec.curves.find ((quince b).request 1 1) = some curve17 ∧ (quince b).inIntake 0 0x10000 b.length = true) ∧
    (1 * 1 % 17 = (5 * 5 * 5 + 2 * 5 + 2) % 17 ∧ ¬ (2 * 2 % 17 = (5 * 5 * 5 + 2 * 5 + 2) % 17)) ∧
    pointMul 17 2 18 (some (5, 1)) = some (5, 16) ∧ (asked [(1, 2)]).sec.curves.find 2 = none := by
  decide +kernel

/-- A modulus of 1,024 bits, the exponent 3, a base and the expected value 8. -/
def powers (odd : Byte) (base : Nat) : List Byte :=
  [odd] ++ List.replicate 126 0 ++ [0x80] ++ [3, 0, 0, 0] ++ leBytes 128 base ++ leBytes 128 8
theorem witness_modexp : ∀ e ∈ [((1 : Byte), 2), (0, 2), (1, 2 ^ 1023 + 1)],
    let b := powers e.1 e.2
    b.length = 3 * 128 + 4 ∧ ready.inIntake 0 0x10000 b.length = true ∧ 1024 ≤ bitLength (leNat (b.take 128)) ∧
    leNat (b.take 128) = 2 ^ 1023 + e.1.toNat ∧ leNat (slice b 128 4) = 3 ∧ leNat (slice b 132 128) = e.2 := by
  decide +kernel

def curveBytes (n : Nat) : List Byte := [24] ++ List.replicate (n - 1) 0
theorem witness_curve : (let s := { quince (curveBytes 153) with sec := { (asked [(0, 3), (10, 1), (16, 153)]).sec with session := none } }
      s.requestOk [(0, 1), (8, 8), (16, 4)] = true ∧ s.request 0 1 ≤ 3 ∧ s.sec.session = none ∧ s.request 16 4 = 6 * 24 + 9 ∧
      field (curveBytes 153) 0 1 = 24 ∧ allZero (slice (curveBytes 153) 1 7) = true ∧ (curveOf (curveBytes 153)).ok = false) := by
  decide +kernel

/-! ### Shares -/

/-- `asked`, SEALED. -/
def sealed_ (l : List (Nat × Byte)) : State := { asked l with mode := { up.mode with sealedTrust := true } }
def share : Share := { party := 1, parties := 2, width := 1, precision := 0, rset := 0, planes := 1, ksid := 7, words := [], digest := [] }
def session : ImportSession := { number := 1, slot := 3, ksid := 7, scalar := 5, kemPos := 0, offerDigest := [] }
/-- Key set 7 is held and curve 3 loaded; request byte 0 names the curve and bytes 8 the key set. -/
def offering : State :=
  let s := sealed_ [(0, 3), (8, 7)]
  { s with work := { s.work with keySets := [(0, ks)] }, sec := { s.sec with curves := [(3, curve17)] } }
theorem witness_offer : offering.requestOk [(0, 1), (8, 8)] = true ∧ offering.request 0 1 ≤ 3 ∧ offering.notSealed = false ∧
    offering.sec.share = none ∧ offering.keySet? (offering.request 8 8) = some ks ∧
    offering.sec.curves.find (offering.request 0 1) = some curve17 ∧ offering.sec.drbgOk = true ∧ (asked [(8, 7)]).notSealed = true ∧
    ({ offering with sec := { offering.sec with share := some share } } : State).sec.share ≠ none ∧
    (sealed_ [(8, 7), (16, 1)]).requestOk [(8, 8), (16, 4)] = true ∧ (sealed_ []).sec.session = none ∧ some session ≠ none := by
  decide +kernel

/-- An attestation or seal-disable record as far as the checks before its signature read it. -/
def signed (fmt : Byte) (n : Nat) : List Byte := [fmt, 1] ++ List.replicate (n - 2) 0
theorem witness_attest : (let s := sealed_ [(10, 1)]
      s.requestOk [(8, 8)] = true ∧ s.request 8 8 = 0x10000 ∧ s.inIntake 0 0x10000 3373 = true ∧ s.inIntake 0 0x10000 3413 = true ∧
      s.ownerRecord 0x10 (signed 0x10 64) = 0 ∧ allZero (slice (signed 0x10 64) 48 16) = true ∧ s.mode.sealedTrust = true ∧
      s.fuses.sealDisabled = false ∧ s.sec.attested.length < 64 ∧ s.ledger.room 2 = true ∧ s.ownerRecord 0x11 (signed 0x11 104) = 0 ∧
      allZero (slice (signed 0x11 104) 40 64) = true) := by
  decide +kernel

/-- The header of a released object of level 1 under key set 7, of attested program 0. -/
def releasedHead : Header := { scale := 2000, releaseTagged := true, eval := true, ksid := 7, level := 1 }
/-- A share is held, and a tagged object stands at 0x10000 of a release area. -/
def decrypting : State :=
  let s := sealed_ [(10, 1), (18, 2)]
  let area : Area := { release := true, owner := 0, base := 0x10000, length := 0x100000 }
  { s with
    mem := up.mem.store 0x10000 releasedHead.bytes
    host := { s.host with areas := [(0, area)] }
    work := { s.work with keySets := [(0, { ks with rsets := [⟨12, [2 ^ 31], [], 1, 0⟩] })] }
    sec := { s.sec with share := some share, attested := [(List.replicate 32 0, 0)] } }
def decryptObj : List Byte := releasedHead.bytes ++ List.replicate 33024 0
theorem witness_decrypt : decrypting.requestOk [(8, 8), (16, 8)] = true ∧ decrypting.notSealed = false ∧
    decrypting.sec.share = some share ∧ decrypting.request 8 8 = 0x10000 ∧ decrypting.request 16 8 = 0x20000 ∧
    decrypting.inRelease 0 0x10000 256 = true ∧ headerOf (decrypting.mem.fetch 0x10000 64) = headerOf releasedHead.bytes ∧
    (headerOf releasedHead.bytes).log2n ≤ 17 ∧ decrypting.inRelease 0 0x10000 (256 + 2 * 4 * 4096) = true ∧
    (∀ p, decrypting.pageReleased (2048 * p) = true) ∧ decrypting.bulkOut 0x20000 (256 + 4 * 4096) = true ∧
    decrypting.decryptStatus share decryptObj [] = 0 ∧ (asked []).notSealed = true ∧ (sealed_ []).sec.share = none := by
  refine ⟨?_, ?_, rfl, ?_, ?_, ?_, ?_, ?_, ?_, fun _ => rfl, ?_, ?_, ?_, rfl⟩ <;> decide +kernel

/-! ### Images -/

def image : Image := { serial := 2, fwDigest := [], policyOk := false, ownerDigest := [], ownerChange := false, fields := [], unknown := [] }
def cfg (f : ConfigUnit → ConfigUnit) : State := { ready with cfg := f ready.cfg }
/-- An adoption whose piece `q` has ended. -/
def atPiece (q : Nat) : State :=
  let c : ConfigUnit :=
    { ready.cfg with staged := some image, adoptState := 1, adoptPiece := BitVec.ofNat 4 q, groupsTabled := List.range 68
                     retrainNext := 256, switchBeat := none }
  { ready with beat := 576, cfg := c }
theorem witness_staging : (let s := cfg fun c => { c with stageAddr := 0x10000, stageLen := 4096 }
      s.hostOpen = true ∧ s.cfg.stageState ≠ 1 ∧ s.cfg.stageState ≠ 2 ∧ s.mode.adopting = false ∧ s.cfg.stageLen.toNat ≠ 0 ∧
      s.inIntake 0 s.cfg.stageAddr.toNat s.cfg.stageLen.toNat = true) ∧ (cfg fun c => { c with stageState := 1 }).cfg.stageState = 1 ∧
    ready.cfg.staged = none ∧
    (let s := cfg fun c => { c with staged := some image, stageState := 3 }
     s.cfg.staged = some image ∧ s.cfg.stageState = 3 ∧ image.ownerChange = false) ∧
    (∀ q ∈ [1, 2, 3, 4, 5, 6], let s := atPiece q
      s.beating = true ∧ s.cfg.adoptState = 1 ∧ s.cfg.adoptPiece.toNat = q ∧ s.pieceEnded = true ∧ s.ledger.room 2 = true) ∧
    (let s := cfg fun c => { c with staged := some image, adoptState := 1, switchBeat := some 0 }
     s.cfg.switchBeat = some 0 ∧ 0 ≤ s.beat.toNat) ∧
    (let s := cfg fun c => { c with staged := some image, adoptState := 1, adoptPiece := 3, groupsTabled := List.range 67 }
     s.nextTable (s.tableGroups.filter fun q => !s.cfg.groupsTabled.contains q) = some 67 ∧ s.tableFree 67 = true) ∧
    (∀ n ∈ [0, 255], let s := cfg fun c => { c with adoptState := 1, adoptPiece := 5, retrainNext := n }
      s.cfg.adoptPiece = 5 ∧ s.cfg.retrainNext < 256) := by
  decide +kernel

/-- An image that gives every fixed field its value in force. -/
def sameImage : Image :=
  { image with fields := (fieldTypes.filter fun ty => !isLive ty).map fun ty => (ty, ⟨ready.cfgNum ty, [], 0, 0, 1⟩) }
theorem witness_adopt : ready.deadChange sameImage = false ∧ sameImage.ownerChange = false := by
  decide +kernel

/-! ### Factory, the ledger, observation -/

theorem witness_factory : 4 ≤ up.rst.released ∧ up.mode.factory = false ∧ up.factoryOk [] = false ∧
    (let s := { up with mode := { up.mode with factoryPending := true } }
     s.beating = true ∧ s.mode.factoryPending = true ∧ s.sec.busy = false ∧ s.cycle = 0) ∧
    (let s := { up with cycle := 59391, mode := { up.mode with factory := true }, test := { up.test with injArm := true } }
     s.mode.factory = true ∧ s.test.injArm = true ∧ s.beating = true ∧ s.cycle.toNat < 59392 ∧ s.test.injMode.toNat < 2 ∧
     s.hostOpen = true) ∧ up.test.injArm = false := by
  decide +kernel

def event : LedgerEvent := { code := 2, body := [1, 2] }
theorem witness_ledger : (let s := { up with ledger := { up.ledger with events := [event] } }
      2 ≤ s.rst.released ∧ s.ledger.events = [event] ∧ s.ledger.failed = false ∧ s.ledger.lostPending = 0) ∧ up.Inv ∧
    ({ up.ledger with durableAsked := true } : LedgerUnit).durableAsked = true ∧ up.hostOpen = true ∧ up.ledger.durableAsked = false ∧
    up.ledger.events = [] ∧ up.ledger.windowReady = false :=
  ⟨⟨by decide, rfl, rfl, rfl⟩, inv_up, rfl, rfl, rfl, rfl, rfl⟩

theorem witness_observation : up.hostOpen = true ∧ up.mode.sealedTrust = false ∧
    ({ up.mode with sealedTrust := true } : ModeUnit).sealedTrust = true ∧
    (∀ v ∈ [0x00, 0x03, 0x10, 0x15], v < 4 ∨ (0x10 ≤ v ∧ v < 0x16 ∧ up.mode.sealedTrust = false)) ∧
    (∀ v ∈ [0x04, 0x0F, 0x16, 0x20, 0x22, 0xFF], ¬ (v < 4 ∨ (0x10 ≤ v ∧ v < 0x16) ∨ (0x20 ≤ v ∧ v < 0x22 ∧ up.mode.factory = true))) ∧
    (pins fun p => { p with active := 1 }).pins.active.getLsbD 0 = true ∧
    (up.pins.active.getLsbD 0 = false ∧ up.rst.halted = false ∧ up.rst.tripped = false) ∧ 0 < up.rst.released ∧
    (let s := { rst (fun r => { r with halted := true }) with mode := { up.mode with factory := true } }
     s.mode.factory = true ∧ s.mode.sealedTrust = false ∧ s.rst.halted = true) := by
  decide +kernel

/-! ### Well-formedness: an ill-formed command for each check -/

theorem test_wellformed_word : (Instr.veFill k0 wFill).wellFormed = true ∧ (Instr.veFill k0 wChain).wellFormed = false ∧
    (Instr.veFill k0 { wFill with w0 := wFill.w0 &&& 0x3FFFFFFF }).wellFormed = false ∧ (Instr.suLoad k0 wFill).wellFormed = false := by
  decide

theorem test_wellformed_fuse : (Instr.fuse k0 wFuse fused).wellFormed = true ∧
    (Instr.fuse k0 { wFuse with w2 := 1 } [wFill]).wellFormed = false ∧
    (Instr.fuse k0 { wFuse with w2 := 5 } (List.replicate 5 wFill)).wellFormed = false ∧
    (Instr.fuse k0 { wFuse with w2 := 3 } fused).wellFormed = false ∧ (Instr.fuse k0 wFuse [wFill, ⟨0, 0, 0, 0⟩]).wellFormed = false := by
  decide

theorem test_wellformed_release : (Instr.releaseStep ⟨List.replicate 16 0, [], []⟩).wellFormed = true ∧
    (Instr.releaseStep ⟨List.replicate 15 0, [], []⟩).wellFormed = false := by decide

/-! ### Check values of the published CRCs and of SHAKE256 -/

def digits : List Byte := ascii "123456789"
/-- CRC-32C of the digits is 0xE3069283, CRC-64 (ECMA-182) 0x6C40DF5F0B497347, CRC-16 (initial ones) 0x29B1. -/
theorem test_crcs : crc32c digits = 0xE3069283 ∧ crc64 digits = 0x6C40DF5F0B497347 ∧ crc16 digits = 0x29B1 := by decide +kernel
/-- SHAKE256 of nothing begins 46 b9 dd 2b (FIPS 202). -/
theorem test_shake : (digest32 []).take 4 = [0x46, 0xB9, 0xDD, 0x2B] := by decide +kernel

/-! ### One step each; the expected values are worked out from the rules cited -/

/-- `eng` with scalar registers 1 and 2 of cluster 0 as given. -/
def regs (a b : Nat) : State :=
  eng.modCluster 0 fun c => (c.setSreg 1 (BitVec.ofNat 64 a)).setSreg 2 (BitVec.ofNat 64 b)
def sregIs (r : Nat) (v : Nat) (t : State) : Bool := (t.cluster 0).sreg r == BitVec.ofNat 64 v

theorem test_add_wraps : after (.add k0 3 1 2) (regs (2 ^ 64 - 1) 2) (sregIs 3 1) = true := by decide +kernel
theorem test_add_s0_discards : after (.add k0 0 1 2) (regs 5 6) (sregIs 0 0) = true := by decide +kernel
theorem test_sub_borrows : after (.sub k0 1 1 2) (regs 1 2) (sregIs 1 (2 ^ 64 - 1)) = true := by decide +kernel
theorem test_mul_low_half : after (.mul k0 3 1 2) (regs (2 ^ 63) 3) (sregIs 3 (2 ^ 63)) = true := by decide +kernel
theorem test_addi_negative : after (.addi k0 3 1 0xFFFF) (regs 5 0) (sregIs 3 4) = true := by decide +kernel
theorem test_shift_by_64_is_by_0 : after (.shl k0 3 1 2) (regs 5 64) (sregIs 3 5) = true := by decide +kernel
theorem test_shr_in_zeros : after (.shr k0 3 1 2) (regs (2 ^ 63) 63) (sregIs 3 1) = true := by decide +kernel
theorem test_lih_keeps_the_rest : after (.lih k0 1 1 0xABCD) (regs 0xFFFFFFFFFFFFFFFF 0) (sregIs 1 0xFFFFFFFFABCDFFFF) = true := by
  decide +kernel
/-- R176: the words of the features of a program of one group of 32 clusters. -/
theorem test_rdfeat : ∀ e ∈ [(0, 1), (1, 1), (2, 0), (3, 0), (4, 32), (5, 0xFF), (6, 1048576)],
    after (.rdfeat k0 3 (BitVec.ofNat 8 e.1)) eng (sregIs 3 e.2) = true := by decide +kernel
theorem test_loop_skips_on_zero : after (.loop k0 0 false 7 0) eng (fun t => (t.cluster 0).pc == 7) = true := by decide +kernel
theorem test_waitc_late : after (.waitc k0 5) (eng.modCluster 0 fun c => { c with nextAt := 6 })
    (fun t => t.faults.wires.map (fun w => w.word.toNat / 2 ^ 20 % 256) == [0x22]) = true := by decide +kernel
theorem test_waitb : after (.waitb k0) eng (fun t => (t.cluster 0).nextAt == 65536) = true := by decide +kernel
theorem test_settw_not_lead : after (.settw ⟨0, 1⟩ 3 1) eng
    (fun t => t.faults.wires.map (fun w => w.word.toNat / 2 ^ 20 % 256) == [0x23]) = true := by decide +kernel
/-- A textbook curve: on y² = x³ + 2x + 2 modulo 17, twice (5, 1) is (6, 3) and 19 times it is the neutral element. -/
theorem test_point_mul : pointMul 17 2 2 (some (5, 1)) = some (6, 3) ∧ pointMul 17 2 19 (some (5, 1)) = none := by decide +kernel
/-- R182: a parameter register plus 256 times a signed offset of 26 bits. -/
theorem test_word_value : wordValue (eng.cluster 0) { wLoad with w3 := BitVec.ofNat 32 (1 + 64 * (2 ^ 26 - 1)) } = 0x20000 - 256 := by
  decide +kernel
/-- R221: the first HBM slots of a window are cycles 8, 16, 25 and 33 of it. -/
theorem test_hbm_slots : (List.range 34).filter (slotCycle .hbm) = [8, 16, 25, 33] := by decide +kernel
/-- R324, R322: a TRANSFER of a bad range completes at the tail of an open ring with type 4 and status 0x58. -/
theorem test_completion_bytes :
    let s := (shown ready (transferEntry 0)).modFunc 0 fun f => { f with cq := { f.cq with base := 0x100000, enabled := true } }
    after .transfer s (fun t => t.host.ramRead 0x100000 2 == [0x04, 0x58] && (t.func 0).seq == 1) = true := by decide +kernel
/-- R310, R422: SW_RESET without its key does nothing. -/
theorem test_sw_reset_key : after (.swReset 1 .full) up (fun t => t == up) = true := by decide +kernel
/-- R310: a half access leaves the other half of the event mask as it is. -/
theorem test_half_write : after (.evMaskWrite 0 0 .highHalf) up (fun t => (t.func 0).evMask == 0xFFFF) = true := by decide +kernel
theorem test_halt_pin : after .haltReqN up (fun t => t.rst.haltPending && t.pins.active.getLsbD 2) = true := by decide +kernel
/-- R454: after SCAN_DUMP a command that can reset nothing stops. -/
theorem test_scan_dump : (match exec .beatBoundary (rst fun r => { r with scanDumped := true }) with
    | .fault f => f == .undefinedAfterScanDump
    | _ => false) = true := by decide +kernel

end Sys2Proof.Tests
end

