-- ==== Sys2Proof/Proofs/Scope.lean ====
section
/-!
PROOFS. The step on an empty queue (R8, R24; log entry 12).
-/
namespace Sys2Proof.Machine

/-! ### The tick -/

/-- While beats run and the beat's last cycle is not reached, a tick is one cycle (R24). -/
theorem State.tick_of_beating {s : State} (hb : s.beating = true) (hc : s.cycle.toNat + 1 < beatCycles) :
    s.tick = { s with cycle := s.cycle + 1 } := by
  simp [State.tick, hb, hc]

/-- A device whose beats do not run stays as it is. -/
theorem State.tick_of_not_beating {s : State} (hb : s.beating = false) : s.tick = s := by
  simp [State.tick, hb]

/-- In the beat's last cycle a tick waits for BEAT_BOUNDARY (R8). -/
theorem State.tick_of_last_cycle {s : State} (hc : beatCycles ≤ s.cycle.toNat + 1) : s.tick = s := by
  simp [State.tick, Nat.not_lt.mpr hc]

/-! ### The step -/

/-- With no command waiting, a step is a tick. -/
theorem step_of_pending_nil {s : State} (h : s.pending = []) : step s = .next s.tick := by
  simp [step, h]

/-- Settles O2, by the two outcomes of a tick: it counts before the beat's last cycle, and else it changes nothing. -/
theorem emptyQueueCountsCycles : Obligations.EmptyQueueCountsCycles := by
  intro s hq
  rw [step_of_pending_nil hq]
  constructor
  · rintro ⟨hb, hc⟩
    exact ⟨_, congrArg _ (State.tick_of_beating hb hc), BitVec.toNat_add_of_lt hc, rfl⟩
  · rintro (hb | hc)
    · rw [State.tick_of_not_beating hb]
    · rw [State.tick_of_last_cycle (by simp [hc, beatCycles])]

end Sys2Proof.Machine
end

section
/-!
PROOFS. The beat's timetable (R24, R27, R256, R264, R266, R277, R291, R418): what the bookkeeping of a beat leaves alone, the
groups' latches under a drain, and the seven steps of the timetable one by one.
-/
namespace Sys2Proof.Machine

/-! ### The clock and the engine side -/

/-- The clock of the beat. -/
def State.clock (s : State) : BeatNo × BitVec 16 := (s.beat, s.cycle)

/-- The clock, the engine side of the groups and the sensors' readings: what bookkeeping (jobs, records, notices, host rings,
causes of the clock step) leaves alone. -/
def State.scene (s : State) : (BeatNo × BitVec 16) × Table GroupUnits × Table Cluster × Table (BitVec 10) :=
  (s.clock, s.units, s.clusters, s.power.sensors)

theorem clock_of_scene {s t : State} (h : t.scene = s.scene) : t.clock = s.clock := congrArg Prod.fst h
theorem units_of_scene {s t : State} (h : t.scene = s.scene) : t.units = s.units := congrArg (·.2.1) h
theorem clusters_of_scene {s t : State} (h : t.scene = s.scene) : t.clusters = s.clusters := congrArg (·.2.2.1) h
theorem sensors_of_scene {s t : State} (h : t.scene = s.scene) : t.power.sensors = s.power.sensors := congrArg (·.2.2.2) h

/-- What every step of a fold keeps, the fold keeps. -/
theorem foldl_keeps {σ α β : Type} (g : σ → β) {f : σ → α → σ} (h : ∀ s x, g (f s x) = g s) (l : List α) (s : σ) :
    g (l.foldl f s) = g s :=
  (List.foldl_hom g (g₂ := fun b _ => b) fun s x => (h s x).symm).symm.trans (List.foldl_fixed' (fun _ => rfl) l)

@[inherit_doc foldl_keeps]
theorem State.forAll_keeps {β : Type} (g : State → β) {f : State → Nat → State} (h : ∀ s x, g (f s x) = g s) (l : List Nat)
    (s : State) : g (s.forAll l f) = g s := foldl_keeps g h l s

/-- What both branches keep, a choice keeps. -/
theorem keeps_ite {σ β : Type} (g : σ → β) {c : Prop} [Decidable c] {a b : σ} {v : β} (ha : g a = v) (hb : g b = v) :
    g (if c then a else b) = v := by
  split <;> assumption

variable (s : State)

@[simp] theorem State.modGroup_scene (p : Nat) (f : Group → Group) : (s.modGroup p f).scene = s.scene := rfl
@[simp] theorem State.modRing_scene (k r : Nat) (f : Ring → Ring) : (s.modRing k r f).scene = s.scene := rfl
@[simp] theorem State.modRun_scene (id : Nat) (f : JobRun → JobRun) : (s.modRun id f).scene = s.scene := rfl
@[simp] theorem State.modPort_scene (n : Nat) (f : Port → Port) : (s.modPort n f).scene = s.scene := rfl
@[simp] theorem State.count_scene (i n : Nat) : (s.count i n).scene = s.scene := rfl
@[simp] theorem State.raise_scene (u k o t a x : Nat) (j : BitVec 16) (p : Bool) : (s.raise u k o t a x j p).scene = s.scene := rfl
@[simp] theorem State.sendControl_scene (k v b key plan : Nat) : (s.sendControl k v b key plan).scene = s.scene := rfl

theorem State.withMem_scene (m : Memory) : State.scene { s with mem := m } = s.scene := rfl
theorem State.withWork_scene (w : WorkUnit) : State.scene { s with work := w } = s.scene := rfl
theorem State.withFaults_scene (f : FaultUnit) : State.scene { s with faults := f } = s.scene := rfl
theorem State.withLink_scene (l : LinkUnit) : State.scene { s with link := l } = s.scene := rfl
theorem State.withRst_scene (r : ResetUnit) : State.scene { s with rst := r } = s.scene := rfl
theorem State.withCfg_scene (c : ConfigUnit) : State.scene { s with cfg := c } = s.scene := rfl

/-- A change of the power unit that keeps the readings. -/
theorem State.withPower_scene (p : PowerUnit) (h : p.sensors = s.power.sensors := by rfl) :
    State.scene { s with power := p } = s.scene := by
  simp [State.scene, State.clock, h]

@[simp] theorem State.modJob_scene (id : Nat) (f : Job → Job) : (s.modJob id f).scene = s.scene := by
  unfold State.modJob; split <;> rfl

@[simp] theorem State.event_scene (c : Nat) (b : List Byte) : (s.event c b).scene = s.scene := by
  unfold State.event; split <;> rfl

/-! ### Records, fences and notices -/

@[simp] theorem State.appendLog_scene (w : List Word64) : (s.appendLog w).scene = s.scene := by
  have hadd (u : State) (l : List Nat) : (u.forAll l fun u id => u.modRun id fun r => r.addFault w).scene = u.scene :=
    State.forAll_keeps State.scene (fun u id => u.modRun_scene id _) l u
  exact (State.withWork_scene _ _).trans ((hadd _ _).trans (keeps_ite _ (s.withFaults_scene _) rfl))

@[simp] theorem State.managementRecord_scene (k o j a : Nat) : (s.managementRecord k o j a).2.scene = s.scene :=
  State.appendLog_scene _ _

@[simp] theorem State.askIdle_scene (l : List Nat) : (s.askIdle l).scene = s.scene :=
  State.forAll_keeps State.scene (f := fun s p => (s.askBlock (2 * p)).askBlock (2 * p + 1)) (fun _ _ => rfl) l s

@[simp] theorem State.fenceTerminate_scene (id k : Nat) : (s.fenceTerminate id k).scene = s.scene := by
  unfold State.fenceTerminate
  split
  · rfl
  next j _ =>
    extract_lets s₁ s₂ s₃
    have hask : s₁.scene = s.scene := keeps_ite _ rfl (s.askIdle_scene j.groups)
    have hrun : s₃.scene = s.scene := (s₁.modJob_scene id _).trans hask
    split
    · exact keeps_ite _ hrun hrun
    · exact hrun

theorem State.divergeTerminate_scene (id k : Nat) : (s.divergeTerminate id k).scene = s.scene := by
  simp [State.divergeTerminate]

@[simp] theorem State.receiptItem_scene (fn k : Nat) (c : List Byte) (j : Nat) : (s.receiptItem fn k c j).scene = s.scene := by
  unfold State.receiptItem
  split
  · rfl
  · extract_lets; split <;> rfl

@[simp] theorem State.deliverNotice_scene (c : List Byte) (fns : List Nat) : (s.deliverNotice c fns).scene = s.scene := by
  have hnow (l : List Nat) : (s.forAll l fun s fn => s.receiptItem fn 2 c).scene = s.scene :=
    State.forAll_keeps State.scene (fun s fn => s.receiptItem_scene fn 2 c 0) l s
  unfold State.deliverNotice
  extract_lets
  split <;> exact hnow _

@[simp] theorem State.issueNotice_scene (b : List Byte) (fns : List Nat) : (s.issueNotice b fns).scene = s.scene := by
  unfold State.issueNotice
  split
  · exact State.deliverNotice_scene _ _ _
  · rfl

@[simp] theorem State.recall_scene (k f v : Nat) (g : List Nat) (a b : Nat) (w : List Word64) (c : Bool) :
    (s.recall k f v g a b w c).scene = s.scene := by
  have hnote (u : State) (note : JobRun → JobRun) (l : List Nat) :
      (u.forAll l fun u id => if (u.run id).inWindow g a b then u.modRun id note else u).scene = u.scene :=
    State.forAll_keeps State.scene (fun u id => keeps_ite _ (u.modRun_scene id note) rfl) l u
  exact (State.issueNotice_scene _ _ _).trans ((State.event_scene _ _ _).trans ((State.withWork_scene _ _).trans
    ((hnote _ _ _).trans (s.withWork_scene _))))

/-! ### The clock step -/

@[simp] theorem State.memberStep_scene (e pos code : Nat) : (s.memberStep e pos code).scene = s.scene := rfl

@[simp] theorem State.decideStep_scene (c : Nat) : (s.decideStep c).scene = s.scene := by
  have hdrop : s.dropStepUp.scene = s.scene := keeps_ite _ rfl (s.withPower_scene _)
  have hann (u : State) : (u.announce c).scene = u.scene := by
    unfold State.announce
    extract_lets p
    split
    · exact u.withPower_scene _
    · exact keeps_ite _ (u.withPower_scene _) (u.withPower_scene _)
  exact keeps_ite _ ((hann _).trans hdrop) (keeps_ite _ hdrop (keeps_ite _ rfl (s.withPower_scene _)))

@[simp] theorem State.setPermit_scene (c k : Nat) : (s.setPermit c k).scene = s.scene := by
  have hlinked (u : State) (l : LinkUnit) (own b p : Nat) :
      ((({ u with link := l } : State).sendControl 6 own b 0 0).memberStep b p own).scene = u.scene :=
    (State.memberStep_scene _ _ _ _).trans ((State.sendControl_scene _ _ _ _ _ _).trans (u.withLink_scene l))
  have happly (u : State) : u.applyCauses.scene = u.scene := keeps_ite _ (keeps_ite _ rfl (hlinked _ _ _ _ _)) (u.decideStep_scene _)
  exact keeps_ite _ rfl ((happly _).trans (s.withPower_scene _))

@[simp] theorem State.setCapped_scene (c : Bool) : (s.setCapped c).scene = s.scene := by
  have hcause (u : State) : (if c then u else u.setPermit 3 0).scene = u.scene := keeps_ite _ rfl (u.setPermit_scene 3 0)
  have hall (u : State) (hu : u.scene = s.scene) (b : List Byte) :
      (if c then u.event 8 b else (u.event 8 b).setPermit 3 0).scene = s.scene := (hcause _).trans ((u.event_scene 8 b).trans hu)
  have hset := hall { s with mode := { s.mode with capped := c }, power := { s.power with capUnmet := false, belowSince := s.beat.toNat } }
    (State.withPower_scene { s with mode := { s.mode with capped := c } } _)
  exact keeps_ite _ rfl (keeps_ite _ (hset _) (hset _))

/-! ### The beat boundary -/

theorem State.axes_scene : s.axes.scene = s.scene := State.setCapped_scene _ _

theorem State.liftDieCaps_scene : s.liftDieCaps.scene = s.scene :=
  keeps_ite _ (keeps_ite _ rfl (State.setPermit_scene _ _ _)) rfl

@[simp] theorem State.portState_scene (n : Nat) (st : BitVec 3) : (s.portState n st).scene = s.scene := keeps_ite _ rfl rfl

@[simp] theorem State.portDown_scene (n : Nat) (st : BitVec 3) : (s.portDown n st).scene = s.scene := State.portState_scene _ _ _

@[simp] theorem State.train_scene (n : Nat) : (s.train n).scene = s.scene := keeps_ite _ (s.portDown_scene n 1) rfl

@[simp] theorem State.writePort_scene (n : Nat) (v : Word64) (w : AccessWidth) : (s.writePort n v w).scene = s.scene := by
  have hre (u : State) : (u.retrain n).scene = u.scene := keeps_ite _ (State.train_scene _ n) rfl
  have hoff (r : ResetUnit) (f : Port → Port) : (({ (s.portDown n 0).modPort n f with rst := r }).unaskBlock (169 + n)).scene = s.scene :=
    (State.withRst_scene _ _).trans ((State.withRst_scene _ _).trans ((State.modPort_scene _ n f).trans (s.portDown_scene n 0)))
  have hlast (u : State) (hu : u.scene = s.scene) : (if w == .full && v.getLsbD 1 then u.retrain n else u).scene = s.scene :=
    keeps_ite _ ((hre u).trans hu) hu
  exact hlast _ (keeps_ite _ rfl (keeps_ite _ (State.train_scene _ n) (hoff _ _)))

@[simp] theorem State.turnAdoption_scene : s.turnAdoption.scene = s.scene := by
  have hreg (u : State) : u.applyRegisters.scene = u.scene :=
    (State.forAll_keeps State.scene (fun u n => keeps_ite _ rfl (u.writePort_scene n _ .full)) _ _).trans (u.withPower_scene _)
  have hback (c d : ConfigUnit) (v : Table FieldValue) (l : List Nat) :
      State.scene { (({ s with cfg := c } : State).putFields v l).applyRegisters with cfg := d } = s.scene :=
    (State.withCfg_scene _ d).trans ((hreg _).trans ((State.withCfg_scene _ _).trans (s.withCfg_scene c)))
  exact keeps_ite _ (keeps_ite _ (s.withCfg_scene _) (hback _ _ _ _)) (keeps_ite _ (State.event_scene _ _ _) rfl)

@[simp] theorem State.sendToken_scene (id : Nat) (j : Job) (c : Bool) : (s.sendToken id j c).scene = s.scene := by
  have hset (u : State) (a b d : Nat) : (u.settle a b d).scene = u.scene := by unfold State.settle; split <;> rfl
  unfold State.sendToken
  split
  · rfl
  · exact keeps_ite _ (hset _ _ _ _) rfl

@[simp] theorem State.releaseJob_scene (id e : Nat) : (s.releaseJob id e).scene = s.scene := by
  unfold State.releaseJob
  split
  · rfl
  · exact keeps_ite State.scene (State.modJob_scene _ _ _) (State.modJob_scene _ _ _)

@[simp] theorem State.boundaryJob_scene (e id : Nat) : (s.boundaryJob e id).scene = s.scene := by
  unfold State.boundaryJob
  split
  · rfl
  · extract_lets fenced
    split
    · simp
    · split
      · simp
      · split <;> simp

@[simp] theorem State.complete_scene (fn ty st : Nat) (tag : Word32) (b : List Byte) (r : Bool) (j : Nat) :
    (s.complete fn ty st tag b r j).scene = s.scene := by
  unfold State.complete State.backlog
  extract_lets
  split
  · rfl
  · split <;> rfl

@[simp] theorem State.makeVisible_scene (e : Entry) : (s.makeVisible e).scene = s.scene := by
  unfold State.makeVisible
  split
  · exact State.complete_scene _ _ _ _ _ _ _ _
  · split
    · exact State.complete_scene _ _ _ _ _ _ _ _
    · rfl

theorem visibility_scene (es : List Entry) (bl : List Nat) (s : State) : (visibility es bl s).scene = s.scene := by
  induction es generalizing bl s with
  | nil => rfl
  | cons e es ih =>
    unfold visibility
    split
    · exact ih _ _
    · exact (ih _ _).trans (s.makeVisible_scene e)

@[simp] theorem State.entriesVisible_scene : s.entriesVisible.scene = s.scene := by
  have hrise (u : State) (fn b : Nat) : (u.creditRise fn b).scene = u.scene := by
    unfold State.creditRise
    extract_lets
    split <;> rfl
  exact (State.forAll_keeps State.scene (fun u fn => hrise u fn _) _ _).trans (visibility_scene _ _ _)

@[simp] theorem State.captureAt_scene (id : Nat) : (s.captureAt id).scene = s.scene := by
  unfold State.captureAt
  split
  · rfl
  · split <;> rfl

/-! ### Tables -/

/-- What a table finds stands in it. -/
theorem Table.mem_of_find {α : Type} {t : Table α} {k : Nat} {v : α} (h : t.find k = some v) : (k, v) ∈ t := by
  induction t with
  | nil => simp [Table.find] at h
  | cons e t ih =>
    obtain ⟨i, w⟩ := e
    by_cases hi : i = k
    · simp [Table.find, hi] at h
      simp [hi, h]
    · simp only [Table.find, hi, if_false] at h
      exact List.mem_cons_of_mem _ (ih h)

/-- A key a table does not list finds nothing. -/
theorem Table.at_of_notMem_keys {α : Type} {t : Table α} {k : Nat} (d : α) (h : k ∉ t.map (·.1)) : t.at k d = d := by
  unfold Table.at
  cases hf : t.find k with
  | none => rfl
  | some v => exact absurd (List.mem_map_of_mem (Table.mem_of_find hf)) h

/-- A map of the values is found as the map of what was found. -/
theorem Table.find_map {α β : Type} (g : α → β) (t : Table α) (k : Nat) :
    Table.find (t.map fun e => (e.1, g e.2)) k = (t.find k).map g := by
  induction t with
  | nil => rfl
  | cons e t ih => simp only [List.map_cons, Table.find, ih]; split <;> rfl

/-! ### The clock of a step of the timetable -/

/-- A step of the timetable changes the cycle alone. -/
theorem State.reach_eq (c : Nat) : s.reach c = { s with cycle := (s.reach c).cycle } := by
  unfold State.reach; split <;> rfl

@[simp] theorem State.reach_beat (c : Nat) : (s.reach c).beat = s.beat := by rw [State.reach_eq]
@[simp] theorem State.reach_units (c : Nat) : (s.reach c).units = s.units := by rw [State.reach_eq]
@[simp] theorem State.reach_clusters (c : Nat) : (s.reach c).clusters = s.clusters := by rw [State.reach_eq]
@[simp] theorem State.reach_work (c : Nat) : (s.reach c).work = s.work := by rw [State.reach_eq]
@[simp] theorem State.reach_faults (c : Nat) : (s.reach c).faults = s.faults := by rw [State.reach_eq]
@[simp] theorem State.reach_rst (c : Nat) : (s.reach c).rst = s.rst := by rw [State.reach_eq]

theorem State.reach_cycle (c : Nat) (hc : c < 65536) : (s.reach c).cycle.toNat = max s.cycle.toNat c := by
  unfold State.reach
  split
  · simp; omega
  · omega

/-- A command that leaves the clock where its step of the timetable put it stands in the same beat, at or after its cycle. -/
theorem stands_of_clock {s t : State} {c : Nat} (hc : c < 65536) (h : t.clock = (s.reach c).clock) :
    t.beat = s.beat ∧ t.cycle.toNat = max s.cycle.toNat c := by
  obtain ⟨hb, hk⟩ := Prod.mk.inj h
  exact ⟨hb.trans (s.reach_beat c), by rw [hk, s.reach_cycle c hc]⟩

/-- A step of the timetable runs wherever the state is defined and beats run (R24, R454). -/
theorem runs_of_live {i : Instr} {s t : State} {P : State → Prop} (hd : s.defined) (hb : s.beating = true)
    (he : exec i s = live s (if !s.beating then s else t)) (ht : P t) : Runs i s P :=
  ⟨t, by rw [he, live_defined s _ hd, hb]; rfl, ht⟩

/-! ### One component of the groups' units -/

/-- The clock, and what `v` shows of each group's units. -/
def State.seen {β : Type} (v : GroupUnits → β) (s : State) : (BeatNo × BitVec 16) × (Nat → β) := (s.clock, fun p => v (s.unit p))

section
variable {β : Type} {v : GroupUnits → β}

theorem seen_of_scene {s t : State} (h : t.scene = s.scene) : t.seen v = s.seen v := by
  simp [State.seen, State.unit, clock_of_scene h, units_of_scene h]

theorem clock_of_seen {s t : State} (h : t.seen v = s.seen v) : t.clock = s.clock := congrArg Prod.fst h
theorem unit_of_seen {s t : State} (h : t.seen v = s.seen v) (p : Nat) : v (t.unit p) = v (s.unit p) := congrFun (congrArg Prod.snd h) p

theorem State.unit_modUnit_eq (p q : Nat) (f : GroupUnits → GroupUnits) :
    (s.modUnit p f).unit q = if q = p then f (s.unit q) else s.unit q := by
  split
  next h => rw [h, State.unit_modUnit]
  next h => exact s.unit_modUnit_other p q f h

/-- A change of a unit that does not show is not seen. -/
theorem State.modUnit_seen (p : Nat) {f : GroupUnits → GroupUnits} (h : ∀ u, v (f u) = v u) : (s.modUnit p f).seen v = s.seen v := by
  refine Prod.ext rfl (funext fun q => ?_)
  show v ((s.modUnit p f).unit q) = v (s.unit q)
  rw [s.unit_modUnit_eq]
  split
  · exact h _
  · rfl

theorem State.forAll_modUnit_seen (l : List Nat) (f : State → Nat → GroupUnits → GroupUnits)
    (h : ∀ s p u, v (f s p u) = v u) : (s.forAll l fun s p => s.modUnit p (f s p)).seen v = s.seen v :=
  State.forAll_keeps (State.seen v) (fun s p => s.modUnit_seen p (h s p)) l s

end

/-! ### The latches (R291) -/

/-- A group's latch is open. -/
def GroupUnits.latchOpen (u : GroupUnits) : Bool := u.collector.isOpen

theorem Collector.suspect_isOpen (id : Nat) (c : Collector) : (c.suspect id).isOpen = c.isOpen := keeps_ite _ rfl rfl

theorem State.drainOne_clock (i : CollectorId) : (s.drainOne i).clock = s.clock := by
  have hmod (f : Collector → Collector) : (s.modCollector i f).clock = s.clock := by cases i <;> rfl
  exact keeps_ite State.clock ((clock_of_scene (State.appendLog_scene _ _)).trans (hmod _)) rfl

theorem State.drainOne_die_scene (k : Nat) : (s.drainOne (.die k)).scene = s.scene :=
  keeps_ite State.scene ((State.appendLog_scene _ _).trans (s.withFaults_scene _)) rfl

/-- Draining a group closes its latch and opens no other. -/
theorem State.latchOpen_drainOne (p q : Nat) :
    ((s.drainOne (.group p)).unit q).latchOpen = (decide (q ≠ p) && (s.unit q).latchOpen) := by
  have hlog (u : State) (w : List Word64) : (u.appendLog w).unit q = u.unit q := by
    simp [State.unit, units_of_scene (u.appendLog_scene w)]
  unfold State.drainOne
  split
  next h =>
    rw [hlog]
    show GroupUnits.latchOpen ((s.modUnit p _).unit q) = _
    rw [State.unit_modUnit_eq]
    split <;> simp [*, GroupUnits.latchOpen]
  next h =>
    have hp : (s.unit p).latchOpen = false := Bool.not_eq_true _ ▸ h
    by_cases hq : q = p <;> simp [hq, hp]

theorem State.latchOpen_drainGroups (q : Nat) (l : List Nat) :
    ((s.forAll l fun s p => s.drainOne (.group p)).unit q).latchOpen = (decide (q ∉ l) && (s.unit q).latchOpen) := by
  induction l generalizing s with
  | nil => simp [State.forAll]
  | cons p l ih =>
    refine (ih (s.drainOne (.group p))).trans ?_
    rw [s.latchOpen_drainOne]
    by_cases hq : q = p <;> simp [hq]

theorem State.drain_clock : s.drain.clock = s.clock :=
  (State.forAll_keeps State.clock (fun s k => s.drainOne_clock (.die k)) _ _).trans
    (State.forAll_keeps State.clock (fun s p => s.drainOne_clock (.group p)) _ _)

/-- After the drain no group's latch is open. -/
theorem State.latchOpen_drain (q : Nat) : (s.drain.unit q).latchOpen = false := by
  have hdies (u : State) (l : List Nat) : (u.forAll l fun u k => u.drainOne (.die k)).scene = u.scene :=
    State.forAll_keeps State.scene (fun u k => u.drainOne_die_scene k) l u
  refine (unit_of_seen (seen_of_scene (hdies _ _)) q).trans ((s.latchOpen_drainGroups q _).trans ?_)
  by_cases hq : q ∈ s.units.map (·.1)
  · simp [hq]
  · simp [State.unit, Table.at_of_notMem_keys _ hq, GroupUnits.latchOpen]

/-! ### Restarts (R156, R282) -/

theorem State.modCollector_latches (i : CollectorId) {f : Collector → Collector} (h : ∀ c, (f c).isOpen = c.isOpen) :
    (s.modCollector i f).seen GroupUnits.latchOpen = s.seen GroupUnits.latchOpen := by
  cases i with
  | group p => exact s.modUnit_seen p fun u => h u.collector
  | die k => exact seen_of_scene (s.withFaults_scene _)

theorem State.suspectRefusals_latches (id : Nat) : (s.suspectRefusals id).seen GroupUnits.latchOpen = s.seen GroupUnits.latchOpen :=
  (seen_of_scene (State.withFaults_scene _ _)).trans
    (State.forAll_keeps _ (fun s p => s.modCollector_latches (.group p) (Collector.suspect_isOpen id)) _ s)

theorem State.meetRestarting_latches (id : Nat) : (s.meetRestarting id).seen GroupUnits.latchOpen = s.seen GroupUnits.latchOpen := by
  unfold State.meetRestarting
  split
  · refine keeps_ite _ ?_ rfl
    exact (seen_of_scene ((State.modRun_scene _ _ _).trans (State.modJob_scene _ _ _))).trans (s.suspectRefusals_latches id)
  · rfl

theorem State.fenceRestart_latches (id k : Nat) (pt : Option (List Nat)) :
    (s.fenceRestart id k pt).seen GroupUnits.latchOpen = s.seen GroupUnits.latchOpen := by
  unfold State.fenceRestart
  split
  · rfl
  next j _ =>
    refine keeps_ite _ (seen_of_scene (s.modJob_scene id _)) (keeps_ite _ (s.meetRestarting_latches id) (seen_of_scene ?_))
    have hfenced (f : Job → Job) (g : JobRun → JobRun) : (((s.askIdle j.groups).modJob id f).modRun id g).scene = s.scene :=
      (State.modRun_scene _ _ _).trans ((State.modJob_scene _ _ _).trans (s.askIdle_scene j.groups))
    extract_lets
    split
    · exact keeps_ite _ (hfenced _ _) ((State.sendControl_scene _ _ _ _ _ _).trans (hfenced _ _))
    · exact hfenced _ _

theorem State.divergeRestart_latches (id k : Nat) (g : List Nat) :
    (s.divergeRestart id k g).seen GroupUnits.latchOpen = s.seen GroupUnits.latchOpen :=
  (State.fenceRestart_latches _ _ _ _).trans (seen_of_scene ((State.modRun_scene _ _ _).trans (s.modJob_scene id _)))

/-! ### Signatures -/

theorem State.twinCompare_latches (id : Nat) (j : Job) : (s.twinCompare id j).seen GroupUnits.latchOpen = s.seen GroupUnits.latchOpen := by
  have hrec (u : State) (l : List (Nat × Nat)) :
      (l.foldl (fun s e => (s.managementRecord 0x65 opManagement id (e.1 + 256 * e.2)).2) u).scene = u.scene :=
    foldl_keeps State.scene (fun u e => u.managementRecord_scene _ _ _ _) l u
  exact keeps_ite _ rfl ((State.divergeRestart_latches _ _ _ _).trans (seen_of_scene (hrec _ _)))

theorem State.quarantineGroups_scene (l : List Nat) : (s.forAll l fun s p => s.quarantineGroup p).scene = s.scene :=
  State.forAll_keeps State.scene (fun s p => s.modGroup_scene p _) l s

theorem State.replayCompare_scene (id : Nat) (j : Job) (sig : List Word64) : (s.replayCompare id j sig).scene = s.scene := by
  unfold State.replayCompare
  extract_lets
  split
  · exact keeps_ite _ rfl ((State.recall_scene _ _ _ _ _ _ _ _ _).trans ((State.quarantineGroups_scene _ _).trans
      ((State.divergeTerminate_scene _ _ _).trans (s.managementRecord_scene 0x66 opManagement id 0))))
  · rfl

theorem State.signatures_latches (id : Nat) : (s.signatures id).seen GroupUnits.latchOpen = s.seen GroupUnits.latchOpen := by
  unfold State.signatures
  split
  · rfl
  next j _ =>
    have hpost (l : List Nat) : (s.forAll l fun s p => s.modUnit p fun u => { u with sigRecord := s.groupSig p }).seen
        GroupUnits.latchOpen = s.seen GroupUnits.latchOpen :=
      State.forAll_modUnit_seen (v := GroupUnits.latchOpen) s l (fun s p u => { u with sigRecord := s.groupSig p }) fun _ _ _ => rfl
    exact (seen_of_scene ((State.modRun_scene _ _ _).trans (State.replayCompare_scene _ _ _ _))).trans
      (keeps_ite _ ((State.twinCompare_latches _ _ _).trans (hpost _)) (hpost _))

/-! ### Reconciliation -/

theorem State.conserve_scene (j : Job) : (s.conserve j).scene = s.scene := by
  have hsettle (u : State) (k : Nat) (l : List Nat) : (u.forAll l fun u r =>
      if (u.ring k r).returns == [] && (u.ring k r).uses == [] then u
      else u.modRing k r fun g => { g.settle u.now with uses := [] }).scene = u.scene :=
    State.forAll_keeps State.scene (fun u r => keeps_ite _ rfl (u.modRing_scene k r _)) l u
  exact State.forAll_keeps State.scene
    (fun u k => keeps_ite _ (hsettle u k _) ((State.raise_scene _ _ _ _ _ _ _ _ _).trans (hsettle u k _))) _ s

theorem reconciliation_runs (hd : s.defined) (hb : s.beating = true) : Runs .reconciliation s fun t =>
    t.beat = s.beat ∧ t.cycle.toNat = max s.cycle.toNat 63488 ∧ ∀ p, (t.unit p).latchOpen = false := by
  refine runs_of_live hd hb rfl ?_
  have hcons (u : State) (l : List Nat) : (u.forAll l fun u id => match u.job? id with
      | some j => u.conserve j
      | none => u).scene = u.scene := by
    refine State.forAll_keeps State.scene (fun u id => ?_) l u
    split
    · exact u.conserve_scene _
    · rfl
  have hsig (u : State) (l : List Nat) : (u.forAll l fun u id => u.signatures id).seen GroupUnits.latchOpen = u.seen GroupUnits.latchOpen :=
    State.forAll_keeps _ (fun u id => u.signatures_latches id) l u
  obtain ⟨hbeat, hcycle⟩ := stands_of_clock (c := 63488) (by decide)
    ((clock_of_seen (hsig _ _)).trans ((State.drain_clock _).trans (clock_of_scene (hcons _ _))))
  exact ⟨hbeat, hcycle, fun p => (unit_of_seen (hsig _ _) p).trans (State.latchOpen_drain _ p)⟩

/-! ### BEAT_BOUNDARY -/

/-- Every cluster's signature is clear once `clearSig` has gone over the table (R277). -/
theorem storeSig_of_clusters_cleared {s t : State} (h : t.clusters = s.clusters.map clearSig) (k : Nat) : (t.cluster k).storeSig = 0 := by
  have hfind : Table.find (s.clusters.map clearSig) k = _ := Table.find_map (fun c : Cluster => { c with storeSig := 0 }) s.clusters k
  unfold State.cluster Table.at
  rw [h, hfind]
  cases s.clusters.find k <;> rfl

theorem beatBoundary_runs (hd : s.defined) (hb : s.beating = true) : Runs .beatBoundary s fun t =>
    t.beat = s.beat + 1 ∧ t.cycle = 0 ∧ ∀ k, (t.cluster k).storeSig = 0 := by
  refine runs_of_live hd hb rfl ?_
  have hjobs (u : State) (l : List Nat) (e : Nat) : (u.forAll l fun u id => u.boundaryJob e id).scene = u.scene :=
    State.forAll_keeps State.scene (fun u id => u.boundaryJob_scene e id) l u
  have hcap (u : State) (l : List Nat) : (u.forAll l fun u id => u.captureAt id).scene = u.scene :=
    State.forAll_keeps State.scene (fun u id => u.captureAt_scene id) l u
  have hlast := fun u : State => (hcap u.entriesVisible (u.entriesVisible.jobsIn .running)).trans u.entriesVisible_scene
  have hturn := fun u : State => u.axes.liftDieCaps.turnLinks.turnAdoption_scene.trans
    ((u.axes.liftDieCaps.withLink_scene _).trans (u.axes.liftDieCaps_scene.trans u.axes_scene))
  have hclock {t : State} {b : BeatNo} {c : BitVec 16} (h : t.clock = (b, c)) : t.beat = b ∧ t.cycle = c := Prod.mk.inj h
  refine and_assoc.mp ⟨hclock ?_, storeSig_of_clusters_cleared (clusters_of_scene (hlast _))⟩
  exact (clock_of_scene (hlast _)).trans (clock_of_scene ((hjobs _ _ _).trans ((hturn _).trans (State.withRst_scene _ _))))

/-! ### PROGRAM_WINDOW_END -/

/-- The command and the remaining cycles of a group's refresh. -/
def GroupUnits.refreshWork (u : GroupUnits) : Option (CmdWord × Nat) := u.refresh.map fun r => (r.cmd, r.remaining)

theorem State.overrunAt_scene (k : Nat) : (s.overrunAt k).scene = s.scene := by
  have hlate (u : State) (l : List Nat) (e : Nat) :
      (u.forAll l fun u x => u.clusterFault k (engineCode x) 0 0x21 0 0 0 e false).scene = u.scene :=
    State.forAll_keeps State.scene (fun u x => u.raise_scene _ _ _ _ _ _ _ _) l u
  refine keeps_ite _ ((State.raise_scene _ _ _ _ _ _ _ _ _).trans ?_) ?_ <;>
    exact (hlate _ _ _).trans (keeps_ite _ (s.raise_scene _ _ _ _ _ _ _ _) rfl)

theorem State.modCluster_seen {β : Type} (v : GroupUnits → β) (k : Nat) (f : Cluster → Cluster) :
    (s.modCluster k f).seen v = s.seen v := rfl

theorem State.poisonOut_scene (k r first n code : Nat) : (s.poisonOut k r first n code).scene = s.scene := by
  have hmem (u : State) (l : List Nat) (f : State → Nat → Memory) :
      (l.foldl (fun u i => { u with mem := f u i }) u).scene = u.scene :=
    foldl_keeps State.scene (fun u i => u.withMem_scene _) l u
  exact (State.modRing_scene _ _ _ _).trans (hmem _ _ _)

/-- A refresh that has consumed a poisoned row takes the code, and runs on. -/
theorem State.poisonEngine_refreshWork (k e code x : Nat) :
    (s.poisonEngine k e code x).seen GroupUnits.refreshWork = s.seen GroupUnits.refreshWork := by
  have hout (u : State) (l : List (Nat × Nat × OutNote)) :
      (l.foldl (fun s e => s.poisonOut e.1 e.2.1 e.2.2.first e.2.2.rows code) u).scene = u.scene :=
    foldl_keeps State.scene (fun u e => u.poisonOut_scene _ _ _ _ _) l u
  have hobjects (u : State) (l : List Nat) (f : Cluster → Cluster) :
      (l.foldl (fun u k => if e = 1 then u.modCluster k f else u) u).seen GroupUnits.refreshWork = u.seen GroupUnits.refreshWork :=
    foldl_keeps (State.seen _) (fun u k => keeps_ite _ (u.modCluster_seen _ k f) rfl) l u
  have hrows (u : State) (l : List Nat) (f : State → Nat → Memory) :
      (l.foldl (fun u i => { u with mem := f u i }) u).scene = u.scene :=
    foldl_keeps State.scene (fun u i => u.withMem_scene _) l u
  have hcode (r : Option Refresh) : ((r.map fun r => if r.code = 0 then { r with code := code } else r).map
      fun r => (r.cmd, r.remaining)) = r.map fun r => (r.cmd, r.remaining) := by
    cases r with
    | none => rfl
    | some r => exact congrArg some (keeps_ite (fun r : Refresh => (r.cmd, r.remaining)) rfl rfl)
  have hengine (u : State) (h : u.seen GroupUnits.refreshWork = s.seen GroupUnits.refreshWork) :
      (if e = 6 then u.modUnit (k / 32) fun u =>
          { u with refresh := u.refresh.map fun r => if r.code = 0 then { r with code := code } else r }
        else u).seen GroupUnits.refreshWork = s.seen GroupUnits.refreshWork :=
    keeps_ite _ ((u.modUnit_seen _ fun w => hcode w.refresh).trans h) h
  have hbase := fun l l' f => (hobjects _ l f).trans (seen_of_scene (hout s l'))
  unfold State.poisonEngine
  extract_lets
  split
  · refine keeps_ite _ ?_ (hbase _ _ _)
    exact (State.modUnit_seen _ _ (by intro; rfl)).trans ((seen_of_scene (hrows _ _ _)).trans (hbase _ _ _))
  · exact hengine _ (hbase _ _ _)

theorem State.claimAt_refreshWork (k r n t x : Nat) :
    (s.claimAt k r n t x).seen GroupUnits.refreshWork = s.seen GroupUnits.refreshWork := by
  have hlate (o : Option AwaitedRead) : (match o with
      | some e => (s.violateBy k e.word 0 e.engine r e.op t 0 false).poisonEngine k e.engine 0x0C e.at_
      | none => s).seen GroupUnits.refreshWork = s.seen GroupUnits.refreshWork := by
    cases o with
    | none => rfl
    | some e => exact (State.poisonEngine_refreshWork _ _ _ _ _).trans (s.modCluster_seen _ k _)
  exact (seen_of_scene (State.modRing_scene _ _ _ _)).trans (hlate _)

theorem State.injectRow_refreshWork (p i : Nat) (r : RelayRow) :
    (s.injectRow p i r).seen GroupUnits.refreshWork = s.seen GroupUnits.refreshWork := by
  have hclaims (u : State) (l : List Nat) (f : State → Nat → Ring → Ring) :
      (l.foldl (fun s k => (s.claimAt k r.ring 1 r.injectAt r.stamp).modRing k r.ring (f s k)) u).seen GroupUnits.refreshWork =
        u.seen GroupUnits.refreshWork :=
    foldl_keeps (State.seen _) (fun u k => (seen_of_scene (State.modRing_scene _ _ _ _)).trans (u.claimAt_refreshWork _ _ _ _ _)) l u
  exact keeps_ite _ ((State.modUnit_seen _ _ (by intro; rfl)).trans (hclaims _ _ _))
    ((State.modUnit_seen _ _ (by intro; rfl)).trans (s.modCluster_seen _ _ _))

theorem State.inject_refreshWork (t : Nat) : (s.inject t).seen GroupUnits.refreshWork = s.seen GroupUnits.refreshWork := by
  have hgo (n : Nat) : ∀ u : State, (State.inject.go t n u).seen GroupUnits.refreshWork = u.seen GroupUnits.refreshWork := by
    induction n with
    | zero => exact fun _ => rfl
    | succ n ih =>
      intro u
      unfold State.inject.go
      split
      · exact (ih _).trans (u.injectRow_refreshWork _ _ _)
      · rfl
  exact hgo _ s

theorem State.gbSettle_seen {β : Type} {v : GroupUnits → β} (p x : Nat)
    (hw : ∀ u l, v { u with tileWrites := l } = v u) (hf : ∀ u l, v { u with tileWritten := l } = v u) :
    (s.gbSettle p x).seen v = s.seen v := by
  have hstore (u : State) (row : Nat) (w : Row) : (u.gbStore p row w).seen v = u.seen v :=
    (State.modUnit_seen _ _ fun u => keeps_ite v (hf u _) rfl).trans (seen_of_scene (u.withMem_scene _))
  have hdue (u : State) (l : List TileWrite) : (l.foldl (fun s w => s.gbStore p w.row w.data) u).seen v = u.seen v :=
    foldl_keeps (State.seen _) (fun u w => hstore u _ _) l u
  exact keeps_ite _ rfl ((State.modUnit_seen _ _ fun u => hw u _).trans (hdue _ _))

/-- A job found in a phase is among the jobs in it. -/
theorem State.mem_jobsIn {s : State} {id : Nat} {j : Job} {ph : JobPhase} (h : s.job? id = some j) (hp : j.phase = ph) :
    id ∈ s.jobsIn ph :=
  List.mem_map.2 ⟨(id, j), List.mem_filter.2 ⟨Table.mem_of_find h, by simp [hp]⟩, rfl⟩

/-- No refresh runs in the group: it has none, or one that is suspended (R164). -/
def GroupUnits.refreshHeld (u : GroupUnits) : Bool := u.refresh.all (·.suspended)

/-- The group's refresh suspends at the window's end, its tile writes done (R164, R235). -/
def State.suspendAt (s : State) (p : Nat) : State :=
  (s.gbSettle p s.now).modUnit p fun u => { u with refresh := u.refresh.map fun r => { r with suspended := true } }

theorem State.suspendAt_refreshWork (p : Nat) : (s.suspendAt p).seen GroupUnits.refreshWork = s.seen GroupUnits.refreshWork :=
  (State.modUnit_seen _ p fun u => Option.map_map _ _ u.refresh).trans (s.gbSettle_seen p s.now (fun _ _ => rfl) fun _ _ => rfl)

theorem State.suspendAt_refreshHeld (p q : Nat) :
    ((s.suspendAt p).unit q).refreshHeld = (decide (q = p) || (s.unit q).refreshHeld) := by
  have hset := unit_of_seen (s.gbSettle_seen (v := GroupUnits.refreshHeld) p s.now (fun _ _ => rfl) fun _ _ => rfl) q
  unfold State.suspendAt
  rw [State.unit_modUnit_eq, ← hset]
  split
  next h => cases ((s.gbSettle p s.now).unit q).refresh <;> simp [h, GroupUnits.refreshHeld]
  next h => simp [h]

theorem State.forAll_suspendAt_refreshHeld (q : Nat) (l : List Nat) :
    ((s.forAll l State.suspendAt).unit q).refreshHeld = (decide (q ∈ l) || (s.unit q).refreshHeld) := by
  induction l generalizing s with
  | nil => simp [State.forAll]
  | cons p l ih =>
    refine (ih (s.suspendAt p)).trans ?_
    rw [s.suspendAt_refreshHeld]
    by_cases hq : q = p <;> simp [hq]

/-- A refresh that keeps its work and is held stands suspended. -/
theorem suspended_of_refreshWork {u w : GroupUnits} {r : Refresh} (hu : u.refresh = some r) (hw : w.refreshWork = u.refreshWork)
    (hh : w.refreshHeld = true) :
    ∃ r', w.refresh = some r' ∧ r'.suspended = true ∧ r'.cmd = r.cmd ∧ r'.remaining = r.remaining := by
  cases h : w.refresh with
  | none => simp [GroupUnits.refreshWork, hu, h] at hw
  | some r' =>
    simp only [GroupUnits.refreshWork, hu, h, Option.map_some, Option.some.injEq, Prod.mk.injEq] at hw
    exact ⟨r', rfl, by simpa [GroupUnits.refreshHeld, h] using hh, hw⟩

/-- The groups of the running jobs. -/
def State.runningGroups (s : State) : List Nat := (s.jobsIn .running).flatMap fun id => match s.job? id with
  | some j => j.groups
  | none => []

theorem State.mem_runningGroups {s : State} {id p : Nat} {j : Job} (hj : s.job? id = some j) (hr : j.phase = .running)
    (hp : p ∈ j.groups) : p ∈ s.runningGroups :=
  List.mem_flatMap.2 ⟨id, State.mem_jobsIn hj hr, by rw [hj]; exact hp⟩

/-- Relay rows have claimed their places and unfinished work has raised its faults (R171, R230). -/
def State.closeWindow (s : State) : State :=
  (s.inject (s.beat.toNat * beatCycles + windowEnd - 1)).forAll (s.runningGroups.flatMap groupClusters) State.overrunAt

theorem State.closeWindow_refreshWork : s.closeWindow.seen GroupUnits.refreshWork = s.seen GroupUnits.refreshWork :=
  (seen_of_scene (State.forAll_keeps State.scene (fun v k => v.overrunAt_scene k) _ _)).trans (s.inject_refreshWork _)

theorem programWindowEnd_runs (hd : s.defined) (hb : s.beating = true) : Runs .programWindowEnd s fun t =>
    t.beat = s.beat ∧ t.cycle.toNat = max s.cycle.toNat 59392 ∧
      ∀ id j p r, s.job? id = some j → j.phase = .running → p ∈ j.groups → (s.unit p).refresh = some r →
        ∃ r', (t.unit p).refresh = some r' ∧ r'.suspended = true ∧ r'.cmd = r.cmd ∧ r'.remaining = r.remaining := by
  refine runs_of_live (t := (s.reach windowEnd).closeWindow.forAll (s.reach windowEnd).runningGroups State.suspendAt) hd hb rfl ?_
  have hwork := (State.forAll_keeps (State.seen _) (fun v p => v.suspendAt_refreshWork p) (s.reach windowEnd).runningGroups _).trans
    (s.reach windowEnd).closeWindow_refreshWork
  obtain ⟨hbeat, hcycle⟩ := stands_of_clock (c := windowEnd) (by decide) (clock_of_seen hwork)
  refine ⟨hbeat, hcycle, fun id j p r hj hrun hp hr => ?_⟩
  have hmem : p ∈ (s.reach windowEnd).runningGroups := State.mem_runningGroups (by simpa [State.job?] using hj) hrun hp
  have hunit : (s.reach windowEnd).unit p = s.unit p := by simp [State.unit]
  refine suspended_of_refreshWork hr ((unit_of_seen hwork p).trans (by rw [hunit])) ?_
  simp [State.forAll_suspendAt_refreshHeld, hmem]

/-! ### SERVICE_SCRUB -/

/-- One change in each group of a list without repeats. -/
theorem State.unit_forAll_modUnit {f : GroupUnits → GroupUnits} {l : List Nat} (hl : l.Nodup) {p : Nat} (hp : p ∈ l) :
    ((s.forAll l fun s p => s.modUnit p f).unit p) = f (s.unit p) := by
  have hother (l : List Nat) : p ∉ l → ∀ u : State, (u.forAll l fun s p => s.modUnit p f).unit p = u.unit p := by
    intro hn
    induction l with
    | nil => exact fun _ => rfl
    | cons q l ih =>
      obtain ⟨hq, hl⟩ : p ≠ q ∧ p ∉ l := by simpa using hn
      exact fun u => (ih hl (u.modUnit q f)).trans (u.unit_modUnit_other q p f hq)
  induction l generalizing s with
  | nil => simp at hp
  | cons q l ih =>
    obtain ⟨hq, hl⟩ := List.nodup_cons.1 hl
    rcases List.mem_cons.1 hp with rfl | hp
    · exact (hother l hq _).trans (s.unit_modUnit p f)
    · have hne : p ≠ q := fun h => hq (h ▸ hp)
      exact (ih (s.modUnit q f) hl hp).trans (congrArg f (s.unit_modUnit_other q p f hne))

/-- A find of the scrub touches neither the scene nor the power domains. -/
theorem State.scrubFind_keeps (f : ScrubFind) : ((s.scrubFind f).scene, (s.scrubFind f).rst) = (s.scene, s.rst) := by
  let g : State → _ := fun u => (u.scene, u.rst)
  have hraise (u : State) (k o t a x : Nat) (j : BitVec 16) (h : g u = g s) :
      g (u.raise (scrubUnit f.addr.toNat) k o t a x j true) = g s := h
  exact keeps_ite g rfl (keeps_ite g (keeps_ite g rfl rfl) (keeps_ite g rfl (hraise _ _ _ _ _ _ _ (keeps_ite g rfl rfl))))

theorem serviceScrub_runs (finds : List ScrubFind) (hd : s.defined) (hb : s.beating = true) : Runs (.serviceScrub finds) s fun t =>
    t.beat = s.beat ∧ t.cycle.toNat = max s.cycle.toNat 60928 ∧
      ∀ p, p < 68 → s.powered p = true → (t.unit p).scrubRow = ((s.unit p).scrubRow + 1) % 1024 := by
  refine runs_of_live hd hb rfl ?_
  have hfinds : (finds.foldl State.scrubFind (s.reach 60928)).scene = (s.reach 60928).scene :=
    foldl_keeps State.scene (fun u f => congrArg Prod.fst (u.scrubFind_keeps f)) _ _
  have hrst : (finds.foldl State.scrubFind (s.reach 60928)).rst = s.rst :=
    (foldl_keeps State.rst (fun u f => congrArg Prod.snd (u.scrubFind_keeps f)) _ _).trans (s.reach_rst _)
  have hmoves (u : State) (l : List Nat) :
      (u.forAll l fun s p => s.modUnit p fun u => { u with scrubRow := (u.scrubRow + 1) % 1024 }).clock = u.clock :=
    State.forAll_keeps State.clock (fun u p => (rfl : (u.modUnit p _).clock = u.clock)) l u
  obtain ⟨hbeat, hcycle⟩ := stands_of_clock (c := 60928) (by decide) ((hmoves _ _).trans (clock_of_scene hfinds))
  refine ⟨hbeat, hcycle, fun p hp hon => ?_⟩
  have hmem : p ∈ (finds.foldl State.scrubFind (s.reach 60928)).poweredGroups := by
    simpa [State.poweredGroups, State.powered, hrst, hp] using hon
  have hunit : (finds.foldl State.scrubFind (s.reach 60928)).unit p = s.unit p := by simp [State.unit, units_of_scene hfinds]
  exact (congrArg GroupUnits.scrubRow (State.unit_forAll_modUnit _ (List.nodup_range.filter _) hmem)).trans (by simp [hunit])

/-! ### LEDGER_SAMPLING -/

theorem State.storeTemp_clock (r : TempReading) : (s.storeTemp r).clock = s.clock := by
  unfold State.storeTemp
  extract_lets
  split
  · rfl
  · split
    · rfl
    · split <;> rfl

theorem State.storeTemp_sensor {r : TempReading} (h : r.sensor.toNat < 50) :
    (s.storeTemp r).power.sensors.at r.sensor.toNat 0 = r.temp := by
  have hput := Table.at_put_same s.power.sensors r.sensor.toNat r.temp 0
  unfold State.storeTemp
  extract_lets
  rw [if_neg (by omega)]
  split
  · exact hput
  · split <;> exact hput

theorem State.histograms_scene : s.histograms.scene = s.scene := by
  have hcause (u : State) (l : List Nat) :
      (u.forAll l fun s c => if s.power.permit c = 0 then s else s.count (0x1B8 + c) 1).scene = u.scene :=
    State.forAll_keeps State.scene (fun u c => keeps_ite _ rfl (u.count_scene _ _)) l u
  have hcount (u : State) (l : List Nat) (f : State → Nat → Nat) : (u.forAll l fun s x => s.count (f s x) 1).scene = u.scene :=
    State.forAll_keeps State.scene (fun u x => u.count_scene _ _) l u
  exact (hcause _ _).trans ((State.count_scene _ _ _).trans ((hcount _ _ _).trans (hcount _ _ _)))

theorem State.junction_scene : s.junction.scene = s.scene := by
  have hcut (p : PowerUnit) (h : p.sensors = s.power.sensors) (cut : Nat) :
      (if cut = 0 then { s with power := p } else ({ s with power := p } : State).setPermit 0 (min 6 (p.permit 0 + cut))).scene = s.scene :=
    keeps_ite _ (s.withPower_scene p h) ((State.setPermit_scene _ _ _).trans (s.withPower_scene p h))
  unfold State.junction
  split
  refine hcut _ ?_ _
  rfl

theorem State.storeRail_scene (r : RailReading) : (s.storeRail r).scene = s.scene := s.withPower_scene _

theorem ledgerSampling_runs (temps : List TempReading) (rails : List RailReading) (hd : s.defined) (hb : s.beating = true) :
    Runs (.ledgerSampling temps rails) s fun t => t.beat = s.beat ∧ t.cycle.toNat = max s.cycle.toNat 62000 ∧
      ∀ r, temps = [r] → r.sensor.toNat < 50 → t.power.sensors.at r.sensor.toNat 0 = r.temp := by
  let u := temps.foldl State.storeTemp (s.reach 62000)
  refine runs_of_live (t := (rails.foldl State.storeRail u).histograms.junction) hd hb rfl ?_
  have hrails : (rails.foldl State.storeRail u).scene = u.scene := foldl_keeps State.scene (fun u r => u.storeRail_scene r) rails u
  have hlast := (State.junction_scene _).trans ((State.histograms_scene _).trans hrails)
  obtain ⟨hbeat, hcycle⟩ := stands_of_clock (c := 62000) (by decide)
    ((clock_of_scene hlast).trans (foldl_keeps State.clock (fun u r => u.storeTemp_clock r) temps _))
  refine ⟨hbeat, hcycle, ?_⟩
  rintro r rfl hr
  rw [sensors_of_scene hlast]
  exact (s.reach 62000).storeTemp_sensor hr

/-! ### RETRIEVER_VERDICT -/

theorem State.pendingVerdict_clock (p : Nat) : (s.pendingVerdict p).clock = s.clock :=
  keeps_ite State.clock rfl (keeps_ite State.clock rfl
    (clock_of_scene ((State.modGroup_scene _ p _).trans (s.managementRecord_scene _ _ _ _))))

theorem State.minority_clock (p : Nat) : (s.minority p).clock = s.clock := by
  have hstart := fun f => ((s.managementRecord 0x62 opRetriever (s.group p).job.toNat p).2.modGroup_scene p f).trans
    (s.managementRecord_scene _ _ _ _)
  refine (clock_of_scene (State.recall_scene _ _ _ _ _ _ _ _ _)).trans (keeps_ite _ (clock_of_scene (hstart _)) ?_)
  exact (clock_of_seen (State.divergeRestart_latches _ _ _ _)).trans (clock_of_scene (hstart _))

theorem State.noMajority_scene (m : List Byte) : (s.noMajority m).scene = s.scene := by
  have hjobs (u : State) (l : List Nat) : (u.forAll l fun s id => s.divergeTerminate id 0x63).scene = u.scene :=
    State.forAll_keeps State.scene (fun u id => u.divergeTerminate_scene id 0x63) l u
  have hgroups (u : State) (l : List Nat) : (u.forAll l fun s p => s.modGroup p Group.unload).scene = u.scene :=
    State.forAll_keeps State.scene (fun u p => u.modGroup_scene p _) l u
  exact (State.recall_scene _ _ _ _ _ _ _ _ _).trans ((hgroups _ _).trans ((hjobs _ _).trans (s.managementRecord_scene _ _ _ _)))

theorem State.modelVerdict_clock (m : List Byte) (ps : List Nat) : (s.modelVerdict m ps).clock = s.clock := by
  have hgroups (u : State) (l : List Nat) (f : Group → Group) : (u.forAll l fun s p => s.modGroup p f).clock = u.clock :=
    State.forAll_keeps State.clock (fun u p => clock_of_scene (u.modGroup_scene p f)) l u
  have hbad (u : State) (l : List Nat) : (u.forAll l State.minority).clock = u.clock :=
    State.forAll_keeps State.clock (fun u p => u.minority_clock p) l u
  exact keeps_ite _ ((hbad _ _).trans ((hgroups _ _ _).trans (hgroups _ _ _)))
    (keeps_ite _ (hgroups _ _ _) ((clock_of_scene (State.noMajority_scene _ _)).trans (hgroups _ _ _)))

theorem retrieverVerdict_runs (hd : s.defined) (hb : s.beating = true) : Runs .retrieverVerdict s fun t =>
    t.beat = s.beat ∧ t.cycle.toNat = max s.cycle.toNat 63552 := by
  refine runs_of_live hd hb rfl (stands_of_clock (by decide) ?_)
  have hmodels (u : State) (l : List (List Byte × List Nat)) : (l.foldl (fun s e => s.modelVerdict e.1 e.2) u).clock = u.clock :=
    foldl_keeps State.clock (fun u e => u.modelVerdict_clock _ _) l u
  exact (hmodels _ _).trans (State.forAll_keeps State.clock (fun u p => u.pendingVerdict_clock p) _ _)

/-! ### RELEASE_DECISION -/

theorem State.job?_modJob_other {id x : Nat} (h : id ≠ x) (f : Job → Job) : (s.modJob x f).job? id = s.job? id := by
  unfold State.modJob
  split
  · exact Table.find_put_other _ _ _ _ h
  · rfl

theorem State.run_modRun_other {id x : Nat} (h : id ≠ x) (f : JobRun → JobRun) : (s.modRun x f).run id = s.run id :=
  Table.at_put_other _ _ _ _ _ h

theorem State.modJob_programs (id : Nat) (f : Job → Job) : (s.modJob id f).work.programs = s.work.programs := by
  unfold State.modJob; split <;> rfl

theorem State.run_modJob (x id : Nat) (f : Job → Job) : (s.modJob x f).run id = s.run id := by
  unfold State.modJob; split <;> rfl

/-- What the decision finds for a running job: nothing withholds its outputs, no fault raised before cycle 65,376 is on its way,
and no token is missing (R30, R264, R351). -/
def State.clearToRelease (s : State) (id : Nat) (j : Job) : Bool :=
  !j.withheld && !s.faultPending id j (s.beat.toNat * 65536 + 65376) && !s.tokenMissing id j

/-- The finding rests on the beat, the faults, the clusters, the programs and the job's own run. -/
theorem State.clearToRelease_congr {s t : State} {id : Nat} {j : Job} (hb : t.beat = s.beat) (hf : t.faults = s.faults)
    (hc : t.clusters = s.clusters) (hp : t.work.programs = s.work.programs) (hr : t.run id = s.run id) :
    t.clearToRelease id j = s.clearToRelease id j := by
  simp [State.clearToRelease, State.faultPending, State.tokenMissing, State.programOf, State.cluster, hb, hf, hc, hp, hr]

theorem State.decideRelease_scene (id : Nat) : (s.decideRelease id).scene = s.scene := by
  unfold State.decideRelease
  split
  · rfl
  · exact (State.modRun_scene _ _ _).trans (State.modJob_scene _ _ _)

/-- The decision takes a running job's finding and lifts what withheld its outputs. -/
theorem State.job?_decideRelease {id : Nat} {j : Job} (h : s.job? id = some j) (hr : j.phase = .running) :
    (s.decideRelease id).job? id = some { j with decision := some (s.clearToRelease id j), withheld := false } := by
  unfold State.decideRelease
  rw [h]
  refine (s.job_modJob id _ j h).trans ?_
  simp [hr, State.clearToRelease, beatCycles]

/-- Another job's decision leaves the job and its finding alone. -/
theorem State.decideRelease_other {id x : Nat} (h : id ≠ x) :
    (s.decideRelease x).job? id = s.job? id ∧ ∀ j, (s.decideRelease x).clearToRelease id j = s.clearToRelease id j := by
  unfold State.decideRelease
  split
  · exact ⟨rfl, fun _ => rfl⟩
  · exact ⟨s.job?_modJob_other h _, fun j => State.clearToRelease_congr (by simp) (by simp) (by simp)
      (s.modJob_programs x _) ((State.run_modRun_other _ h _).trans (s.run_modJob x id _))⟩

theorem State.job?_forAll_decideRelease_of_notMem {id : Nat} {l : List Nat} (h : id ∉ l) :
    (s.forAll l State.decideRelease).job? id = s.job? id := by
  induction l generalizing s with
  | nil => rfl
  | cons x l ih =>
    obtain ⟨hx, hl⟩ : id ≠ x ∧ id ∉ l := by simpa using h
    exact (ih (s.decideRelease x) hl).trans (s.decideRelease_other hx).1

theorem State.job?_forAll_decideRelease {id : Nat} {j : Job} {l : List Nat} (hn : l.Nodup) (hm : id ∈ l) (h : s.job? id = some j)
    (hr : j.phase = .running) : (s.forAll l State.decideRelease).job? id =
      some { j with decision := some (s.clearToRelease id j), withheld := false } := by
  induction l generalizing s with
  | nil => simp at hm
  | cons x l ih =>
    obtain ⟨hx, hl⟩ := List.nodup_cons.1 hn
    rcases List.mem_cons.1 hm with rfl | hm
    · exact ((s.decideRelease id).job?_forAll_decideRelease_of_notMem hx).trans (s.job?_decideRelease h hr)
    · have hne : id ≠ x := fun e => hx (e ▸ hm)
      obtain ⟨hjob, hfinding⟩ := s.decideRelease_other hne
      rw [← hfinding j]
      exact ih (s.decideRelease x) hl hm (hjob.trans h)

/-- No job is in a phase twice (R202). -/
theorem State.jobsIn_nodup {s : State} (h : s.work.jobs.rising) (ph : JobPhase) : (s.jobsIn ph).Nodup :=
  (h.sublist (List.filter_sublist.map _)).imp Nat.ne_of_lt

theorem State.appendLog_jobs (w : List Word64) : (s.appendLog w).work.jobs = s.work.jobs := by
  have hdue (u : State) (l : List ReceiptDue) : State.work { u with work := { u.work with receiptsDue := l } } =
      { u.work with receiptsDue := l } := rfl
  have hadd (u : State) (l : List Nat) : (u.forAll l fun u id => u.modRun id fun r => r.addFault w).work.jobs = u.work.jobs :=
    State.forAll_keeps (fun u : State => u.work.jobs) (fun u id => (rfl : (u.modRun id _).work.jobs = u.work.jobs)) l u
  exact (congrArg WorkUnit.jobs (hdue _ _)).trans ((hadd _ _).trans (keeps_ite (fun u : State => u.work.jobs) rfl rfl))

theorem State.drain_jobs : s.drain.work.jobs = s.work.jobs := by
  have hone (u : State) (i : CollectorId) : (u.drainOne i).work.jobs = u.work.jobs := by
    have hmod (f : Collector → Collector) : (u.modCollector i f).work.jobs = u.work.jobs := by cases i <;> rfl
    exact keeps_ite (fun u : State => u.work.jobs) ((State.appendLog_jobs _ _).trans (hmod _)) rfl
  exact (State.forAll_keeps (fun u : State => u.work.jobs) (fun u k => hone u (.die k)) _ _).trans
    (State.forAll_keeps (fun u : State => u.work.jobs) (fun u p => hone u (.group p)) _ _)

/-- A fenced job's beat is dropped: nothing of it is withheld any more, its pending checkpoint is gone (R280). -/
def State.dropBeat (s : State) (id : Nat) : State := (s.modJob id fun j => { j with withheld := false }).modRun id fun r => r.commit false

/-- The job's beat is decided as `d`, and nothing withholds its next outputs. -/
def State.Decided (s : State) (id : Nat) (d : Bool) : Prop := ∃ j, s.job? id = some j ∧ j.withheld = false ∧ j.decision = some d

theorem State.Decided.dropBeat {s : State} {id : Nat} {d : Bool} (h : s.Decided id d) (x : Nat) : (s.dropBeat x).Decided id d := by
  obtain ⟨j, hj, hw, hdec⟩ := h
  by_cases hx : id = x
  · subst hx
    exact ⟨_, s.job_modJob id _ j hj, rfl, hdec⟩
  · exact ⟨j, (s.job?_modJob_other hx _).trans hj, hw, hdec⟩

theorem State.Decided.forAll_dropBeat {s : State} {id : Nat} {d : Bool} (h : s.Decided id d) (l : List Nat) :
    (s.forAll l State.dropBeat).Decided id d := by
  induction l generalizing s with
  | nil => exact h
  | cons x l ih => exact ih (h.dropBeat x)

theorem State.Decided.drain {s : State} {id : Nat} {d : Bool} (h : s.Decided id d) : s.drain.Decided id d := by
  obtain ⟨j, hj, hrest⟩ := h
  exact ⟨j, by rw [State.job?, s.drain_jobs]; exact hj, hrest⟩

theorem releaseDecision_runs (hd : s.defined) (hb : s.beating = true) : Runs .releaseDecision s fun t =>
    t.beat = s.beat ∧ t.cycle.toNat = max s.cycle.toNat 65376 ∧ (∀ p, (t.unit p).latchOpen = false) ∧
      (s.work.jobs.rising → ∀ id j, s.job? id = some j → j.phase = .running → t.Decided id (s.clearToRelease id j)) := by
  let u := s.reach 65376
  let v := u.forAll (u.jobsIn .running) State.decideRelease
  let w := v.forAll (v.jobsIn .fencedRestart ++ v.jobsIn .fencedTerminate) State.dropBeat
  refine runs_of_live (t := w.drain) hd hb rfl ?_
  have hw : w.scene = u.scene :=
    (State.forAll_keeps State.scene (fun s id => (State.modRun_scene _ id _).trans (s.modJob_scene id _)) _ v).trans
      (State.forAll_keeps State.scene (fun s id => s.decideRelease_scene id) _ u)
  obtain ⟨hbeat, hcycle⟩ := stands_of_clock (c := 65376) (by decide) (w.drain_clock.trans (clock_of_scene hw))
  refine ⟨hbeat, hcycle, w.latchOpen_drain, fun hjobs id j hj hr => ?_⟩
  have hju : u.job? id = some j := by simpa [u, State.job?] using hj
  have hclear : u.clearToRelease id j = s.clearToRelease id j :=
    State.clearToRelease_congr (by simp [u]) (by simp [u]) (by simp [u]) (by simp [u]) (by simp [u, State.run])
  have hnodup : (u.jobsIn .running).Nodup := State.jobsIn_nodup (by simpa [u] using hjobs) _
  have hv : v.Decided id (s.clearToRelease id j) :=
    ⟨_, u.job?_forAll_decideRelease hnodup (State.mem_jobsIn hju hr) hju hr, rfl, by rw [hclear]⟩
  exact (hv.forAll_dropBeat _).drain

/-- Settles O24: a command of the timetable moves the cycle up to its own, and what follows it leaves the clock alone. -/
theorem beatTimetable : Obligations.BeatTimetable := by
  intro s hd hb
  refine ⟨beatBoundary_runs s hd hb, programWindowEnd_runs s hd hb, fun finds => serviceScrub_runs s finds hd hb,
    fun temps rails => ledgerSampling_runs s temps rails hd hb, reconciliation_runs s hd hb, retrieverVerdict_runs s hd hb, ?_⟩
  obtain ⟨t, ht, hbeat, hcycle, hlatch, hdecided⟩ := releaseDecision_runs s hd hb
  exact ⟨t, ht, hbeat, hcycle, hlatch, fun hinv => hdecided hinv.jobs⟩

end Sys2Proof.Machine
end

section
/-!
PROOFS. Completions (R322 to R324): what completing an entry leaves alone, and that it writes or keeps a record of its type and
status. ENCODE (R65, R319) and BACKLOG_DRAIN (R323) rest on it.
-/
namespace Sys2Proof.Machine

/-! ### Host memory -/

theorem cellAt_ramWriteN_below {x a : Nat} (h : x < a) (bs : List Byte) (l : List Host.Cell) :
    cellAt zeroByte (ramWriteN l a bs) x = cellAt zeroByte l x := by
  induction bs generalizing l a with
  | nil => rfl
  | cons b bs ih => exact (ih (Nat.lt_succ_of_lt h) _).trans (cellAt_put_other _ _ _ _ _ (Nat.ne_of_lt h))

theorem cellAt_ramWriteN_inside {bs : List Byte} {i : Nat} {b : Byte} (h : bs[i]? = some b) {l : List Host.Cell}
    (hl : cellsWf zeroByte l = true) (a : Nat) : cellAt zeroByte (ramWriteN l a bs) (a + i) = b := by
  induction bs generalizing l a i with
  | nil => simp at h
  | cons c bs ih =>
    cases i with
    | zero =>
      obtain rfl : c = b := by simpa using h
      exact (cellAt_ramWriteN_below a.lt_succ_self bs _).trans (cellAt_put_same _ _ _ _ hl)
    | succ i =>
      rw [← Nat.succ_add_eq_add_succ]
      exact ih (by simpa using h) (cellPut_wf _ _ _ _ hl) _

/-- The first bytes of what was just written to host memory read as written. -/
theorem HostUnit.ramRead_of_written {u : HostUnit} {l : List Host.Cell} {a n : Nat} {bs : List Byte} (hl : cellsWf zeroByte l = true)
    (hu : u.hostRam = ramWriteN l a bs) (hn : n ≤ bs.length) : u.ramRead a n = bs.take n := by
  refine List.ext_getElem (by simp [HostUnit.ramRead, hn]) fun i hi _ => ?_
  have hlt : i < n := by simpa [HostUnit.ramRead] using hi
  have hget : bs[i]? = some bs[i] := List.getElem?_eq_getElem (hlt.trans_le hn)
  simpa [HostUnit.ramRead, hu] using cellAt_ramWriteN_inside hget hl a

/-! ### Completion records -/

/-- A completion body begins with its type and status, and so does the record written from it (R324). -/
theorem completionBody_take_two (ty st : Nat) (r : Bool) (tag : Word32) (b : List Byte) :
    (completionBody ty st r tag b).take 2 = [BitVec.ofNat 8 ty, BitVec.ofNat 8 st] := rfl

@[inherit_doc completionBody_take_two]
theorem completionBytes_take_two {ty st : Nat} {b : List Byte} (h : b.take 2 = [BitVec.ofNat 8 ty, BitVec.ofNat 8 st]) (s : State)
    (fn : Nat) (r : HostRing) : 2 ≤ (completionBytes s fn r b).length ∧
      (completionBytes s fn r b).take 2 = [BitVec.ofNat 8 ty, BitVec.ofNat 8 st] := by
  simp [completionBytes, withCrc32c, h]

variable (s : State)

/-- Where the next completion record of function `fn` goes (R322). -/
def State.cqTailAddress (fn : Nat) : Nat :=
  (s.func fn).cq.base.toNat + 64 * ((s.func fn).cq.tail.toNat % (s.func fn).cq.entries 6 16)

theorem State.writeCompletion_hostRam (fn : Nat) (b : List Byte) : (s.writeCompletion fn b).host.hostRam =
    ramWriteN s.host.hostRam (s.cqTailAddress fn) (completionBytes s fn (s.func fn).cq b) := rfl

/-- A record written moves the ring's tail and the sequence number on and fires COMPLETION (R322, R324, R329). -/
theorem State.func_writeCompletion (fn : Nat) (b : List Byte) : (s.writeCompletion fn b).func fn =
    { s.func fn with cq := (s.func fn).cq.advance 6 16 1, seq := (s.func fn).seq + 1,
                     evPending := setBit (s.func fn).evPending 0 } := by
  unfold State.writeCompletion State.fire
  extract_lets
  rw [State.func_modFunc, State.func_modFunc]
  rfl

/-- An item put into the backlog stands there (R323). -/
theorem State.mem_backlog (fn : Nat) (b : BacklogItem) : b ∈ ((s.backlog fn b).func fn).cqBacklog := by
  unfold State.backlog
  extract_lets f wasEmpty q s₁
  have hq : b ∈ q := by
    unfold q
    split
    next h =>
      obtain ⟨i, hi, hsame⟩ : ∃ i ∈ f.cqBacklog, i.kind = 0x13 ∧ i.job = b.job := by simpa using (Bool.and_eq_true_iff.1 h).2
      exact List.mem_map.2 ⟨i, hi, by simp [hsame]⟩
    next => simp
  have hs₁ : b ∈ (s₁.func fn).cqBacklog := by simpa [s₁] using hq
  split
  · simpa [State.fire] using hs₁
  · exact hs₁

/-- A completion changes the functions and host memory alone: what rests on neither is kept. -/
theorem State.complete_keeps {β : Type} (g : State → β)
    (h : ∀ funcs ram, g { s with host := { s.host with funcs := funcs, hostRam := ram } } = g s) (fn ty st : Nat) (tag : Word32)
    (b : List Byte) (r : Bool) (j : Nat) : g (s.complete fn ty st tag b r j) = g s :=
  keeps_ite g (h _ _) (keeps_ite g (h _ _) (h _ _))

@[simp] theorem State.completeControl_mem (e : Entry) (st num job out : Nat) : (s.completeControl e st num job out).mem = s.mem :=
  s.complete_keeps State.mem (fun _ _ => rfl) _ _ _ _ _ _ _

@[simp] theorem State.completeControl_encode (e : Entry) (st num job out : Nat) :
    (s.completeControl e st num job out).host.encode = s.host.encode :=
  s.complete_keeps (fun u => u.host.encode) (fun _ _ => rfl) _ _ _ _ _ _ _

/-- Completing leaves a completion of its type and status: at the ring's tail where the ring is open, else in the backlog. -/
theorem State.completed_complete (fn ty st : Nat) (tag : Word32) (b : List Byte) (r : Bool) (j : Nat) :
    Completed s (s.complete fn ty st tag b r j) fn ty st where
  written hinv hopen := by
    obtain ⟨hlen, htake⟩ := completionBytes_take_two (completionBody_take_two ty st r tag b) s fn (s.func fn).cq
    rw [State.complete, if_pos hopen]
    exact ⟨by rw [State.func_writeCompletion],
      (HostUnit.ramRead_of_written hinv.hostRam (s.writeCompletion_hostRam fn _) hlen).trans htake⟩
  waits hclosed := by
    rw [State.complete, if_neg (by simp [hclosed])]
    exact ⟨_, s.mem_backlog fn _, rfl, completionBody_take_two ty st r tag b⟩

/-- A completion seen from a state with the same function and the same open ring. -/
theorem Completed.of_same {s u t : State} {fn ty st : Nat} (h : Completed u t fn ty st) (hinv : s.Inv → u.Inv)
    (hfunc : u.func fn = s.func fn) (hopen : u.cqOpen fn = s.cqOpen fn) : Completed s t fn ty st where
  written hi ho := hfunc ▸ h.written (hinv hi) (hopen.trans ho)
  waits hc := h.waits (hopen.trans hc)

/-- A command whose meaning is live runs wherever the state is defined (R454). -/
theorem runs_of_exec_live {i : Instr} {s t : State} {P : State → Prop} (hd : s.defined) (he : exec i s = live s t) (ht : P t) :
    Runs i s P :=
  ⟨t, he.trans (live_defined s t hd), ht⟩

/-! ### ENCODE -/

/-- The management cores' ENCODE register holds `x`. -/
def State.withEncode (x : Option Entry) : State := { s with host := { s.host with encode := x } }

/-- The inputs ENCODE accepts, of a key set and its residue set (R65; log entry 70). -/
def State.EncodeFits (e : Entry) (k : KeySet) (r : ResidueSet) : Prop :=
  let inp := field e.raw 16 8
  let out := field e.raw 24 8
  let level := field e.raw 33 1
  let sc := signedOf 8 (field e.raw 34 1)
  let h := s.mem.fetch inp 256
  k.scheme = 1 ∧ 1 ≤ level ∧ level ≤ r.ordinary.length ∧ -32 ≤ sc ∧ sc ≤ 63 ∧ inp % 256 = 0 ∧ out % 256 = 0 ∧ tensorOk h = true ∧
    s.inIntake 0 inp (256 + tensorCount h * tensorWidth (field h 2 1)) = true ∧ tensorSlots h ≤ 2 ^ r.log2n / 2 ∧
    ((s.areaOf out (256 + level * 4 * 2 ^ r.log2n)).any fun a => a.2.owner == 0) = true

/-- The plaintext object that ENCODE of an entry packs from the tensor in memory (R65, R66). -/
def State.encoded (e : Entry) (k : KeySet) : List Byte :=
  let inp := field e.raw 16 8
  let h := s.mem.fetch inp 256
  encodeObject k (field e.raw 32 1) (field e.raw 33 1) (signedOf 8 (field e.raw 34 1))
    (s.mem.fetch inp (256 + tensorCount h * tensorWidth (field h 2 1)))

/-- Where no key set and residue set make the inputs fit, the entry fails with ENCODE_INPUT. -/
theorem State.finishEncode_of_not_fits {e : Entry} (h : ∀ k r, s.keySet? (field e.raw 40 8) = some k →
    k.rsets[field e.raw 32 1]? = some r → ¬ s.EncodeFits e k r) :
    s.finishEncode e = (s.withEncode none).completeControl e 0x55 0 0 0 := by
  simp only [State.finishEncode]
  split
  · rfl
  next k hk =>
    split
    · rfl
    next r hr =>
      refine if_pos ?_
      by_contra hguard
      refine h k r hk hr ?_
      simpa [State.EncodeFits, State.inIntake, State.areaOf, and_assoc, Nat.one_le_iff_ne_zero] using hguard

/-- Where the inputs fit, the packed plaintext is stored at the output. -/
theorem State.finishEncode_of_fits {e : Entry} {k : KeySet} {r : ResidueSet} (hk : s.keySet? (field e.raw 40 8) = some k)
    (hr : k.rsets[field e.raw 32 1]? = some r) (h : s.EncodeFits e k r) :
    s.finishEncode e = State.completeControl { s.withEncode none with mem := s.mem.store (field e.raw 24 8) (s.encoded e k) }
      e 0 0 0 (field e.raw 24 8) := by
  simp only [State.finishEncode]
  split
  next hnone => exact absurd (hk.symm.trans hnone) (Option.some_ne_none k)
  next k' hk' =>
    obtain rfl : k' = k := Option.some.inj (hk'.symm.trans hk)
    split
    next hnone => exact absurd (hr.symm.trans hnone) (Option.some_ne_none r)
    next r' hr' =>
      obtain rfl : r' = r := Option.some.inj (hr'.symm.trans hr)
      refine if_neg ?_
      simpa [State.EncodeFits, State.inIntake, State.areaOf, and_assoc, Nat.one_le_iff_ne_zero] using h

/-- The completion at an encode's end is one more than before it, whatever canonical memory it leaves. -/
theorem State.completed_encode (e : Entry) (st out : Nat) {m : Memory} (hm : s.mem.wf = true → m.wf = true) :
    Completed s (State.completeControl { s.withEncode none with mem := m } e st 0 0 out) e.fn 5 st :=
  (State.completed_complete _ _ _ _ _ _ _ _).of_same (fun h => ⟨hm h.memory, h.hostRam, h.flash, h.jobs⟩) rfl rfl

/-- ENCODE takes the first visible entry while no other is in progress. -/
theorem encode_runs {e : Entry} (hd : s.defined) (hnone : s.host.encode = none)
    (hv : s.visibleEntry (fun e => e.type == 5 && e.sub == 8) = some e) :
    Runs .encode s fun t => t.host.encode = some e ∧ t.mem = s.mem ∧ t.work = s.work := by
  refine runs_of_exec_live (t := (s.dropEntry e).withEncode (some e)) hd ?_ ⟨rfl, rfl, rfl⟩
  show execEncode s = _
  simp [execEncode, hnone, State.onControl, hv]
  rfl

theorem encodeComplete_runs {e : Entry} {P : State → Prop} (hd : s.defined) (he : s.host.encode = some e) (h : P (s.finishEncode e)) :
    Runs .encodeComplete s P := by
  refine runs_of_exec_live hd ?_ h
  show execEncodeComplete s = _
  simp [execEncodeComplete, he]

/-! ### BACKLOG_DRAIN -/

theorem State.signWaiting_of_nil (h : s.work.unsigned = []) : s.signWaiting = s := by
  have hs : { s with work := { s.work with unsigned := [] } } = s := by rw [← h]
  simp only [State.signWaiting, h, List.foldl_nil, hs, ite_self]

/-- The one record that waits is written where the ring takes it. -/
theorem drainCompletions_one {fn : Nat} {b : BacklogItem} (hb : (s.func fn).cqBacklog = [b]) (he : (s.func fn).cq.enabled = true)
    (hc : s.canSend fn = true) (hr : 0 < (s.func fn).cq.space 6 16) :
    drainCompletions fn 1 s = (s.modFunc fn fun f => { f with cqBacklog := [] }).writeCompletion fn b.bytes := by
  simp [drainCompletions, hb, he, hc, hr]

/-- With nothing else waiting for the function, its one waiting record is written, and that is all. -/
theorem State.drainBacklog_one {fn : Nat} {b : BacklogItem} (hu : s.work.unsigned = []) (hn : s.work.noticesDue = [])
    (hq : (s.func fn).rqBacklog = []) (hb : (s.func fn).cqBacklog = [b]) (he : (s.func fn).cq.enabled = true)
    (hc : s.canSend fn = true) (hr : 0 < (s.func fn).cq.space 6 16) :
    s.drainBacklog fn = (s.modFunc fn fun f => { f with cqBacklog := [] }).writeCompletion fn b.bytes := by
  have hwork (u : State) (b : List Byte) : (u.writeCompletion fn b).work = u.work := rfl
  simp [State.drainBacklog, s.signWaiting_of_nil hu, hb, drainCompletions_one s hb he hc hr, State.func_writeCompletion, hq,
    drainReceipts, hwork, hn, drainNotices]

theorem backlogDrain_runs {fn : Fin 17} {b : BacklogItem} (hd : s.defined) (hu : s.work.unsigned = []) (hn : s.work.noticesDue = [])
    (hq : (s.func fn).rqBacklog = []) (hb : (s.func fn).cqBacklog = [b]) (he : (s.func fn).cq.enabled = true)
    (hc : s.canSend fn = true) (hr : 0 < (s.func fn).cq.space 6 16) : Runs (.backlogDrain fn) s fun t =>
      (t.func fn).cqBacklog = [] ∧ (t.func fn).seq = (s.func fn).seq + 1 ∧ t.mem = s.mem := by
  refine runs_of_exec_live hd (t := s.drainBacklog fn) rfl ?_
  rw [s.drainBacklog_one hu hn hq hb he hc hr, State.func_writeCompletion, State.func_modFunc]
  exact ⟨rfl, rfl, rfl⟩

/-- Settles O39: a completion changes neither memory nor the ENCODE register, and a drain of one record is one record written. -/
theorem encodeAndBacklog : Obligations.EncodeAndBacklog := by
  intro s e fn b hd
  refine ⟨encode_runs s hd, fun he hbad => encodeComplete_runs s hd he ?_, fun k r he hk hr hfit => encodeComplete_runs s hd he ?_,
    backlogDrain_runs s hd⟩
  · rw [s.finishEncode_of_not_fits hbad]
    exact ⟨by simp [State.withEncode], s.completed_encode e 0x55 0 id, by simp [State.withEncode]⟩
  · rw [s.finishEncode_of_fits hk hr hfit]
    exact ⟨by simp [State.withEncode], s.completed_encode e 0 _ (s.mem.store_wf _ _), by simp [State.encoded]⟩

end Sys2Proof.Machine
end

section
/-!
PROOFS. Key sets (R75 to R78): what a registration locks, how its commit ends it, and the removal of a set. A commit and a removal
change no function and nothing that opens a ring, so each completion is one more than the command began with.
-/
namespace Sys2Proof.Machine

/-! ### The operations a registration is made of -/

/-- A key deleted from a table finds nothing. -/
@[simp] theorem Table.find_del_same {α : Type} (t : Table α) (k : Nat) : (t.del k).find k = none := by
  cases hf : (t.del k).find k with
  | none => rfl
  | some v => simpa [Table.del] using Table.mem_of_find hf

variable (s : State)

/-- A control command runs its handler on the visible entry, which it takes from the list. -/
theorem State.onControl_of_visible {s : State} {sub : Nat} {e : Entry}
    (hv : s.visibleEntry (fun e => e.type == 5 && e.sub == sub) = some e) (f : State → Entry → State) :
    s.onControl sub f = f (s.dropEntry e) e := by
  simp [State.onControl, hv]

/-! Taking an entry from the list leaves alone what the key-set commands look at. -/

@[simp] theorem State.dropEntry_memSys (e : Entry) : (s.dropEntry e).memSys = s.memSys := rfl
@[simp] theorem State.dropEntry_work (e : Entry) : (s.dropEntry e).work = s.work := rfl
@[simp] theorem State.dropEntry_areas (e : Entry) : (s.dropEntry e).host.areas = s.host.areas := rfl
@[simp] theorem State.dropEntry_inIntake (e : Entry) (fn a n : Nat) : (s.dropEntry e).inIntake fn a n = s.inIntake fn a n := rfl
@[simp] theorem State.dropEntry_keySetInUse (e : Entry) (k : KeySet) : (s.dropEntry e).keySetInUse k = s.keySetInUse k := rfl

/-- A lock adds to the list of locked ranges alone (R313). -/
theorem State.lock_eq (o : LockOwner) (a n : Nat) :
    s.lock o a n = { s with host := { s.host with locks := (s.lock o a n).host.locks } } := by
  unfold State.lock; split <;> rfl

@[simp] theorem State.lock_mem (o : LockOwner) (a n : Nat) : (s.lock o a n).mem = s.mem := by rw [State.lock_eq]
@[simp] theorem State.lock_registration (o : LockOwner) (a n : Nat) :
    (s.lock o a n).host.registration = s.host.registration := by rw [State.lock_eq]

theorem State.mem_lock {n : Nat} (hn : n ≠ 0) (o : LockOwner) (a : Nat) : (o, a, n) ∈ (s.lock o a n).host.locks := by
  simp [State.lock, hn]

theorem State.mem_lock_of_mem {s : State} {l : LockOwner × Nat × Nat} (h : l ∈ s.host.locks) (o : LockOwner) (a n : Nat) :
    l ∈ (s.lock o a n).host.locks := by
  unfold State.lock
  split
  · exact h
  · exact List.mem_append_left _ h

/-- A completion is seen in the functions and in host memory alone. -/
theorem Completed.of_host {s t u : State} {fn ty st : Nat} (h : Completed s t fn ty st) (hu : u.host = t.host) :
    Completed s u fn ty st where
  written hi ho := by rw [State.func, hu]; exact h.written hi ho
  waits hc := by rw [State.func, hu]; exact h.waits hc

/-! ### REGISTER_KEYSET -/

/-- The registration of an entry, its key region being area `areaNo` (R75 step 1). -/
def Entry.registration (e : Entry) (areaNo : Nat) : Registration :=
  { fn := e.fn, tag := e.tag, manifest := field e.raw 16 8, manifestLen := field e.raw 24 4, region := field e.raw 32 8,
    regionLen := field e.raw 40 8, areaNo := areaNo, seq := e.seq }

/-- A registration is in progress, its manifest and key region locked (R75 step 2). -/
def State.register (r : Registration) : State :=
  (State.lock { s with host := { s.host with registration := some r } } .registration r.manifest r.manifestLen).lock
    .registration r.region r.regionLen

@[simp] theorem State.register_mem (r : Registration) : (s.register r).mem = s.mem := by simp [State.register]
@[simp] theorem State.register_registration (r : Registration) : (s.register r).host.registration = some r := by
  simp [State.register]

theorem State.manifest_locked_register {r : Registration} (h : r.manifestLen ≠ 0) :
    (.registration, r.manifest, r.manifestLen) ∈ (s.register r).host.locks :=
  State.mem_lock_of_mem (State.mem_lock _ h _ _) _ _ _

/-- The first visible registration whose manifest and key region lie as R75 step 2 asks is taken. -/
theorem registerKeyset_runs {e : Entry} {x : Nat × Area} (hd : s.defined) (hnone : s.host.registration = none)
    (hv : s.visibleEntry (fun e => e.type == 5 && e.sub == 1) = some e) (hmem : s.memSys.hbmFailed = false)
    (hin : s.inIntake 0 (field e.raw 16 8) (field e.raw 24 4) = true) (hlen : field e.raw 24 4 ≠ 0)
    (harea : (s.host.areas.find? fun x => x.2.base == field e.raw 32 8 && x.2.length == field e.raw 40 8 && !x.2.release &&
      x.2.owner == 0) = some x) :
    Runs .registerKeyset s fun t => t.host.registration = some (e.registration x.1) ∧
      (.registration, field e.raw 16 8, field e.raw 24 4) ∈ t.host.locks ∧ t.mem = s.mem := by
  refine runs_of_exec_live (t := (s.dropEntry e).register (e.registration x.1)) hd ?_
    ⟨by simp, State.manifest_locked_register _ hlen, State.register_mem _ _⟩
  show execRegisterKeyset s = _
  simp [execRegisterKeyset, hnone, State.onControl_of_visible hv, hin, hmem, harea, hlen, Entry.registration, State.register]

/-! ### KEYSET_COMMIT -/

/-- No registration is in progress, and none of its locks stands. -/
def State.closeRegistration : State := ({ s with host := { s.host with registration := none } }).unlock .registration

section
variable (r : Registration) (st slot : Nat)

/-- Ending a registration completes it in the state without it: what rests on neither the functions nor host memory is as
there. -/
theorem State.endRegistration_keeps {β : Type} (g : State → β)
    (h : ∀ u : State, ∀ funcs ram, g { u with host := { u.host with funcs := funcs, hostRam := ram } } = g u) :
    g (s.endRegistration r st slot) = g s.closeRegistration :=
  s.closeRegistration.complete_keeps g (h _) _ _ _ _ _ _ _

@[simp] theorem State.endRegistration_work : (s.endRegistration r st slot).work = s.work :=
  s.endRegistration_keeps r st slot State.work fun _ _ _ => rfl
@[simp] theorem State.endRegistration_mem : (s.endRegistration r st slot).mem = s.mem :=
  s.endRegistration_keeps r st slot State.mem fun _ _ _ => rfl
@[simp] theorem State.endRegistration_areas : (s.endRegistration r st slot).host.areas = s.host.areas :=
  s.endRegistration_keeps r st slot (·.host.areas) fun _ _ _ => rfl
@[simp] theorem State.endRegistration_registration : (s.endRegistration r st slot).host.registration = none :=
  s.endRegistration_keeps r st slot (·.host.registration) fun _ _ _ => rfl

/-- No range stays locked for a registration that has ended. -/
theorem State.endRegistration_unlocks : ∀ l ∈ (s.endRegistration r st slot).host.locks, l.1 ≠ .registration := by
  rw [s.endRegistration_keeps r st slot (·.host.locks) fun _ _ _ => rfl]
  simp [State.closeRegistration, State.unlock]

theorem State.completed_endRegistration : Completed s (s.endRegistration r st slot) r.fn 5 st :=
  (s.closeRegistration.completed_complete _ _ _ _ _ _ _).of_same (fun h => ⟨h.memory, h.hostRam, h.flash, h.jobs⟩) rfl rfl

end

/-- The key set stands in its slot, and its region is no area of the host any more (R75 step 8). -/
def State.storeKeySet (slot areaNo : Nat) (k : KeySet) : State :=
  { s with work := { s.work with keySets := s.work.keySets.put slot k }
           host := { s.host with areas := s.host.areas.del areaNo } }

/-- What the walk's verdict makes of a registration (R75, R77). -/
def State.decideRegistration (r : Registration) : KeySetVerdict → State
  | .fail st => s.endRegistration r st 0
  | .same slot => s.endRegistration r 0 slot
  | .commit slot k => ((s.storeKeySet slot r.areaNo k).endRegistration r 0 slot).event 0x06 (keySetEvent 1 slot k.digest)

theorem keysetCommit_runs {r : Registration} {v : KeySetVerdict} {P : State → Prop} (hd : s.defined)
    (hr : s.host.registration = some r) (hv : s.keySetVerdict r = v) (h : P (s.decideRegistration r v)) :
    Runs .keysetCommit s P := by
  refine runs_of_exec_live hd ?_ h
  show execKeysetCommit s = _
  cases v <;> simp [execKeysetCommit, hr, hv, State.decideRegistration, State.storeKeySet]

/-- Storing the key set changes no function, so the completion of a commit is one more than before it. -/
theorem State.completed_commit (r : Registration) (slot : Nat) (k : KeySet) :
    Completed s (s.decideRegistration r (.commit slot k)) r.fn 5 0 := by
  have hend : Completed s ((s.storeKeySet slot r.areaNo k).endRegistration r 0 slot) r.fn 5 0 :=
    (State.completed_endRegistration _ r 0 slot).of_same (fun h => ⟨h.memory, h.hostRam, h.flash, h.jobs⟩) rfl rfl
  exact hend.of_host (State.event_host _ _ _)

/-! ### REMOVE_KEYSET -/

theorem State.event_eq (c : Nat) (b : List Byte) : s.event c b = { s with ledger := (s.event c b).ledger } := by
  unfold State.event; split <;> rfl

theorem State.eraseShare_eq : s.eraseShare = { s with sec := s.eraseShare.sec, ledger := s.eraseShare.ledger } := by
  unfold State.eraseShare
  extract_lets t
  split
  · rw [State.event_eq]
  · rfl

/-- Device memory with a key set's storage filled and its poison marks cleared (R78). -/
def State.filledStorage (k : KeySet) : Memory := (s.mem.fill k.regionBase 0xFF k.regionLen).unmark k.regionBase k.regionLen

/-- A removal changes the key's storage, its slot, the share and the ledger alone (R78, R378). -/
theorem State.removeKeySet_eq (slot : Nat) (k : KeySet) : s.removeKeySet slot k =
    { s with mem := s.filledStorage k, work := { s.work with keySets := s.work.keySets.del slot }
             sec := (s.removeKeySet slot k).sec, ledger := (s.removeKeySet slot k).ledger } := by
  unfold State.removeKeySet
  split
  · rw [State.event_eq, State.eraseShare_eq]; rfl
  · rw [State.event_eq]; rfl

@[simp] theorem State.removeKeySet_keySets (slot : Nat) (k : KeySet) :
    (s.removeKeySet slot k).work.keySets = s.work.keySets.del slot := by
  rw [State.removeKeySet_eq]

@[simp] theorem State.completeControl_work (e : Entry) (st num job out : Nat) : (s.completeControl e st num job out).work = s.work :=
  s.complete_keeps State.work (fun _ _ => rfl) _ _ _ _ _ _ _

theorem State.completed_completeControl (e : Entry) (st num job out : Nat) :
    Completed s (s.completeControl e st num job out) e.fn 5 st := s.completed_complete _ _ _ _ _ _ _

theorem State.completed_dropEntry {s t : State} {e : Entry} {fn ty st : Nat} (h : Completed (s.dropEntry e) t fn ty st) :
    Completed s t fn ty st :=
  h.of_same (fun h => ⟨h.memory, h.hostRam, h.flash, h.jobs⟩) rfl rfl

/-- A removal changes no function and leaves memory canonical, so the completion after it is one more than before it. -/
theorem State.completed_removeKeySet {s t : State} {slot fn ty st : Nat} {k : KeySet}
    (h : Completed (s.removeKeySet slot k) t fn ty st) : Completed s t fn ty st := by
  rw [State.removeKeySet_eq] at h
  exact h.of_same (fun h => ⟨Memory.unmark_wf _ _ _ (Memory.fill_wf _ _ _ _ h.memory), h.hostRam, h.flash, h.jobs⟩) rfl rfl

section
variable {e : Entry} {k : KeySet} (hd : s.defined) (hv : s.visibleEntry (fun e => e.type == 5 && e.sub == 2) = some e)
  (hk : s.work.keySets.find (field e.raw 9 1) = some k)
include hd hv hk

/-- REMOVE_KEYSET empties the slot of a set that nothing references. -/
theorem removeKeyset_runs_of_unused (huse : s.keySetInUse k = false) : Runs .removeKeyset s fun t =>
    t.work.keySets.find (field e.raw 9 1) = none ∧ Completed s t e.fn 5 0 := by
  let u := (s.dropEntry e).removeKeySet (field e.raw 9 1) k
  refine runs_of_exec_live (t := u.completeControl e 0 (field e.raw 9 1) 0 0) hd ?_
    ⟨?_, State.completed_dropEntry (State.completed_removeKeySet (u.completed_completeControl e 0 _ 0 0))⟩
  · show execRemoveKeyset s = _
    simp [execRemoveKeyset, State.onControl_of_visible hv, hk, huse, u]
  · simp [u]

/-- A set in use stays, and the removal completes with IN_USE (0x0F). -/
theorem removeKeyset_runs_of_used (huse : s.keySetInUse k = true) : Runs .removeKeyset s fun t =>
    t.work = s.work ∧ t.mem = s.mem ∧ Completed s t e.fn 5 0x0F := by
  refine runs_of_exec_live (t := (s.dropEntry e).completeControl e 0x0F (field e.raw 9 1) 0 0) hd ?_
    ⟨State.completeControl_work _ _ _ _ _ _, State.completeControl_mem _ _ _ _ _ _,
      State.completed_dropEntry (State.completed_completeControl _ _ _ _ _ _)⟩
  show execRemoveKeyset s = _
  simp [execRemoveKeyset, State.onControl_of_visible hv, hk, huse]

end

/-- Settles O38: the commit ends by its walk's verdict, and every completion is one more than the command began with. -/
theorem keySetsRegisterAndCommit : Obligations.KeySetsRegisterAndCommit := by
  intro s e r hd
  refine ⟨fun x hnone hv hmem hin hlen harea => ?_, fun hr => ⟨fun st hv => ?_, fun slot hv => ?_, fun slot k hv => ?_⟩,
    fun k hv hk => ⟨removeKeyset_runs_of_unused s hd hv hk, removeKeyset_runs_of_used s hd hv hk⟩⟩
  · obtain ⟨t, ht, hreg, hrest⟩ := registerKeyset_runs s hd hnone hv hmem hin hlen harea
    exact ⟨t, ht, ⟨_, hreg, rfl, rfl, rfl, rfl, rfl, rfl, rfl, rfl⟩, hrest⟩
  · exact keysetCommit_runs s hd hr hv ⟨s.endRegistration_work r st 0, s.endRegistration_registration r st 0,
      s.completed_endRegistration r st 0, s.endRegistration_unlocks r st 0, s.endRegistration_mem r st 0⟩
  · exact keysetCommit_runs s hd hr hv ⟨s.endRegistration_work r 0 slot, s.endRegistration_registration r 0 slot,
      s.completed_endRegistration r 0 slot, s.endRegistration_mem r 0 slot⟩
  · exact keysetCommit_runs s hd hr hv ⟨by simp [State.decideRegistration, State.storeKeySet],
      by simp [State.decideRegistration], by simp [State.decideRegistration, State.storeKeySet], s.completed_commit r slot k,
      by simp [State.decideRegistration, State.storeKeySet]⟩

end Sys2Proof.Machine
end

section
/-!
PROOFS. What an engine's work leaves alone (R167, R170, R172): the issue ports of the clusters and all of the state that no engine
command touches, together with the engines' occupancies, as one view that each operation of an engine keeps.
-/
namespace Sys2Proof.Machine

/-! ### The view -/

/-- A cluster as its issue port sees it: the core's registers, the stream's place and stamp, and the engines' occupancies. -/
@[reducible] def Cluster.core (c : Cluster) : Cluster :=
  { sregs := c.sregs, params := c.params, loops := c.loops, image := c.image, state := c.state, pc := c.pc, nextAt := c.nextAt,
    issueAt := c.issueAt, issued := c.issued, busy := c.busy }

/-- The state without what an engine command may change. -/
def State.besideEngines (s : State) : State :=
  { s with free := 0, mem := {}, units := [], clusters := [], rings := [], faults := State.reset.faults,
           work := { s.work with kcDir := [], runs := [] } }

/-- What every engine's work leaves alone, but for the occupancies among the cores. -/
structure IssueView where
  rest : State
  core : Nat → Cluster

/-- The view of a state. -/
def State.issueView (s : State) : IssueView := ⟨s.besideEngines, fun k => (s.cluster k).core⟩

/-- Engine `e` of the cluster is occupied until `t`. -/
def Cluster.occupied (c : Cluster) (e t : Nat) : Cluster := { c with busy := c.busy.put e (max t (c.busy.at e 0)) }

/-- Occupy an engine of a cluster until `t`, in the view. -/
def IssueView.occupy (v : IssueView) (k e t : Nat) : IssueView := { v with core := Function.update v.core k ((v.core k).occupied e t) }

/-! ### The operations that keep the view -/

section
variable (s : State)

@[simp] theorem State.modRing_issueView (k r : Nat) (f : Ring → Ring) : (s.modRing k r f).issueView = s.issueView := rfl
@[simp] theorem State.modUnit_issueView (p : Nat) (f : GroupUnits → GroupUnits) : (s.modUnit p f).issueView = s.issueView := rfl
@[simp] theorem State.clusterFault_issueView (k e u d o a x t : Nat) (p : Bool) :
    (s.clusterFault k e u d o a x t p).issueView = s.issueView := rfl

/-- A change of a cluster shows in its core. -/
theorem State.modCluster_issueView_update (k : Nat) (f : Cluster → Cluster) :
    (s.modCluster k f).issueView = { s.issueView with core := Function.update s.issueView.core k (f (s.cluster k)).core } := by
  have hcore (j : Nat) : ((s.modCluster k f).cluster j).core = Function.update s.issueView.core k (f (s.cluster k)).core j := by
    by_cases hj : j = k
    · subst hj; simp
    · simp [hj, State.cluster_modCluster_other _ _ _ _ hj, State.issueView]
  exact congrArg (IssueView.mk s.besideEngines) (funext hcore)

/-- A change of a cluster that keeps its core. -/
@[simp] theorem State.modCluster_issueView (k : Nat) (f : Cluster → Cluster) (h : ∀ c, (f c).core = c.core := by exact fun _ => rfl) :
    (s.modCluster k f).issueView = s.issueView := by
  rw [State.modCluster_issueView_update, h]
  exact congrArg (IssueView.mk s.besideEngines) (Function.update_eq_self k s.issueView.core)

@[simp] theorem State.occupy_issueView (k e t : Nat) : (s.occupy k e t).issueView = s.issueView.occupy k e t :=
  s.modCluster_issueView_update k _

/-! ### Checks and refusals -/

@[simp] theorem State.violateBy_issueView (k w c e r o t a : Nat) (b : Bool) :
    (s.violateBy k w c e r o t a b).issueView = s.issueView :=
  s.modCluster_issueView k _

@[simp] theorem State.violate_issueView (k c e r o t a : Nat) (b : Bool) : (s.violate k c e r o t a b).issueView = s.issueView :=
  s.violateBy_issueView k _ c e r o t a b

@[simp] theorem State.consumeLoaded_issueView (k e : Nat) (o : Operand) (code op t : Nat) :
    (s.consumeLoaded k e o code op t).issueView = s.issueView := by
  unfold State.consumeLoaded
  split
  · exact keeps_ite _ rfl rfl
  · rfl

@[simp] theorem State.operandRange_issueView (k e : Nat) (o : Operand) (op t : Nat) (bad : Bool) :
    (s.operandRange k e o op t bad).2.issueView = s.issueView := by
  unfold State.operandRange
  split
  · rfl
  · dsimp only
    split <;> rfl

@[simp] theorem State.meetAbsent_issueView (k e op t : Nat) : (s.meetAbsent k e op t).2.issueView = s.issueView := rfl

@[simp] theorem State.refuseSpan_issueView (k e : Nat) (c : CmdWord) (t : Nat) (v : Verdict) :
    (s.refuseSpan k e c t v).issueView = s.issueView :=
  keeps_ite _ rfl (s.consumeLoaded_issueView ..)

/-! ### Reads and writes -/

@[simp] theorem State.noteReads_issueView (k : Nat) (o : Operand) (rd : List (Nat × Nat)) :
    (s.noteReads k o rd).issueView = s.issueView := by
  unfold State.noteReads
  split
  · exact s.modCluster_issueView k _
  · rfl
  · rfl

@[simp] theorem State.readRows_issueView (k e : Nat) (o : Operand) (rd : List (Nat × Nat)) (op t : Nat) (dep : Bool) :
    (s.readRows k e o rd op t dep).2.issueView = s.issueView := by
  unfold State.readRows
  extract_lets s₀ s₁
  have hnote : s₁.issueView = s.issueView := s.noteReads_issueView k o rd
  have hviolate (c r : Nat) : (s₁.violate k c e r op t 0 false).issueView = s.issueView := (s₁.violate_issueView ..).trans hnote
  refine keeps_ite (State.issueView ∘ Prod.snd) hnote ?_
  refine keeps_ite (State.issueView ∘ Prod.snd) (hviolate ..) ?_
  refine keeps_ite (State.issueView ∘ Prod.snd) (hviolate ..) ?_
  refine keeps_ite (State.issueView ∘ Prod.snd) hnote ?_
  split
  · split
    · exact hnote
    · exact hnote
  · exact hnote

@[simp] theorem State.readCheck_issueView (k e : Nat) (o : Operand) (idx : List Nat) (c : CmdWord) (t : Nat) :
    (s.readCheck k e o idx c t).2.issueView = s.issueView :=
  s.readRows_issueView ..

@[simp] theorem State.writeCheck_issueView (k e : Nat) (o : Operand) (n op t : Nat) (f : Nat → Nat) :
    (s.writeCheck k e o n op t f).2.issueView = s.issueView := by
  unfold State.writeCheck
  split
  · rfl
  · exact s.violate_issueView ..

/-! ### Pushes and pops -/

@[simp] theorem State.popOperandRuns_issueView (k : Nat) (o : Operand) (n : Nat) (runs : List (Nat × Nat)) :
    (s.popOperandRuns k o n runs).issueView = s.issueView := by
  unfold State.popOperandRuns
  split
  · rfl
  · exact s.modCluster_issueView k _
  · rfl

@[simp] theorem State.popOperand_issueView (k : Nat) (o : Operand) (n t : Nat) : (s.popOperand k o n t).issueView = s.issueView :=
  s.popOperandRuns_issueView ..

@[simp] theorem State.pushRows_issueView (k r : Nat) (f : Nat → Nat) (lanes i : Nat) (ws : List Row) :
    (s.pushRows k r f lanes i ws).issueView = s.issueView := by
  induction ws generalizing s i with
  | nil => rfl
  | cons w ws ih => exact ih _ _

@[simp] theorem State.pushOperand_issueView (k : Nat) (o : Operand) (f : Nat → Nat) (lanes : Nat) (rows : List Row) :
    (s.pushOperand k o f lanes rows).issueView = s.issueView := by
  unfold State.pushOperand
  split
  · exact s.pushRows_issueView ..
  · exact s.modCluster_issueView k _
  · rfl

@[simp] theorem State.placeRow_issueView (k r off t : Nat) (w : Row) (lanes : Nat) :
    (s.placeRow k r off t w lanes).issueView = s.issueView := rfl

@[simp] theorem State.closeOutput_issueView (k : Nat) (o : Operand) (rows code t : Nat) (h : Option Header) (b : Bool) :
    (s.closeOutput k o rows code t h b).issueView = s.issueView := by
  unfold State.closeOutput
  split
  · exact keeps_ite _ rfl rfl
  · exact s.modCluster_issueView k _
  · rfl

@[simp] theorem State.noteWork_issueView (k e : Nat) (o : Operand) (rows t last : Nat) :
    (s.noteWork k e o rows t last).issueView = s.issueView := by
  unfold State.noteWork
  extract_lets s₁
  have hwork : s₁.issueView = s.issueView := s.modCluster_issueView k _
  split
  · exact hwork
  · exact hwork

/-! ### Objects of the vector engine (R104) -/

@[simp] theorem State.veOpen_issueView (k : Nat) (x : Ctx) (c : CmdWord) (t : Nat) (rule : HeadRule) (form : FormRule)
    (ins : List Operand) (npoly : Nat) (own : OwnRefusal) : (s.veOpen k x c t rule form ins npoly own).2.issueView = s.issueView := by
  have hconsume (code : Nat) : (ins.foldl (fun s o => s.consumeLoaded k 1 o code (cmdOp c) t) s).issueView = s.issueView :=
    foldl_keeps State.issueView (fun s o => s.consumeLoaded_issueView ..) ins s
  unfold State.veOpen
  extract_lets hx inputs heads wants v tag s₁
  have hjudge : s₁.issueView = s.issueView := keeps_ite _ rfl (hconsume _)
  split
  · split
    · rfl
    · exact hjudge
  · split
    · rfl
    · exact s.violate_issueView ..

@[simp] theorem State.veClose_issueView (k : Nat) (c : CmdWord) (o : OpenObject) (n rows code t last : Nat) :
    (s.veClose k c o n rows code t last).issueView = s.issueView := by
  unfold State.veClose
  extract_lets s₁ o' h hd product s₂ s₃
  have hwork : s₁.issueView = s.issueView := by simp [s₁]
  have hclose : s₂.issueView = s.issueView := by simp [s₂, apply_ite, hwork]
  have hcloseE : s₃.issueView = s.issueView := by simp [s₃, apply_ite, hclose]
  split
  · exact (s₃.modCluster_issueView k _).trans hcloseE
  · exact (s₁.modCluster_issueView k _).trans hwork

/-! ### Planes across a span (R40) -/

@[simp] theorem State.spanChecks_issueView (ks : List Nat) (e : Nat) (c : CmdWord) (rd : List (Nat × Nat)) (rows t last : Nat) :
    (s.spanChecks ks e c rd rows t last).2.issueView = s.issueView :=
  foldl_keeps (fun acc : Nat × State => acc.2.issueView) (fun acc k => by simp) ks (0, s)

@[simp] theorem State.pushPlane_issueView (ks : List Nat) (o : Operand) (share last : Nat) (plane : List Nat) (code : Nat) :
    (s.pushPlane ks o share last plane code).issueView = s.issueView :=
  foldl_keeps State.issueView (fun s _ => s.pushOperand_issueView ..) _ s

end

/-- A fold over operations that the view follows. -/
theorem issueView_foldl {α : Type} {f : State → α → State} {g : IssueView → α → IssueView}
    (h : ∀ s x, (f s x).issueView = g s.issueView x) (l : List α) (s : State) : (l.foldl f s).issueView = l.foldl g s.issueView :=
  (List.foldl_hom State.issueView fun s x => (h s x).symm).symm

end Sys2Proof.Machine
end

section
/-!
PROOFS. The work of the vector and transform engines (R95 to R122), in the issue ports' view: each command's work occupies its
engines and changes nothing else of the view. The proofs read a course from its last operation back to its first, and each lemma
of the view takes off one operation.
-/
namespace Sys2Proof.Machine

section
variable (s : State)

/-- Planes pushed one after the other. -/
theorem State.pushPlanes_issueView {α : Type} (ks : List Nat) (o : Operand) (share : Nat) (last : α → Nat) (plane : α → List Nat)
    (code : Nat) (l : List α) : (l.foldl (fun s e => s.pushPlane ks o share (last e) (plane e) code) s).issueView = s.issueView :=
  foldl_keeps State.issueView (fun s _ => s.pushPlane_issueView ..) l s

/-- Runs of rows pushed one after the other to one operand. -/
theorem State.pushOperands_issueView {α : Type} (k : Nat) (o : Operand) (stamp : α → Nat → Nat) (lanes : Nat) (rows : α → List Row)
    (l : List α) : (l.foldl (fun s e => s.pushOperand k o (stamp e) lanes (rows e)) s).issueView = s.issueView :=
  foldl_keeps State.issueView (fun s _ => s.pushOperand_issueView ..) l s

/-- Blocks of rows placed past the tail of a ring, row by row. -/
theorem State.placeRows_issueView {α β : Type} (k r : Nat) (off stamp lanes : α → β → Nat) (row : α → β → Row) (rows : α → List β)
    (l : List α) : (l.foldl (fun (s : State) e => (rows e).foldl (fun (s : State) w =>
      s.placeRow k r (off e w) (stamp e w) (row e w) (lanes e w)) s) s).issueView = s.issueView :=
  foldl_keeps State.issueView (fun u e => foldl_keeps State.issueView (fun u _ => u.placeRow_issueView ..) (rows e) u) l s

/-- The view after an occupation, from the view before it. -/
theorem issueView_occupy_of {u : State} {v : IssueView} {k e t : Nat} (h : u.issueView = v) :
    (u.occupy k e t).issueView = v.occupy k e t :=
  h ▸ u.occupy_issueView k e t

/-- An output to a ring, and one elsewhere. -/
theorem issueView_of_ring_cases {o : Operand} {f : Nat → State} {a : State} {v : IssueView} (hring : ∀ r, (f r).issueView = v)
    (hother : a.issueView = v) : State.issueView (match o with | .ring r => f r | _ => a) = v := by
  split
  · exact hring _
  · exact hother

/-! ### The commands of one cluster -/

/-- VE.CHAIN holds the engine for a cycle a row (R106). -/
theorem State.chainRun_issueView (k : Nat) (c : CmdWord) (x : Ctx) (t : Nat) :
    (s.chainRun k c x t).issueView = s.issueView.occupy k 1 (t + rowsOf (cmdCount c)) := by
  dsimp only [State.chainRun]
  simp only [↓State.occupy_issueView, ↓State.veClose_issueView, ↓State.pushOperand_issueView, ↓State.writeCheck_issueView,
     ↓apply_ite Prod.snd, ↓apply_ite State.issueView, ↓State.operandRange_issueView, ↓State.popOperand_issueView,
     ↓State.readCheck_issueView, ↓State.veOpen_issueView, ↓ite_self]

/-- VE.TENSOR holds the engine for two cycles a row (R106). -/
theorem State.tensorRun_issueView (k : Nat) (c : CmdWord) (x : Ctx) (t : Nat) :
    (s.tensorRun k c x t).issueView = s.issueView.occupy k 1 (t + 2 * rowsOf (cmdCount c)) := by
  dsimp only [State.tensorRun]
  refine issueView_occupy_of ?_
  rw [State.veClose_issueView]
  refine issueView_of_ring_cases (fun r => ?_) ?_
  all_goals
    simp only [↓State.modRing_issueView, ↓State.popOperandRuns_issueView]
    refine issueView_of_ring_cases (fun r => ?_) ?_
  all_goals
    simp only [↓State.placeRows_issueView, ↓State.pushOperand_issueView, ↓apply_ite State.issueView, ↓apply_ite Prod.snd,
      ↓State.operandRange_issueView, ↓State.writeCheck_issueView, ↓State.readRows_issueView, ↓State.veOpen_issueView, ↓ite_self]

/-- VE.CVTIN holds the engine for a cycle a row of each residue (R106, R108). -/
theorem State.cvtinRun_issueView (k : Nat) (c : CmdWord) (x : Ctx) (t : Nat) :
    (s.cvtinRun k c x t).issueView = s.issueView.occupy k 1 (t + rowsOf (cmdCount c) * cmdW c) := by
  dsimp only [State.cvtinRun]
  simp only [↓State.occupy_issueView, ↓State.veClose_issueView, ↓State.popOperand_issueView, ↓State.pushOperands_issueView,
    ↓apply_ite State.issueView, ↓State.modCluster_issueView, implies_true, ↓State.writeCheck_issueView, ↓State.clusterFault_issueView,
    ↓State.readCheck_issueView, ↓State.violate_issueView, ↓ite_self]

/-- VE.CVTOUT holds the engine for two cycles a row of each residue (R106, R108). -/
theorem State.cvtoutRun_issueView (k : Nat) (c : CmdWord) (x : Ctx) (t : Nat) :
    (s.cvtoutRun k c x t).issueView = s.issueView.occupy k 1 (t + rowsOf (cmdCount c) * 2 * cmdW c) := by
  dsimp only [State.cvtoutRun]
  simp only [↓State.occupy_issueView, ↓State.veClose_issueView, ↓State.popOperandRuns_issueView, ↓State.pushOperand_issueView,
    ↓apply_ite State.issueView, ↓State.modCluster_issueView, implies_true, ↓State.operandRange_issueView, ↓State.writeCheck_issueView,
    ↓State.readRows_issueView, ↓State.veOpen_issueView, ↓ite_self]

/-- VE.GATHER holds the engine while it loads its buffer and then for 16 indices a cycle (R106, R111). -/
theorem State.gatherRun_issueView (k : Nat) (c : CmdWord) (t : Nat) :
    (s.gatherRun k c t).issueView =
      s.issueView.occupy k 1 (t + rowsOf (wordValue (s.cluster k) c % 2 ^ 32 % 4096 + 1) + (cmdCount c + 15) / 16) := by
  dsimp only [State.gatherRun]
  simp only [↓State.occupy_issueView, ↓State.closeOutput_issueView, ↓State.noteWork_issueView, ↓State.popOperandRuns_issueView,
    ↓State.pushOperand_issueView, ↓apply_ite State.issueView, ↓State.modCluster_issueView, implies_true, ↓State.writeCheck_issueView,
    ↓State.readRows_issueView, ↓State.readCheck_issueView, ↓ite_self]

/-- VE.FILL holds the engine for a cycle a row (R106). -/
theorem State.fillRun_issueView (k : Nat) (c : CmdWord) (x : Ctx) (t : Nat) :
    (s.fillRun k c x t).issueView = s.issueView.occupy k 1 (t + rowsOf (cmdCount c)) := by
  dsimp only [State.fillRun]
  simp only [↓State.occupy_issueView, ↓State.veClose_issueView, ↓State.pushOperand_issueView, ↓State.writeCheck_issueView,
     ↓apply_ite Prod.snd, ↓apply_ite State.issueView, ↓State.meetAbsent_issueView, ↓State.veOpen_issueView, ↓ite_self]

/-- VE.LDPROG holds the engine for a cycle per eight programs (R106). -/
theorem State.ldprogRun_issueView (k : Nat) (c : CmdWord) (t : Nat) :
    (s.ldprogRun k c t).issueView = s.issueView.occupy k 1 (t + (cmdCount c + 7) / 8) := by
  dsimp only [State.ldprogRun]
  simp only [↓State.occupy_issueView, ↓State.popOperand_issueView, ↓apply_ite State.issueView, ↓State.modCluster_issueView,
    implies_true, ↓State.clusterFault_issueView, ↓State.readCheck_issueView, ↓ite_self]

/-- VE.LDCONST holds the engine for a cycle a row (R106). -/
theorem State.ldconstRun_issueView (k : Nat) (c : CmdWord) (x : Ctx) (t : Nat) :
    (s.ldconstRun k c x t).issueView = s.issueView.occupy k 1 (t + rowsOf (cmdCount c)) := by
  dsimp only [State.ldconstRun]
  simp only [↓State.occupy_issueView, ↓State.popOperand_issueView, ↓apply_ite State.issueView, ↓State.modCluster_issueView,
    implies_true, ↓State.clusterFault_issueView, ↓State.readCheck_issueView, ↓ite_self]

/-! ### The commands of a span -/

/-- VE.AUTO holds the engine of each cluster of the span for P/16 cycles a plane (R106). -/
theorem State.autoRun_issueView (c : CmdWord) (x : Ctx) (t : Nat) (ks : List Nat) (pre : Nat) :
    (s.autoRun c x t ks pre).issueView =
      ks.foldl (fun v k => v.occupy k 1 (t + max 1 (x.share / 16) * cmdCount c)) s.issueView := by
  dsimp only [State.autoRun]
  rw [issueView_foldl (g := fun v k => v.occupy k 1 (t + max 1 (x.share / 16) * cmdCount c))]
  · simp only [↓State.pushPlanes_issueView, ↓State.operandRange_issueView, ↓State.spanChecks_issueView, ↓State.veOpen_issueView]
  · intro u k
    simp only [↓State.occupy_issueView, ↓State.veClose_issueView, ↓State.popOperandRuns_issueView]

/-- VE.RESCALE and VE.MODSW hold both engines of each cluster of the span (R106, R109). -/
theorem State.switchRun_issueView (c : CmdWord) (x : Ctx) (t : Nat) (ks : List Nat) (pre : Nat) (modsw : Bool) :
    (s.switchRun c x t ks pre modsw).issueView =
      let i := s.headInput (ks.headD 0) (cmdA c)
      let work := (teCosts x.prog.log2n).1 * cmdCount c * ((if i.obj then i.hdr.level else 1) - 1)
      ks.foldl (fun v k => (v.occupy k 1 (t + 440 + work)).occupy k 2 (t + 300 + work)) s.issueView := by
  dsimp only [State.switchRun]
  rw [issueView_foldl]
  · simp only [↓apply_ite State.issueView, ↓State.pushPlanes_issueView, ↓State.operandRange_issueView, ↓State.spanChecks_issueView,
       ↓State.refuseSpan_issueView, ↓ite_self]
    rfl
  · intro u k
    simp only [↓State.occupy_issueView, ↓State.closeOutput_issueView, ↓State.noteWork_issueView, ↓State.popOperandRuns_issueView]

/-- TE.FWD and TE.INV hold the transform engine of each cluster of the span for R117's cycles a plane. -/
theorem State.teRun_issueView (p : Nat) (c : CmdWord) (x : Ctx) (t : Nat) (ks : List Nat) (pre : Nat) (inverse : Bool) :
    (s.teRun p c x t ks pre inverse).issueView =
      ks.foldl (fun v k => v.occupy k 2 (t + (teCosts x.prog.log2n).1 * cmdCount c)) s.issueView := by
  dsimp only [State.teRun]
  rw [issueView_foldl]
  · simp only [↓State.modUnit_issueView, ↓State.pushPlanes_issueView, ↓State.operandRange_issueView, ↓State.spanChecks_issueView,
       ↓State.refuseSpan_issueView]
    rfl
  · intro u k
    simp only [↓State.occupy_issueView, ↓State.closeOutput_issueView, ↓State.noteWork_issueView, ↓State.popOperandRuns_issueView]

end

end Sys2Proof.Machine
end

section
/-!
PROOFS. Commands at the issue port (R170, R172, R185, R187): what has issued once an accepted command has run, for a command of one
cluster and for one that a span's clusters issue together; the vector and transform engines' commands.
-/
namespace Sys2Proof.Machine

/-! ### Occupied engines -/

/-- `w` is `v` with engines occupied, some of them longer. -/
structure IssueView.Occupied (v w : IssueView) : Prop where
  rest : w.rest = v.rest
  core : ∀ k, { w.core k with busy := [] } = { v.core k with busy := [] }
  held : ∀ k e, (v.core k).busy.at e 0 ≤ (w.core k).busy.at e 0

theorem IssueView.Occupied.refl (v : IssueView) : v.Occupied v := ⟨rfl, fun _ => rfl, fun _ _ => Nat.le_refl _⟩

theorem IssueView.Occupied.trans {u v w : IssueView} (a : u.Occupied v) (b : v.Occupied w) : u.Occupied w :=
  ⟨b.rest.trans a.rest, fun k => (b.core k).trans (a.core k), fun k e => (a.held k e).trans (b.held k e)⟩

/-- An engine is occupied at least as long as it was, and at least until the cycle named. -/
theorem Cluster.busy_occupied (c : Cluster) (e d t : Nat) :
    c.busy.at d 0 ≤ (c.occupied e t).busy.at d 0 ∧ t ≤ (c.occupied e t).busy.at e 0 := by
  refine ⟨?_, by simp [Cluster.occupied]⟩
  by_cases hd : d = e
  · simp [hd, Cluster.occupied]
  · simp [Cluster.occupied, Table.at_put_other _ _ _ _ _ hd]

theorem IssueView.occupied_occupy (v : IssueView) (k e t : Nat) : v.Occupied (v.occupy k e t) := by
  refine ⟨rfl, fun j => ?_, fun j d => ?_⟩
  · by_cases hj : j = k
    · subst hj; simp [IssueView.occupy, Cluster.occupied]
    · simp [IssueView.occupy, hj]
  · by_cases hj : j = k
    · subst hj; simpa [IssueView.occupy] using (Cluster.busy_occupied (v.core j) e d t).1
    · simp [IssueView.occupy, hj]

/-- Engine `e` of cluster `k` is held up to cycle `t`, in the view. -/
def IssueView.Held (v : IssueView) (k e t : Nat) : Prop := t ≤ (v.core k).busy.at e 0

theorem IssueView.held_occupy (v : IssueView) (k e t : Nat) : (v.occupy k e t).Held k e t := by
  simpa [IssueView.Held, IssueView.occupy] using (Cluster.busy_occupied (v.core k) e e t).2

theorem IssueView.Held.mono {v w : IssueView} {k e t : Nat} (h : v.Held k e t) (o : v.Occupied w) : w.Held k e t :=
  Nat.le_trans h (o.held k e)

/-- A fold of occupations occupies. -/
theorem IssueView.occupied_foldl {f : IssueView → Nat → IssueView} (hf : ∀ (v : IssueView) k, v.Occupied (f v k)) (ks : List Nat)
    (v : IssueView) : v.Occupied (ks.foldl f v) := by
  induction ks generalizing v with
  | nil => exact .refl v
  | cons j ks ih => exact (hf v j).trans (ih _)

/-- What a fold of occupations holds at one cluster, it holds at each of the list. -/
theorem IssueView.held_foldl {f : IssueView → Nat → IssueView} {e t : Nat} (hf : ∀ (v : IssueView) k, v.Occupied (f v k))
    (hk : ∀ v k, (f v k).Held k e t) {ks : List Nat} {k : Nat} (h : k ∈ ks) (v : IssueView) : (ks.foldl f v).Held k e t := by
  induction ks generalizing v with
  | nil => simp at h
  | cons j ks ih =>
    rcases List.mem_cons.mp h with rfl | h
    · exact (hk v k).mono (occupied_foldl hf ks _)
    · exact ih h _

/-! ### A command that has issued (R170, R172) -/

/-- The cluster's stream moves past a command and the port stamps it with cycle `t`. -/
def Cluster.issue (c : Cluster) (t : Nat) : Cluster :=
  { c with lastItem := c.pc.toNat, pc := c.pc + BitVec.ofNat 32 4, nextAt := c.nextAt + 1, issueAt := t, issued := true }

/-- What is left of the state alone, read off the view. -/
theorem State.engineFrame_of_rest {s t : State} (h : t.besideEngines = s.besideEngines) : s.EngineFrame t where
  beat := (congrArg State.beat h :)
  cycle := (congrArg State.cycle h :)
  groups := (congrArg State.groups h :)
  host := (congrArg State.host h :)
  memSys := (congrArg State.memSys h :)
  fuses := (congrArg State.fuses h :)
  power := (congrArg State.power h :)
  rst := (congrArg State.rst h :)
  mode := (congrArg State.mode h :)
  pins := (congrArg State.pins h :)
  link := (congrArg State.link h :)
  sec := (congrArg State.sec h :)
  cfg := (congrArg State.cfg h :)
  flash := (congrArg State.flash h :)
  ledger := (congrArg State.ledger h :)
  test := (congrArg State.test h :)
  work := (congrArg (fun u : State => { u.work with kcDir := t.work.kcDir, runs := t.work.runs }) h :)

/-- After engines' work from a state in which cluster `k` has just issued, the command has issued, and the rest is as before. -/
theorem State.issued_of_view {s u t : State} {k : Nat} (hrest : u.besideEngines = s.besideEngines)
    (hk : u.cluster k = (s.cluster k).issue (s.cluster k).nextAt) (h : u.issueView.Occupied t.issueView) :
    Issued s t k 4 1 ∧ s.EngineFrame t := by
  have hcore : { (t.cluster k).core with busy := [] } = { ((s.cluster k).issue (s.cluster k).nextAt).core with busy := [] } :=
    (h.core k).trans (hk ▸ rfl)
  refine ⟨⟨?_, ?_, ?_, ?_, ?_, ?_, ?_, ?_, ?_⟩, State.engineFrame_of_rest (h.rest.trans hrest)⟩
  · exact (congrArg Cluster.pc hcore :)
  · exact (congrArg Cluster.nextAt hcore :)
  · exact (congrArg Cluster.issueAt hcore :)
  · exact (congrArg Cluster.issued hcore :)
  · exact (congrArg Cluster.sregs hcore :)
  · exact (congrArg Cluster.params hcore :)
  · exact (congrArg Cluster.loops hcore :)
  · exact (congrArg Cluster.image hcore :)
  · exact (congrArg Cluster.state hcore :)

/-! ### A command of one cluster -/

/-- The state in which the command of cluster `k` runs: the stream has moved past it, and it is stamped. -/
def State.issuedBy (s : State) (k : Nat) : State := (s.advance k 4 1).stamp k (s.cluster k).nextAt

@[simp] theorem State.cluster_issuedBy (s : State) (k : Nat) :
    (s.issuedBy k).cluster k = (s.cluster k).issue (s.cluster k).nextAt := by
  simp [State.issuedBy, State.stamp, Cluster.issue]

/-- An item that the stream can take is run. -/
theorem State.item_of_canTake {s : State} {k words cost : Nat} (h : s.canTake k words cost) (op : Nat) (f : State → State) :
    s.item k words cost op f = f s := by
  obtain ⟨hissue, hfetch⟩ := h
  simp [State.item, hissue, hfetch]

/-- A command that the port accepts and whose own checks pass runs. -/
theorem State.command_of_accepts {s : State} {k e : Nat} {x : Ctx} {w : CmdWord} {sh : Shape} {bar : State → Ctx → Nat → Barred}
    {own : State → Ctx → Bool} {run : State → Ctx → Nat → State} (h : s.Accepts k x w sh e bar) (hown : own s x = true) :
    s.command k w sh e own run bar = run (s.issuedBy k) x (s.cluster k).nextAt := by
  simp [State.command, State.item_of_canTake h.ready, h.job, h.guard, hown, h.clear, State.issuedBy]

/-- A command of one cluster that the port accepts, whose own checks pass and whose work occupies engine `e` for `occ` cycles. -/
theorem runs_of_accepts {s : State} {k e occ : Nat} {x : Ctx} {w : CmdWord} {sh : Shape} {own : State → Ctx → Bool}
    {run : State → Ctx → Nat → State} {i : Instr} (hd : s.defined) (hexec : exec i s = live s (s.command k w sh e own run))
    (ha : s.Accepts k x w sh e) (hown : own s x = true)
    (hrun : (run (s.issuedBy k) x (s.cluster k).nextAt).issueView =
      (s.issuedBy k).issueView.occupy k e ((s.cluster k).nextAt + occ)) :
    Runs i s fun t => Issued s t k 4 1 ∧ t.heldTo k e ((s.cluster k).nextAt + occ) ∧ s.EngineFrame t := by
  refine ⟨_, hexec.trans (live_defined _ _ hd), ?_⟩
  rw [State.command_of_accepts ha hown]
  obtain ⟨hissued, hframe⟩ := State.issued_of_view (s := s) (u := s.issuedBy k) (k := k) rfl (s.cluster_issuedBy k)
    (hrun ▸ IssueView.occupied_occupy ..)
  have hheld := IssueView.held_occupy (s.issuedBy k).issueView k e ((s.cluster k).nextAt + occ)
  rw [← hrun] at hheld
  exact ⟨hissued, hheld, hframe⟩

/-! ### The commands of the vector engine -/

/-- Settles O12: each command's checks pass by the premises, and its work occupies the engine for its cost. -/
theorem vectorCommandsIssue : Obligations.VectorCommandsIssue := by
  intro s k w x hd t0 n rows v done
  have hvalue : wordValue ((s.issuedBy k.num).cluster k.num) w = wordValue (s.cluster k.num) w := by
    rw [State.cluster_issuedBy]; rfl
  refine ⟨fun ha htail hchain => ?_, fun ha htail => ?_, fun ha htail hv hscale => ?_, fun ha htail hr hw hv => ?_,
    fun ha hv => ?_, fun ha htail => ?_, fun ha hslot => ?_, fun ha hbank => ?_⟩
  · refine runs_of_accepts hd rfl ha (Bool.and_eq_true_iff.mpr ⟨htail, hchain⟩) ?_
    exact State.chainRun_issueView ..
  · refine runs_of_accepts hd rfl ha htail ?_
    exact State.tensorRun_issueView ..
  · refine runs_of_accepts hd rfl ha ?_ ?_
    · simp only [htail, Bool.true_and, Bool.and_eq_true, decide_eq_true_eq]
      exact ⟨hv, hscale⟩
    · exact State.cvtinRun_issueView ..
  · refine runs_of_accepts hd rfl ha ?_ ?_
    · simp only [htail, Bool.true_and, Bool.and_eq_true, decide_eq_true_eq, beq_iff_eq]
      exact ⟨⟨hr, hw⟩, hv⟩
    · rw [State.cvtoutRun_issueView, Nat.mul_comm (rowsOf _) 2]
      rfl
  · refine runs_of_accepts hd rfl ha (decide_eq_true hv) ?_
    rw [State.gatherRun_issueView, hvalue, Nat.add_assoc]
    rfl
  · refine runs_of_accepts hd rfl ha htail ?_
    exact State.fillRun_issueView ..
  · refine runs_of_accepts hd rfl ha (decide_eq_true hslot) ?_
    exact State.ldprogRun_issueView ..
  · refine runs_of_accepts hd rfl ha (decide_eq_true hbank) ?_
    exact State.ldconstRun_issueView ..

/-! ### A command that clusters issue together -/

/-- One change of each cluster of a list. -/
theorem State.cluster_foldl_modCluster (f : Cluster → Cluster) {ks : List Nat} (hks : ks.Nodup) (s : State) (j : Nat) :
    (ks.foldl (fun s k => s.modCluster k f) s).cluster j = if j ∈ ks then f (s.cluster j) else s.cluster j := by
  induction ks generalizing s with
  | nil => simp
  | cons k ks ih =>
    obtain ⟨hk, hks⟩ := List.nodup_cons.mp hks
    rw [List.foldl_cons, ih hks]
    by_cases hj : j = k
    · subst hj; simp [hk]
    · simp [hj, State.cluster_modCluster_other _ _ _ _ hj]

/-- The state in which a command of the clusters `ks` runs: each stream has moved past it, and each is stamped with `t`. -/
def State.issuedTogether (s : State) (ks : List Nat) (t : Nat) : State :=
  ks.foldl (fun s k => s.stamp k t) (ks.foldl (fun s k => s.advance k 4 1) s)

theorem State.cluster_issuedTogether (s : State) {ks : List Nat} (hks : ks.Nodup) (t : Nat) {j : Nat} (hj : j ∈ ks) :
    (s.issuedTogether ks t).cluster j = (s.cluster j).issue t := by
  unfold State.issuedTogether State.stamp State.advance
  simp [State.cluster_foldl_modCluster _ hks, hj, Cluster.issue]

theorem State.besideEngines_issuedTogether (s : State) (ks : List Nat) (t : Nat) :
    (s.issuedTogether ks t).besideEngines = s.besideEngines :=
  (foldl_keeps State.besideEngines (f := fun s k => s.stamp k t) (fun _ _ => rfl) ks _).trans
    (foldl_keeps State.besideEngines (f := fun s k => s.advance k 4 1) (fun _ _ => rfl) ks s)

theorem State.rings_issuedTogether (s : State) (ks : List Nat) (t : Nat) : (s.issuedTogether ks t).rings = s.rings :=
  (foldl_keeps State.rings (f := fun s k => s.stamp k t) (fun _ _ => rfl) ks _).trans
    (foldl_keeps State.rings (f := fun s k => s.advance k 4 1) (fun _ _ => rfl) ks s)

/-- An input reads the rings and the hand-over's header alone: the issue changes neither. -/
theorem State.headInput_issuedTogether (s : State) {ks : List Nat} (hks : ks.Nodup) (t : Nat) {k : Nat} (hk : k ∈ ks) (o : Operand) :
    (s.issuedTogether ks t).headInput k o = s.headInput k o := by
  have hring (r : Nat) : (s.issuedTogether ks t).ring k r = s.ring k r := by simp [State.ring, s.rings_issuedTogether]
  have hcluster := s.cluster_issuedTogether hks t hk
  have hobject : (s.issuedTogether ks t).operandIsObject k o = s.operandIsObject k o := by
    cases o <;> simp [State.operandIsObject, hring, hcluster, Cluster.issue]
  have hsegment : (s.issuedTogether ks t).operandSegment k o = s.operandSegment k o := by
    cases o <;> simp [State.operandSegment, hring, hcluster, Cluster.issue]
  simp only [State.headInput, State.segmentInput, hobject, hsegment]

section
variable {s : State} {ks engines : List Nat} {x : Ctx} {w : CmdWord} {sh : Shape} {bar : State → Ctx → Nat → Barred}

/-- Clusters that issue together are all ready in the first one's cycle. -/
theorem State.AcceptsTogether.ready (h : s.AcceptsTogether ks x w sh engines bar) :
    s.ready ks 4 1 (s.cluster (ks.headD 0)).nextAt = ks :=
  beq_iff_eq.mp (Bool.and_eq_true_iff.mp h.together).1

theorem State.AcceptsTogether.canTake (h : s.AcceptsTogether ks x w sh engines bar) {k : Nat} (hk : k ∈ ks) :
    s.canTake k 4 1 ∧ (s.cluster k).nextAt = (s.cluster (ks.headD 0)).nextAt := by
  have hready := List.filter_eq_self.mp h.ready k hk
  simp only [Bool.and_eq_true, beq_iff_eq] at hready
  exact hready

theorem State.AcceptsTogether.head_mem (h : s.AcceptsTogether ks x w sh engines bar) : ks.headD 0 ∈ ks := by
  cases ks with
  | nil => exact absurd rfl h.nonempty
  | cons k ks => simp

/-- A command that clusters issue together, accepted and passing its own checks, runs unpoisoned. -/
theorem State.clustersCommand_of_accepts (h : s.AcceptsTogether ks x w sh engines bar) {own : State → Ctx → Bool}
    (hown : own s x = true) (p : Nat) (run : State → Ctx → Nat → List Nat → Nat → State) :
    s.clustersCommand ks p w sh engines own run bar =
      run (s.issuedTogether ks (s.cluster (ks.headD 0)).nextAt) x (s.cluster (ks.headD 0)).nextAt ks 0 := by
  have hhead : ks.headD (32 * p) = ks.headD 0 := by
    cases ks with
    | nil => exact absurd rfl h.nonempty
    | cons k ks => rfl
  have hdeclared : (ks.find? fun k => (s.undeclared k w).isSome) = none :=
    List.find?_eq_none.mpr fun k hk => by simp [h.declared k hk]
  have hfree : (engines.find? fun e => !s.enginesFree ks [e] (s.cluster (ks.headD 0)).nextAt) = none := by
    have hall := h.free
    simp only [State.enginesFree, List.all_eq_true] at hall
    refine List.find?_eq_none.mpr fun e he => ?_
    simpa [State.enginesFree] using fun k hk => hall k hk e he
  unfold State.clustersCommand
  simp only [hhead]
  rw [State.item_of_canTake (h.canTake h.head_mem).1]
  simp only [h.job, h.ready, h.shape, h.resident, hown, hdeclared, hfree, h.clear, h.together, State.issuedTogether, Bool.not_true,
    Bool.or_false, Bool.false_eq_true, if_true, if_false]

/-- A command that clusters issue together and whose work occupies engines: cluster `k` has issued it and holds engine `e`. -/
theorem runs_of_acceptsTogether {own : State → Ctx → Bool} {run : State → Ctx → Nat → List Nat → Nat → State} {p : Nat} {i : Instr}
    {f : IssueView → Nat → IssueView} {k e t : Nat} (hd : s.defined)
    (hexec : exec i s = live s (s.clustersCommand ks p w sh engines own run bar)) (ha : s.AcceptsTogether ks x w sh engines bar)
    (hk : k ∈ ks) (hown : own s x = true)
    (hrun : (run (s.issuedTogether ks (s.cluster (ks.headD 0)).nextAt) x (s.cluster (ks.headD 0)).nextAt ks 0).issueView =
      ks.foldl f (s.issuedTogether ks (s.cluster (ks.headD 0)).nextAt).issueView)
    (hf : ∀ (v : IssueView) j, v.Occupied (f v j)) (hheld : ∀ v j, (f v j).Held j e t) :
    Runs i s fun u => Issued s u k 4 1 ∧ u.heldTo k e t ∧ s.EngineFrame u := by
  refine ⟨_, hexec.trans (live_defined _ _ hd), ?_⟩
  rw [State.clustersCommand_of_accepts ha hown]
  have hcluster := s.cluster_issuedTogether ha.distinct (s.cluster (ks.headD 0)).nextAt hk
  rw [← (ha.canTake hk).2] at hcluster hrun ⊢
  obtain ⟨hissued, hframe⟩ := State.issued_of_view (s.besideEngines_issuedTogether ks _) hcluster
    (hrun ▸ IssueView.occupied_foldl hf ks _)
  have hlast := IssueView.held_foldl hf hheld hk (s.issuedTogether ks (s.cluster k).nextAt).issueView
  rw [← hrun] at hlast
  exact ⟨hissued, hlast, hframe⟩

end

/-- The occupations of one cluster by VE.RESCALE and VE.MODSW. -/
theorem IssueView.occupied_occupy_two (v : IssueView) (k d e t u : Nat) : v.Occupied ((v.occupy k d t).occupy k e u) :=
  (v.occupied_occupy k d t).trans (IssueView.occupied_occupy ..)

/-! ### The commands of a span's engines -/

/-- Settles O13: each command's work occupies its engines at every cluster of the span; VE.RESCALE and VE.MODSW share theirs. -/
theorem spanCommandsIssueTogether : Obligations.SpanCommandsIssueTogether := by
  intro s g w x k hd ks t0 n cost i lvl g' hk done
  refine ⟨fun ha => ?_, fun ha hodd hlt => ?_, fun ha => ?_⟩
  · have hswitch {c : Instr} {modsw : Bool} (hexec : exec c s = live s (s.clustersCommand ks g w shRescale [1, 2] (fun _ _ => true)
        fun s x t ks pre => s.switchRun w x t ks pre modsw)) :
        done c 1 (440 + cost * n * (lvl - 1)) ∧ done c 2 (300 + cost * n * (lvl - 1)) := by
      have hrun := State.switchRun_issueView (s.issuedTogether ks t0) w x t0 ks 0 modsw
      simp only [s.headInput_issuedTogether ha.distinct t0 ha.head_mem, Nat.add_assoc] at hrun
      exact ⟨runs_of_acceptsTogether hd hexec ha hk rfl hrun (fun v j => v.occupied_occupy_two ..) fun v j =>
          (v.held_occupy ..).mono (IssueView.occupied_occupy ..),
        runs_of_acceptsTogether hd hexec ha hk rfl hrun (fun v j => v.occupied_occupy_two ..) fun v j => IssueView.held_occupy ..⟩
    obtain ⟨hve, hte⟩ := hswitch (c := .veRescale g w) rfl
    obtain ⟨hve', hte'⟩ := hswitch (c := .veModsw g w) rfl
    exact ⟨hve, hte, hve', hte'⟩
  · refine runs_of_acceptsTogether hd rfl ha hk ?_ (State.autoRun_issueView ..) (fun v j => v.occupied_occupy ..) fun v j =>
      v.held_occupy ..
    simp only [Bool.and_eq_true, decide_eq_true_eq, beq_iff_eq]
    exact ⟨hodd, hlt⟩
  · have hte {c : Instr} {inverse : Bool} (hexec : exec c s = live s (s.clustersCommand ks g w shTe [2] (fun _ _ => true)
        fun s x t ks pre => s.teRun g w x t ks pre inverse)) : done c 2 (cost * n) :=
      runs_of_acceptsTogether hd hexec ha hk rfl (State.teRun_issueView ..) (fun v j => v.occupied_occupy ..) fun v j =>
        v.held_occupy ..
    exact ⟨hte rfl, hte rfl⟩

end Sys2Proof.Machine
end

section
/-!
PROOFS. The work of the residue matrix engine and of the refresh sequencer (R125 to R135, R154 to R166), in the issue ports' view:
a conversion and an inner product change nothing of the view, RME.COMBINE occupies the leads' store path, and a refresh occupies
what it holds of each group. Each lemma of the view takes off one operation of a course, the last one first.
-/
namespace Sys2Proof.Machine

section
variable (s : State)

/-! ### Faults and units of a group -/

@[simp] theorem State.groupFault_issueView (p e u d o a x t : Nat) (b : Bool) :
    (s.groupFault p e u d o a x t b).issueView = s.issueView := rfl
@[simp] theorem State.useFeeds_issueView (p t : Nat) (new : List Feed) : (s.useFeeds p t new).issueView = s.issueView := rfl
@[simp] theorem State.takeSlots_issueView (p t : Nat) (runs : List (Nat × Nat)) :
    (s.takeSlots p t runs).issueView = s.issueView := rfl
@[simp] theorem State.holdRows_issueView (p first last : Nat) (residues : List (Nat × Nat)) :
    (s.holdRows p first last residues).issueView = s.issueView := rfl
@[simp] theorem State.gbWrite_issueView (p row t : Nat) (w : Row) : (s.gbWrite p row t w).issueView = s.issueView := rfl
@[simp] theorem State.modKc_issueView (e : KcEntry) (g : KcEntry → KcEntry) : (s.modKc e g).issueView = s.issueView := rfl
@[simp] theorem State.spend_issueView (n : Nat) : (s.spend n).issueView = s.issueView := rfl

/-! ### Checks of a list of clusters -/

/-- A write check of each cluster of a list, with the first code. -/
theorem State.writeChecks_issueView (e : Nat) (o : Operand) (n op t : Nat) (f : Nat → Nat) (ks : List Nat) (code : Nat) :
    (ks.foldl (fun (acc : Nat × State) k => (firstCode [acc.1, (acc.2.writeCheck k e o n op t f).1],
      (acc.2.writeCheck k e o n op t f).2)) (code, s)).2.issueView = s.issueView :=
  foldl_keeps (fun acc : Nat × State => acc.2.issueView) (fun acc k => by simp) ks (code, s)

/-- A read check of each cluster of a list, with the first code. -/
theorem State.rowReads_issueView (e : Nat) (o : Operand) (rd : List (Nat × Nat)) (op t : Nat) (dep : Bool) (ks : List Nat)
    (code : Nat) : (ks.foldl (fun (acc : Nat × State) k => (firstCode [acc.1, (acc.2.readRows k e o rd op t dep).1],
      (acc.2.readRows k e o rd op t dep).2)) (code, s)).2.issueView = s.issueView :=
  foldl_keeps (fun acc : Nat × State => acc.2.issueView) (fun acc k => by simp) ks (code, s)

/-! ### Operands of the residue matrix engine (R125, R127, R128) -/

@[simp] theorem State.rmeClash_issueView (p k first n mac : Nat) (feeds : List Feed) (c : CmdWord) (t : Nat) :
    (s.rmeClash p k first n mac feeds c t).2.issueView = s.issueView := by
  unfold State.rmeClash
  rw [State.useFeeds_issueView]
  exact keeps_ite _ (s.violate_issueView ..) rfl

@[simp] theorem State.tileReadCheck_issueView (p : Nat) (rd : List (Nat × Nat)) (c : CmdWord) (t : Nat) :
    (s.tileReadCheck p rd c t).2.issueView = s.issueView := by
  unfold State.tileReadCheck
  extract_lets u s₁
  have hreads : s₁.issueView = s.issueView := rfl
  have hviolate (a r : Nat) : (s₁.violate (32 * p) a 6 0 (cmdOp c) t r false).issueView = s.issueView :=
    (s₁.violate_issueView ..).trans hreads
  refine keeps_ite (State.issueView ∘ Prod.snd) hreads ?_
  refine keeps_ite (State.issueView ∘ Prod.snd) (hviolate ..) ?_
  refine keeps_ite (State.issueView ∘ Prod.snd) (hviolate ..) ?_
  split <;> rfl

@[simp] theorem State.rmeReadCheck_issueView (p : Nat) (o : Operand) (count n : Nat) (f : Nat → Nat → Nat) (c : CmdWord)
    (t : Nat) : (s.rmeReadCheck p o count n f c t).2.issueView = s.issueView := by
  cases o with
  | tile r => exact s.tileReadCheck_issueView ..
  | _ => exact foldl_keeps (fun acc : Nat × State => acc.2.issueView) (fun acc k => by simp) _ (0, s)

@[simp] theorem State.rmeWriteCheck_issueView (p : Nat) (o : Operand) (count n : Nat) (f : Nat → Nat → Nat) (c : CmdWord)
    (t : Nat) : (s.rmeWriteCheck p o count n f c t).2.issueView = s.issueView := by
  cases o with
  | tile r => exact keeps_ite (State.issueView ∘ Prod.snd) (s.violate_issueView ..) rfl
  | _ => exact foldl_keeps (fun acc : Nat × State => acc.2.issueView) (fun acc k => by simp) _ (0, s)

@[simp] theorem State.rmePop_issueView (p : Nat) (o : Operand) (count n : Nat) (f : Nat → Nat → Nat) :
    (s.rmePop p o count n f).issueView = s.issueView :=
  foldl_keeps State.issueView (fun u _ => u.popOperandRuns_issueView ..) _ s

@[simp] theorem State.rmeOut_issueView (p : Nat) (o : Operand) (n i : Nat) (f : Nat → Nat → Nat) (planes : List (List Nat))
    (code : Nat) : (s.rmeOut p o n i f planes code).issueView = s.issueView := by
  cases o with
  | tile r => exact foldl_keeps State.issueView (fun u _ => foldl_keeps State.issueView (fun u _ => u.gbWrite_issueView ..) _ u) _ s
  | _ => exact foldl_keeps State.issueView (fun u _ => foldl_keeps State.issueView (fun u _ => u.pushOperand_issueView ..) _ u) _ s

@[simp] theorem State.rmeClose_issueView (p : Nat) (o : Operand) (rows code last : Nat) (h : Header) (carried : Bool) :
    (s.rmeClose p o rows code last h carried).issueView = s.issueView :=
  foldl_keeps State.issueView (fun u _ => u.closeOutput_issueView ..) _ s

@[simp] theorem State.rmeNote_issueView (p e : Nat) (o : Operand) (count n t last : Nat) :
    (s.rmeNote p e o count n t last).issueView = s.issueView := by
  have hnote : ((groupClusters p).foldl (fun s k => s.noteWork k e o (count * tileRows n) t last) s).issueView = s.issueView :=
    foldl_keeps State.issueView (fun u _ => u.noteWork_issueView ..) _ s
  cases o with
  | tile r => exact (State.modUnit_issueView ..).trans hnote
  | _ => exact hnote

/-! ### Folds of an engine's work -/

/-- Outputs written and closed one member after the other. -/
theorem State.rmeMembers_issueView {α : Type} (p : Nat) (o : Operand) (n : Nat) (first : α → Nat) (f : Nat → Nat → Nat)
    (planes : α → List (List Nat)) (rows : Nat) (code : α → Nat) (last : Nat) (h : Header) (carried : Bool) (l : List α) :
    (l.foldl (fun s m => (s.rmeOut p o n (first m) f (planes m) (code m)).rmeClose p o rows (code m) last h carried) s).issueView =
      s.issueView :=
  foldl_keeps State.issueView (fun u _ => ((u.rmeOut p o n _ f _ _).rmeClose_issueView ..).trans (u.rmeOut_issueView ..)) l s

/-- Faults of a group raised for some of a list. -/
theorem State.groupFaults_issueView {α : Type} (q : α → Bool) (p e u d o a x t : Nat) (b : Bool) (l : List α) :
    (l.foldl (fun s m => if q m then s.groupFault p e u d o a x t b else s) s).issueView = s.issueView :=
  foldl_keeps State.issueView (fun u _ => keeps_ite _ (u.groupFault_issueView ..) rfl) l s

/-- Feeds used, group by group. -/
theorem State.useFeedsOf_issueView (t : Nat) (new : List Feed) (ps : List Nat) :
    (ps.foldl (fun s p => s.useFeeds p t new) s).issueView = s.issueView :=
  foldl_keeps State.issueView (fun u p => u.useFeeds_issueView p t new) ps s

/-- One operand popped at each of a list of clusters. -/
theorem State.popOperands_issueView (o : Operand) (n t : Nat) (ks : List Nat) :
    (ks.foldl (fun s k => s.popOperand k o n t) s).issueView = s.issueView :=
  foldl_keeps State.issueView (fun u k => u.popOperand_issueView k o n t) ks s

/-- The engines `es` of cluster `k` are occupied until `t`. -/
def IssueView.occupyAll (v : IssueView) (es : List Nat) (k t : Nat) : IssueView := es.foldl (fun v e => v.occupy k e t) v

theorem State.occupyAll_issueView (es : List Nat) (k t : Nat) :
    (es.foldl (fun s e => s.occupy k e t) s).issueView = s.issueView.occupyAll es k t :=
  issueView_foldl (fun u e => u.occupy_issueView k e t) es s

/-! ### The work of the residue matrix engine -/

/-- RME.BCONV occupies no engine: the array rows it takes are the group's (R130, R131). -/
theorem State.bconvRun_issueView (k : Nat) (c : CmdWord) (x : Ctx) (t : Nat) : (s.bconvRun k c x t).issueView = s.issueView := by
  dsimp only [State.bconvRun]
  simp only [↓State.holdRows_issueView, ↓State.rmeNote_issueView, ↓State.takeSlots_issueView, ↓State.rmeClose_issueView,
    ↓State.rmePop_issueView, ↓State.rmeOut_issueView, ↓State.operandRange_issueView, ↓State.rmeWriteCheck_issueView,
    ↓apply_ite Prod.snd, ↓apply_ite State.issueView, ↓State.tileReadCheck_issueView, ↓State.rmeReadCheck_issueView,
    ↓State.rmeClash_issueView, ↓ite_self]

/-- RME.KIP occupies no engine: the array rows it takes are the group's (R130, R133). -/
theorem State.kipRun_issueView (k : Nat) (c : CmdWord) (x : Ctx) (t : Nat) : (s.kipRun k c x t).issueView = s.issueView := by
  dsimp only [State.kipRun]
  simp only [↓State.modUnit_issueView, ↓State.holdRows_issueView, ↓State.rmeNote_issueView, ↓State.takeSlots_issueView,
    ↓apply_ite State.issueView, ↓State.rmePop_issueView, ↓State.rmeMembers_issueView, ↓State.groupFault_issueView,
    ↓State.operandRange_issueView, ↓State.violate_issueView, ↓ite_self]
  split
  all_goals
    simp only [↓State.modKc_issueView, ↓apply_ite State.issueView, ↓State.rmeWriteCheck_issueView,
      ↓State.rmeReadCheck_issueView, ↓State.groupFaults_issueView, ↓State.rmeClash_issueView, ↓ite_self]

@[simp] theorem State.combineReads_issueView (ps : List Nat) (o : Operand) (x : Ctx) (c : CmdWord) (count t : Nat)
    (start : Nat → Nat) : (s.combineReads ps o x c count t start).2.issueView = s.issueView := by
  cases o with
  | tile r => exact foldl_keeps (fun acc : Nat × State => acc.2.issueView) (fun acc p => by simp) ps (0, s)
  | _ => simp only [State.combineReads, ↓State.rowReads_issueView]

@[simp] theorem State.combinePop_issueView (ps : List Nat) (o : Operand) (x : Ctx) (count : Nat) (start : Nat → Nat) :
    (s.combinePop ps o x count start).issueView = s.issueView :=
  foldl_keeps State.issueView (fun u _ => u.popOperandRuns_issueView ..) _ s

/-- A plane's rows pushed to each of a list of clusters, plane after plane. -/
theorem State.combinePushes_issueView (o : Operand) (stamp : Nat → Nat → Nat) (lanes : Nat) (rows : Nat → Nat × Nat → List Row)
    (ks : List (Nat × Nat)) (l : List Nat) :
    (l.foldl (fun s i => ks.foldl (fun s e => s.pushOperand e.1 o (stamp i) lanes (rows i e)) s) s).issueView = s.issueView :=
  foldl_keeps State.issueView (fun u _ => foldl_keeps State.issueView (fun u _ => u.pushOperand_issueView ..) ks u) l s

/-- Outputs noted and closed, cluster by cluster. -/
theorem State.closeOutputs_issueView (e : Nat) (o : Operand) (n m code t last at_ : Nat) (h : State → Nat → Option Header)
    (ks : List Nat) : (ks.foldl (fun s k => (s.noteWork k e o n t last).closeOutput k o m code at_ (h s k)) s).issueView =
      s.issueView :=
  foldl_keeps State.issueView
    (fun u k => ((u.noteWork k e o n t last).closeOutput_issueView ..).trans (u.noteWork_issueView ..)) ks s

/-- RME.COMBINE holds the store path of each lead for N′/128 cycles a plane (R130, R134). -/
theorem State.combineRun_issueView (c : CmdWord) (x : Ctx) (t : Nat) {ks : List Nat} (hks : ∀ k ∈ ks, 32 * (k / 32) = k)
    (pre : Nat) : (s.combineRun c x t ks pre).issueView =
      ks.foldl (fun v k => v.occupy k 9 (t + cmdCount c * x.combineCycles)) s.issueView := by
  have hleads (v : IssueView) : (ks.map (· / 32)).foldl (fun v p => v.occupy (32 * p) 9 (t + cmdCount c * x.combineCycles)) v =
      ks.foldl (fun v k => v.occupy k 9 (t + cmdCount c * x.combineCycles)) v := by
    rw [List.foldl_map]
    exact List.foldl_ext _ _ _ fun v k hk => by rw [hks k hk]
  dsimp only [State.combineRun]
  rw [issueView_foldl (g := fun v p => v.occupy (32 * p) 9 (t + cmdCount c * x.combineCycles)), hleads]
  · congr 1
    simp only [↓State.closeOutputs_issueView, ↓State.combinePop_issueView, ↓State.combinePushes_issueView,
      ↓State.operandRange_issueView, ↓State.writeChecks_issueView, ↓State.combineReads_issueView, ↓State.useFeedsOf_issueView,
      ↓apply_ite State.issueView, ↓State.violate_issueView, ↓State.groupFault_issueView, ↓State.consumeLoaded_issueView, ↓ite_self]
  · intro u p
    simp only [↓State.occupy_issueView, ↓apply_ite State.issueView, ↓State.takeSlots_issueView, ↓ite_self]

/-! ### The work of the refresh sequencer -/

/-- A refresh's last store occupies nothing more (R163). -/
theorem State.refreshFinish_issueView (p : Nat) (x : Ctx) (f : Refresh) (last : Nat) :
    (s.refreshFinish p x f last).issueView = s.issueView := by
  dsimp only [State.refreshFinish]
  refine (foldl_keeps State.issueView (fun u g => ?_) _ _).trans ?_
  · rw [State.spend_issueView, State.modUnit_issueView]
  · simp only [↓State.closeOutputs_issueView, ↓State.pushPlanes_issueView, ↓State.writeChecks_issueView]

/-- What a refresh holds of a group is occupied until `last`: VE, TE and GX of every cluster, and the lead's units (R157). -/
def IssueView.holdGroup (v : IssueView) (p last : Nat) : IssueView :=
  ((groupClusters p).foldl (fun v k => v.occupyAll [1, 2, 4] k last) v).occupyAll leadHeld (32 * p) last

theorem State.holdForRefresh_issueView (groups : List Nat) (last : Nat) :
    (s.holdForRefresh groups last).issueView = groups.foldl (fun v p => v.holdGroup p last) s.issueView := by
  refine issueView_foldl (fun u p => ?_) groups s
  rw [State.holdRows_issueView, State.occupyAll_issueView]
  exact congrArg (fun v : IssueView => v.occupyAll leadHeld (32 * p) last)
    (issueView_foldl (fun u k => u.occupyAll_issueView [1, 2, 4] k last) _ u)

/-- The groups of a refresh are read off the groups' allocation and the job table. -/
theorem State.refreshGroups_of_rest {s u : State} (h : u.besideEngines = s.besideEngines) (p span : Nat) :
    u.refreshGroups p span = s.refreshGroups p span :=
  (congrArg (fun v : State => v.refreshGroups p span) h :)

/-- REF.RUN holds what it takes of each group it spans until its last store (R157, R164). -/
theorem State.refRunRun_issueView (k : Nat) (c : CmdWord) (x : Ctx) (t : Nat) :
    (s.refRunRun k c x t).issueView = (s.refreshGroups (k / 32) (refSpan c)).foldl
      (fun v p => v.holdGroup p (windowSpan t (refreshCyclesOf x (x.descriptor c) (refSpan c)))) s.issueView := by
  have hhold {u : State} (h : u.issueView = s.issueView) (last : Nat) :
      (u.holdForRefresh (u.refreshGroups (k / 32) (refSpan c)) last).issueView =
        (s.refreshGroups (k / 32) (refSpan c)).foldl (fun v p => v.holdGroup p last) s.issueView := by
    rw [State.holdForRefresh_issueView, h, State.refreshGroups_of_rest (congrArg IssueView.rest h :)]
  dsimp only [State.refRunRun]
  simp only [↓apply_ite State.issueView, ↓State.refreshFinish_issueView, ↓State.modUnit_issueView, ↓ite_self]
  refine hhold ?_ _
  simp only [↓State.popOperands_issueView, ↓apply_ite State.issueView, ↓State.groupFault_issueView, ↓State.violate_issueView,
    ↓State.operandRange_issueView, ↓State.rowReads_issueView, ↓State.consumeLoaded_issueView, ↓ite_self]

end

end Sys2Proof.Machine
end

section
/-!
PROOFS. RME.BCONV, RME.KIP, RME.COMBINE and REF.RUN at the issue port (R131 to R134, R157 to R166, R185): what each holds once it
has issued. That the leads of a ring's groups issue RME.COMBINE together is log entry 123.
-/
namespace Sys2Proof.Machine

/-! ### Array rows and the refresh of a group (R123, R130, R164) -/

/-- A key that a fold of puts names, or that holds the value put before it, holds the value put. -/
theorem Table.at_foldl_put {α β : Type} {g : β → Nat} {v d : α} {k : Nat} {l : List β} {tb : Table α}
    (h : (∃ e ∈ l, g e = k) ∨ tb.at k d = v) : (l.foldl (fun t e => t.put (g e) v) tb).at k d = v := by
  induction l generalizing tb with
  | nil => simpa using h
  | cons e l ih =>
    refine ih ?_
    by_cases he : g e = k
    · exact .inr (he ▸ Table.at_put_same ..)
    · rw [Table.at_put_other _ _ _ _ _ (Ne.symm he)]
      simpa [he] using h

/-- A cluster's number tells its group (R212). -/
theorem ClusterId.num_div (k : ClusterId) : k.num / 32 = k.group.val := by
  have hcluster := k.cluster.isLt
  simp only [ClusterId.num]
  omega

section
variable (s : State)

/-- Each array row held is held until its last MAC. -/
theorem State.rmeRows_holdRows (p first last : Nat) (residues : List (Nat × Nat)) {j : Nat} (h : j < residues.length) :
    ((s.holdRows p first last residues).unit p).rmeRows.at (first + j) 0 = last := by
  rw [State.holdRows, State.unit_modUnit]
  exact Table.at_foldl_put (g := fun e : (Nat × Nat) × Nat => first + e.2)
    (.inl ⟨(residues[j], j), List.mem_zipIdx_iff_getElem?.mpr (List.getElem?_eq_getElem h), rfl⟩)

/-- RME.BCONV holds a row for each output until the last of its J·n MACs (R130, R131). -/
theorem State.bconvRun_rmeRows (k : Nat) (c : CmdWord) (x : Ctx) (t : Nat) {j : Nat}
    (h : j < ((convFields (wordValue (s.cluster k) c % 2 ^ 32)).outputs (x.rset (cmdRset c)) c).length) :
    ((s.bconvRun k c x t).unit (k / 32)).rmeRows.at (cmdSpec c + j) 0 =
      t + rmeInLatency (cmdA c) + (convFields (wordValue (s.cluster k) c % 2 ^ 32)).j * cmdCount c - 1 := by
  dsimp only [State.bconvRun]
  exact State.rmeRows_holdRows _ _ _ _ _ (by simpa using h)

/-- RME.KIP holds a row for each half of each member until the last of its MACs (R130, R133). -/
theorem State.kipRun_rmeRows (k : Nat) (c : CmdWord) (x : Ctx) (t : Nat) {j : Nat}
    (h : j < 2 * (kipFields (wordValue (s.cluster k) c % 2 ^ 32)).b) :
    let f := kipFields (wordValue (s.cluster k) c % 2 ^ 32)
    ((s.kipRun k c x t).unit (k / 32)).rmeRows.at (cmdSpec c + j) 0 =
      t + (if f.hbm then 1556 else 164) + kipCadence x f.hbm (f.d * f.t * cmdCount c) - 1 := by
  dsimp only [State.kipRun]
  rw [State.unit_modUnit, apply_ite GroupUnits.rmeRows, ite_self]
  exact State.rmeRows_holdRows _ _ _ _ _ (by simpa using h)

/-- A refresh that outlasts the program window stays with the group that issued it (R164). -/
theorem State.refRunRun_refresh (k : Nat) (c : CmdWord) (x : Ctx) (t : Nat)
    (h : windowLeft t < refreshCyclesOf x (x.descriptor c) (refSpan c)) :
    ∃ f, ((s.refRunRun k c x t).unit (k / 32)).refresh = some f ∧ f.cmd = c ∧ f.suspended = false ∧
      f.remaining = refreshCyclesOf x (x.descriptor c) (refSpan c) - windowLeft t := by
  dsimp only [State.refRunRun]
  rw [if_neg (Nat.not_le.mpr h), State.unit_modUnit]
  exact ⟨_, rfl, rfl, rfl, rfl⟩

end

/-! ### What a refresh holds (R157) -/

/-- What one unit's occupations hold, a fold over a list with that unit holds. -/
theorem IssueView.held_foldl_of_mem {f : IssueView → Nat → IssueView} {k e t a : Nat} {l : List Nat}
    (hf : ∀ (v : IssueView) b, v.Occupied (f v b)) (ha : a ∈ l) (hk : ∀ v, (f v a).Held k e t) (v : IssueView) :
    (l.foldl f v).Held k e t := by
  induction l generalizing v with
  | nil => simp at ha
  | cons b l ih =>
    rcases List.mem_cons.mp ha with rfl | ha
    · exact (hk v).mono (occupied_foldl hf l _)
    · exact ih ha _

theorem IssueView.occupied_occupyAll (v : IssueView) (es : List Nat) (k t : Nat) : v.Occupied (v.occupyAll es k t) :=
  occupied_foldl (fun v e => v.occupied_occupy k e t) es v

theorem IssueView.held_occupyAll (v : IssueView) {es : List Nat} (k t : Nat) {e : Nat} (he : e ∈ es) :
    (v.occupyAll es k t).Held k e t :=
  held_foldl_of_mem (fun v e => v.occupied_occupy k e t) he (fun v => v.held_occupy k e t) v

theorem IssueView.occupied_holdGroup (v : IssueView) (p last : Nat) : v.Occupied (v.holdGroup p last) :=
  (occupied_foldl (fun v k => v.occupied_occupyAll [1, 2, 4] k last) _ v).trans (occupied_occupyAll ..)

theorem IssueView.held_holdGroup (v : IssueView) (p last : Nat) :
    (∀ c ∈ groupClusters p, ∀ e ∈ [1, 2, 4], (v.holdGroup p last).Held c e last) ∧
      ∀ e ∈ leadHeld, (v.holdGroup p last).Held (32 * p) e last := by
  refine ⟨fun c hc e he => ?_, fun e he => held_occupyAll _ _ _ he⟩
  exact (held_foldl_of_mem (fun v k => v.occupied_occupyAll [1, 2, 4] k last) hc (fun v => v.held_occupyAll c last he) v).mono
    (occupied_occupyAll ..)

/-! ### Commands whose work occupies engines of several clusters, or none -/

/-- The word a command names is read as it was before the issue. -/
theorem State.wordValue_issuedBy (s : State) (k : Nat) (w : CmdWord) :
    wordValue ((s.issuedBy k).cluster k) w = wordValue (s.cluster k) w := by
  rw [State.cluster_issuedBy]; rfl

/-- A command of one cluster that the port accepts, whose own checks pass and whose work at most occupies engines longer. -/
theorem runs_of_accepts_occupied {s : State} {k e : Nat} {x : Ctx} {w : CmdWord} {sh : Shape} {bar : State → Ctx → Nat → Barred}
    {own : State → Ctx → Bool} {run : State → Ctx → Nat → State} {i : Instr} {P : State → Prop} (hd : s.defined)
    (hexec : exec i s = live s (s.command k w sh e own run bar)) (ha : s.Accepts k x w sh e bar) (hown : own s x = true)
    (hrun : (s.issuedBy k).issueView.Occupied (run (s.issuedBy k) x (s.cluster k).nextAt).issueView)
    (hP : P (run (s.issuedBy k) x (s.cluster k).nextAt)) :
    Runs i s fun t => Issued s t k 4 1 ∧ s.EngineFrame t ∧ P t := by
  refine ⟨_, hexec.trans (live_defined _ _ hd), ?_⟩
  rw [State.command_of_accepts ha hown]
  obtain ⟨hissued, hframe⟩ := State.issued_of_view (s := s) (u := s.issuedBy k) (k := k) rfl (s.cluster_issuedBy k) hrun
  exact ⟨hissued, hframe, hP⟩

/-- Work that keeps the view occupies nothing. -/
theorem IssueView.Occupied.of_eq {v w : IssueView} (h : w = v) : v.Occupied w := h ▸ .refl v

/-! ### The commands of the residue matrix engine -/

section
variable {s : State} {k : ClusterId} {w : CmdWord} {x : Ctx} (hd : s.defined)
include hd

/-- RME.BCONV issues and holds a row for each of its outputs until its last MAC. -/
theorem rmeBconv_runs (ha : s.Accepts k.num x w shBconv 6 (fun s _ _ => s.bconvBar k.num w))
    (hok : bconvOk (x.rset (cmdRset w)) w (convFields (wordValue (s.cluster k.num) w % 2 ^ 32)) = true) :
    let f := convFields (wordValue (s.cluster k.num) w % 2 ^ 32)
    Runs (.rmeBconv k w) s fun t => Issued s t k.num 4 1 ∧ s.EngineFrame t ∧ ∀ j, j < f.kk →
      (t.unit k.group.val).rmeRows.at (cmdSpec w + j) 0 =
        (s.cluster k.num).nextAt + rmeInLatency (cmdA w) + f.j * cmdCount w - 1 := by
  intro f
  have hlen : (f.outputs (x.rset (cmdRset w)) w).length = f.kk := beq_iff_eq.mp (Bool.and_eq_true_iff.mp hok).2
  refine runs_of_accepts_occupied hd rfl ha hok (.of_eq (State.bconvRun_issueView ..)) fun j hj => ?_
  have hrow := (s.issuedBy k.num).bconvRun_rmeRows k.num w x (s.cluster k.num).nextAt (j := j)
  rw [State.wordValue_issuedBy, ClusterId.num_div k] at hrow
  exact hrow (hlen.symm ▸ hj)

/-- RME.KIP issues and holds two rows for each of its members until its last MAC. -/
theorem rmeKip_runs (ha : s.Accepts k.num x (withoutW w) shKip 6 (fun s x _ => s.kipBar k.num w x))
    (hok : kipOk x w (kipFields (wordValue (s.cluster k.num) w % 2 ^ 32)) = true) :
    let q := kipFields (wordValue (s.cluster k.num) w % 2 ^ 32)
    Runs (.rmeKip k w) s fun t => Issued s t k.num 4 1 ∧ s.EngineFrame t ∧ ∀ j, j < 2 * q.b →
      (t.unit k.group.val).rmeRows.at (cmdSpec w + j) 0 =
        (s.cluster k.num).nextAt + (if q.hbm then 1556 else 164) + kipCadence x q.hbm (q.d * q.t * cmdCount w) - 1 := by
  intro q
  refine runs_of_accepts_occupied hd rfl ha hok (.of_eq (State.kipRun_issueView ..)) fun j hj => ?_
  have hrow := (s.issuedBy k.num).kipRun_rmeRows k.num w x (s.cluster k.num).nextAt (j := j)
  rw [State.wordValue_issuedBy, ClusterId.num_div k] at hrow
  exact hrow hj

/-- RME.COMBINE issues at each lead, which holds its store path for the command's planes. -/
theorem rmeCombine_runs (hlead : k.cluster = 0) {lead : Nat} (hmem : lead ∈ (s.spanGroups k.group.val).map (32 * ·))
    (ha : s.AcceptsTogether ((s.spanGroups k.group.val).map (32 * ·)) x w shCombine [6, 9])
    (hodd : wordValue (s.cluster k.num) w % 2 ^ 32 % 2 = 1)
    (hlt : wordValue (s.cluster k.num) w % 2 ^ 32 < 2 ^ (x.prog.log2n + 1)) :
    Runs (.rmeCombine k w) s fun t => Issued s t lead 4 1 ∧ s.EngineFrame t ∧
      t.heldTo lead 9
        ((s.cluster (((s.spanGroups k.group.val).map (32 * ·)).headD 0)).nextAt + cmdCount w * x.combineCycles) := by
  have hmod : k.num % 32 = 0 := by simp [ClusterId.num, hlead]
  have hleads : ∀ l ∈ (s.spanGroups k.group.val).map (32 * ·), 32 * (l / 32) = l := by
    intro l hl
    obtain ⟨g, -, rfl⟩ := List.mem_map.mp hl
    omega
  have hexec : exec (.rmeCombine k w) s = execRmeCombine k w s := rfl
  rw [execRmeCombine, if_pos hmod, ClusterId.num_div k] at hexec
  obtain ⟨t, ht, hissued, hheld, hframe⟩ := runs_of_acceptsTogether hd hexec ha hmem
    (Bool.and_eq_true_iff.mpr ⟨beq_iff_eq.mpr hodd, decide_eq_true hlt⟩) (State.combineRun_issueView _ _ _ _ hleads _)
    (fun v j => v.occupied_occupy ..) fun v j => v.held_occupy ..
  exact ⟨t, ht, hissued, hframe, hheld⟩

/-! ### REF.RUN -/

/-- REF.RUN issues, holds what it takes of each group it spans, and stays with its group where the window is too short. -/
theorem refRun_runs
    (ha : s.Accepts k.num x w shRef 8 fun s _ t =>
      if s.refreshFree (s.refreshGroups k.group.val (refSpan w)) t then none else some (5, 6, 0))
    (hok : refOk x w = true) :
    let total := refreshCyclesOf x (x.descriptor w) (refSpan w)
    let last := windowSpan (s.cluster k.num).nextAt total
    Runs (.refRun k w) s fun t => Issued s t k.num 4 1 ∧ s.EngineFrame t ∧
      (∀ g ∈ s.refreshGroups k.group.val (refSpan w), (∀ c ∈ groupClusters g, ∀ e ∈ [1, 2, 4], t.heldTo c e last) ∧
        ∀ e ∈ leadHeld, t.heldTo (32 * g) e last) ∧
      (windowLeft (s.cluster k.num).nextAt < total → ∃ f, (t.unit k.group.val).refresh = some f ∧ f.cmd = w ∧
        f.suspended = false ∧ f.remaining = total - windowLeft (s.cluster k.num).nextAt) := by
  intro total last
  have hexec : exec (.refRun k w) s = execRefRun k w s := rfl
  rw [execRefRun, ClusterId.num_div k] at hexec
  have hview := (s.issuedBy k.num).refRunRun_issueView k.num w x (s.cluster k.num).nextAt
  rw [State.refreshGroups_of_rest (u := s.issuedBy k.num) (s := s) rfl, ClusterId.num_div k] at hview
  have hgroup (v : IssueView) (g : Nat) : v.Occupied (v.holdGroup g last) := v.occupied_holdGroup g last
  have hheld {c e g : Nat} (hg : g ∈ s.refreshGroups k.group.val (refSpan w))
      (h : ∀ v : IssueView, (v.holdGroup g last).Held c e last) :
      ((s.issuedBy k.num).refRunRun k.num w x (s.cluster k.num).nextAt).heldTo c e last := by
    have h := IssueView.held_foldl_of_mem hgroup hg h (s.issuedBy k.num).issueView
    rwa [← hview] at h
  refine runs_of_accepts_occupied hd hexec ha hok (hview ▸ IssueView.occupied_foldl hgroup ..) ⟨fun g hg => ?_, fun hlong => ?_⟩
  · exact ⟨fun c hc e he => hheld hg fun v => (v.held_holdGroup g last).1 c hc e he,
      fun e he => hheld hg fun v => (v.held_holdGroup g last).2 e he⟩
  · rw [← ClusterId.num_div k]
    exact State.refRunRun_refresh _ _ _ _ _ hlong

end

/-- Settles O14: a conversion's and an inner product's rows, the leads' store path, and what a refresh holds and leaves to come. -/
theorem matrixAndRefreshCommandsIssue : Obligations.MatrixAndRefreshCommandsIssue := by
  intro s k w x hd p t0 n v f q done
  exact ⟨rmeBconv_runs hd, rmeKip_runs hd, fun hlead lead hmem => rmeCombine_runs hd hlead hmem, refRun_runs hd⟩

end Sys2Proof.Machine
end

section
/-!
PROOFS. The scalar instructions (R167, R170, R171, R174 to R177): the core's registers under a write, what an item that the stream
can take does, and the issue port's own failures.
-/
namespace Sys2Proof.Machine

/-! ### Scalar registers (R167) -/

theorem Cluster.sreg_setSreg_same (c : Cluster) {i : Nat} (v : Word64) (hi : i < 32) :
    (c.setSreg i v).sreg i = if i = 0 then 0 else v := by
  by_cases h0 : i = 0
  · simp [Cluster.sreg, h0]
  · simp [Cluster.sreg, Cluster.setSreg, h0, hi]

theorem Cluster.sreg_setSreg_other (c : Cluster) {i j : Nat} (v : Word64) (h : j ≠ i) : (c.setSreg i v).sreg j = c.sreg j := by
  unfold Cluster.setSreg
  split
  · rfl
  · split
    · simp [Cluster.sreg, Ne.symm h]
    · rfl

/-- A write to a scalar register changes the registers alone. -/
theorem Cluster.setSreg_eq (c : Cluster) (i : Nat) (v : Word64) : c.setSreg i v = { c with sregs := (c.setSreg i v).sregs } := by
  unfold Cluster.setSreg
  split
  · rfl
  · split <;> rfl

/-- A stream that moves past a word in one cycle and writes a register makes a scalar step. -/
theorem State.scalarStep_advance (s : State) (k : Nat) {sd : Nat} (v : Word64) (hsd : sd < 32) :
    ScalarStep s ((s.advance k 1 1).modCluster k fun c => c.setSreg sd v) k sd v where
  written := by rw [State.cluster_modCluster, Cluster.sreg_setSreg_same _ _ hsd]
  registers := fun r hr => by rw [State.cluster_modCluster, Cluster.sreg_setSreg_other _ _ hr, State.cluster_advance]; rfl
  own := by
    conv_lhs => rw [State.cluster_modCluster, Cluster.setSreg_eq, State.cluster_advance]
    rw [State.cluster_modCluster, State.cluster_advance]
    rfl
  clusters := fun j hj => by rw [State.cluster_modCluster_other _ _ _ _ hj, State.cluster_advance_other _ _ _ _ _ hj]
  rest := rfl

/-! ### Items at the issue port (R170, R174, R183) -/

/-- What the port's own fault sends. -/
theorem State.failsAtPort_issueFault (s : State) (k kind op : Nat) : s.failsAtPort (s.issueFault k kind op) k kind op := rfl

section
variable {s : State} {i : Instr} {k : Nat} {P : State → Prop} (hd : s.defined)
include hd

/-- An item that the stream can take runs. -/
theorem runs_of_item {words cost op : Nat} {f : State → State} (h : s.canTake k words cost)
    {t : State} (he : exec i s = live s (s.item k words cost op f)) (ht : f s = t) (hP : P t) : Runs i s P :=
  runs_of_exec_live hd (he.trans (congrArg (live s) ((State.item_of_canTake h op f).trans ht))) hP

/-- An item that needs its stream in a state `ready` and its word in the image. -/
theorem runs_of_ready {ready fetched : Bool} {u v t : State} (hready : ready = true) (hfetch : fetched = true)
    (he : exec i s = live s (if !ready then s else if !fetched then v else u)) (hu : u = t) (hP : P t) : Runs i s P := by
  subst hready hfetch hu
  exact runs_of_exec_live hd he hP

/-- An instruction that writes a scalar register makes a scalar step. -/
theorem runs_of_scalarWrite {sd : BitVec 5} {major : Nat} {v : Cluster → Word64} {u : Word64} (h : s.canTake k 1 1)
    (he : exec i s = live s (s.scalarWrite k sd.toNat major v)) (hu : v (s.cluster k) = u) :
    Runs i s fun t => ScalarStep s t k sd.toNat u :=
  runs_of_item hd h he rfl (hu ▸ s.scalarStep_advance k _ sd.isLt)

/-- The same, bit by bit. -/
theorem runs_of_scalarBits {sd : BitVec 5} {major : Nat} {v : Cluster → Word64} {bit : Nat → Bool} (h : s.canTake k 1 1)
    (he : exec i s = live s (s.scalarWrite k sd.toNat major v)) (hbit : ∀ j, j < 64 → (v (s.cluster k)).getLsbD j = bit j) :
    Runs i s fun t => ∃ u : Word64, (∀ j, j < 64 → u.getLsbD j = bit j) ∧ ScalarStep s t k sd.toNat u :=
  runs_of_item hd h he rfl ⟨_, hbit, s.scalarStep_advance k _ sd.isLt⟩

end

/-! ### Arithmetic and logic (R174) -/

/-- Settles O7: the words' operations are those of their values modulo 2^64. -/
theorem scalarArithmetic : Obligations.ScalarArithmetic := by
  intro s k sd sa sb imm hd h a b
  refine ⟨runs_of_scalarWrite hd h rfl (BitVec.add_def ..), runs_of_scalarWrite hd h rfl ?_,
    runs_of_scalarWrite hd h rfl (BitVec.mul_def ..), runs_of_scalarWrite hd h rfl ?_⟩
  · rw [Nat.add_sub_assoc (Nat.le_of_lt (BitVec.isLt _)), Nat.add_comm]
    exact BitVec.sub_def ..
  · rw [BitVec.ofInt_add, BitVec.ofInt_natCast, BitVec.ofNat_toNat, BitVec.setWidth_eq]
    rfl

/-- The low sixteen bits. -/
theorem getLsbD_ones16 (j : Nat) : (0xFFFF : Word64).getLsbD j = decide (j < 16) := by
  have hones : (0xFFFF : Word64) = (BitVec.allOnes 16).zeroExtend 64 := rfl
  rw [hones, BitVec.getLsbD_setWidth, BitVec.getLsbD_allOnes, ← Bool.decide_and]
  exact decide_eq_decide.mpr (by omega)

/-- LIH replaces sixteen bits from its position on. -/
theorem getLsbD_insertHalf (w : Word64) (pos : BitVec 2) (imm : BitVec 16) {j : Nat} (hj : j < 64) :
    (insertHalf w pos.toNat imm).getLsbD j = if j / 16 = pos.toNat then imm.getLsbD (j % 16) else w.getLsbD j := by
  simp only [insertHalf, BitVec.getLsbD_or, BitVec.getLsbD_and, BitVec.getLsbD_not, BitVec.getLsbD_shiftLeft, getLsbD_ones16,
    BitVec.getLsbD_setWidth, hj]
  by_cases hp : j / 16 = pos.toNat
  · have hat : j - 16 * pos.toNat = j % 16 := by omega
    have hmod : j % 16 < 16 ∧ j % 16 < 64 := by omega
    have hpast : ¬ j < 16 * pos.toNat := by omega
    simp [hp, hat, hmod, hpast]
  · by_cases hlow : j < 16 * pos.toNat
    · simp [hp, hlow]
    · have hpast : 16 ≤ j - 16 * pos.toNat := by omega
      simp [hp, hlow, Nat.not_lt.mpr hpast, BitVec.getLsbD_of_ge _ _ hpast]

/-- Settles O8: each operation's bits, those of a shift by its amount, which is below 64. -/
theorem scalarLogic : Obligations.ScalarLogic := by
  intro s k sd sa sb pos imm hd h a b d n writes
  refine ⟨runs_of_scalarBits hd h rfl fun j _ => BitVec.getLsbD_and, runs_of_scalarBits hd h rfl fun j _ => BitVec.getLsbD_or,
    runs_of_scalarBits hd h rfl fun j _ => BitVec.getLsbD_xor, runs_of_scalarBits hd h rfl fun j hj => ?_,
    runs_of_scalarBits hd h rfl fun j _ => ?_, runs_of_scalarBits hd h rfl fun j hj => getLsbD_insertHalf _ pos imm hj⟩
  · refine (BitVec.getLsbD_shiftLeft ..).trans ?_
    rw [decide_eq_true hj, Bool.true_and, ← decide_not]
    exact congrArg (· && _) (decide_eq_decide.mpr Nat.not_lt)
  · exact (BitVec.getLsbD_ushiftRight ..).trans (by rw [Nat.add_comm])

/-! ### Parameters, features and counters (R174, R176, R177) -/

/-- A cluster's number tells its place in its group (R212). -/
theorem ClusterId.num_mod (k : ClusterId) : k.num % 32 = k.cluster.val := by
  have hcluster := k.cluster.isLt
  simp only [ClusterId.num]
  omega

/-- The words of R176's table that the cluster's place and its job give, from index 0 on. -/
def Ctx.features (x : Ctx) (cluster : Nat) : List Nat :=
  [1, x.job.groupCount, x.logical, cluster, x.span, if x.span = 64 then x.logical % 2 else 0xFF, 1048576, 16, 8388608, 16, 65536]

theorem State.feature?_of_lt {s : State} {k idx : Nat} {x : Ctx} (hx : s.ctx? k = some x) (hidx : idx < 11) :
    s.feature? k idx = some (BitVec.ofNat 64 ((x.features (k % 32)).getD idx 0)) := by
  rw [State.feature?, hx]
  interval_cases idx <;> rfl

theorem State.feature?_extents {s : State} {k : Nat} {x : Ctx} (hx : s.ctx? k = some x) :
    s.feature? k 11 = some (BitVec.ofNat 64 (s.extentsOf x.job.id.toNat)) := by
  rw [State.feature?, hx]
  rfl

theorem State.feature?_of_le {s : State} {k idx : Nat} (hidx : 12 ≤ idx) : s.feature? k idx = none := by
  obtain ⟨n, rfl⟩ := Nat.exists_eq_add_of_le' hidx
  unfold State.feature?
  split <;> rfl

theorem Cluster.status?_of_lt (c : Cluster) {idx : Nat} (hidx : idx < 4) :
    c.status? idx = some (([c.sat, c.nan, c.grange, c.rearm].getD idx 0).zeroExtend 64) := by
  interval_cases idx <;> rfl

theorem Cluster.status?_of_le (c : Cluster) {idx : Nat} (hidx : 4 ≤ idx) : c.status? idx = none := by
  obtain ⟨n, rfl⟩ := Nat.exists_eq_add_of_le' hidx
  rfl

/-- Settles O9: a known index answers its table's word, which is written; a reserved one answers none, and the port fails. -/
theorem scalarReads : Obligations.ScalarReads := by
  intro s k sd pk idx hd h c
  have hstep (v : Word64) := s.scalarStep_advance k.num v sd.isLt
  refine ⟨runs_of_scalarWrite hd h rfl rfl, fun hidx => ?_, fun x hx hidx => ?_, fun x hx => ?_, fun hidx => ?_, fun hidx => ?_⟩
  · exact runs_of_item hd h rfl (by rw [Cluster.status?_of_lt _ hidx]) (hstep _)
  · have hfeature := State.feature?_of_lt hx hidx
    rw [ClusterId.num_mod k] at hfeature
    exact runs_of_item hd h rfl (by rw [hfeature]; rfl) (hstep _)
  · exact runs_of_item hd h rfl (by rw [show (11 : BitVec 8).toNat = 11 from rfl, State.feature?_extents hx]) (hstep _)
  · exact runs_of_item hd h rfl (by rw [Cluster.status?_of_le _ hidx]; rfl) (s.failsAtPort_issueFault ..)
  · exact runs_of_item hd h rfl (by rw [State.feature?_of_le hidx]; rfl) (s.failsAtPort_issueFault ..)

/-! ### Loops (R175) -/

@[simp] theorem State.cluster_jump (s : State) (k pc cost : Nat) : (s.jump k pc cost).cluster k =
    { s.cluster k with lastItem := (s.cluster k).pc.toNat, pc := BitVec.ofNat 32 pc, nextAt := (s.cluster k).nextAt + cost } :=
  s.cluster_modCluster k _

/-- Settles O10: LOOP by what it finds for its count, ENDL by what its counter holds. -/
theorem loopsCountAndJump : Obligations.LoopsCountAndJump := by
  intro s k lc src fwd count back hd h c n v
  have hback {P : State → Prop} {u : State} (hne : ¬ v = 0)
      (hu : (if v = 1 then s.advance k.num 1 1 else s.jump k.num (c.pc.toNat - back.toNat) 1) = u)
      (hP : P (u.modCluster k.num fun c => c.setLoop lc (v - 1))) : Runs (.endl k lc back) s P :=
    runs_of_item hd h rfl ((if_neg hne).trans (congrArg (fun u : State => u.modCluster k.num fun c => c.setLoop lc (v - 1)) hu)) hP
  refine ⟨fun hn => ?_, fun ⟨hpos, hmax⟩ => ?_, fun hn => ?_, fun hv => ?_, fun hv => ?_, fun hv => ?_⟩
  · refine runs_of_item hd h rfl ((if_neg ?_).trans (if_pos hn)) ⟨rfl, ?_⟩
    · exact Nat.not_lt.mpr (hn.trans_le (Nat.zero_le _))
    · rw [State.cluster_modCluster, State.cluster_jump, Cluster.setLoop]
  · refine runs_of_item hd h rfl ((if_neg (Nat.not_lt.mpr hmax)).trans (if_neg (Nat.ne_of_gt hpos))) ⟨rfl, ?_⟩
    rw [State.cluster_modCluster, State.cluster_advance, Cluster.setLoop]
    rfl
  · exact runs_of_item hd h rfl (if_pos hn) (s.failsAtPort_issueFault ..)
  · refine hback (by simp [hv]) (if_pos hv) ⟨rfl, ?_⟩
    rw [State.cluster_modCluster, State.cluster_advance, Cluster.setLoop, hv]
    rfl
  · have hne : v ≠ 0 ∧ v ≠ 1 := ⟨fun h => absurd hv (by simp [h]), fun h => absurd hv (by simp [h])⟩
    refine hback hne.1 (if_neg hne.2) ⟨rfl, ?_⟩
    rw [State.cluster_modCluster, State.cluster_jump, Cluster.setLoop]
  · exact runs_of_item hd h rfl (if_pos hv) (s.failsAtPort_issueFault ..)

/-! ### Waits, END and tile windows (R170, R171, R173) -/

/-- Settles O11: WAITC by its cycle, the others by what they need of the stream; SETTW by the cluster it stands on. That a cycle of
59,392 or more fails with ISSUE_CHECK is the model's reading of R174's range. -/
theorem waitsAndWindows : Obligations.WaitsAndWindows := by
  intro s k cyc tk sa hd c
  refine ⟨fun h => ?_, fun hlive hfetch hwin hle => ?_, fun hlive hfetch hwin hlt => ?_, fun hlive hfetch hwin => ?_,
    fun hpass hfetch => ?_, fun hstate hjob hat => ?_, fun hpass hfetch => ?_, fun h hlead => ?_, fun h hother => ?_⟩
  · exact runs_of_item hd h rfl rfl ⟨rfl, s.cluster_advance ..⟩
  · have hnot : ¬ c.nextAt / 65536 * 65536 + cyc.toNat < c.nextAt := by omega
    refine runs_of_ready hd hlive hfetch rfl ((if_neg (Nat.not_le.mpr hwin)).trans (if_neg hnot)) ⟨rfl, ?_⟩
    rw [State.cluster_modCluster, State.cluster_advance]
    rfl
  · have hpast : c.nextAt / 65536 * 65536 + cyc.toNat < c.nextAt := by omega
    exact runs_of_ready hd hlive hfetch rfl ((if_neg (Nat.not_le.mpr hwin)).trans (if_pos hpast)) (s.failsAtPort_issueFault ..)
  · exact runs_of_ready hd hlive hfetch rfl (if_pos hwin) (s.failsAtPort_issueFault ..)
  · refine runs_of_ready hd hpass hfetch rfl rfl ⟨rfl, ?_⟩
    rw [State.cluster_modCluster, State.cluster_advance]
    rfl
  · have hends : (c.state == .waiting && s.jobRuns (k.num / 32) && decide (c.nextAt ≤ s.now)) = true := by
      simp [ClusterId.num_div k, hstate, hjob, hat]
    exact runs_of_exec_live hd (congrArg (live s) (if_pos hends)) ⟨rfl, s.cluster_modCluster ..⟩
  · refine runs_of_ready hd hpass hfetch rfl rfl ⟨rfl, ?_⟩
    rw [State.cluster_modCluster, State.cluster_advance]
    rfl
  · refine runs_of_item hd h rfl (if_neg (by simp [hlead])) ⟨s.cluster_advance .., ?_, rfl⟩
    exact State.unit_modUnit ..
  · exact runs_of_item hd h rfl (if_pos (by simpa using hother)) (s.failsAtPort_issueFault ..)

end Sys2Proof.Machine
end

section
/-!
PROOFS. The work of the stream units and of the exchange (R83 to R91, R187, R220 to R230), in the issue ports' view: a stream command
occupies no engine, as its transfers take slots of their own; GX.MOVE and GX.BCAST occupy the GX port. Each lemma of the view takes
off one operation of a course, the last one first.
-/
namespace Sys2Proof.Machine

section
variable (s : State)

/-! ### Operations of the stream units -/

@[simp] theorem State.modRun_issueView (id : Nat) (f : JobRun → JobRun) : (s.modRun id f).issueView = s.issueView := rfl

theorem State.withMem_issueView (m : Memory) : State.issueView { s with mem := m } = s.issueView := rfl

@[simp] theorem State.suAbsent_issueView (k : Nat) (c : CmdWord) (t : Nat) : (s.suAbsent k c t).2.issueView = s.issueView :=
  keeps_ite (State.issueView ∘ Prod.snd) rfl rfl

@[simp] theorem State.releasePoison_issueView (k role : Nat) (sg : Segment) (opc a t : Nat) :
    (s.releasePoison k role sg opc a t).issueView = s.issueView :=
  keeps_ite _ (keeps_ite _ rfl rfl) (keeps_ite _ rfl rfl)

@[simp] theorem State.endLoad_issueView (k r rows : Nat) : (s.endLoad k r rows).issueView = s.issueView :=
  keeps_ite _ (s.modCluster_issueView k _) rfl

@[simp] theorem State.loadsPart_issueView (k : Nat) (c : CmdWord) (x : Ctx) (t t0 base word pre : Nat) :
    (s.loadsPart k c x t t0 base word pre).issueView = s.issueView := by
  unfold State.loadsPart
  dsimp only
  split
  · exact s.violateBy_issueView ..
  · simp only [↓State.modRing_issueView, ↓State.modCluster_issueView, implies_true, ↓apply_ite State.issueView,
      ↓State.violateBy_issueView, ↓State.suAbsent_issueView, ↓ite_self]

@[simp] theorem State.suMove_issueView (k : Nat) (c : CmdWord) (x : Ctx) (t t0 word : Nat) (m : SuMove) (unset : Bool) :
    (s.suMove k c x t t0 word m unset).issueView = s.issueView := by
  unfold State.suMove
  dsimp only
  split
  · exact s.violateBy_issueView ..
  · simp only [↓apply_ite State.issueView, ↓State.modRun_issueView, ↓State.endLoad_issueView, ↓State.modRing_issueView,
      ↓State.modCluster_issueView, implies_true, ↓ite_self]
    split
    all_goals
      simp only [↓State.releasePoison_issueView, ↓apply_ite State.issueView, ↓State.violateBy_issueView,
        ↓State.suAbsent_issueView, ↓ite_self]

@[simp] theorem State.repeatDesc_issueView (k r t t0 word : Nat) (x : Ctx) :
    (s.repeatDesc k r t t0 word x).issueView = s.issueView := by
  unfold State.repeatDesc
  split
  · rfl
  · exact s.loadsPart_issueView ..
  · exact s.suMove_issueView ..

/-! ### The work of the stream units -/

/-- SU.LOAD and SU.STORE occupy no engine (R220, R224). -/
theorem State.suRun_issueView (k : Nat) (c : CmdWord) (x : Ctx) (t : Nat) (out : Bool) :
    (s.suRun k c x t out).issueView = s.issueView :=
  s.suMove_issueView ..

/-- SU.LOADS occupies no engine (R225). -/
theorem State.loadsRun_issueView (c : CmdWord) (x : Ctx) (t base : Nat) (ks : List Nat) (pre : Nat) :
    (s.loadsRun c x t base ks pre).issueView = s.issueView :=
  foldl_keeps State.issueView (fun u _ => u.loadsPart_issueView ..) ks s

/-- SU.TILE occupies no engine (R185). -/
theorem State.tileRun_issueView (k : Nat) (c : CmdWord) (x : Ctx) (t : Nat) : (s.tileRun k c x t).issueView = s.issueView := by
  unfold State.tileRun
  split
  · exact s.suMove_issueView ..
  · rfl

/-- SU.ARM occupies no engine (R226). -/
theorem State.armRun_issueView (k : Nat) (c : CmdWord) (x : Ctx) (t : Nat) : (s.armRun k c x t).issueView = s.issueView :=
  keeps_ite _ (s.violate_issueView ..) (keeps_ite _ (s.repeatDesc_issueView ..) (keeps_ite _ (s.modCluster_issueView k _) rfl))

/-- SU.RELAY occupies no engine: its rows leave for the chain (R228). -/
theorem State.relayRun_issueView (k : Nat) (c : CmdWord) (x : Ctx) (t : Nat) : (s.relayRun k c x t).issueView = s.issueView := by
  dsimp only [State.relayRun]
  rw [State.modUnit_issueView, State.popOperand_issueView, State.readRows_issueView]

/-- SU.KFILL occupies no engine (R89). -/
theorem State.kfillRun_issueView (k : Nat) (c : CmdWord) (x : Ctx) (t : Nat) : (s.kfillRun k c x t).issueView = s.issueView := by
  have habsent := s.suAbsent_issueView k c t
  dsimp only [State.kfillRun]
  split
  · exact habsent
  · refine keeps_ite _ habsent ?_
    rw [State.modKc_issueView]
    exact keeps_ite _ ((State.withMem_issueView ..).trans habsent) habsent

/-- SU.PIP occupies no engine (R83). -/
theorem State.pipRun_issueView (k : Nat) (c : CmdWord) (x : Ctx) (t : Nat) : (s.pipRun k c x t).issueView = s.issueView := by
  dsimp only [State.pipRun]
  split
  case' h_1 => rw [State.rmeNote_issueView, State.rmeOut_issueView]
  case' h_2 =>
    rw [foldl_keeps State.issueView fun u k' => (State.noteWork_issueView ..).trans (u.closeOutput_issueView ..),
      foldl_keeps State.issueView fun u _ => foldl_keeps State.issueView (fun u _ => u.pushOperand_issueView ..) _ u]
  all_goals
    simp only [↓State.rmeWriteCheck_issueView, ↓apply_ite State.issueView, ↓State.groupFault_issueView, ↓State.violate_issueView,
      ↓apply_ite Prod.snd, ↓ite_self]

/-! ### The work of the exchange (R187) -/

@[simp] theorem State.gxSend_issueView (k : Nat) (c : CmdWord) (t : Nat) : (s.gxSend k c t).2.issueView = s.issueView :=
  s.readCheck_issueView ..

@[simp] theorem State.gxReceive_issueView (k : Nat) (c : CmdWord) (t lat code : Nat) (rows : List Row) (sg : Option Segment) :
    (s.gxReceive k c t lat code rows sg).issueView = s.issueView := by
  dsimp only [State.gxReceive]
  simp only [↓apply_ite State.issueView, ↓State.closeOutput_issueView, ↓State.noteWork_issueView, ↓State.pushOperand_issueView,
    ↓State.writeCheck_issueView, ↓ite_self]

/-- GX.MOVE holds the GX port of its cluster for a cycle a row. -/
theorem State.gxMoveRun_issueView (k : Nat) (c : CmdWord) (x : Ctx) (t : Nat) :
    (s.gxMoveRun k c x t).issueView = s.issueView.occupy k 4 (t + cmdCount c) := by
  dsimp only [State.gxMoveRun]
  rw [State.occupy_issueView, State.gxReceive_issueView, State.popOperand_issueView, State.gxSend_issueView]

/-- GX.BCAST holds the GX port of every cluster for a cycle a row. -/
theorem State.gxBcastRun_issueView (c : CmdWord) (t : Nat) (ks : List Nat) (pre : Nat) :
    (s.gxBcastRun c t ks pre).issueView = ks.foldl (fun v k => v.occupy k 4 (t + cmdCount c)) s.issueView := by
  dsimp only [State.gxBcastRun]
  rw [issueView_foldl (g := fun v k => v.occupy k 4 (t + cmdCount c)), State.popOperand_issueView, State.gxSend_issueView]
  intro u k
  rw [State.occupy_issueView, State.gxReceive_issueView]

end

end Sys2Proof.Machine
end

section
/-!
PROOFS. GX.MOVE, GX.BCAST and FUSE at the issue port (R170, R186, R187): what each holds once it has issued. A fused command issues
on all its clusters and then runs its members in chain order, each of which at most occupies engines longer.
-/
namespace Sys2Proof.Machine

/-! ### Members of a fused command (R186) -/

/-- The clusters that a member runs for: those that issue it together, or one, which is a lead where the member asks for a lead. -/
inductive Member.RunsFor (m : Member) : List Nat → Prop
  | together (s : State) (k : Nat) : m.RunsFor (m.clusters s k)
  | alone (k : Nat) (hlead : m.sh.lead = true → k % 32 = 0) : m.RunsFor [k]

/-- Whatever clusters it runs for, the member's work at most occupies engines longer. -/
def Member.Occupies (m : Member) : Prop :=
  ∀ (s : State) (k : Nat) (x : Ctx) (t : Nat) (ks : List Nat) (pre : Nat), m.RunsFor ks →
    s.issueView.Occupied (m.run s k x t ks pre).issueView

/-- Work that occupies one engine. -/
theorem IssueView.Occupied.of_occupy {v w : IssueView} {k e t : Nat} (h : w = v.occupy k e t) : v.Occupied w :=
  h ▸ v.occupied_occupy k e t

/-- Work that occupies an engine of each of a list of clusters. -/
theorem IssueView.Occupied.of_occupy_each {v w : IssueView} {ks : List Nat} {e t : Nat}
    (h : w = ks.foldl (fun v k => v.occupy k e t) v) : v.Occupied w :=
  h ▸ occupied_foldl (fun v k => v.occupied_occupy k e t) ks v

/-- What RME.COMBINE runs for are lead clusters (R134). -/
theorem Member.leads_of_runsFor {m : Member} {ks : List Nat} (hclusters : m.clusters = leadsOf) (hlead : m.sh.lead = true)
    (h : m.RunsFor ks) : ∀ k ∈ ks, 32 * (k / 32) = k := by
  intro k hk
  cases h with
  | together s j =>
    rw [hclusters] at hk
    obtain ⟨g, -, rfl⟩ := List.mem_map.mp hk
    omega
  | alone j hj =>
    rw [List.mem_singleton.mp hk]
    have := hj hlead
    omega

/-- The work of every command that can be a member at most occupies engines longer. -/
theorem memberOf_occupies {x : Ctx} {c : CmdWord} {m : Member} (h : memberOf x c = some m) : m.Occupies := by
  unfold memberOf at h
  split at h <;> cases h <;> intro s k x t ks pre hks
  · exact .of_occupy (s.chainRun_issueView ..)
  · exact .of_occupy (s.tensorRun_issueView ..)
  · rw [s.switchRun_issueView]
    exact IssueView.occupied_foldl (fun v k => v.occupied_occupy_two ..) ks _
  · rw [s.switchRun_issueView]
    exact IssueView.occupied_foldl (fun v k => v.occupied_occupy_two ..) ks _
  · exact .of_occupy (s.cvtinRun_issueView ..)
  · exact .of_occupy (s.cvtoutRun_issueView ..)
  · exact .of_occupy (s.gatherRun_issueView ..)
  · exact .of_occupy_each (s.autoRun_issueView ..)
  · exact .of_occupy (s.fillRun_issueView ..)
  · exact .of_occupy (s.ldprogRun_issueView ..)
  · exact .of_occupy (s.ldconstRun_issueView ..)
  · exact .of_occupy_each (s.teRun_issueView ..)
  · exact .of_occupy_each (s.teRun_issueView ..)
  · exact .of_eq (s.suRun_issueView ..)
  · exact .of_eq (s.loadsRun_issueView ..)
  · exact .of_eq (s.suRun_issueView ..)
  · exact .of_eq (s.armRun_issueView ..)
  · exact .of_eq (s.relayRun_issueView ..)
  · exact .of_eq (s.kfillRun_issueView ..)
  · exact .of_eq (s.pipRun_issueView ..)
  · exact .of_eq (s.tileRun_issueView ..)
  · exact .of_occupy (s.gxMoveRun_issueView ..)
  · exact .of_occupy_each (s.gxBcastRun_issueView ..)
  · exact .of_eq (s.bconvRun_issueView ..)
  · exact .of_eq (s.kipRun_issueView ..)
  · exact .of_occupy_each (s.combineRun_issueView _ _ _ (Member.leads_of_runsFor rfl rfl hks) _)
  · rw [s.refRunRun_issueView]
    exact IssueView.occupied_foldl (fun v g => v.occupied_holdGroup g _) _ _

/-! ### The course of a fused command -/

/-- Operations that each at most occupy engines longer, one after the other. -/
theorem State.occupied_foldl {α : Type} {f : State → α → State} {l : List α}
    (h : ∀ (s : State), ∀ e ∈ l, s.issueView.Occupied (f s e).issueView) (s : State) :
    s.issueView.Occupied (l.foldl f s).issueView := by
  induction l generalizing s with
  | nil => exact .refl _
  | cons e l ih =>
    exact (h s e (List.mem_cons_self ..)).trans (ih (fun s e he => h s e (List.mem_cons_of_mem _ he)) _)

section
variable (s : State)

/-- A member runs once for the clusters that issue it together, or on each cluster that may issue it. -/
theorem State.occupied_runMember (x : Ctx) (ks : List Nat) (c : CmdWord) {m : Member} (hm : m.Occupies) (t pre : Nat) :
    s.issueView.Occupied (s.runMember x ks c m t pre).issueView := by
  dsimp only [State.runMember]
  split
  · exact hm _ _ _ _ _ _ (.together s _)
  · refine State.occupied_foldl (fun u k hk => ?_) s
    have hlead : m.sh.lead = true → k % 32 = 0 := fun hlead => by simpa [hlead] using (List.mem_filter.mp hk).2
    split
    · exact hm _ _ _ _ _ _ (.alone k hlead)
    · exact .refl _

@[simp] theorem State.extendVerdict_issueView (ks : List Nat) (cs : List CmdWord) :
    (s.extendVerdict ks cs).issueView = s.issueView := by
  induction cs with
  | nil => rfl
  | cons c cs ih =>
    dsimp only [State.extendVerdict]
    exact keeps_ite _ ih ((State.modUnit_issueView ..).trans ih)

@[simp] theorem State.clearHandover_issueView (ks : List Nat) : (s.clearHandover ks).issueView = s.issueView :=
  foldl_keeps State.issueView (fun u k => u.modCluster_issueView k _) _ s

/-! ### Items of several words (R170, R172) -/

/-- The cluster's stream moves past an item of `words` words and `cost` issue cycles, and the port stamps it with cycle `t`. -/
def Cluster.issueItem (c : Cluster) (words cost t : Nat) : Cluster :=
  { c with lastItem := c.pc.toNat, pc := c.pc + BitVec.ofNat 32 words, nextAt := c.nextAt + cost, issueAt := t, issued := true }

/-- The clusters `ks` have issued an item of `words` words and `cost` issue cycles, stamped with `t`. -/
def State.issuedItem (ks : List Nat) (words cost t : Nat) : State :=
  ks.foldl (fun s k => s.stamp k t) (ks.foldl (fun s k => s.advance k words cost) s)

theorem State.cluster_issuedItem {ks : List Nat} (hks : ks.Nodup) (words cost t : Nat) {j : Nat} (hj : j ∈ ks) :
    (s.issuedItem ks words cost t).cluster j = (s.cluster j).issueItem words cost t := by
  unfold State.issuedItem State.stamp State.advance
  simp [State.cluster_foldl_modCluster _ hks, hj, Cluster.issueItem]

theorem State.besideEngines_issuedItem (ks : List Nat) (words cost t : Nat) :
    (s.issuedItem ks words cost t).besideEngines = s.besideEngines :=
  (foldl_keeps State.besideEngines (f := fun s k => s.stamp k t) (fun _ _ => rfl) ks _).trans
    (foldl_keeps State.besideEngines (f := fun s k => s.advance k words cost) (fun _ _ => rfl) ks s)

end

/-- After engines' work from a state in which cluster `k` has issued an item, the item has issued, and the rest is as before. -/
theorem State.issued_of_issueItem {s u t : State} {k words cost stamp : Nat} (hrest : u.besideEngines = s.besideEngines)
    (hk : u.cluster k = (s.cluster k).issueItem words cost stamp) (hstamp : stamp = (s.cluster k).nextAt + cost - 1)
    (h : u.issueView.Occupied t.issueView) : Issued s t k words cost ∧ s.EngineFrame t := by
  have hcore : { (t.cluster k).core with busy := [] } = { ((s.cluster k).issueItem words cost stamp).core with busy := [] } :=
    (h.core k).trans (hk ▸ rfl)
  exact ⟨{
    pc := (congrArg Cluster.pc hcore :)
    next := (congrArg Cluster.nextAt hcore :)
    stamp := (congrArg Cluster.issueAt hcore :).trans hstamp
    issued := (congrArg Cluster.issued hcore :)
    core := ⟨(congrArg Cluster.sregs hcore :), (congrArg Cluster.params hcore :), (congrArg Cluster.loops hcore :),
      (congrArg Cluster.image hcore :), (congrArg Cluster.state hcore :)⟩ }, State.engineFrame_of_rest (h.rest.trans hrest)⟩

/-! ### FUSE (R186) -/

section
variable {s : State} {k : Nat} {x : Ctx} {w : CmdWord} {cs : List CmdWord} {ms : List (CmdWord × Member)} {ks : List Nat}

/-- The clusters of a fused command are all ready in the first one's cycle. -/
theorem State.AcceptsFuse.ready_eq (h : s.AcceptsFuse k x w cs ms ks) :
    s.ready ks (4 * (cs.length + 1)) (cs.length + 1) (s.cluster k).nextAt = ks :=
  beq_iff_eq.mp (Bool.and_eq_true_iff.mp h.together).1

theorem State.AcceptsFuse.nextAt_eq (h : s.AcceptsFuse k x w cs ms ks) {j : Nat} (hj : j ∈ ks) :
    (s.cluster j).nextAt = (s.cluster k).nextAt := by
  have hready := List.filter_eq_self.mp h.ready_eq j hj
  simp only [Bool.and_eq_true, beq_iff_eq] at hready
  exact hready.2

/-- The members of a fused command, run in chain order from the state in which its clusters have issued it. -/
def State.fused (s : State) (x : Ctx) (ks : List Nat) (cs : List CmdWord) (ms : List (CmdWord × Member)) (t : Nat) : State :=
  (ms.zip (memberStarts t none ms)).foldl (fun s e => s.runMember x ks e.1.1 e.1.2 e.2 0)
    ((s.issuedItem ks (4 * (cs.length + 1)) (cs.length + 1) t).clearHandover ks)

/-- A fused command that the port accepts issues on all its clusters and runs its members unpoisoned. -/
theorem State.fuse_of_accepts (h : s.AcceptsFuse k x w cs ms ks) :
    s.fuse k w cs = (s.fused x ks cs ms ((s.cluster k).nextAt + cs.length)).extendVerdict ks cs := by
  have hbarred : (ks.filter fun j => j % 32 != 0 && ms.any fun e => e.2.sh.lead || usesTile e.1) = [] := by
    refine List.filter_eq_nil_iff.mpr fun j hj => ?_
    simpa using h.lead j hj
  have hissuing : (ks.filter fun j => !([] : List Nat).contains j) = ks := List.filter_eq_self.mpr fun _ _ => rfl
  unfold State.fuse
  dsimp only
  rw [State.item_of_canTake h.ready]
  simp only [h.job, ← h.members, ← h.clusters, h.ready_eq, hbarred, hissuing, h.fields, h.free, h.together]
  rfl

/-- A fused command's work, from the state in which its clusters have issued it, at most occupies engines longer. -/
theorem State.occupied_fuse (h : s.AcceptsFuse k x w cs ms ks) :
    (s.issuedItem ks (4 * (cs.length + 1)) (cs.length + 1) ((s.cluster k).nextAt + cs.length)).issueView.Occupied
      (s.fuse k w cs).issueView := by
  rw [State.fuse_of_accepts h, State.extendVerdict_issueView, ← State.clearHandover_issueView]
  refine State.occupied_foldl (fun u e he => u.occupied_runMember x ks e.1.1 ?_ e.2 0) _
  have hmem : e.1 ∈ ms := (List.of_mem_zip he).1
  rw [h.members] at hmem
  obtain ⟨c, -, hc⟩ := List.mem_filterMap.mp hmem
  obtain ⟨m, hm, heq⟩ := Option.map_eq_some_iff.mp hc
  exact heq ▸ memberOf_occupies hm

end

/-- GX.MOVE holds the GX port of its cluster for its rows. -/
theorem gxMove_runs {s : State} {k : ClusterId} {w : CmdWord} {x : Ctx} (hd : s.defined)
    (ha : s.Accepts k.num x w shMove 4 fun s x _ => s.gxMoveBar k.num w x) :
    Runs (.gxMove k w) s fun t => Issued s t k.num 4 1 ∧ s.EngineFrame t ∧
      t.heldTo k.num 4 ((s.cluster k.num).nextAt + cmdCount w) := by
  have hview := (s.issuedBy k.num).gxMoveRun_issueView k.num w x (s.cluster k.num).nextAt
  have hheld := IssueView.held_occupy (s.issuedBy k.num).issueView k.num 4 ((s.cluster k.num).nextAt + cmdCount w)
  rw [← hview] at hheld
  have hexec : exec (.gxMove k w) s = execGxMove k w s := rfl
  exact runs_of_accepts_occupied hd hexec ha rfl (.of_occupy hview) hheld

/-- FUSE takes a cycle for itself and one for each member, on every cluster that runs it. -/
theorem fuse_runs {s : State} {k : ClusterId} {w : CmdWord} {x : Ctx} {cs : List CmdWord} {ms : List (CmdWord × Member)}
    {ks : List Nat} {j : Nat} (hd : s.defined) (hj : j ∈ ks) (ha : s.AcceptsFuse k.num x w cs ms ks) :
    Runs (.fuse k w cs) s fun t => Issued s t j (4 * (cs.length + 1)) (cs.length + 1) ∧ s.EngineFrame t := by
  have hstamp : (s.cluster k.num).nextAt + cs.length = (s.cluster j).nextAt + (cs.length + 1) - 1 := by rw [ha.nextAt_eq hj]; rfl
  exact runs_of_exec_live hd rfl (State.issued_of_issueItem (s.besideEngines_issuedItem ks _ _ _)
    (s.cluster_issuedItem ha.distinct _ _ _ hj) hstamp (State.occupied_fuse ha))

/-- Settles O18: the GX ports of the clusters named, and a fused command's words and cycles on each cluster that runs it. -/
theorem exchangeAndFuseIssue : Obligations.ExchangeAndFuseIssue := by
  intro s k w x hd p
  refine ⟨fun ha => ?_, fun j hj ha => ?_, fun cs ms ks j hj ha => fuse_runs hd hj ha⟩
  · obtain ⟨t, ht, hissued, hframe, hheld⟩ := gxMove_runs hd ha
    exact ⟨t, ht, hissued, hheld, hframe⟩
  · exact runs_of_acceptsTogether hd rfl ha hj rfl (State.gxBcastRun_issueView ..) (fun v j => v.occupied_occupy ..) fun v j =>
      v.held_occupy ..

end Sys2Proof.Machine
end


section
/-!
PROOFS. What every step carries from a state to the next (`Kept`): one lemma for each operation of the model, which says that the operation
keeps it. First the rules for a written part of the state, then the operations that all meanings share (R41, R202, R242, R360, R389).
-/
namespace Sys2Proof.Machine

section
/-! Each theorem is checked before the next begins. -/
set_option Elab.async false
variable {s0 s t : State}

/-! ### Writing one part of the state, and choosing between two states -/

/-- A range of the memory that is filled and freed of its marks. -/
theorem Memory.unmark_fill_wf (m : Memory) (a : Nat) (b : Byte) (n l : Nat) (h : m.wf = true) : ((m.fill a b n).unmark a l).wf = true :=
  Memory.unmark_wf _ _ _ (Memory.fill_wf _ _ _ _ h)

/-- A state written field by field, but for what `Kept` names, from a state that carries it. -/
theorem Kept.beside {b : BeatNo} {c : BitVec 16} {g : Table Group} {u : Table GroupUnits} {cl : Table Cluster} {r : Table Ring}
    {w : WorkUnit} {ho : HostUnit} {fa : FaultUnit} {ms : MemorySystem} {po : PowerUnit} {rs : ResetUnit} {mo : ModeUnit} {pi : PinUnit}
    {li : LinkUnit} {se : SecurityUnit} {cf : ConfigUnit} {le : LedgerUnit} {te : TestUnit} (h : Kept s0 s)
    (hj : w.jobs = s.work.jobs := by rfl) (hr : ho.hostRam = s.host.hostRam := by rfl) :
    Kept s0 ⟨s.pending, b, c, s.free, s.mem, g, u, cl, r, w, ho, fa, ms, s.fuses, po, rs, mo, pi, li, se, cf, s.flash, le, te⟩ :=
  h.trans ⟨rfl, Nat.le_refl _, id, hr ▸ id, id, .refl _, hj ▸ id⟩

theorem Kept.withMem {m : Memory} (h : Kept s0 s) (hm : s.mem.wf = true → m.wf = true) : Kept s0 { s with mem := m } :=
  h.trans ⟨rfl, Nat.le_refl _, hm, id, id, .refl _, id⟩

theorem Kept.withRam {r : List Host.Cell} (h : Kept s0 s)
    (hr : cellsWf zeroByte s.host.hostRam = true → cellsWf zeroByte r = true) :
    Kept s0 { s with host := { s.host with hostRam := r } } :=
  h.trans ⟨rfl, Nat.le_refl _, id, hr, id, .refl _, id⟩

theorem Kept.withFlash {l : List Host.Cell} (h : Kept s0 s)
    (hl : cellsWf erasedByte s.flash.cells = true → cellsWf erasedByte l = true) : Kept s0 { s with flash := { cells := l } } :=
  h.trans ⟨rfl, Nat.le_refl _, id, id, hl, .refl _, id⟩

theorem Kept.withFuses {f : Fuses} (h : Kept s0 s) (hf : s.fuses.Kept f) : Kept s0 { s with fuses := f } :=
  h.trans ⟨rfl, Nat.le_refl _, id, id, id, hf, id⟩

theorem Kept.withJobs {j : Table Job} (h : Kept s0 s) (hj : s.work.jobs.rising → j.rising) :
    Kept s0 { s with work := { s.work with jobs := j } } :=
  h.trans ⟨rfl, Nat.le_refl _, id, id, id, .refl _, hj⟩

theorem Kept.withFree {n : Nat} (h : Kept s0 s) (hn : s.free ≤ n) : Kept s0 { s with free := n } :=
  h.trans ⟨rfl, hn, id, id, id, .refl _, id⟩

theorem Kept.when {c : Prop} [Decidable c] (h : Kept s0 s) (ht : Kept s0 s → Kept s0 t) : Kept s0 (if c then t else s) :=
  kept_ite (ht h) h

theorem Kept.unless {c : Prop} [Decidable c] (h : Kept s0 s) (ht : Kept s0 s → Kept s0 t) : Kept s0 (if c then s else t) :=
  kept_ite h (ht h)

theorem kept_ite_snd {α : Type} {c : Prop} [Decidable c] {a b : α × State} (ha : Kept s0 a.2) (hb : Kept s0 b.2) :
    Kept s0 (if c then a else b).2 := by
  split <;> assumption

theorem Kept.whenSnd {α : Type} {c : Prop} [Decidable c] {p : α × State} {a : α} (h : Kept s0 s) (hp : Kept s0 s → Kept s0 p.2) :
    Kept s0 (if c then p else (a, s)).2 :=
  kept_ite_snd (hp h) h

theorem Kept.unlessSnd {α : Type} {c : Prop} [Decidable c] {p : α × State} {a : α} (h : Kept s0 s) (hp : Kept s0 s → Kept s0 p.2) :
    Kept s0 (if c then (a, s) else p).2 :=
  kept_ite_snd h (hp h)

theorem keptOut_ite {c : Prop} [Decidable c] {a b : Out} (ha : KeptOut s a) (hb : KeptOut s b) : KeptOut s (if c then a else b) := by
  split <;> assumption

/-! ### Units, free values, events, completions and receipts -/

theorem Kept.reach {c} (h : Kept s0 s) : Kept s0 (s.reach c) :=
  h.when (·.beside)
theorem Kept.reachAbs {t} (h : Kept s0 s) : Kept s0 (s.reachAbs t) :=
  h.when (·.reach)
theorem Kept.modGroup {p f} (h : Kept s0 s) : Kept s0 (s.modGroup p f) :=
  h.beside
theorem Kept.modUnit {p f} (h : Kept s0 s) : Kept s0 (s.modUnit p f) :=
  h.beside
theorem Kept.modCluster {k f} (h : Kept s0 s) : Kept s0 (s.modCluster k f) :=
  h.beside
theorem Kept.modRing {k r f} (h : Kept s0 s) : Kept s0 (s.modRing k r f) :=
  h.beside

theorem Kept.modJob {id f} (h : Kept s0 s) : Kept s0 (s.modJob id f) := by
  unfold State.modJob
  split
  · exact h.withJobs (Table.rising_put _ _ _)
  · exact h

theorem Kept.modRun {id f} (h : Kept s0 s) : Kept s0 (s.modRun id f) :=
  h.beside
theorem Kept.modFunc {fn f} (h : Kept s0 s) : Kept s0 (s.modFunc fn f) :=
  h.beside
theorem Kept.modPort {n f} (h : Kept s0 s) : Kept s0 (s.modPort n f) :=
  h.beside
theorem Kept.modStack {n f} (h : Kept s0 s) : Kept s0 (s.modStack n f) :=
  h.beside
theorem Kept.modDie {n f} (h : Kept s0 s) : Kept s0 (s.modDie n f) :=
  h.beside
theorem Kept.takeFree {n} (h : Kept s0 s) : Kept s0 (s.takeFree n).2 :=
  h.withFree (Nat.le_add_right _ _)
theorem Kept.count {idx n} (h : Kept s0 s) : Kept s0 (s.count idx n) :=
  h.beside
theorem Kept.event {code body} (h : Kept s0 s) : Kept s0 (s.event code body) :=
  kept_ite h.beside h.beside.count
theorem Kept.fire {fn src} (h : Kept s0 s) : Kept s0 (s.fire fn src) :=
  h.modFunc
theorem Kept.writeCompletion {fn b} (h : Kept s0 s) : Kept s0 (s.writeCompletion fn b) :=
  (h.withRam (ramWriteN_wf _ _ _)).modFunc.fire
theorem Kept.backlog {fn b} (h : Kept s0 s) : Kept s0 (s.backlog fn b) :=
  h.modFunc.when (·.fire)
theorem Kept.complete {fn ty status tag body receipt job} (h : Kept s0 s) :
    Kept s0 (s.complete fn ty status tag body receipt job) :=
  kept_ite h.writeCompletion h.backlog
theorem Kept.writeReceipt {fn kind content} (h : Kept s0 s) : Kept s0 (s.writeReceipt fn kind content) :=
  (h.withRam (writeSlots_wf _ _ _ _ _)).modFunc.fire
theorem Kept.receiptItem {fn kind content job} (h : Kept s0 s) : Kept s0 (s.receiptItem fn kind content job) :=
  kept_ite h.writeReceipt (h.modFunc.when (·.fire))
theorem Kept.draw {n} (h : Kept s0 s) : Kept s0 (s.draw n) :=
  h.beside
theorem Kept.restartTests (h : Kept s0 s) : Kept s0 s.restartTests :=
  h.beside

theorem Kept.eraseShare (h : Kept s0 s) : Kept s0 s.eraseShare := by
  unfold State.eraseShare
  extract_lets
  split
  · exact h.beside.event
  · exact h.beside

theorem Kept.askBlock {d} (h : Kept s0 s) : Kept s0 (s.askBlock d) :=
  h.beside
theorem Kept.unaskBlock {d} (h : Kept s0 s) : Kept s0 (s.unaskBlock d) :=
  h.beside
theorem Kept.portState {n st} (h : Kept s0 s) : Kept s0 (s.portState n st) :=
  h.unless (·.modPort.fire)
theorem Kept.raise {unit kind op tag addr at_ job poisoned} (h : Kept s0 s) :
    Kept s0 (s.raise unit kind op tag addr at_ job poisoned) :=
  h.beside
theorem Kept.raiseVia {p unit kind op tag addr at_ poisoned} (h : Kept s0 s) :
    Kept s0 (s.raiseVia p unit kind op tag addr at_ poisoned) :=
  h.beside

/-! ### Faults and their reactions (R285 to R300) -/

theorem Kept.modCollector {i f} (h : Kept s0 s) : Kept s0 (s.modCollector i f) := by
  unfold State.modCollector
  split
  · exact h.modUnit
  · exact h.beside

theorem Kept.suspectRefusals {id} (h : Kept s0 s) : Kept s0 (s.suspectRefusals id) :=
  (kept_forAll h fun _ _ h => h.modCollector).beside

theorem Kept.meetRestarting {id} (h : Kept s0 s) : Kept s0 (s.meetRestarting id) := by
  unfold State.meetRestarting
  split
  · exact h.when (·.suspectRefusals.modJob.modRun)
  · exact h

theorem Kept.beginEpisodes {ids} (h : Kept s0 s) : Kept s0 (s.beginEpisodes ids) :=
  kept_forAll h fun _ _ h => h.modRun

theorem Kept.collect {w} (h : Kept s0 s) : Kept s0 (s.collect w) := by
  unfold State.collect
  extract_lets
  split
  · exact h
  · exact kept_ite h.modCollector (kept_ite (h.modCollector.when (·.meetRestarting)) h.modCollector.beside.beginEpisodes)

theorem Kept.appendLog {w} (h : Kept s0 s) : Kept s0 (s.appendLog w) :=
  (kept_forAll (kept_ite h.beside h.beside.fire) fun _ _ h => h.modRun).beside
theorem Kept.drainOne {i} (h : Kept s0 s) : Kept s0 (s.drainOne i) :=
  h.when (·.modCollector.appendLog)
theorem Kept.drain (h : Kept s0 s) : Kept s0 s.drain :=
  kept_forAll (kept_forAll h fun _ _ h => h.drainOne) fun _ _ h => h.drainOne
theorem Kept.managementRecord {kind op job addr} (h : Kept s0 s) : Kept s0 (s.managementRecord kind op job addr).2 :=
  h.beside.appendLog
theorem Kept.quarantineGroup {p} (h : Kept s0 s) : Kept s0 (s.quarantineGroup p) :=
  h.modGroup
theorem Kept.dueRetirement {p} (h : Kept s0 s) : Kept s0 (s.dueRetirement p) :=
  kept_ite h.modGroup h.managementRecord.modGroup
theorem Kept.blameGroup {p engine beat} (h : Kept s0 s) : Kept s0 (s.blameGroup p engine beat) :=
  h.quarantineGroup.modGroup.count.when (·.dueRetirement)
theorem Kept.sendControl {kind value beat key plan} (h : Kept s0 s) : Kept s0 (s.sendControl kind value beat key plan) :=
  h.beside
theorem Kept.askIdle {groups} (h : Kept s0 s) : Kept s0 (s.askIdle groups) :=
  kept_forAll h fun _ _ h => h.askBlock.askBlock

theorem Kept.fenceRestart {id kind point} (h : Kept s0 s) : Kept s0 (s.fenceRestart id kind point) := by
  unfold State.fenceRestart
  split
  · exact h
  · refine kept_ite h.modJob (kept_ite h.meetRestarting ?_)
    extract_lets _ s₁ s₂ s₃
    have h₃ : Kept s0 s₃ := h.askIdle.modJob.modRun
    split
    · exact h₃.unless (·.sendControl)
    · exact h₃

theorem Kept.fenceTerminate {id kind} (h : Kept s0 s) : Kept s0 (s.fenceTerminate id kind) := by
  unfold State.fenceTerminate
  split
  · exact h
  · extract_lets s₁ s₂ s₃
    have h₃ : Kept s0 s₃ := (h.unless (·.askIdle)).modJob.modRun
    split
    · exact h₃.unless (·.sendControl)
    · exact h₃

theorem Kept.refuseJob {id kind point} (h : Kept s0 s) : Kept s0 (s.refuseJob id kind point) := by
  unfold State.refuseJob
  split
  · exact h
  · exact kept_ite h.modRun.fenceTerminate (kept_ite h.modRun h.modRun.fenceTerminate)

theorem Kept.reactJob {id w} (h : Kept s0 s) : Kept s0 (s.reactJob id w) := by
  unfold State.reactJob
  extract_lets _ s₁ s₂
  have h₁ : Kept s0 s₁ := h.modJob
  have h₂ : Kept s0 s₂ := by
    unfold s₂
    split
    · exact h₁.when (·.modRun)
    · exact h₁
  split
  · exact h
  · refine h.unless fun _ => ?_
    split
    · exact kept_ite h₂.modRun.fenceTerminate h₂.fenceRestart
    · exact kept_ite h₂.refuseJob h₂.modRun.fenceTerminate
    · exact h₂

theorem Kept.deviceRecord {w} (h : Kept s0 s) : Kept s0 (s.deviceRecord w) := by
  unfold State.deviceRecord
  extract_lets _ _ s₁ _ _ s₂ s₃
  have h₂ : Kept s0 s₂ := by unfold s₂; split <;> exact h.beside
  have h₃ : Kept s0 s₃ := by
    unfold s₃
    split
    · exact (h₂.when (·.count)).when (·.blameGroup)
    · exact h₂
  exact kept_forAll h₃ fun _ _ h => h.reactJob

theorem Kept.recordNow {unit kind op addr} (h : Kept s0 s) : Kept s0 (s.recordNow unit kind op addr) :=
  h.beginEpisodes.deviceRecord.appendLog
theorem Kept.sign {ctx m} (h : Kept s0 s) : Kept s0 (s.sign ctx m).2 :=
  h.draw
theorem Kept.nextSerial (h : Kept s0 s) : Kept s0 s.nextSerial.2 :=
  h.beside
theorem Kept.deliverNotice {content fns} (h : Kept s0 s) : Kept s0 (s.deliverNotice content fns) :=
  (kept_forAll h fun _ _ h => h.receiptItem).unless (·.beside)
theorem Kept.issueNotice {body fns} (h : Kept s0 s) : Kept s0 (s.issueNotice body fns) :=
  kept_ite h.draw.deliverNotice h.restartTests.beside
theorem Kept.recall {kind fam visit groups first last trigger confirmed} (h : Kept s0 s) :
    Kept s0 (s.recall kind fam visit groups first last trigger confirmed) :=
  (kept_forAll h.nextSerial fun _ _ h => h.when (·.modRun)).beside.event.issueNotice
theorem Kept.divergeRestart {id kind groups} (h : Kept s0 s) : Kept s0 (s.divergeRestart id kind groups) :=
  h.modJob.modRun.fenceRestart
theorem Kept.markRepair {a} (h : Kept s0 s) : Kept s0 (s.markRepair a) :=
  h.beside
theorem Kept.failRow {a} (h : Kept s0 s) : Kept s0 (s.failRow a) :=
  h.beside
theorem Kept.countCorrected {a} (h : Kept s0 s) : Kept s0 (s.countCorrected a) :=
  h.modStack.beside.count
theorem Kept.loseLine {a} (h : Kept s0 s) : Kept s0 (s.loseLine a) :=
  (h.withMem (Memory.markLine_wf _ _)).modStack.beside.count.failRow
theorem Kept.loseKeyWord {a} (h : Kept s0 s) : Kept s0 (s.loseKeyWord a) :=
  (h.withMem (Memory.markWord_wf _ _)).modDie.markRepair

/-! ### The arithmetic clock (R411, R415, R416) -/

theorem Kept.announce {code} (h : Kept s0 s) : Kept s0 (s.announce code) := by
  unfold State.announce
  extract_lets
  split
  · exact h.beside
  · exact kept_ite h.beside h.beside

theorem Kept.dropStepUp (h : Kept s0 s) : Kept s0 s.dropStepUp :=
  h.unless (·.beside)
theorem Kept.decideStep {code} (h : Kept s0 s) : Kept s0 (s.decideStep code) :=
  kept_ite h.dropStepUp.announce (kept_ite h.dropStepUp (h.unless (·.beside)))
theorem Kept.memberStep {e pos code} (h : Kept s0 s) : Kept s0 (s.memberStep e pos code) :=
  h.beside
theorem Kept.applyCauses (h : Kept s0 s) : Kept s0 s.applyCauses :=
  kept_ite (h.unless (·.beside.sendControl.memberStep)) h.decideStep
theorem Kept.setPermit {cause code} (h : Kept s0 s) : Kept s0 (s.setPermit cause code) :=
  h.unless (·.beside.applyCauses)
theorem Kept.setCapped {capped} (h : Kept s0 s) : Kept s0 (s.setCapped capped) :=
  h.unless fun h => (h.beside.event.unless (·.setPermit)).unless (·.fire)

/-! ### The host's entries, locks and writes (R312 to R319) -/

theorem Kept.hostWrite {fn a data} (h : Kept s0 s) : Kept s0 (s.hostWrite fn a data).2 :=
  h.withMem fun hm => Memory.foldl_wf _ _ _ (fun m e hm => by
    dsimp only
    split
    · exact Memory.write_wf _ _ _ hm
    · exact hm) hm

theorem Kept.countRefused {fn} (h : Kept s0 s) : Kept s0 (s.countRefused fn) :=
  h.modFunc
theorem Kept.countPoison {fn} (h : Kept s0 s) : Kept s0 (s.countPoison fn) :=
  h.modFunc.fire
theorem Kept.completeControl {e status num job out} (h : Kept s0 s) : Kept s0 (s.completeControl e status num job out) :=
  h.complete
theorem Kept.dropEntry {e} (h : Kept s0 s) : Kept s0 (s.dropEntry e) :=
  h.beside

theorem Kept.onControl {sub f} (h : Kept s0 s) (hf : ∀ s e, Kept s0 s → Kept s0 (f s e)) : Kept s0 (s.onControl sub f) := by
  unfold State.onControl
  split
  · exact hf _ _ h.dropEntry
  · exact h

theorem Kept.refuseEntry {e st} (h : Kept s0 s) : Kept s0 (s.refuseEntry e st) :=
  h.complete
theorem Kept.makeVisible {e} (h : Kept s0 s) : Kept s0 (s.makeVisible e) :=
  kept_ite h.refuseEntry (kept_ite h.refuseEntry h.beside)

theorem Kept.visibility {es bl} (h : Kept s0 s) : Kept s0 (visibility es bl s) := by
  induction es generalizing bl s with
  | nil => exact h
  | cons e es ih => exact kept_ite (ih h.beside) (ih h.makeVisible)

theorem Kept.creditRise {fn before} (h : Kept s0 s) : Kept s0 (s.creditRise fn before) :=
  h.when (·.fire)
theorem Kept.entriesVisible (h : Kept s0 s) : Kept s0 s.entriesVisible :=
  kept_forAll h.beside.visibility fun _ _ h => h.creditRise
theorem Kept.lock {o a n} (h : Kept s0 s) : Kept s0 (s.lock o a n) :=
  h.unless (·.beside)
theorem Kept.unlock {o} (h : Kept s0 s) : Kept s0 (s.unlock o) :=
  h.beside

/-! ### Operands of engine commands (R180, R216) -/

theorem Kept.pushRows {k r stamp lanes i rows} (h : Kept s0 s) : Kept s0 (s.pushRows k r stamp lanes i rows) := by
  induction rows generalizing i s with
  | nil => exact h
  | cons w ws ih => exact ih (h.withMem (Memory.storeRow_wf _ _ _ _)).modRing

theorem Kept.pushSegment {k r first rows code at_ hdr carried} (h : Kept s0 s) :
    Kept s0 (s.pushSegment k r first rows code at_ hdr carried) :=
  h.modRing

theorem Kept.noteReads {k o rd} (h : Kept s0 s) : Kept s0 (s.noteReads k o rd) := by
  unfold State.noteReads
  split
  · exact h.modCluster
  · exact h.modRing
  · exact h

theorem Kept.popOperandRuns {k o n runs} (h : Kept s0 s) : Kept s0 (s.popOperandRuns k o n runs) := by
  unfold State.popOperandRuns
  split
  · exact h.modRing
  · exact h.modCluster
  · exact h

theorem Kept.popOperand {k o n at_} (h : Kept s0 s) : Kept s0 (s.popOperand k o n at_) :=
  h.popOperandRuns

theorem Kept.pushOperand {k o stamp lanes rows} (h : Kept s0 s) : Kept s0 (s.pushOperand k o stamp lanes rows) := by
  unfold State.pushOperand
  split
  · exact h.pushRows
  · exact h.modCluster
  · exact h

/-! ### A job's run (R30, R280, R313, R351) -/

theorem Kept.captureAt {id} (h : Kept s0 s) : Kept s0 (s.captureAt id) := by
  unfold State.captureAt
  split
  · exact h
  · exact h.when (·.modRun)

theorem Kept.clearMarks {j b} (h : Kept s0 s) : Kept s0 (s.clearMarks j b) :=
  h.beside

theorem Kept.releaseJob {id ended} (h : Kept s0 s) : Kept s0 (s.releaseJob id ended) := by
  unfold State.releaseJob
  split
  · exact h
  · exact (h.clearMarks.modJob.when (·.modRun)).beside

theorem Kept.settle {id pos beat} (h : Kept s0 s) : Kept s0 (s.settle id pos beat) := by
  unfold State.settle
  split
  · exact h
  · exact h.modRun

theorem Kept.sendToken {id j clear} (h : Kept s0 s) : Kept s0 (s.sendToken id j clear) := by
  unfold State.sendToken
  split
  · exact h
  · exact kept_ite h.sendControl.settle h.sendControl

theorem Kept.endJob {id f} (h : Kept s0 s) : Kept s0 (s.endJob id f) :=
  h.modJob.modRun

end

end Sys2Proof.Machine
end

section
/-!
PROOFS. What every step carries: the host's side, with key sets, areas and the life of a job (R67 to R78, R204 to R211,
R307 to R334).
-/
namespace Sys2Proof.Machine

section
/-! Each theorem is checked before the next begins. -/
set_option Elab.async false
variable {s0 s t : State}

/-! ### Key sets (R67 to R78) -/

theorem execRegisterKeyset_kept (h : Kept s0 s) : KeptOut s0 (execRegisterKeyset s) := by
  refine keptOut_live (h.unless fun h => h.onControl fun _ _ h => kept_ite h.completeControl (kept_ite h.completeControl ?_))
  split
  · exact h.completeControl
  · exact h.beside.lock.lock

theorem Kept.endRegistration {r status slot} (h : Kept s0 s) : Kept s0 (s.endRegistration r status slot) :=
  h.beside.unlock.complete

theorem execKeysetCommit_kept (h : Kept s0 s) : KeptOut s0 (execKeysetCommit s) := by
  refine keptOut_live ?_
  split
  · exact h
  · split
    · exact h.endRegistration
    · exact h.endRegistration
    · exact h.beside.endRegistration.event

theorem Kept.removeKeySet {slot k} (h : Kept s0 s) : Kept s0 (s.removeKeySet slot k) :=
  ((h.when (·.eraseShare)).withMem (Memory.unmark_fill_wf _ _ _ _ _)).beside.event

theorem execRemoveKeyset_kept (h : Kept s0 s) : KeptOut s0 (execRemoveKeyset s) := by
  refine keptOut_live (h.onControl fun _ _ h => ?_)
  extract_lets
  split
  · exact h.completeControl
  · exact kept_ite h.completeControl h.removeKeySet.completeControl

/-! ### Areas, transfers, removal and encoding (R312 to R323) -/

theorem execSubmissionWrite_kept {fn offset data tlps onStream} (h : Kept s0 s) :
    KeptOut s0 (execSubmissionWrite fn offset data tlps onStream s) :=
  keptOut_live (h.unless fun h => kept_ite h.modFunc (kept_ite h.modFunc h.beside))

theorem execDeleteArea_kept (h : Kept s0 s) : KeptOut s0 (execDeleteArea s) := by
  refine keptOut_live (h.onControl fun _ _ h => ?_)
  extract_lets
  split
  · exact h.completeControl
  · exact kept_ite h.completeControl (kept_ite h.completeControl h.beside.completeControl)

theorem execTransfer_kept (h : Kept s0 s) : KeptOut s0 (execTransfer s) := by
  refine keptOut_live ?_
  split
  · exact h
  · exact kept_ite h.dropEntry.complete h.dropEntry.beside

theorem Kept.moveTransfer {t} (h : Kept s0 s) : Kept s0 (s.moveTransfer t).2.2.2 := by
  unfold State.moveTransfer
  split
  · exact ((h.withRam (ramWriteN_wf _ _ _)).when (·.countRefused)).unless (·.countPoison)
  · exact h.hostWrite.when (·.countRefused)

theorem Kept.partTransfer {t} (h : Kept s0 s) : Kept s0 (s.partTransfer t).2 :=
  h.takeFree.hostWrite.when (·.countRefused)

theorem execTransferComplete_kept {fn hostOk} (h : Kept s0 s) : KeptOut s0 (execTransferComplete fn hostOk s) := by
  refine keptOut_live ?_
  split
  · exact h
  · exact h.unless fun h => kept_ite h.beside.partTransfer.complete h.beside.moveTransfer.complete

theorem execCancelJob_kept (h : Kept s0 s) : KeptOut s0 (execCancelJob s) := by
  refine keptOut_live (h.onControl fun _ _ h => ?_)
  extract_lets
  split
  · exact h.completeControl
  · exact kept_ite h.completeControl (kept_ite h.completeControl h.endJob.completeControl)

theorem execMarker_kept (h : Kept s0 s) : KeptOut s0 (execMarker s) := by
  refine keptOut_live ?_
  split
  · exact h
  · exact h.dropEntry.completeControl

theorem execRemoveProgram_kept (h : Kept s0 s) : KeptOut s0 (execRemoveProgram s) := by
  refine keptOut_live (h.onControl fun _ _ h => ?_)
  extract_lets
  split
  · exact h.completeControl
  · exact kept_ite h.completeControl (h.withMem (Memory.unmark_fill_wf _ _ _ _ _)).beside.completeControl

theorem Kept.finishEncode {e} (h : Kept s0 s) : Kept s0 (s.finishEncode e) := by
  unfold State.finishEncode
  extract_lets _ _ _ _ _ _ s₁
  have h₁ : Kept s0 s₁ := h.beside
  split
  · exact h₁.completeControl
  · split
    · exact h₁.completeControl
    · exact kept_ite h₁.completeControl (h₁.withMem (Memory.store_wf _ _ _)).completeControl

theorem execEncodeComplete_kept (h : Kept s0 s) : KeptOut s0 (execEncodeComplete s) := by
  refine keptOut_live ?_
  split
  · exact h
  · exact h.finishEncode

theorem Kept.drainCompletions {fn n} (h : Kept s0 s) : Kept s0 (drainCompletions fn n s) := by
  induction n generalizing s with
  | zero => exact h
  | succ n ih =>
    unfold Machine.drainCompletions
    split
    · exact h
    · exact kept_ite (ih h.modFunc.writeCompletion) h

theorem Kept.drainReceipts {fn n} (h : Kept s0 s) : Kept s0 (drainReceipts fn n s) := by
  induction n generalizing s with
  | zero => exact h
  | succ n ih =>
    unfold Machine.drainReceipts
    split
    · exact h
    · exact kept_ite (ih h.modFunc.writeReceipt) h

theorem Kept.drainNotices {fn n} (h : Kept s0 s) : Kept s0 (drainNotices fn n s) := by
  induction n generalizing s with
  | zero => exact h
  | succ n ih =>
    unfold Machine.drainNotices
    split
    · exact h
    · exact kept_ite (ih h.beside.receiptItem) h

theorem Kept.signWaiting (h : Kept s0 s) : Kept s0 s.signWaiting :=
  h.when fun h => kept_foldl h.beside fun _ _ h => h.issueNotice
theorem Kept.drainBacklog {fn} (h : Kept s0 s) : Kept s0 (s.drainBacklog fn) :=
  h.signWaiting.drainCompletions.drainReceipts.drainNotices

/-! ### Setting up the groups of a job (R206, R207) -/

theorem Kept.setRings {p k image} (h : Kept s0 s) : Kept s0 (s.setRings p k image) :=
  kept_forAll h fun _ _ h => kept_ite h.modRing h.modRing
theorem Kept.setCluster {p params l k} (h : Kept s0 s) : Kept s0 (s.setCluster p params l k) :=
  h.modCluster.setRings
theorem Kept.setGroup {id p params set l q} (h : Kept s0 s) : Kept s0 (s.setGroup id p params set l q) :=
  kept_forAll h.modGroup.modUnit fun _ _ h => h.setCluster
theorem Kept.setGroups {id p params a b} (h : Kept s0 s) : Kept s0 (s.setGroups id p params a b) :=
  kept_foldl (kept_foldl h fun _ _ h => h.setGroup) fun _ _ h => h.setGroup
theorem Kept.checkDescriptors {id p a} (h : Kept s0 s) : Kept s0 (s.checkDescriptors id p a) :=
  h.unless (·.raise)

/-! ### A job's life (R204 to R211) -/

theorem execJobEntry_kept (h : Kept s0 s) : KeptOut s0 (execJobEntry s) := by
  refine keptOut_live ?_
  split
  · exact h
  · have hd {e} : Kept s0 (s.dropEntry e) := h.dropEntry
    exact kept_ite hd.complete (kept_ite hd.complete (kept_ite hd.complete (kept_ite hd.complete
      (hd.withJobs (Table.rising_put _ _ _)).beside)))

theorem Kept.refuseMapping {id j st} (h : Kept s0 s) : Kept s0 (s.refuseMapping id j st) :=
  (h.withJobs (Table.rising_del _ _)).beside.complete
theorem Kept.lockJob {id p params} (h : Kept s0 s) : Kept s0 (s.lockJob id p params) :=
  kept_foldl h fun _ _ h => h.lock

theorem Kept.mapJob {id j slot p b a c} (h : Kept s0 s) : Kept s0 (s.mapJob id j slot p b a c) := by
  unfold State.mapJob
  extract_lets _ s₁ s₂ s₃ _ _ s₄ _ s₅
  have h₅ : Kept s0 s₅ := h.setGroups.checkDescriptors.lockJob.modRun.withJobs (Table.rising_put _ _ _)
  split
  · exact h₅.sendControl.modRun
  · exact h₅

theorem Kept.grantKey {id ksid len d} (h : Kept s0 s) (e : grantKey id ksid len d s = some t) : Kept s0 t := by
  unfold Machine.grantKey at e
  split at e
  · exact Option.some.inj e ▸ h.beside
  · extract_lets at e
    split at e
    · exact Option.some.inj e ▸ h.beside
    · cases e

theorem Kept.grantKeys {id p} (h : Kept s0 s) (e : s.grantKeys id p = some t) : Kept s0 t := by
  refine List.foldlRecOn (motive := fun o => ∀ t, o = some t → Kept s0 t) _ _ (fun t e => Option.some.inj e ▸ h) ?_ t e
  intro o ih d _ t e
  split at e
  · cases e
  · have h₁ := ih _ rfl
    split at e
    · exact h₁.grantKey e
    · exact Option.some.inj e ▸ h₁

theorem Kept.tryMap {id j} (h : Kept s0 s) : Kept s0 (s.tryMap id j) := by
  unfold State.tryMap
  extract_lets
  refine kept_ite h.refuseMapping ?_
  split
  · exact h
  · refine h.unless fun _ => ?_
    split
    · exact h
    · split
      · exact h
      · next hg => exact (h.grantKeys hg).mapJob

theorem execJobMapping_kept {job} (h : Kept s0 s) : KeptOut s0 (execJobMapping job s) := by
  refine keptOut_live (h.unless fun h => ?_)
  split
  · exact h.when (·.tryMap)
  · exact h

theorem Kept.startCore {k} (h : Kept s0 s) : Kept s0 (s.startCore k) :=
  h.modCluster
theorem Kept.firstIssue {id j} (h : Kept s0 s) : Kept s0 (s.firstIssue id j) :=
  (kept_forAll h fun _ _ h => h.startCore).modJob.modRun.captureAt

theorem execJobFirstIssue_kept {job} (h : Kept s0 s) : KeptOut s0 (execJobFirstIssue job s) := by
  refine keptOut_live (h.unless fun h => ?_)
  split
  · exact h.when (·.firstIssue)
  · exact h

theorem Kept.freeGroups {j} (h : Kept s0 s) : Kept s0 (s.freeGroups j) :=
  kept_forAll h fun _ _ h => kept_forAll h.modGroup fun _ _ h => h.modCluster

theorem Kept.restoreJob {places cp} (h : Kept s0 s) : Kept s0 (s.restoreJob places cp) := by
  refine kept_foldl h fun _ _ h => kept_forAll h.modUnit fun _ _ h => ?_
  split
  · exact h.modCluster
  · exact h

theorem Kept.restartJob {id j} (h : Kept s0 s) : Kept s0 (s.restartJob id j) := by
  unfold State.restartJob
  extract_lets _ _ t₀ cp
  have h₀ : Kept s0 t₀ := h.freeGroups
  split
  · exact h
  · extract_lets _ _ _ t₂ t₃ t₄ t₅
    have h₂ : Kept s0 t₂ := h₀.setGroups.checkDescriptors.withJobs (Table.rising_put _ _ _)
    have h₃ : Kept s0 t₃ := by
      unfold t₃ cp
      split
      · exact h₂.restoreJob
      · exact h₂
    have h₅ : Kept s0 t₅ := h₃.modRun.count
    split
    · exact h₅.sendControl.modRun
    · exact h₅

theorem Kept.badCopy {id} (h : Kept s0 s) : Kept s0 (s.badCopy id) :=
  kept_ite h.raise.fenceTerminate h.raise.modRun

theorem execJobRestart_kept {job} (h : Kept s0 s) : KeptOut s0 (execJobRestart job s) := by
  refine keptOut_live (h.unless fun h => ?_)
  split
  · exact h.when fun h => kept_ite h.badCopy h.restartJob
  · exact h

theorem execJobDeadline_kept {job} (h : Kept s0 s) : KeptOut s0 (execJobDeadline job s) := by
  refine keptOut_live ?_
  split
  · exact h.when (·.endJob)
  · exact h

theorem Kept.reapAreas (h : Kept s0 s) : Kept s0 s.reapAreas :=
  h.beside
theorem Kept.markResident {j p} (h : Kept s0 s) : Kept s0 (s.markResident j p) :=
  kept_forAll h fun _ _ h => h.modGroup
theorem Kept.logReceipt {r serial fn} (h : Kept s0 s) : Kept s0 (s.logReceipt r serial fn) :=
  kept_foldl h fun _ _ h => h.beside
theorem Kept.releaseAll {id j} (h : Kept s0 s) : Kept s0 (s.releaseAll id j) :=
  (h.withJobs (Table.rising_del _ _)).beside.freeGroups.unlock.reapAreas

theorem Kept.finishJob {id j} (h : Kept s0 s) : Kept s0 (s.finishJob id j) := by
  unfold State.finishJob
  extract_lets
  split
  next hs =>
    have h₁ := kept_of_snd hs (by split; exacts [h.nextSerial, h])
    exact ((h₁.when (·.markResident)).releaseAll.when (·.logReceipt.beside)).unless (·.complete)

theorem execJobCompletion_kept {job} (h : Kept s0 s) : KeptOut s0 (execJobCompletion job s) := by
  refine keptOut_live ?_
  split
  · exact h
  · refine kept_ite h.finishJob ?_
    split
    · exact h.beside.unless (·.complete)
    · exact h

theorem execExtentDigestDone_kept {job} (h : Kept s0 s) : KeptOut s0 (execExtentDigestDone job s) := by
  refine keptOut_live ?_
  split
  · exact h
  · exact kept_ite h.restartTests h.draw.beside.receiptItem

/-! ### The host port and its events (R307 to R334) -/

theorem execBar2Read_kept {fn offset length onStream} (h : Kept s0 s) : KeptOut s0 (execBar2Read fn offset length onStream s) := by
  refine keptOut_live (h.unless fun h => ?_)
  extract_lets
  split
  exact (h.beside.when (·.countRefused)).unless (·.countPoison)

theorem execConfigRequest_kept {fn a} (h : Kept s0 s) : KeptOut s0 (execConfigRequest fn a s) := by
  refine keptOut_live (h.unless fun h => kept_ite h.modFunc ?_)
  split
  · exact h.modFunc
  · exact h.takeFree.modFunc

theorem Kept.flr {fn} (h : Kept s0 s) : Kept s0 (s.flr fn) :=
  (kept_forAll h fun _ _ h => h.endJob.modJob).beside.modFunc.reapAreas
theorem Kept.flrAll (h : Kept s0 s) : Kept s0 s.flrAll :=
  kept_forAll h fun _ _ h => h.flr
theorem Kept.setPin {i active} (h : Kept s0 s) : Kept s0 (s.setPin i active) :=
  h.beside
theorem Kept.trainHost (h : Kept s0 s) : Kept s0 s.trainHost :=
  h.takeFree.beside

theorem Kept.pePerst {active} (h : Kept s0 s) : Kept s0 (s.pePerst active) := by
  unfold State.pePerst
  extract_lets s₁ s₂
  have h₂ : Kept s0 s₂ := h.setPin.flrAll
  clear_value s₂
  exact kept_ite h₂.beside (h.setPin.when (·.beside.trainHost))

theorem Kept.message {fn v} (h : Kept s0 s) : Kept s0 (s.message fn v) :=
  kept_ite h.modFunc (h.withRam (ramWriteN_wf _ _ _))
theorem Kept.releaseMessage {fn v} (h : Kept s0 s) : Kept s0 (s.releaseMessage fn v) :=
  h.when (·.modFunc.message)
theorem Kept.take {fn src} (h : Kept s0 s) : Kept s0 (s.take fn src) :=
  h.when (·.modFunc.message)
theorem Kept.completeSource {fn src} (h : Kept s0 s) : Kept s0 (s.completeSource fn src) :=
  kept_ite h.modFunc h.modFunc.take
theorem execEvSet_kept {fn v w} (h : Kept s0 s) : KeptOut s0 (execEvSet fn v w s) :=
  keptOut_live (h.unless fun h => kept_forAll h fun _ _ h => h.fire)
theorem execEvComplete_kept {fn v w} (h : Kept s0 s) : KeptOut s0 (execEvComplete fn v w s) :=
  keptOut_live (h.unless fun h => kept_forAll h fun _ _ h => h.completeSource)
theorem execEvMaskWrite_kept {fn v w} (h : Kept s0 s) : KeptOut s0 (execEvMaskWrite fn v w s) :=
  keptOut_live (h.unless fun h => kept_forAll h.modFunc fun _ _ h => h.take)
theorem execStickyClear_kept {reg v w} (h : Kept s0 s) : KeptOut s0 (execStickyClear reg v w s) :=
  keptOut_live (h.unless (·.beside))
theorem execLogTailWrite_kept {v} (h : Kept s0 s) : KeptOut s0 (execLogTailWrite v s) :=
  keptOut_live (h.unless fun h => h.when (·.beside))
theorem Kept.returnD0 {fn} (h : Kept s0 s) : Kept s0 (s.returnD0 fn) :=
  (kept_forAll h.modFunc fun _ _ h => h.releaseMessage).drainBacklog

end

end Sys2Proof.Machine
end

section
/-!
PROOFS. What every step carries: the issue port, the engines and the transfers (R95 to R187, R220 to R231).
-/
namespace Sys2Proof.Machine

section
/-! Each theorem is checked before the next begins. -/
set_option Elab.async false
variable {s0 s t : State}

/-! ### The issue port (R170 to R173, R231) -/

theorem Kept.clusterFault {k engine sub kind op tag addr at_ poisoned} (h : Kept s0 s) :
    Kept s0 (s.clusterFault k engine sub kind op tag addr at_ poisoned) :=
  h.raise
theorem Kept.groupFault {p engine sub kind op tag addr at_ poisoned} (h : Kept s0 s) :
    Kept s0 (s.groupFault p engine sub kind op tag addr at_ poisoned) :=
  h.raise
theorem Kept.issueFault {k kind op} (h : Kept s0 s) : Kept s0 (s.issueFault k kind op) :=
  h.clusterFault
theorem Kept.violateBy {k word check engine ring op at_ addr refused} (h : Kept s0 s) :
    Kept s0 (s.violateBy k word check engine ring op at_ addr refused) :=
  h.modCluster
theorem Kept.violate {k check engine ring op at_ addr refused} (h : Kept s0 s) :
    Kept s0 (s.violate k check engine ring op at_ addr refused) :=
  h.violateBy
theorem Kept.advance {k words cost} (h : Kept s0 s) : Kept s0 (s.advance k words cost) :=
  h.modCluster
theorem Kept.stamp {k at_} (h : Kept s0 s) : Kept s0 (s.stamp k at_) :=
  h.modCluster
theorem Kept.item {k words cost op f} (h : Kept s0 s) (hf : ∀ s, Kept s0 s → Kept s0 (f s)) :
    Kept s0 (s.item k words cost op f) :=
  kept_ite h (kept_ite h.issueFault (hf _ h))
theorem Kept.occupy {k engine t} (h : Kept s0 s) : Kept s0 (s.occupy k engine t) :=
  h.modCluster

theorem Kept.command {k c sh engine own run bar} (h : Kept s0 s) (hr : ∀ s x t, Kept s0 s → Kept s0 (run s x t)) :
    Kept s0 (s.command k c sh engine own run bar) := by
  refine h.item fun s h => ?_
  extract_lets t
  split
  · exact h
  · have hnext := h.advance (k := k) (words := 4) (cost := 1)
    split
    · exact h.issueFault.advance
    · exact hnext.violate
    · exact hnext.violate
    · refine kept_ite ?_ h.issueFault.advance
      split
      · exact hnext.violate
      · exact hr _ _ _ hnext.stamp

theorem Kept.clustersCommand {ks p c sh engines own run bar} (h : Kept s0 s)
    (hr : ∀ s x t ks code, Kept s0 s → Kept s0 (run s x t ks code)) :
    Kept s0 (s.clustersCommand ks p c sh engines own run bar) := by
  unfold State.clustersCommand
  refine h.item fun s h => ?_
  extract_lets t issuing passed next
  have hpassed : Kept s0 passed := kept_foldl h fun _ _ h => h.advance
  have hnext : Kept s0 next := kept_foldl hpassed fun _ _ h => h.stamp
  split
  · exact h
  · refine kept_ite h.issueFault.advance ?_
    split
    · exact hpassed.violate
    · split
      · exact hpassed.violate
      · split
        · exact hpassed.violate
        · exact kept_ite (hr _ _ _ _ _ hnext) (hr _ _ _ _ _ hnext.violate)

theorem Kept.groupCommand {p c sh engines own run} (h : Kept s0 s) (hr : ∀ s x t ks code, Kept s0 s → Kept s0 (run s x t ks code)) :
    Kept s0 (s.groupCommand p c sh engines own run) :=
  h.clustersCommand hr

theorem Kept.consumeLoaded {k engine o code op t} (h : Kept s0 s) : Kept s0 (s.consumeLoaded k engine o code op t) := by
  unfold State.consumeLoaded
  split
  · exact h.when (·.clusterFault)
  · exact h

theorem Kept.spend {n} (h : Kept s0 s) : Kept s0 (s.spend n) :=
  h.withFree (Nat.le_add_right _ _)
theorem Kept.operandRange {k engine o op at_ bad} (h : Kept s0 s) : Kept s0 (s.operandRange k engine o op at_ bad).2 :=
  h.unlessSnd fun h => kept_ite_snd h.clusterFault h.clusterFault
theorem Kept.meetAbsent {k engine op t} (h : Kept s0 s) : Kept s0 (s.meetAbsent k engine op t).2 :=
  h.clusterFault

theorem Kept.readRows {k engine o rd op t dep} (h : Kept s0 s) : Kept s0 (s.readRows k engine o rd op t dep).2 := by
  unfold State.readRows
  extract_lets _ s₁
  have h₁ : Kept s0 s₁ := h.noteReads
  refine kept_ite_snd h₁.meetAbsent (kept_ite_snd h₁.violate (kept_ite_snd h₁.violate (kept_ite_snd h₁.clusterFault ?_)))
  split
  · split
    · exact h₁
    · dsimp only
      exact h₁.modRing
  · exact h₁

theorem Kept.readCheck {k engine o idx c t} (h : Kept s0 s) : Kept s0 (s.readCheck k engine o idx c t).2 :=
  h.readRows
theorem Kept.writeCheck {k engine o n op t stamp} (h : Kept s0 s) : Kept s0 (s.writeCheck k engine o n op t stamp).2 :=
  h.unlessSnd (·.violate)

theorem Kept.closeOutput {k o rows code at_ hdr carried} (h : Kept s0 s) : Kept s0 (s.closeOutput k o rows code at_ hdr carried) := by
  unfold State.closeOutput
  split
  · exact h.when (·.pushSegment)
  · exact h.modCluster
  · exact h

theorem Kept.noteWork {k engine o rows t last} (h : Kept s0 s) : Kept s0 (s.noteWork k engine o rows t last) := by
  unfold State.noteWork
  extract_lets
  split
  · exact h.modCluster.modRing
  · exact h.modCluster

theorem Kept.poisonOut {k r first n code} (h : Kept s0 s) : Kept s0 (s.poisonOut k r first n code) := by
  unfold State.poisonOut
  exact (kept_foldl h fun _ _ h1 => h1.withMem (Memory.storeRow_wf _ _ _ _)).modRing

/-! ### The vector engine (R95 to R113) -/

theorem Kept.veOpen {k x c t rule form ins npoly own} (h : Kept s0 s) : Kept s0 (s.veOpen k x c t rule form ins npoly own).2 := by
  refine kept_ite_snd (h.unlessSnd fun h => kept_ite h.clusterFault (kept_foldl h fun _ _ h => h.consumeLoaded)) ?_
  split
  · exact h
  · exact h.violate

theorem Kept.veClose {k c o n rows code t last} (h : Kept s0 s) : Kept s0 (s.veClose k c o n rows code t last) :=
  kept_ite ((kept_ite h.noteWork.noteWork.closeOutput h.noteWork.noteWork.closeOutput).when (·.closeOutput)).modCluster
    h.noteWork.noteWork.modCluster

/-- What VE.CHAIN pops of one operand: a broadcast one at the end of an object only (R102). -/
theorem Kept.popFeed {c₁ c₂ : Prop} [Decidable c₁] [Decidable c₂] {k o n m at_} (h : Kept s0 s) :
    Kept s0 (if c₁ then (if c₂ then s.popOperand k o n at_ else s) else s.popOperand k o m at_) :=
  kept_ite (h.when (·.popOperand)) h.popOperand

theorem Kept.chainRun {k c x t} (h : Kept s0 s) : Kept s0 (s.chainRun k c x t) :=
  (((((h.veOpen.whenSnd (·.readCheck)).whenSnd (·.readCheck)).whenSnd (·.readCheck)).writeCheck.writeCheck
    |>.operandRange.operandRange.operandRange.when (·.pushOperand)).when (·.pushOperand)).popFeed.popFeed.popFeed.veClose.occupy

theorem Kept.placeRow {k r off stamp w lanes} (h : Kept s0 s) : Kept s0 (s.placeRow k r off stamp w lanes) := by
  unfold State.placeRow
  exact (h.withMem (Memory.storeRow_wf _ _ _ _)).modRing

theorem Kept.tensorRun {k c x t} (h : Kept s0 s) : Kept s0 (s.tensorRun k c x t) := by
  dsimp only [State.tensorRun]
  refine Kept.occupy (Kept.veClose ?_)
  split
  · refine Kept.modRing (.popOperandRuns (.popOperandRuns (kept_foldl ?_ fun _ _ h => kept_foldl h fun _ _ h => h.placeRow)))
    exact .operandRange (.operandRange (h.veOpen.readRows.readRows.whenSnd (·.writeCheck)))
  · refine Kept.popOperandRuns (.popOperandRuns ?_)
    split
    · refine kept_foldl ?_ fun _ _ h => kept_foldl h fun _ _ h => h.placeRow
      exact .operandRange (.operandRange (h.veOpen.readRows.readRows.whenSnd (·.writeCheck)))
    · exact .pushOperand (.operandRange (.operandRange (h.veOpen.readRows.readRows.whenSnd (·.writeCheck))))

theorem Kept.pushPlane {ks o share last plane code} (h : Kept s0 s) : Kept s0 (s.pushPlane ks o share last plane code) :=
  kept_foldl h fun _ _ h => h.pushOperand
theorem Kept.spanChecks {ks engine c rd rowsOut t stamp} (h : Kept s0 s) :
    Kept s0 (s.spanChecks ks engine c rd rowsOut t stamp).2 :=
  kept_foldl_snd h fun _ _ h => h.readRows.writeCheck
theorem Kept.refuseSpan {k engine c t v} (h : Kept s0 s) : Kept s0 (s.refuseSpan k engine c t v) :=
  kept_ite h.clusterFault h.consumeLoaded

theorem Kept.switchRun {c x t ks pre modsw} (h : Kept s0 s) : Kept s0 (s.switchRun c x t ks pre modsw) := by
  have hranged {v op e rd rows last bad} : Kept s0 ((((s.refuseSpan (ks.headD 0) 1 c t v).spanChecks ks 1 c rd rows t last).2).operandRange
      (ks.headD 0) 1 op e t bad).2 := h.refuseSpan.spanChecks.operandRange
  dsimp only [State.switchRun]
  exact kept_foldl (kept_ite (kept_foldl hranged fun _ _ h => h.pushPlane) (kept_foldl hranged fun _ _ h => h.pushPlane))
    fun _ _ h => h.popOperandRuns.noteWork.closeOutput.occupy.occupy

theorem Kept.cvtinRun {k c x t} (h : Kept s0 s) : Kept s0 (s.cvtinRun k c x t) :=
  (kept_foldl (((h.unless (·.violate)).when (·.clusterFault)).readCheck.writeCheck.unless (·.modCluster)) fun _ _ h =>
    h.pushOperand).popOperand.veClose.occupy
theorem Kept.cvtoutRun {k c x t} (h : Kept s0 s) : Kept s0 (s.cvtoutRun k c x t) :=
  (h.veOpen.readRows.writeCheck.operandRange.unless (·.modCluster)).pushOperand.popOperandRuns.veClose.occupy
theorem Kept.gatherRun {k c t} (h : Kept s0 s) : Kept s0 (s.gatherRun k c t) :=
  (h.readCheck.readRows.writeCheck.unless (·.modCluster)).pushOperand.popOperandRuns.noteWork.closeOutput.occupy
theorem Kept.autoRun {c x t ks pre} (h : Kept s0 s) : Kept s0 (s.autoRun c x t ks pre) :=
  kept_foldl (kept_foldl h.veOpen.spanChecks.operandRange fun _ _ h => h.pushPlane) fun _ _ h => h.popOperandRuns.veClose.occupy
theorem Kept.fillRun {k c x t} (h : Kept s0 s) : Kept s0 (s.fillRun k c x t) :=
  (h.veOpen.whenSnd (·.meetAbsent)).writeCheck.pushOperand.veClose.occupy
theorem Kept.ldprogRun {k c t} (h : Kept s0 s) : Kept s0 (s.ldprogRun k c t) :=
  ((h.readCheck.when (·.clusterFault)).when (·.modCluster)).popOperand.occupy
theorem Kept.ldconstRun {k c x t} (h : Kept s0 s) : Kept s0 (s.ldconstRun k c x t) :=
  ((h.readCheck.when (·.clusterFault)).when (·.modCluster)).popOperand.occupy

/-! ### The residue matrix engine (R123 to R140) -/

theorem Kept.gbStore {p row w} (h : Kept s0 s) : Kept s0 (s.gbStore p row w) :=
  (h.withMem (Memory.storeRow_wf _ _ _ _)).modUnit
theorem Kept.gbWrite {p row at_ w} (h : Kept s0 s) : Kept s0 (s.gbWrite p row at_ w) :=
  h.modUnit
theorem Kept.gbSettle {p x} (h : Kept s0 s) : Kept s0 (s.gbSettle p x) :=
  h.unless fun h => (kept_foldl h fun _ _ h => h.gbStore).modUnit
theorem Kept.useFeeds {p t new} (h : Kept s0 s) : Kept s0 (s.useFeeds p t new) :=
  h.modUnit
theorem Kept.takeSlots {p t runs} (h : Kept s0 s) : Kept s0 (s.takeSlots p t runs) :=
  h.modUnit

theorem Kept.rmeOut {p o n i0 at_ planes code} (h : Kept s0 s) : Kept s0 (s.rmeOut p o n i0 at_ planes code) := by
  unfold State.rmeOut
  split
  · exact kept_foldl h fun _ _ h => kept_foldl h fun _ _ h => h.gbWrite
  · exact kept_foldl h fun _ _ h => kept_foldl h fun _ _ h => h.pushOperand

theorem Kept.tileReadCheck {p rd c t} (h : Kept s0 s) : Kept s0 (s.tileReadCheck p rd c t).2 := by
  unfold State.tileReadCheck
  extract_lets _ s₁
  have h₁ : Kept s0 s₁ := h.modUnit
  refine kept_ite_snd h₁.groupFault (kept_ite_snd h₁.violate (kept_ite_snd h₁.violate ?_))
  split
  · exact h₁.groupFault
  · exact h₁

theorem Kept.rmeReadCheck {p o count n at_ c t} (h : Kept s0 s) : Kept s0 (s.rmeReadCheck p o count n at_ c t).2 := by
  unfold State.rmeReadCheck
  split
  · exact h.tileReadCheck
  · exact kept_foldl_snd h fun _ _ h => h.readRows

theorem Kept.rmeWriteCheck {p o count n at_ c t} (h : Kept s0 s) : Kept s0 (s.rmeWriteCheck p o count n at_ c t).2 := by
  unfold State.rmeWriteCheck
  split
  · exact h.whenSnd (·.violate)
  · exact kept_foldl_snd h fun _ _ h => h.writeCheck

theorem Kept.rmePop {p o count n at_} (h : Kept s0 s) : Kept s0 (s.rmePop p o count n at_) :=
  kept_foldl h fun _ _ h => h.popOperandRuns
theorem Kept.rmeClose {p o rows code last hdr carried} (h : Kept s0 s) : Kept s0 (s.rmeClose p o rows code last hdr carried) :=
  kept_foldl h fun _ _ h => h.closeOutput

theorem Kept.rmeNote {p engine o count n t last} (h : Kept s0 s) : Kept s0 (s.rmeNote p engine o count n t last) := by
  unfold State.rmeNote
  extract_lets
  split
  · exact (kept_foldl h fun _ _ h => h.noteWork).modUnit
  · exact kept_foldl h fun _ _ h => h.noteWork

theorem Kept.holdRows {p first last residues} (h : Kept s0 s) : Kept s0 (s.holdRows p first last residues) :=
  h.modUnit
theorem Kept.rmeClash {p k first n mac feeds c t} (h : Kept s0 s) : Kept s0 (s.rmeClash p k first n mac feeds c t).2 :=
  (h.when (·.violate)).useFeeds
theorem Kept.bconvRun {k c x t} (h : Kept s0 s) : Kept s0 (s.bconvRun k c x t) :=
  (h.rmeClash.rmeReadCheck.unlessSnd
    (·.tileReadCheck)).rmeWriteCheck.operandRange.operandRange.rmeOut.rmePop.rmeClose.takeSlots.rmeNote.holdRows
theorem Kept.modKc {e g} (h : Kept s0 s) : Kept s0 (s.modKc e g) :=
  h.beside

theorem Kept.kipRun {k c x t} (h : Kept s0 s) : Kept s0 (s.kipRun k c x t) := by
  unfold State.kipRun
  extract_lets
  split
  next s₁ e₁ =>
  have h₁ : Kept s0 s₁ := kept_of_snd e₁ h.rmeClash
  extract_lets
  rename State => s₂
  have h₂ : Kept s0 s₂ := kept_foldl h₁ fun _ _ h => h.when (·.groupFault)
  split
  next s₃ e₃ =>
  have h₃ : Kept s0 s₃ := kept_of_snd e₃ h₂.rmeReadCheck
  split
  next s₄ e₄ =>
  have h₄ : Kept s0 s₄ := kept_of_snd e₄ h₃.rmeWriteCheck
  extract_lets
  rename State => s₅
  have hkc {o : Option KcEntry} {b : Bool} {f : KcEntry → KcEntry → KcEntry} : Kept s0 (match o with
      | some e => if b then s₄ else s₄.modKc e (f e)
      | none => s₄) := by
    split
    · exact h₄.unless (·.modKc)
    · exact h₄
  have h₅ : Kept s0 s₅ :=
    ((((hkc.when (·.groupFault)).when (·.groupFault)).when (·.violate)).when (·.groupFault)).when (·.groupFault)
  clear_value s₅
  split
  next s₆ e₆ =>
  have h₆ : Kept s0 s₆ := kept_of_snd e₆ h₅.operandRange
  extract_lets
  rename State => s₇
  have h₇ : Kept s0 s₇ := by
    refine Kept.holdRows (.rmeNote (.takeSlots (.unless (.rmePop ?_) (·.modUnit))))
    exact kept_foldl (h₆.when (·.groupFault)) fun _ _ h => h.rmeOut.rmeClose
  exact h₇.modUnit

theorem Kept.combineReads {ps o x c count t start} (h : Kept s0 s) : Kept s0 (s.combineReads ps o x c count t start).2 := by
  unfold State.combineReads
  extract_lets
  split
  · exact kept_foldl_snd h fun _ _ h => h.tileReadCheck
  · exact kept_foldl_snd h fun _ _ h => h.readRows

theorem Kept.combinePop {ps o x count start} (h : Kept s0 s) : Kept s0 (s.combinePop ps o x count start) :=
  kept_foldl h fun _ _ h => h.popOperandRuns

theorem Kept.combineRun {c x t leads pre0} (h : Kept s0 s) : Kept s0 (s.combineRun c x t leads pre0) := by
  unfold State.combineRun
  extract_lets
  rename State => s₁
  have h₁ : Kept s0 s₁ := kept_foldl ((kept_ite h.groupFault h.consumeLoaded).when (·.violate)) fun _ _ h => h.useFeeds
  clear_value s₁
  split
  next s₂ e₂ =>
  have h₂ : Kept s0 s₂ := kept_of_snd e₂ h₁.combineReads
  split
  next s₃ e₃ =>
  have h₃ : Kept s0 s₃ := kept_of_snd e₃ h₂.combineReads
  split
  next s₄ e₄ =>
  have h₄ : Kept s0 s₄ := kept_of_snd e₄ h₃.combineReads
  split
  next s₅ e₅ =>
  have h₅ : Kept s0 s₅ := kept_of_snd e₅ (kept_foldl_snd h₄ fun _ _ h => h.writeCheck)
  extract_lets
  split
  next s₆ e₆ =>
  have h₆ : Kept s0 s₆ := kept_of_snd e₆ h₅.operandRange
  split
  next s₇ e₇ =>
  have h₇ : Kept s0 s₇ := kept_of_snd e₇ h₆.operandRange
  split
  next s₈ e₈ =>
  have h₈ : Kept s0 s₈ := kept_of_snd e₈ h₇.operandRange
  extract_lets
  rename State => s₉
  have h₉ : Kept s0 s₉ := kept_foldl
    (kept_foldl h₈ fun _ _ h => kept_foldl h fun _ _ h => h.pushOperand).combinePop.combinePop.combinePop
    fun _ _ h => h.noteWork.closeOutput
  clear_value s₉
  exact kept_foldl h₉ fun _ _ h => (h.when (·.takeSlots)).occupy

/-! ### The refresh sequencer (R157 to R166) -/

theorem Kept.holdForRefresh {groups last} (h : Kept s0 s) : Kept s0 (s.holdForRefresh groups last) :=
  kept_foldl h fun _ _ h => (kept_foldl (kept_foldl h fun _ _ h => kept_foldl h fun _ _ h => h.occupy) fun _ _ h =>
    h.occupy).holdRows
theorem Kept.refreshFinish {p x f last} (h : Kept s0 s) : Kept s0 (s.refreshFinish p x f last) :=
  kept_foldl (kept_foldl (kept_foldl (kept_foldl_snd h fun _ _ h => h.writeCheck) fun _ _ h => h.pushPlane) fun _ _ h =>
    h.noteWork.closeOutput) fun _ _ h => h.modUnit.spend

theorem Kept.refRunRun {k c x t} (h : Kept s0 s) : Kept s0 (s.refRunRun k c x t) := by
  unfold State.refRunRun
  extract_lets
  rename State => s₁
  have h₁ : Kept s0 s₁ := kept_ite h.groupFault h.consumeLoaded
  clear_value s₁
  split
  next s₂ e₂ =>
  have h₂ : Kept s0 s₂ := kept_of_snd e₂ (kept_foldl_snd h₁ fun _ _ h => h.readRows)
  extract_lets
  split
  next s₃ e₃ =>
  have h₃ : Kept s0 s₃ := kept_of_snd e₃ h₂.operandRange
  extract_lets
  rename State => s₄
  have h₄ : Kept s0 s₄ :=
    (kept_foldl (h₃.unless fun h => kept_ite h.violate h.groupFault) fun _ _ h => h.popOperand).holdForRefresh
  clear_value s₄
  exact kept_ite h₄.refreshFinish h₄.modUnit

theorem execRefreshResume_kept {g} (h : Kept s0 s) : KeptOut s0 (execRefreshResume g s) := by
  refine keptOut_live ?_
  split
  · exact h.when fun h => kept_ite h.refreshFinish h.modUnit
  · exact h

/-! ### The stream unit (R220 to R226) -/

theorem Kept.endLoad {k r rows} (h : Kept s0 s) : Kept s0 (s.endLoad k r rows) :=
  kept_ite h.modCluster h.modRing
theorem Kept.suAbsent {k c t} (h : Kept s0 s) : Kept s0 (s.suAbsent k c t).2 :=
  h.whenSnd (·.meetAbsent)
theorem Kept.releasePoison {k role sg opc a t} (h : Kept s0 s) : Kept s0 (s.releasePoison k role sg opc a t) :=
  kept_ite (h.when (·.clusterFault)) (h.when (·.clusterFault))

theorem Kept.suMove {k c x t t0 word m unset} (h : Kept s0 s) : Kept s0 (s.suMove k c x t t0 word m unset) := by
  unfold State.suMove
  split
  split
  · exact h.violateBy
  · split
    next s₁ e₁ =>
    have h₁ : Kept s0 s₁ := kept_of_snd e₁ h.suAbsent
    extract_lets _ seg _ s₂ _ s₃ s₄ _ _ _ _ _ _ _ _ s₅ s₆
    have h₃ : Kept s0 s₃ := (h₁.when (·.violateBy)).when (·.violateBy)
    have h₄ : Kept s0 s₄ := by
      unfold s₄
      clear_value seg
      split
      · exact h₃.releasePoison
      · exact h₃
    have h₆ : Kept s0 s₆ := h₄.modCluster.modRing.when (·.endLoad)
    exact h₆.when (·.modRun)

theorem Kept.suRun {k c x t out} (h : Kept s0 s) : Kept s0 (s.suRun k c x t out) :=
  h.suMove

theorem Kept.loadsPart {k c x t t0 base word pre} (h : Kept s0 s) : Kept s0 (s.loadsPart k c x t t0 base word pre) := by
  unfold State.loadsPart
  extract_lets
  split
  · exact h.violateBy
  · exact (h.suAbsent.when (·.violateBy)).modCluster.modRing

theorem Kept.loadsRun {c x t base ks pre} (h : Kept s0 s) : Kept s0 (s.loadsRun c x t base ks pre) :=
  kept_foldl h fun _ _ h => h.loadsPart

theorem Kept.tileRun {k c x t} (h : Kept s0 s) : Kept s0 (s.tileRun k c x t) := by
  unfold State.tileRun
  split
  · exact h.suMove
  · exact h

theorem Kept.repeatDesc {k r t t0 word x} (h : Kept s0 s) : Kept s0 (s.repeatDesc k r t t0 word x) := by
  unfold State.repeatDesc
  split
  · exact h
  · exact h.loadsPart
  · exact h.suMove

theorem Kept.armRun {k c x t} (h : Kept s0 s) : Kept s0 (s.armRun k c x t) :=
  kept_ite h.violate (kept_ite h.repeatDesc (kept_ite h.modCluster h.modRing))

theorem execShadowRepeat_kept {k ring} (h : Kept s0 s) : KeptOut s0 (execShadowRepeat k ring s) := by
  refine keptOut_live ?_
  split
  · exact h.when (·.modRing.repeatDesc)
  · exact h

theorem Kept.kfillRun {k c x t} (h : Kept s0 s) : Kept s0 (s.kfillRun k c x t) := by
  unfold State.kfillRun
  split
  next s₁ e₁ =>
  have h₁ : Kept s0 s₁ := kept_of_snd e₁ h.suAbsent
  split
  · exact h₁
  · exact h₁.unless fun h => (h.when fun h => h.withMem (copyKey_wf _ _ _ _)).modKc

theorem Kept.pipRun {k c x t} (h : Kept s0 s) : Kept s0 (s.pipRun k c x t) := by
  unfold State.pipRun
  extract_lets
  split
  next s₁ e₁ =>
  have h₁ : Kept s0 s₁ := kept_of_snd e₁ (h.whenSnd (·.groupFault))
  extract_lets
  split
  next s₂ e₂ =>
  have h₂ : Kept s0 s₂ := kept_of_snd e₂ ((h₁.when (·.violate)).when (·.groupFault)).rmeWriteCheck
  extract_lets
  split
  · exact h₂.rmeOut.rmeNote
  · exact kept_foldl (kept_foldl h₂ fun _ _ h => kept_foldl h fun _ _ h => h.pushOperand) fun _ _ h => h.closeOutput.noteWork

/-! ### Slots, grants and landings (R220 to R231) -/

theorem Kept.poisonEngine {k engine code by_} (h : Kept s0 s) : Kept s0 (s.poisonEngine k engine code by_) := by
  unfold State.poisonEngine
  extract_lets
  split
  · exact (kept_foldl (kept_foldl h fun _ _ h => h.poisonOut) fun _ _ h => h.when (·.modCluster)).when fun h =>
      (kept_foldl h fun _ _ h => h.withMem (Memory.storeRow_wf _ _ _ _)).modUnit
  · exact (kept_foldl (kept_foldl h fun _ _ h => h.poisonOut) fun _ _ h => h.when (·.modCluster)).when (·.modUnit)

theorem Kept.claimAt {k r n t stamp} (h : Kept s0 s) : Kept s0 (s.claimAt k r n t stamp) := by
  dsimp only [State.claimAt]
  refine Kept.modRing ?_
  split
  · exact h.violateBy.poisonEngine
  · exact h

theorem Kept.bufferStore {k x t at_} (h : Kept s0 s) : Kept s0 (s.bufferStore k x t at_) := by
  unfold State.bufferStore
  extract_lets
  split
  · exact (h.when (·.violateBy)).unless fun h => kept_foldl h fun _ _ h => h.gbWrite
  · exact h

theorem Kept.grantStore {k x tr t} (h : Kept s0 s) : Kept s0 (s.grantStore k x tr t).2 := by
  unfold State.grantStore
  extract_lets _ sign
  have hsign {s rows} (h : Kept s0 s) : Kept s0 (sign s rows) := h.modCluster
  exact kept_ite_snd (hsign h) (hsign (h.unless (·.violateBy)).modRing)

theorem Kept.grantLoad {k x tr t} (h : Kept s0 s) : Kept s0 (s.grantLoad k x tr t).2 :=
  (h.unless (·.modUnit)).when (·.violateBy)

theorem Kept.grant {k x tr t} (h : Kept s0 s) : Kept s0 (s.grant k x tr t) := by
  unfold State.grant
  extract_lets
  split
  next s₁ e₁ =>
  have h₁ : Kept s0 s₁ := kept_of_snd e₁ (kept_ite_snd h.grantStore h.grantLoad)
  exact (kept_ite (h₁.when (·.bufferStore)) h₁.claimAt.modRing).modCluster

theorem Kept.suFault {k kind opc tag addr at_ poisoned} (h : Kept s0 s) :
    Kept s0 (s.suFault k kind opc tag addr at_ poisoned) :=
  h.clusterFault

theorem Kept.grantPiece {e f t} (h : Kept s0 s) : Kept s0 (s.grantPiece e f t) := by
  refine Kept.modKc (Kept.when ?_ (·.suFault))
  split
  · exact h.violateBy.poisonEngine
  · exact h

theorem Kept.injectRow {p i r} (h : Kept s0 s) : Kept s0 (s.injectRow p i r) :=
  kept_ite (kept_foldl h fun _ _ h => h.claimAt.modRing).modUnit h.violateBy.modUnit

theorem Kept.injectGo {t n} (h : Kept s0 s) : Kept s0 (State.inject.go t n s) := by
  induction n generalizing s with
  | zero => exact h
  | succ n ih =>
    unfold State.inject.go
    split
    · exact ih h.injectRow
    · exact h

theorem Kept.inject {t} (h : Kept s0 s) : Kept s0 (s.inject t) :=
  h.injectGo

theorem Kept.serve {p b t} (h : Kept s0 s) : Kept s0 (s.serve p b t) := by
  dsimp only [State.serve]
  refine Kept.modUnit ?_
  split
  · refine kept_foldl h fun _ _ h => ?_
    split
    · exact h.grant
    · exact h
  · split
    · exact h.grantPiece
    · exact h

theorem execTransferGrant_kept {g src cycle} (h : Kept s0 s) : KeptOut s0 (execTransferGrant g src cycle s) := by
  refine keptOut_live (h.when fun h => ?_)
  extract_lets
  split
  · exact h.inject
  · exact h.inject.serve

theorem Kept.landRow {k r o w marks} (h : Kept s0 s) : Kept s0 (s.landRow k r o w marks) :=
  h.withMem fun hm => Memory.foldl_wf _ _ _ (fun m _ => m.markWord_wf _) (Memory.storeRow_wf _ _ _ _ hm)

theorem Kept.landRows {k r first stamp rows marks m0} (h : Kept s0 s) : Kept s0 (s.landRows k r first stamp rows marks m0) := by
  dsimp only [State.landRows]
  exact (kept_foldl h fun _ _ h => h.landRow).modRing

theorem Kept.landHead {k x t tag} (h : Kept s0 s) : Kept s0 (s.landHead k x t tag) :=
  (h.when (·.suFault)).modRing
theorem Kept.landStore {k x t} (h : Kept s0 s) : Kept s0 (s.landStore k x t) :=
  h.unless fun h => kept_ite (h.gbSettle.withMem (Memory.foldl_wf _ _ _ fun m _ => m.markWord_wf _))
    (h.withMem fun hm => Memory.foldl_wf _ _ _ (fun m _ => m.markLine_wf _) (Memory.store_wf _ _ _ hm)).beside
theorem Kept.freeTransfer {k t} (h : Kept s0 s) : Kept s0 (s.freeTransfer k t) :=
  h.modCluster.modRing
theorem Kept.landTransfer {k x t tag} (h : Kept s0 s) : Kept s0 (s.landTransfer k x t tag) :=
  kept_ite h.landStore (kept_ite h.landHead (h.when (·.suFault)).landRows)

theorem execTransferStamp_kept {k tag} (h : Kept s0 s) : KeptOut s0 (execTransferStamp k tag s) := by
  refine keptOut_live ?_
  split
  · exact h
  · refine h.unless fun h => Kept.freeTransfer ?_
    split
    · exact h.reachAbs.inject.when fun h => h.landTransfer.when (·.modRun)
    · exact h.reachAbs.inject

theorem Kept.overrun {k tag kind src} (h : Kept s0 s) : Kept s0 (s.overrun k tag kind src) := by
  unfold State.overrun
  split
  · exact h
  · exact h.unless fun h => (kept_foldl h fun _ _ h => h.modCluster).raiseVia.when (·.modStack)

end

end Sys2Proof.Machine
end

section
/-!
PROOFS. What every step carries: the beat's timetable, memory, ledger, power, reset, links and adoption (R24, R243 to R264,
R335 to R466).
-/
namespace Sys2Proof.Machine

section
/-! Each theorem is checked before the next begins. -/
set_option Elab.async false
variable {s0 s t : State}

/-! ### The timetable of a beat (R24, R264) -/

theorem Kept.axes (h : Kept s0 s) : Kept s0 s.axes :=
  h.beside.setCapped

theorem Kept.boundaryJob {ended id} (h : Kept s0 s) : Kept s0 (s.boundaryJob ended id) := by
  unfold State.boundaryJob
  split
  · exact h
  · exact kept_ite h.releaseJob.sendToken (kept_ite h.sendToken.modJob (h.when (·.sendToken.modJob)))

theorem Kept.liftDieCaps (h : Kept s0 s) : Kept s0 s.liftDieCaps :=
  h.when fun h => h.beside.unless (·.setPermit)
theorem Kept.overrunAt {k} (h : Kept s0 s) : Kept s0 (s.overrunAt k) :=
  (kept_forAll (h.when (·.clusterFault)) fun _ _ h => h.clusterFault).when (·.clusterFault)
theorem execProgramWindowEnd_kept (h : Kept s0 s) : KeptOut s0 (execProgramWindowEnd s) :=
  keptOut_live (h.unless fun h => kept_forAll (kept_forAll h.reach.inject fun _ _ h => h.overrunAt) fun _ _ h =>
    h.gbSettle.modUnit)

theorem Kept.abortRing {k r cut} (h : Kept s0 s) : Kept s0 (s.abortRing k r cut) := by
  dsimp only [State.abortRing]
  exact (h.withMem (Memory.foldl_wf _ _ _ fun m _ => m.poisonFill_wf _ _)).modRing

theorem Kept.abortStore {x} (h : Kept s0 s) : Kept s0 (s.abortStore x) :=
  h.withMem fun hm => by
    have hf := Memory.unmark_fill_wf _ x.addr 0xFF x.length x.length hm
    split
    · exact Memory.store_wf _ _ _ hf
    · exact hf

theorem Kept.abortJob {id j} (h : Kept s0 s) : Kept s0 (s.abortJob id j) := by
  dsimp only [State.abortJob]
  refine Kept.modRun (.beside (kept_forAll (kept_forAll (kept_foldl (kept_forAll h ?_) ?_) ?_) ?_))
  · exact fun _ _ h => kept_forAll h fun _ _ h => h.unless fun h => (h.when (·.modRing)).abortRing
  · exact fun _ _ h => h.abortStore
  · exact fun _ _ h => (h.withMem (Memory.poisonFill_wf _ _ _)).modUnit
  · exact fun _ _ h => h.modCluster

theorem execAbortFill_kept {job} (h : Kept s0 s) : KeptOut s0 (execAbortFill job s) := by
  refine keptOut_live ?_
  split
  · exact h
  · exact h.when fun h => (h.when (·.reach)).abortJob

theorem Kept.conserve {j} (h : Kept s0 s) : Kept s0 (s.conserve j) :=
  kept_forAll h fun _ _ h => (kept_forAll h fun _ _ h => h.unless (·.modRing)).unless (·.clusterFault)
theorem Kept.divergeTerminate {id kind} (h : Kept s0 s) : Kept s0 (s.divergeTerminate id kind) :=
  h.modJob.modRun.fenceTerminate
theorem Kept.twinCompare {id j} (h : Kept s0 s) : Kept s0 (s.twinCompare id j) :=
  h.unless fun h => (kept_foldl h fun _ _ h => h.managementRecord).divergeRestart

theorem Kept.replayCompare {id j sig} (h : Kept s0 s) : Kept s0 (s.replayCompare id j sig) := by
  unfold State.replayCompare
  extract_lets
  split
  · refine h.unless fun h => ?_
    split
    next s₁ e₁ =>
    have h₁ : Kept s0 s₁ := kept_of_snd e₁ h.managementRecord
    exact (kept_forAll h₁.divergeTerminate fun _ _ h => h.quarantineGroup).recall
  · exact h

theorem Kept.signatures {id} (h : Kept s0 s) : Kept s0 (s.signatures id) := by
  unfold State.signatures
  split
  · exact h
  · exact ((kept_forAll h fun _ _ h => h.modUnit).when (·.twinCompare)).replayCompare.modRun

theorem execReconciliation_kept (h : Kept s0 s) : KeptOut s0 (execReconciliation s) := by
  refine keptOut_live (h.unless fun h => kept_forAll (kept_forAll h.reach fun _ _ h => ?_).drain fun _ _ h => h.signatures)
  split
  · exact h.conserve
  · exact h

theorem execWindfallTimeout_kept {job} (h : Kept s0 s) : KeptOut s0 (execWindfallTimeout job s) := by
  refine keptOut_live ?_
  split
  · exact h
  · exact h.when (·.raise.modJob)

theorem Kept.decideRelease {id} (h : Kept s0 s) : Kept s0 (s.decideRelease id) := by
  unfold State.decideRelease
  split
  · exact h
  · exact h.modJob.modRun

theorem execReleaseDecision_kept (h : Kept s0 s) : KeptOut s0 (execReleaseDecision s) :=
  keptOut_live (h.unless fun h => (kept_forAll (kept_forAll h.reach fun _ _ h => h.decideRelease) fun _ _ h =>
    h.modJob.modRun).drain)

theorem execCheckpointCopy_kept {job} (h : Kept s0 s) : KeptOut s0 (execCheckpointCopy job s) := by
  refine keptOut_live ?_
  split
  · exact h
  · refine Kept.modRun (h.withMem (Memory.foldl_wf _ _ _ fun m _ hm => ?_))
    split
    · exact Memory.store_wf _ _ _ hm
    · exact hm

/-! ### The service slice (R266) -/

theorem execTerrierInjection_kept {u fires arrives} (h : Kept s0 s) : KeptOut s0 (execTerrierInjection u fires arrives s) := by
  refine keptOut_live (h.unless fun h => ?_)
  split
  · exact h.when (·.modUnit)
  · exact h.modDie

theorem Kept.terrierFail {p} (h : Kept s0 s) : Kept s0 (s.terrierFail p) :=
  h.modGroup.count
theorem Kept.terrierFault {p kind op} (h : Kept s0 s) : Kept s0 (s.terrierFault p kind op).2 :=
  h.raise.quarantineGroup.terrierFail
theorem Kept.deadChecker {p} (h : Kept s0 s) : Kept s0 (s.deadChecker p) :=
  h.terrierFault.recall
theorem Kept.mismatch {p q} (h : Kept s0 s) : Kept s0 (s.mismatch p q) :=
  (h.terrierFault.unless (·.terrierFault)).recall
theorem Kept.deadDie {k} (h : Kept s0 s) : Kept s0 (s.deadDie k) :=
  h.raise.recall.event

theorem Kept.groupVerdict {p agree q fired} (h : Kept s0 s) : Kept s0 (s.groupVerdict p agree q fired) := by
  unfold State.groupVerdict
  extract_lets
  split
  · exact (h.when (·.deadChecker)).beside.quarantineGroup.terrierFail
  · exact kept_ite (h.when (·.deadChecker)).mismatch ((h.when (·.deadChecker)).when (·.modGroup))

theorem execTerrierVerdict_kept {u own peer peerGroup firedUnit} (h : Kept s0 s) :
    KeptOut s0 (execTerrierVerdict u own peer peerGroup firedUnit s) := by
  refine keptOut_live (h.unless fun h => ?_)
  split
  · exact h.when (·.groupVerdict)
  · split
    · exact kept_ite h.modDie h.deadDie
    · exact h

theorem Kept.scrubFind {f} (h : Kept s0 s) : Kept s0 (s.scrubFind f) :=
  h.unless fun h => kept_ite (h.when (·.modDie)) (h.unless fun h => (kept_ite h.loseKeyWord (h.withMem
    (Memory.markWord_wf _ _))).raise)
theorem execServiceScrub_kept {finds} (h : Kept s0 s) : KeptOut s0 (execServiceScrub finds s) :=
  keptOut_live (h.unless fun h => kept_forAll (kept_foldl h.reach fun _ _ h => h.scrubFind) fun _ _ h => h.modUnit)
theorem Kept.pendingVerdict {p} (h : Kept s0 s) : Kept s0 (s.pendingVerdict p) :=
  kept_ite h.modGroup (kept_ite h.modGroup h.managementRecord.modGroup)
theorem Kept.minority {p} (h : Kept s0 s) : Kept s0 (s.minority p) :=
  (h.managementRecord.modGroup.unless (·.divergeRestart)).recall
theorem Kept.noMajority {model} (h : Kept s0 s) : Kept s0 (s.noMajority model) :=
  (kept_forAll (kept_forAll h.managementRecord fun _ _ h => h.divergeTerminate) fun _ _ h => h.modGroup).recall
theorem Kept.modelVerdict {model ps} (h : Kept s0 s) : Kept s0 (s.modelVerdict model ps) :=
  kept_ite (kept_forAll (kept_forAll (kept_forAll h fun _ _ h => h.modGroup) fun _ _ h => h.modGroup) fun _ _ h => h.minority)
    ((kept_forAll h fun _ _ h => h.modGroup).unless (·.noMajority))
theorem execRetrieverVerdict_kept (h : Kept s0 s) : KeptOut s0 (execRetrieverVerdict s) :=
  keptOut_live (h.unless fun h => kept_foldl (kept_forAll h.reach fun _ _ h => h.pendingVerdict) fun _ _ h => h.modelVerdict)
theorem Kept.storeTemp {r} (h : Kept s0 s) : Kept s0 (s.storeTemp r) :=
  h.unless fun h => kept_ite h.beside.modStack (h.beside.when (·.modDie))
theorem Kept.storeRail {r} (h : Kept s0 s) : Kept s0 (s.storeRail r) :=
  h.beside
theorem Kept.histograms (h : Kept s0 s) : Kept s0 s.histograms :=
  kept_forAll (kept_forAll (kept_forAll h fun _ _ h => h.count) fun _ _ h => h.count).count fun _ _ h => h.unless (·.count)

theorem Kept.junction (h : Kept s0 s) : Kept s0 s.junction := by
  unfold State.junction
  split
  exact h.beside.unless (·.setPermit)

theorem execLedgerSampling_kept {temps rails} (h : Kept s0 s) : KeptOut s0 (execLedgerSampling temps rails s) :=
  keptOut_live (h.unless fun h => (kept_foldl (kept_foldl h.reach fun _ _ h => h.storeTemp) fun _ _ h =>
    h.storeRail).histograms.junction)

/-! ### The memory system (R250 to R258) -/

theorem Kept.writeBack {a again} (h : Kept s0 s) : Kept s0 (s.writeBack a again) :=
  (kept_ite h.beside h.countCorrected).when (·.countCorrected.failRow)
theorem execLineWriteback_kept {addr secondReadCorrects} (h : Kept s0 s) :
    KeptOut s0 (execLineWriteback addr secondReadCorrects s) :=
  keptOut_live (h.when (·.writeBack))

theorem Kept.remapRow {st pc row} (h : Kept s0 s) : Kept s0 (s.remapRow st pc row).2 := by
  refine kept_ite_snd ?_ (kept_ite_snd ?_ ?_)
  · dsimp only; exact h.modStack
  · dsimp only; exact h.modStack
  · exact h.modStack.beside

theorem Kept.patrolFind {f} (h : Kept s0 s) : Kept s0 (s.patrolFind f) :=
  h.unless fun h => kept_ite h.countCorrected.beside (h.unless (·.loseLine.raise))

theorem Kept.repairEntry {e x} (h : Kept s0 s) : Kept s0 (s.repairEntry e x) := by
  unfold State.repairEntry
  split
  · exact h
  · split
    · exact h
    · exact h.when fun h => h.withMem (copyKey_wf _ _ _ _)

theorem execKcExtentRepair_kept {extent} (h : Kept s0 s) : KeptOut s0 (execKcExtentRepair extent s) := by
  refine keptOut_live (h.unless fun h => ?_)
  split
  · exact h
  · exact h.repairEntry.beside

theorem Kept.coupleDies (h : Kept s0 s) : Kept s0 s.coupleDies :=
  h.setPermit
theorem Kept.stackReading {n t} (h : Kept s0 s) : Kept s0 (s.stackReading n t) :=
  kept_ite h.modStack.setPermit.coupleDies (kept_ite h.modStack.coupleDies h.coupleDies)
theorem Kept.dieReading {n t} (h : Kept s0 s) : Kept s0 (s.dieReading n t) :=
  h.when (·.modDie.coupleDies)
theorem execStackTemperatureTrigger_kept {sensor temp} (h : Kept s0 s) :
    KeptOut s0 (execStackTemperatureTrigger sensor temp s) :=
  keptOut_live (h.unless fun h => kept_ite h.storeTemp.stackReading (h.storeTemp.when (·.dieReading)))
theorem Kept.liftStackCap (h : Kept s0 s) : Kept s0 s.liftStackCap :=
  h.when fun h => (kept_forAll h fun _ _ h => h.when (·.modStack)).setPermit.coupleDies
theorem Kept.restoreMemoryClock {i} (h : Kept s0 s) : Kept s0 (s.restoreMemoryClock i) :=
  h.when (·.modDie)

/-! ### The life ledger (R443 to R450) -/

theorem Kept.appendRecord {kind body} (h : Kept s0 s) : Kept s0 (s.appendRecord kind body) :=
  (h.withFlash fun hf => flashWriteN_wf _ _ _ (cellsWf_filter _ _ _ hf)).beside
theorem Kept.writeDurable (h : Kept s0 s) : Kept s0 s.writeDurable :=
  h.appendRecord.beside

theorem Kept.keepDurable (h : Kept s0 s) : Kept s0 s.keepDurable := by
  unfold State.keepDurable
  split
  · exact h.when (·.writeDurable)
  · exact h

theorem Kept.writeRecord {kind body} (h : Kept s0 s) : Kept s0 (s.writeRecord kind body) :=
  h.keepDurable.appendRecord
theorem Kept.tellLost (h : Kept s0 s) : Kept s0 s.tellLost :=
  h.unless (·.beside.event)
theorem Kept.writeEvent {e rest} (h : Kept s0 s) : Kept s0 (s.writeEvent e rest) :=
  (h.unless (·.writeRecord)).beside.tellLost

theorem execLedgerEventWrite_kept {flashOk} (h : Kept s0 s) : KeptOut s0 (execLedgerEventWrite flashOk s) := by
  refine keptOut_live ?_
  split
  · exact h
  · exact h.unless fun h => kept_ite h.writeEvent h.beside

theorem Kept.flushLedger (h : Kept s0 s) : Kept s0 s.flushLedger :=
  h.unless (·.writeRecord.beside)
theorem Kept.flushAll (h : Kept s0 s) : Kept s0 s.flushAll :=
  (kept_foldl h fun _ _ h => h.writeEvent).flushLedger
theorem execFlushNow_kept {w} (h : Kept s0 s) : KeptOut s0 (execFlushNow w s) :=
  keptOut_live (h.unless (·.beside))
theorem execWindowOffset_kept {v w} (h : Kept s0 s) : KeptOut s0 (execWindowOffset v w s) :=
  keptOut_live (h.unless (·.beside))

theorem Kept.loadDurable {e} (h : Kept s0 s) : Kept s0 (s.loadDurable e) := by
  unfold State.loadDurable
  extract_lets
  split
  · exact h.modStack
  · exact h.modStack
  · exact h.modStack.beside
  · exact h

theorem Kept.loadMemoryEvent {b} (h : Kept s0 s) : Kept s0 (s.loadMemoryEvent b) :=
  h.when (·.remapRow)

theorem Kept.loadLedger (h : Kept s0 s) : Kept s0 s.loadLedger := by
  unfold State.loadLedger
  extract_lets
  split
  · exact h.beside.event
  · refine kept_foldl ?_ fun _ _ h => h.loadMemoryEvent
    split
    · exact kept_foldl h.beside fun _ _ h => h.loadDurable
    · exact h.beside

/-! ### Voltage, power and current (R411 to R420) -/

theorem Kept.changeStep {code} (h : Kept s0 s) : Kept s0 (s.changeStep code) :=
  h.beside.managementRecord.fire

theorem Kept.nextChange (h : Kept s0 s) : Kept s0 s.nextChange := by
  unfold State.nextChange
  split
  · exact h
  · exact h.beside.unless (·.announce)

theorem execStepSwitch_kept (h : Kept s0 s) : KeptOut s0 (execStepSwitch s) := by
  refine keptOut_live ?_
  split
  · exact h
  · exact h.unless fun h => (h.when (·.reach)).beside.changeStep.nextChange

theorem Kept.overCurrent {amps} (h : Kept s0 s) : Kept s0 (s.overCurrent amps) :=
  h.when (·.beside.setPermit)

theorem execAvsVoltageConfirm_kept {mv amps} (h : Kept s0 s) : KeptOut s0 (execAvsVoltageConfirm mv amps s) := by
  refine keptOut_live (h.unless fun h => ?_)
  extract_lets
  split
  · exact h.beside.overCurrent.when (·.beside.announce)
  · exact h.beside.overCurrent

theorem execStepUpAbandoned_kept (h : Kept s0 s) : KeptOut s0 (execStepUpAbandoned s) := by
  refine keptOut_live ?_
  split
  · exact h
  · exact h.beside

theorem Kept.moveCap {watts} (h : Kept s0 s) : Kept s0 (s.moveCap watts) :=
  kept_ite h.beside.setPermit (kept_ite h.beside (h.beside.when (·.beside.setPermit)))
theorem execHostStep_kept {v w} (h : Kept s0 s) : KeptOut s0 (execHostStep v w s) :=
  keptOut_live (h.unless (·.beside.applyCauses))

/-! ### Reset, start-up and halt (R422 to R428) -/

theorem Kept.resetDevice {cause} (h : Kept s0 s) : Kept s0 (s.resetDevice cause) := by
  unfold State.resetDevice
  extract_lets
  rename State => s₁
  have h₁ : Kept s s₁ := ⟨rfl, Nat.le_refl _, fun _ => rfl, id, id, .refl _, fun _ => .nil⟩
  exact (h.trans h₁).when (·.setPermit)

theorem Kept.resetSource {cause} (h : Kept s0 s) : Kept s0 (s.resetSource cause) :=
  h.unless (·.resetDevice)
theorem Kept.writeNow {code body} (h : Kept s0 s) : Kept s0 (s.writeNow code body) :=
  h.when (·.writeRecord)
theorem Kept.resetPin (h : Kept s0 s) : Kept s0 s.resetPin :=
  kept_ite h.setPin.beside h.setPin.resetDevice
theorem execSwReset_kept {v w} (h : Kept s0 s) : KeptOut s0 (execSwReset v w s) :=
  keptOut_next (h.unless (·.writeNow.resetSource))
theorem Kept.powerDown (h : Kept s0 s) : Kept s0 s.powerDown :=
  h.beside
theorem Kept.trip {sensor} (h : Kept s0 s) : Kept s0 (s.trip sensor) :=
  h.unless fun h => ((h.when (·.setPin)).recordNow.event.when (·.flushAll)).powerDown.beside

theorem Kept.burnVersion {v} (h : Kept s0 s) : Kept s0 (s.burnVersion v) := by
  unfold State.burnVersion
  extract_lets
  split
  · exact h
  · next hv =>
    have hf : s.fuses.Kept { s.fuses with securityVersion := BitVec.ofNat 6 v } := by
      refine ⟨id, Nat.le_refl _, ?_, List.prefix_rfl⟩
      rw [BitVec.toNat_ofNat]
      omega
    exact (h.withFuses hf).beside.event

theorem Kept.changeOwner {d} (h : Kept s0 s) : Kept s0 (s.changeOwner d) := by
  unfold State.changeOwner
  extract_lets
  split
  · exact h
  · next ho =>
    have hf {o} : s.fuses.Kept
        { s.fuses with ownerEpoch := BitVec.ofNat 4 (s.fuses.ownerEpoch.toNat + 1), ownerDigests := o } := by
      refine ⟨id, ?_, Nat.le_refl _, List.prefix_rfl⟩
      rw [BitVec.toNat_ofNat]
      omega
    exact (h.withFuses hf).beside.event.count

theorem Kept.startPolicy {b} (h : Kept s0 s) : Kept s0 (s.startPolicy b) := by
  unfold State.startPolicy
  split
  · exact h.changeOwner
  · exact h.managementRecord
  · exact h.unless (·.managementRecord)
  · exact h

theorem Kept.startImage {i} (h : Kept s0 s) : Kept s0 (s.startImage i) :=
  (h.when (·.burnVersion)).beside
theorem Kept.startRom (h : Kept s0 s) : Kept s0 s.startRom :=
  h.beside
theorem Kept.bootFrom {i} (h : Kept s0 s) : Kept s0 (s.bootFrom i) :=
  h.beside

theorem Kept.startFrom {slots} (h : Kept s0 s) : Kept s0 (State.startFrom slots s) := by
  induction slots generalizing s with
  | nil => exact h.startRom
  | cons i rest ih =>
    unfold State.startFrom
    split
    · exact ih h
    · exact kept_ite (ih h.startPolicy) h.startPolicy.startImage.bootFrom

theorem Kept.readImages (h : Kept s0 s) : Kept s0 s.readImages :=
  (kept_forAll h.beside fun _ _ h => h.managementRecord).startFrom
theorem Kept.startUp (h : Kept s0 s) : Kept s0 s.startUp :=
  h.beside.readImages.beside.count
theorem Kept.powerOn {l} (h : Kept s0 s) : Kept s0 (s.powerOn l) :=
  h.beside
theorem Kept.failLane {st pc lane} (h : Kept s0 s) : Kept s0 (s.failLane st pc lane) :=
  kept_ite h.modStack.raise h.beside.raise.fire
theorem Kept.trainHbm {lanes} (h : Kept s0 s) : Kept s0 (s.trainHbm lanes) :=
  (kept_forAll (kept_foldl h fun _ _ h => h.failLane) fun _ _ h => h.modStack).beside
theorem Kept.releaseGroups {failed} (h : Kept s0 s) : Kept s0 (s.releaseGroups failed) :=
  kept_forAll (kept_forAll h.powerOn.beside fun _ _ h => h.powerOn) fun _ _ h => h.modGroup
theorem Kept.releaseLinks (h : Kept s0 s) : Kept s0 s.releaseLinks :=
  kept_forAll h fun _ _ h => kept_ite h.modPort.powerOn.portState (h.modPort.when (·.powerOn))

theorem Kept.release {o} (h : Kept s0 s) : Kept s0 (s.release o) := by
  unfold State.release
  extract_lets
  split
  · exact h.beside.setPin.powerOn.beside
  · exact h.beside.powerOn.loadLedger
  · exact h.beside.powerOn
  · exact h.beside.powerOn.beside.startUp
  · exact h.beside.powerOn
  · exact h.beside.powerOn.trainHbm
  · exact h.beside.releaseGroups
  · exact h.beside.releaseLinks
  · exact h

theorem Kept.startFields (h : Kept s0 s) : Kept s0 s.startFields :=
  h.beside
theorem Kept.startAxes (h : Kept s0 s) : Kept s0 s.startAxes :=
  h.beside.setCapped
theorem Kept.askHalt (h : Kept s0 s) : Kept s0 s.askHalt :=
  h.when (·.beside)
theorem execHalt_kept {v w} (h : Kept s0 s) : KeptOut s0 (execHalt v w s) :=
  keptOut_live (h.unless (·.askHalt))
theorem Kept.beginHalt (h : Kept s0 s) : Kept s0 s.beginHalt :=
  kept_forAll h.beside.event fun _ _ h => h.endJob
theorem Kept.endHalt (h : Kept s0 s) : Kept s0 s.endHalt :=
  h.flushAll.powerDown.beside

/-! ### Links (R335 to R356) -/

theorem Kept.portDown {n st} (h : Kept s0 s) : Kept s0 (s.portDown n st) :=
  h.modPort.portState
theorem Kept.train {n} (h : Kept s0 s) : Kept s0 (s.train n) :=
  h.when (·.portDown)
theorem Kept.retrain {n} (h : Kept s0 s) : Kept s0 (s.retrain n) :=
  h.when (·.modPort.count.train.askBlock)
theorem Kept.failPort {n cause} (h : Kept s0 s) : Kept s0 (s.failPort n cause) :=
  h.modPort.portDown
theorem execPortTraining_kept {port t} (h : Kept s0 s) : KeptOut s0 (execPortTraining port t s) :=
  keptOut_live (h.unless fun h => kept_ite h.failPort (kept_ite h.failPort (kept_ite h.failPort h.modPort.portState)))
theorem Kept.acknowledge {n} (h : Kept s0 s) : Kept s0 (s.acknowledge n) :=
  h.when (·.modPort)

theorem execLaneSwap_kept {port} (h : Kept s0 s) : KeptOut s0 (execLaneSwap port s) := by
  refine keptOut_live ?_
  extract_lets
  split
  · exact h.unless (·.modPort.portState.count.raise)
  · exact h

theorem Kept.writePort {n v w} (h : Kept s0 s) : Kept s0 (s.writePort n v w) :=
  (h.unless fun h => kept_ite h.modPort.powerOn.train h.portDown.modPort.beside.unaskBlock).when (·.retrain)
theorem Kept.sendFrame {n slot f} (h : Kept s0 s) : Kept s0 (s.sendFrame n slot f) :=
  h.modPort
theorem Kept.sendPart {n x f} (h : Kept s0 s) : Kept s0 (s.sendPart n x f) :=
  h.modRun.unless (·.sendFrame)

theorem execLinkMessageSend_kept {port slot} (h : Kept s0 s) : KeptOut s0 (execLinkMessageSend port slot s) := by
  refine keptOut_live (h.unless fun h => ?_)
  split
  · exact h
  · exact h.unless fun h => kept_forAll h fun _ _ h => h.sendPart

theorem execLinkRetransmit_kept {port slot} (h : Kept s0 s) : KeptOut s0 (execLinkRetransmit port slot s) := by
  refine keptOut_live (h.unless fun h => ?_)
  split
  · exact h.unless (·.modRun.modPort.sendFrame)
  · exact h

theorem Kept.receiveRows {x a data} (h : Kept s0 s) : Kept s0 (s.receiveRows x a data) :=
  h.unless fun h => (h.withMem (Memory.store_wf _ _ _)).beside
theorem Kept.spoil {n x kind} (h : Kept s0 s) : Kept s0 (s.spoil n x kind) :=
  h.unless (·.modRun.receiveRows.raise)

theorem Kept.badFrame {n slot} (h : Kept s0 s) : Kept s0 (s.badFrame n slot) := by
  unfold State.badFrame
  extract_lets
  split
  · exact h.modPort
  · exact kept_ite (h.modPort.unless (·.spoil)) (kept_ite h.modPort.modPort.spoil h.modPort.modPort.modRun)

theorem Kept.takeData {n f} (h : Kept s0 s) : Kept s0 (s.takeData n f) := by
  unfold State.takeData
  extract_lets
  split
  · exact h
  · exact kept_ite h.spoil (h.unless fun h => h.receiveRows.unless (·.modRun))

theorem Kept.takeHead {n f} (h : Kept s0 s) : Kept s0 (s.takeHead n f) :=
  ((h.when (·.modPort)).when (·.modPort.portState)).when (·.acknowledge)
theorem execLinkFrameReceive_kept {port frame uncorrectable corrected} (h : Kept s0 s) :
    KeptOut s0 (execLinkFrameReceive port frame uncorrectable corrected s) :=
  keptOut_live (h.unless fun h => kept_ite h.modPort.badFrame (h.modPort.takeHead.when (·.takeData)))
theorem execBeatMarker_kept {intact beat error} (h : Kept s0 s) : KeptOut s0 (execBeatMarker intact beat error s) :=
  keptOut_live (h.unless fun h => kept_ite (h.when (·.beside)).beside.raise ((h.when (·.beside)).beside.when (·.beside)))

theorem Kept.domainStep (h : Kept s0 s) : Kept s0 s.domainStep := by
  unfold State.domainStep
  split
  · exact h
  · exact h.beside.unless (·.changeStep)

theorem Kept.takeRecord {kind r f} (h : Kept s0 s) (hf : ∀ s, Kept s0 s → Kept s0 (f s)) : Kept s0 (s.takeRecord kind r f) :=
  h.unless fun h => h.beside.unless fun h => hf _ (h.beside.unless (·.beside))

theorem Kept.onLinked {r f} (h : Kept s0 s) (hf : ∀ s id j l, Kept s0 s → Kept s0 (f s id j l)) : Kept s0 (s.onLinked r f) := by
  unfold State.onLinked
  split
  · exact hf _ _ _ _ h
  · exact h

theorem Kept.takeClear {r} (h : Kept s0 s) : Kept s0 (State.takeClear r s) :=
  h.onLinked fun _ _ _ _ h => h.settle.modRun
theorem Kept.windfallFailed {id} (h : Kept s0 s) : Kept s0 (s.windfallFailed id) :=
  h.raise
theorem Kept.takeFail {r} (h : Kept s0 s) : Kept s0 (State.takeFail r s) :=
  h.onLinked fun _ _ _ _ h => h.modRun.modJob.windfallFailed
theorem Kept.takeRestart {r} (h : Kept s0 s) : Kept s0 (State.takeRestart r s) :=
  h.onLinked fun _ _ _ _ h => h.windfallFailed
theorem Kept.takeTerminate {r} (h : Kept s0 s) : Kept s0 (State.takeTerminate r s) :=
  h.onLinked fun _ _ _ _ h => kept_ite h.modRun h.askIdle.modJob.fenceTerminate

theorem Kept.takeReady {r} (h : Kept s0 s) : Kept s0 (State.takeReady r s) := by
  unfold State.takeReady
  exact h.beside.onLinked (fun _ _ _ _ h1 => kept_ite h1.fenceTerminate (h1.when (·.modRun)))

theorem Kept.linkedStart {id j l} (h : Kept s0 s) : Kept s0 (s.linkedStart id j l) :=
  kept_ite h.fenceTerminate (h.unless fun h => h.when (·.beside.firstIssue))

theorem execLinkedJobStart_kept {job} (h : Kept s0 s) : KeptOut s0 (execLinkedJobStart job s) := by
  refine keptOut_live (h.unless fun h => ?_)
  split
  · exact h
  · split
    · exact h
    · exact h.when (·.linkedStart)

/-! ### Staging and adoption (R402 to R406) -/

theorem Kept.showSlot {i st} (h : Kept s0 s) : Kept s0 (s.showSlot i st) :=
  h.beside
theorem Kept.endStaging {result i} (h : Kept s0 s) : Kept s0 (s.endStaging result i) :=
  (h.beside.unlock.when (·.event)).fire
theorem Kept.refuseGo (h : Kept s0 s) : Kept s0 s.refuseGo :=
  h.beside
theorem eraseSlot_wf (cells : List Host.Cell) (i : Nat) (h : cellsWf erasedByte cells = true) :
    cellsWf erasedByte (eraseSlot cells i) = true :=
  cellsWf_filter _ _ _ h
theorem Kept.stageGo (h : Kept s0 s) : Kept s0 s.stageGo :=
  kept_ite h.refuseGo (kept_ite h.endStaging
    (h.withFlash fun hf => flashWriteN_wf _ _ _ (eraseSlot_wf _ _ hf)).beside.showSlot.lock)
theorem Kept.stageComplete {flashOk} (h : Kept s0 s) : Kept s0 (s.stageComplete flashOk) :=
  kept_ite h.showSlot.endStaging (h.withFlash (eraseSlot_wf _ _)).showSlot.endStaging
theorem Kept.modeEvent {axis old new} (h : Kept s0 s) : Kept s0 (s.modeEvent axis old new) :=
  h.event

theorem Kept.adoptGo (h : Kept s0 s) : Kept s0 s.adoptGo := by
  unfold State.adoptGo
  split
  · exact h.beside.refuseGo
  · exact kept_ite h.refuseGo (kept_ite h.beside.refuseGo (kept_ite h.beside.refuseGo.managementRecord h.beside.modeEvent))

theorem Kept.putFields {fields tys} (h : Kept s0 s) : Kept s0 (s.putFields fields tys) :=
  h.beside
theorem Kept.applyRegisters (h : Kept s0 s) : Kept s0 s.applyRegisters :=
  kept_forAll h.beside fun _ _ h => h.unless (·.writePort)
theorem Kept.switchOver {i} (h : Kept s0 s) : Kept s0 (s.switchOver i) :=
  h.putFields.applyRegisters.beside

theorem execAdoptSwitch_kept (h : Kept s0 s) : KeptOut s0 (execAdoptSwitch s) := by
  refine keptOut_live ?_
  split
  · exact h.when (·.switchOver)
  · exact h

theorem Kept.abortAdoption {result} (h : Kept s0 s) : Kept s0 (s.abortAdoption result) :=
  h.managementRecord.beside.event.count.setPermit
theorem Kept.turnAdoption (h : Kept s0 s) : Kept s0 s.turnAdoption :=
  kept_ite (h.beside.unless (·.putFields.applyRegisters.beside)) (h.when (·.beside.modeEvent))
theorem Kept.writeTable {p serial} (h : Kept s0 s) : Kept s0 (s.writeTable p serial) :=
  h.modUnit

theorem Kept.applyTable {p} (h : Kept s0 s) : Kept s0 (s.applyTable p) := by
  refine kept_ite ?_ (h.when (·.beside.writeTable))
  extract_lets
  split
  · exact h.when (·.beside.writeTable)
  · exact h

theorem Kept.beginRetrain {i} (h : Kept s0 s) : Kept s0 (s.beginRetrain i) :=
  kept_ite h.beside h.beside.putFields.setPermit
theorem Kept.retrainLanes {i} (h : Kept s0 s) : Kept s0 (s.retrainLanes i) :=
  h.unless fun h => kept_forAll h.putFields fun _ _ h => h.when (·.raise)
theorem Kept.finishAdoption {i} (h : Kept s0 s) : Kept s0 (s.finishAdoption i) :=
  h.beside.event.count.fire

theorem Kept.startPiece {i n} (h : Kept s0 s) : Kept s0 (s.startPiece i n) := by
  unfold State.startPiece
  extract_lets
  split
  · exact h.beside.burnVersion.beside
  · exact h.beside
  · exact h.beside.beginRetrain
  · exact h.beside.setPermit.retrainLanes
  · exact h.beside.finishAdoption
  · exact h.beside

theorem Kept.nextPiece {ok} (h : Kept s0 s) : Kept s0 (s.nextPiece ok) := by
  unfold State.nextPiece
  split
  · exact h
  · exact h.unless fun h => kept_ite h.abortAdoption (h.unless (·.startPiece))

/-! ### Pins (R350, R421, R462) -/

theorem Kept.coolAlarm {active} (h : Kept s0 s) : Kept s0 (s.coolAlarm active) :=
  h.unless fun h => kept_ite h.setPin.beside.managementRecord.fire.setPermit h.setPin.setPermit
theorem Kept.beatLost (h : Kept s0 s) : Kept s0 s.beatLost :=
  h.beside.event
theorem Kept.beatPulse {width} (h : Kept s0 s) : Kept s0 (s.beatPulse width) :=
  kept_ite (kept_ite h.beside (h.beside.when (·.beatLost))).beside (kept_ite h.beside h.beside.beatLost)

theorem execBeatIn_kept {p} (h : Kept s0 s) : KeptOut s0 (execBeatIn p s) := by
  refine keptOut_live (h.unless fun h => ?_)
  split
  · exact h.beatPulse
  · exact h.beatLost

theorem Kept.tapReset (h : Kept s0 s) : Kept s0 s.tapReset :=
  h.beside
theorem Kept.countGlitch {i} (h : Kept s0 s) : Kept s0 (s.countGlitch i) :=
  h.beside

theorem Kept.pinActive {i} (h : Kept s0 s) : Kept s0 (s.pinActive i) := by
  unfold State.pinActive
  split
  · exact h.resetPin
  · exact h.pePerst
  · exact h.setPin.askHalt
  · exact h.coolAlarm
  · exact h.trip
  · exact h.setPin.when (·.beatLost)
  · exact h.setPin.tapReset

theorem execInputRacingEnd_kept {pin} (h : Kept s0 s) : KeptOut s0 (execInputRacingEnd pin s) := by
  refine keptOut_live (h.unless fun h => ?_)
  extract_lets
  split
  · exact h.beside.pePerst
  · exact h.beside.coolAlarm
  · exact h.beside.setPin

/-! ### Blocks and groups replaced (R407, R429) -/

theorem Kept.fillClusters {p} (h : Kept s0 s) : Kept s0 (s.fillClusters p) :=
  kept_forAll h fun _ _ h => (h.withMem (Memory.poisonFill_wf _ _ _)).modCluster
theorem Kept.fillGroupBlock {p} (h : Kept s0 s) : Kept s0 (s.fillGroupBlock p) :=
  (h.withMem (Memory.poisonFill_wf _ _ _)).modUnit
theorem Kept.blockReset {d} (h : Kept s0 s) : Kept s0 (s.blockReset d) :=
  kept_ite (kept_ite h.fillClusters h.fillGroupBlock) (h.when (·.portState))
theorem Kept.escalate {d} (h : Kept s0 s) : Kept s0 (s.escalate d) :=
  kept_ite h.beside.modGroup.fillClusters.fillGroupBlock (kept_ite h.unaskBlock.beside h.unaskBlock.blockReset)

theorem Kept.substitute {p} (h : Kept s0 s) : Kept s0 (s.substitute p) := by
  unfold State.substitute
  extract_lets _ pick
  clear_value pick
  split
  · exact h.when (·.powerOn.modGroup)
  · exact h

theorem Kept.retire {p} (h : Kept s0 s) : Kept s0 (s.retire p) := by
  unfold State.retire
  extract_lets _ _ s₁ s₂ s₃ s₄
  have h₂ : Kept s0 s₂ := kept_forAll h.modGroup fun _ _ h => h.modGroup
  have hf : s₂.fuses.Kept { s₂.fuses with retired := s₂.fuses.retired ++ [p] } :=
    ⟨id, Nat.le_refl _, Nat.le_refl _, List.prefix_append _ _⟩
  clear_value s₂
  exact (h₂.withFuses hf).beside.event.when (·.substitute)

theorem Kept.retireExhausted {p due} (h : Kept s0 s) : Kept s0 (s.retireExhausted p due) :=
  h.managementRecord.when (·.modGroup)

/-! ### The beat boundary (R24) -/

theorem Kept.turnLinks (h : Kept s0 s) : Kept s0 s.turnLinks :=
  h.beside
theorem execBeatBoundary_kept (h : Kept s0 s) : KeptOut s0 (execBeatBoundary s) :=
  keptOut_live (h.unless fun h => kept_forAll (kept_forAll h.beside.count.beside.axes.liftDieCaps.turnLinks.turnAdoption
    fun _ _ h => h.boundaryJob).beside.entriesVisible fun _ _ h => h.captureAt)

end

end Sys2Proof.Machine
end

section
/-!
PROOFS. What every step carries: the exchange, security, fused commands, registers, scalar instructions and the program queue (R174,
R186, R193, R228, R367).
-/
namespace Sys2Proof.Machine

section
/-! Each theorem is checked before the next begins. -/
set_option Elab.async false
variable {s0 s t : State}

/-! ### Relay chain and exchange (R187, R228 to R230) -/

theorem Kept.relayRun {k c x t} (h : Kept s0 s) : Kept s0 (s.relayRun k c x t) := by
  unfold State.relayRun
  exact h.readRows.popOperand.modUnit

theorem execRelayRowLanding_kept {g} (h : Kept s0 s) : KeptOut s0 (execRelayRowLanding g s) := by
  refine keptOut_live ?_
  extract_lets s₁
  have h₁ : Kept s0 s₁ := by
    unfold s₁
    split
    · exact h.inject
    · exact h
  split
  · exact h₁
  · exact h₁.unless fun h => h.reachAbs.modUnit.when fun h => kept_foldl h fun _ _ h => h.landRows

theorem Kept.gxSend {k c t} (h : Kept s0 s) : Kept s0 (s.gxSend k c t).2 :=
  h.readCheck
theorem Kept.gxReceive {k c t lat code rows sg} (h : Kept s0 s) : Kept s0 (s.gxReceive k c t lat code rows sg) :=
  kept_ite (h.writeCheck.pushOperand.noteWork.when (·.closeOutput)) (h.writeCheck.pushOperand.noteWork.when (·.closeOutput))
theorem Kept.gxMoveRun {k c x t} (h : Kept s0 s) : Kept s0 (s.gxMoveRun k c x t) :=
  h.gxSend.popOperand.gxReceive.occupy
theorem Kept.gxBcastRun {c t ks pre} (h : Kept s0 s) : Kept s0 (s.gxBcastRun c t ks pre) :=
  kept_foldl h.gxSend.popOperand fun _ _ h => h.gxReceive.occupy

theorem execSheepdogVerdict_kept {k} (h : Kept s0 s) : KeptOut s0 (execSheepdogVerdict k s) := by
  refine keptOut_live ?_
  split
  · exact h
  · exact h.modCluster.modUnit.clusterFault

/-! ### The mailbox (R367 to R383) -/

theorem kept_answer_ite {c : Prop} [Decidable c] {a b : MailAnswer} (ha : Kept s0 a.2.2) (hb : Kept s0 b.2.2) :
    Kept s0 (if c then a else b).2.2 := by
  split <;> assumption

theorem Kept.mailbox {code fields f} (h : Kept s0 s) (hf : ∀ s, Kept s0 s → Kept s0 (f s).2.2) :
    Kept s0 (s.mailbox code fields f) := by
  unfold State.mailbox
  refine kept_ite h.beside ?_
  extract_lets
  rename State => s₁
  have h₁ : Kept s0 s₁ := h.beside
  exact (kept_answer_ite (hf _ h₁) h₁).beside

theorem Kept.bulkIn {a n b} (h : Kept s0 s) (e : s.bulkIn a n = some (b, t)) : Kept s0 t := by
  unfold State.bulkIn at e
  split at e
  · cases e
    exact h.lock
  · cases e

theorem Kept.fail {code} (h : Kept s0 s) : Kept s0 (MailAnswer.fail s code).2.2 :=
  h
theorem mailboxRow_kept {code fields f} (h : Kept s0 s) (hf : ∀ s, Kept s0 s → Kept s0 (f s).2.2) :
    KeptOut s0 (mailboxRow s code fields f) :=
  keptOut_live (h.when (·.mailbox hf))
theorem Kept.mailIdentity (h : Kept s0 s) : Kept s0 s.mailIdentity.2.2 :=
  h
theorem Kept.mailOwnerState (h : Kept s0 s) : Kept s0 s.mailOwnerState.2.2 :=
  h

theorem Kept.mailLoadCurve (h : Kept s0 s) : Kept s0 s.mailLoadCurve.2.2 := by
  unfold State.mailLoadCurve
  extract_lets
  refine kept_answer_ite h ?_
  split
  · exact h.fail
  · next hb =>
    have h₁ := h.bulkIn hb
    exact kept_answer_ite h₁.fail (kept_answer_ite h₁.beside h₁.fail)

theorem Kept.mailQuince (h : Kept s0 s) : Kept s0 s.mailQuince.2.2 := by
  unfold State.mailQuince
  extract_lets
  refine kept_answer_ite h ?_
  split
  · exact h.fail
  · next s₁ hb =>
    have h₁ : Kept s0 s₁ := h.bulkIn hb
    extract_lets done
    have hdone (r) : Kept s0 (done r).2.2 := by
      unfold done
      split
      · exact h₁.fail
      · exact h₁
    refine kept_answer_ite (hdone _) ?_
    split
    · exact h₁.fail
    · exact hdone _

theorem quinceRow_kept {op} (h : Kept s0 s) : KeptOut s0 (quinceRow s op) :=
  keptOut_live (h.unless fun h => (h.unless (·.beside)).mailbox fun _ h => h.mailQuince)

theorem Kept.openSession {slot ksid c} (h : Kept s0 s) : Kept s0 (s.openSession slot ksid c).2.2 := by
  unfold State.openSession
  exact h.draw.draw.sign.beside

theorem Kept.noDrbg (h : Kept s0 s) : Kept s0 s.noDrbg.2.2 :=
  h.restartTests

theorem Kept.mailImportOffer (h : Kept s0 s) : Kept s0 s.mailImportOffer.2.2 := by
  refine kept_answer_ite h.fail (kept_answer_ite h.fail (kept_answer_ite h.fail ?_))
  split
  · exact h.fail
  · split
    · exact h.fail
    · exact kept_answer_ite h.openSession h.noDrbg

theorem Kept.storeShare {b k ws} (h : Kept s0 s) : Kept s0 (s.storeShare b k ws).2.2 :=
  h.beside.event

theorem Kept.importInto {x b} (h : Kept s0 s) : Kept s0 (s.importInto x b).2.2 := by
  unfold State.importInto
  split
  · refine kept_answer_ite h.fail (kept_answer_ite h.fail ?_)
    split
    · exact h.fail
    · exact h.storeShare
  · exact h.fail

theorem Kept.mailImportShare (h : Kept s0 s) : Kept s0 s.mailImportShare.2.2 := by
  refine kept_answer_ite h.fail ?_
  split
  · exact h.fail
  · extract_lets
    rename State => s₁
    have h₁ : Kept s0 s₁ := h.beside
    split
    · exact h₁.fail
    · next hb => exact (h₁.bulkIn hb).importInto

theorem Kept.mailEraseShare (h : Kept s0 s) : Kept s0 s.mailEraseShare.2.2 :=
  h.eraseShare

theorem Kept.mailAttest (h : Kept s0 s) : Kept s0 s.mailAttest.2.2 := by
  unfold State.mailAttest
  split
  · exact h.fail
  · next s₁ hb =>
    have h₁ : Kept s0 s₁ := h.bulkIn hb
    exact kept_answer_ite h₁.fail (kept_answer_ite h₁.fail (kept_answer_ite h₁.fail (kept_answer_ite h₁.fail
      (kept_answer_ite h₁ (kept_answer_ite h₁.fail h₁.beside)))))

theorem Kept.disableSeal (h : Kept s0 s) : Kept s0 s.disableSeal := by
  have hf : s.fuses.Kept { s.fuses with sealDisabled := true } := ⟨fun _ => rfl, Nat.le_refl _, Nat.le_refl _, List.prefix_rfl⟩
  exact (h.withFuses hf).beside.event.eraseShare.beside

theorem Kept.mailSealDisable (h : Kept s0 s) : Kept s0 s.mailSealDisable.2.2 := by
  unfold State.mailSealDisable
  split
  · exact h.fail
  · next s₁ hb =>
    have h₁ : Kept s0 s₁ := h.bulkIn hb
    exact kept_answer_ite h₁.fail (kept_answer_ite h₁.fail (kept_answer_ite h₁.fail (kept_answer_ite h₁.fail h₁.disableSeal)))

theorem Kept.withhold {a n mark} (h : Kept s0 s) : Kept s0 (s.withhold a n mark) :=
  h.beside
theorem Kept.decryptTo {sh obj key out} (h : Kept s0 s) : Kept s0 (s.decryptTo sh obj key out).2.2 :=
  (h.draw.withMem (Memory.store_wf _ _ _)).withhold.beside

theorem Kept.mailPartialDecrypt (h : Kept s0 s) : Kept s0 s.mailPartialDecrypt.2.2 := by
  refine kept_answer_ite h.fail ?_
  split
  · exact h.fail
  · exact kept_answer_ite h.fail (kept_answer_ite h.fail (kept_answer_ite h.noDrbg (kept_answer_ite h.fail h.decryptTo)))

theorem Kept.postResponse (h : Kept s0 s) : Kept s0 s.postResponse :=
  h.beside.unlock.fire

theorem Kept.mailboxGo {code} (h : Kept s0 s) : Kept s0 (s.mailboxGo code) := by
  unfold State.mailboxGo
  split
  · exact h.mailbox fun _ h => h.mailIdentity
  · exact h.mailbox fun _ h => h.mailOwnerState
  · exact h.mailbox fun _ h => h.mailLoadCurve
  · exact h.mailbox fun _ h => h.mailImportOffer
  · exact h.mailbox fun _ h => h.mailImportShare
  · exact h.mailbox fun _ h => h.mailEraseShare
  · exact h.mailbox fun _ h => h.mailAttest
  · exact h.mailbox fun _ h => h.mailPartialDecrypt
  · exact h.mailbox fun _ h => h.mailQuince
  · exact h.when (·.mailbox fun _ h => h.mailSealDisable)
  · exact h.mailbox fun _ h => h.fail

/-! ### Factory, modes and injection (R433, R438, R304) -/

theorem Kept.enterFactory (h : Kept s0 s) : Kept s0 s.enterFactory :=
  h.eraseShare.beside.when (·.beside.count.event)
theorem Kept.writeMode {v w} (h : Kept s0 s) : Kept s0 (s.writeMode v w) :=
  h.beside
theorem execPowerReq_kept {v w} (h : Kept s0 s) : KeptOut s0 (execPowerReq v w s) :=
  keptOut_live (h.when (·.writeMode))
theorem execInjectionArm_kept {v w} (h : Kept s0 s) : KeptOut s0 (execInjectionArm v w s) :=
  keptOut_live (h.unless (·.beside))

/-! ### The path of a fault (R289 to R293) -/

theorem Kept.noteUnitFault {w} (h : Kept s0 s) : Kept s0 (s.noteUnitFault w) :=
  kept_ite h.loseLine (kept_ite h.loseKeyWord (h.unless fun h => kept_ite (h.withMem (Memory.markWord_wf _ _)).poisonEngine
    (h.when (·.poisonEngine))))

theorem execFaultMessage_kept {wire} (h : Kept s0 s) : KeptOut s0 (execFaultMessage wire s) := by
  refine keptOut_live ?_
  split
  · exact h.noteUnitFault.collect
  · split
    · exact h
    · exact h.beside.collect

theorem execDeviceCollectorRecord_kept (h : Kept s0 s) : KeptOut s0 (execDeviceCollectorRecord s) := by
  refine keptOut_live ?_
  split
  · exact h
  · exact h.beside.deviceRecord

/-! ### The transform engine (R114 to R122) -/

theorem Kept.teRun {p c x t ks pre inverse} (h : Kept s0 s) : Kept s0 (s.teRun p c x t ks pre inverse) := by
  unfold State.teRun
  extract_lets
  split
  extract_lets
  rename State => s₁
  have h₁ : Kept s0 s₁ := h.refuseSpan
  clear_value s₁
  split
  next s₂ e₂ =>
  have h₂ : Kept s0 s₂ := kept_of_snd e₂ h₁.spanChecks
  extract_lets
  split
  next s₃ e₃ =>
  have h₃ : Kept s0 s₃ := kept_of_snd e₃ h₂.operandRange
  extract_lets
  rename State => s₄
  have h₄ : Kept s0 s₄ := (kept_foldl h₃ fun _ _ h => h.pushPlane).modUnit
  clear_value s₄
  exact kept_foldl h₄ fun _ _ h => h.popOperandRuns.noteWork.closeOutput.occupy

theorem execTeChecksumVerdict_kept {g disturb} (h : Kept s0 s) : KeptOut s0 (execTeChecksumVerdict g disturb s) := by
  refine keptOut_live ?_
  split
  · exact h
  · exact h.unless fun h => h.reachAbs.modUnit.unless fun h => kept_foldl h.clusterFault fun _ _ h => h.poisonOut

/-! ### Fused commands (R186) -/

/-- A member's work carries what `Kept` names, whatever clusters it runs for. -/
def Member.Keeps (m : Member) : Prop :=
  ∀ {s0 s : State} {k x t ks pre}, Kept s0 s → Kept s0 (m.run s k x t ks pre)

theorem memberOf_keeps {x c m} (hm : memberOf x c = some m) : m.Keeps := by
  intro s0 s k x t ks pre h
  unfold memberOf at hm
  split at hm <;> cases hm
  · exact h.chainRun
  · exact h.tensorRun
  · exact h.switchRun
  · exact h.switchRun
  · exact h.cvtinRun
  · exact h.cvtoutRun
  · exact h.gatherRun
  · exact h.autoRun
  · exact h.fillRun
  · exact h.ldprogRun
  · exact h.ldconstRun
  · exact h.teRun
  · exact h.teRun
  · exact h.suRun
  · exact h.loadsRun
  · exact h.suRun
  · exact h.armRun
  · exact h.relayRun
  · exact h.kfillRun
  · exact h.pipRun
  · exact h.tileRun
  · exact h.gxMoveRun
  · exact h.gxBcastRun
  · exact h.bconvRun
  · exact h.kipRun
  · exact h.combineRun
  · exact h.refRunRun

theorem Kept.runMember {x ks c m t pre} (h : Kept s0 s) (hm : Member.Keeps m) : Kept s0 (s.runMember x ks c m t pre) := by
  refine kept_ite (hm h) (kept_foldl h fun _ _ h => ?_)
  split
  · exact hm h
  · exact h

theorem Kept.extendVerdict {ks cs} (h : Kept s0 s) : Kept s0 (s.extendVerdict ks cs) := by
  induction cs with
  | nil => exact h
  | cons c cs ih => exact ih.unless (·.modUnit)

theorem Kept.clearHandover {ks} (h : Kept s0 s) : Kept s0 (s.clearHandover ks) :=
  kept_foldl h fun _ _ h => h.modCluster

theorem foldl_runMember_kept {x ks pre} {ms : List (CmdWord × Member)} {ts : List Nat} (h : Kept s0 s)
    (hms : ∀ m ∈ ms, Member.Keeps m.2) :
    Kept s0 ((List.zip ms ts).foldl (fun s e => s.runMember x ks e.1.1 e.1.2 e.2 pre) s) := by
  exact List.foldlRecOn (motive := Kept s0) _ _ h fun s h e he => h.runMember (hms _ (List.of_mem_zip he).1)

theorem Kept.fuse {k c cs} (h : Kept s0 s) : Kept s0 (s.fuse k c cs) := by
  unfold State.fuse
  extract_lets
  refine h.item fun s h => ?_
  split
  · exact h
  · extract_lets _ _ ms _ _ _ refused passed
    have hrefused : Kept s0 refused := kept_foldl h fun _ _ h => h.issueFault.advance
    have hpassed : Kept s0 passed := kept_foldl hrefused fun _ _ h => h.advance
    have hms : ∀ m ∈ ms, Member.Keeps m.2 := by
      intro m hm
      obtain ⟨c, -, hc⟩ := List.mem_filterMap.mp hm
      obtain ⟨n, hn, rfl⟩ := Option.map_eq_some_iff.mp hc
      exact memberOf_keeps hn
    refine kept_ite h.issueFault.advance ?_
    split
    · exact hpassed.violate
    · refine Kept.extendVerdict (foldl_runMember_kept (Kept.clearHandover (.unless ?_ (·.violate))) hms)
      exact kept_foldl hpassed fun _ _ h => h.stamp

/-! ### Observation and test access (R451 to R466) -/

theorem Kept.refuseSelection (h : Kept s0 s) : Kept s0 s.refuseSelection :=
  h.beside
theorem execObsSel_kept {pin v w} (h : Kept s0 s) : KeptOut s0 (execObsSel pin v w s) :=
  keptOut_live (h.unless fun h => kept_ite h.beside h.refuseSelection)
theorem execAnaSel_kept {v w} (h : Kept s0 s) : KeptOut s0 (execAnaSel v w s) :=
  keptOut_live (h.unless fun h => kept_ite h.beside h.refuseSelection)
theorem Kept.tap {code} (h : Kept s0 s) : Kept s0 (s.tap code) :=
  h.setPin.beside
theorem Kept.refuseJtag (h : Kept s0 s) : Kept s0 s.refuseJtag :=
  h.tap.beside
theorem Kept.captureBalls {n} (h : Kept s0 s) : Kept s0 (s.captureBalls n) :=
  h.trans ⟨rfl, Nat.le_add_right _ _, id, id, id, .refl _, id⟩
theorem Kept.sideband {x} (h : Kept s0 s) : Kept s0 (s.sideband x) :=
  h.unless (·.beside)

/-! ### Register writes (R310) -/

theorem Kept.writeQuota {f v w} (h : Kept s0 s) : Kept s0 (s.writeQuota f v w) := by
  unfold State.writeQuota
  exact h.when (·.modFunc)

theorem Kept.writeAllotBase {f v w} (h : Kept s0 s) : Kept s0 (s.writeAllotBase f v w) := by
  unfold State.writeAllotBase
  exact h.modFunc

theorem Kept.writeAllotLen {f v w} (h : Kept s0 s) : Kept s0 (s.writeAllotLen f v w) :=
  h.when (·.modFunc)

theorem Kept.writeQueueBlock {fn o v w} (h : Kept s0 s) : Kept s0 (s.writeQueueBlock fn o v w) := by
  refine kept_ite h.modFunc (h.unless fun h => kept_ite (h.when (·.beside)) (h.when fun h => ?_))
  extract_lets
  split
  · exact h.writeQuota
  · exact h.unless (·.writeAllotBase)
  · exact h.unless (·.writeAllotLen)
  · exact h

theorem Kept.writeMsix {fn i v w} (h : Kept s0 s) : Kept s0 (s.writeMsix fn i v w) :=
  h.modFunc.unless (·.modFunc.releaseMessage)
theorem Kept.writeVector {fn k v w} (h : Kept s0 s) : Kept s0 (s.writeVector fn k v w) :=
  h.unless (·.modFunc)
theorem Kept.writeStaging {v w} (h : Kept s0 s) : Kept s0 (s.writeStaging v w) :=
  h.unless fun h => ((h.when (·.stageGo)).when (·.adoptGo)).when (·.abortAdoption)
theorem Kept.writeMailbox {o v w} (h : Kept s0 s) : Kept s0 (s.writeMailbox o v w) :=
  kept_ite (h.beside.when (·.mailboxGo)) (h.when (·.beside))

theorem Kept.writeOwn {fn o v w} (h : Kept s0 s) : Kept s0 (s.writeOwn fn o v w) :=
  kept_ite h.modFunc (kept_ite h.writeQueueBlock (kept_ite h.modFunc (kept_ite h.writeVector (kept_ite h.writeMsix
    (h.unless fun h => kept_ite h.beside (kept_ite h.beside (kept_ite h.writeStaging (kept_ite h.beside
    (kept_ite h.beside (kept_ite h.writeMailbox (kept_ite (h.when (·.writePort)) (h.when (·.beside)))))))))))))

theorem rowWrite_kept {fn o v w out} (h : Kept s0 s) (e : rowWrite fn o v w s = some out) : KeptOut s0 out := by
  unfold rowWrite at e
  extract_lets at e
  split at e
  · exact Option.some.inj e ▸ execEvMaskWrite_kept h
  split at e
  · exact Option.some.inj e ▸ execEvSet_kept h
  split at e
  · exact Option.some.inj e ▸ execEvComplete_kept h
  split at e
  · cases e
  split at e <;> cases e
  · exact execStickyClear_kept h
  · exact execStickyClear_kept h
  · exact execStickyClear_kept h
  · exact keptOut_ite (keptOut_live h) (execLogTailWrite_kept h)
  · exact execHostStep_kept h
  · exact keptOut_ite (execSwReset_kept h) (execHalt_kept h)
  · exact execPowerReq_kept h
  · exact keptOut_ite (execFlushNow_kept h) (keptOut_live h)
  · exact execWindowOffset_kept h
  · exact execObsSel_kept h
  · exact execObsSel_kept h
  · exact execObsSel_kept h
  · exact execObsSel_kept h
  · exact execAnaSel_kept h
  · exact execInjectionArm_kept h

theorem execRegisterWrite_kept {fn offset v w} (h : Kept s0 s) : KeptOut s0 (execRegisterWrite fn offset v w s) := by
  unfold execRegisterWrite
  extract_lets
  split
  · next e => exact rowWrite_kept h e
  · exact keptOut_live (h.unless (·.writeOwn))

/-! ### Scalar instructions (R174) -/

theorem Kept.scalarWrite {k sd major v} (h : Kept s0 s) : Kept s0 (s.scalarWrite k sd major v) :=
  h.item fun _ h => h.advance.modCluster
theorem Kept.scalarOp {k sd sa sb major f} (h : Kept s0 s) : Kept s0 (s.scalarOp k sd sa sb major f) :=
  h.scalarWrite

theorem execRdfeat_kept {k sd idx} (h : Kept s0 s) : KeptOut s0 (execRdfeat k sd idx s) := by
  refine keptOut_live (h.item fun _ h => ?_)
  split
  · exact h.advance.modCluster
  · exact h.issueFault

theorem execRdstat_kept {k sd idx} (h : Kept s0 s) : KeptOut s0 (execRdstat k sd idx s) := by
  refine keptOut_live (h.item fun _ h => ?_)
  split
  · exact h.advance.modCluster
  · exact h.issueFault

theorem Kept.jump {k pc cost} (h : Kept s0 s) : Kept s0 (s.jump k pc cost) :=
  h.modCluster
theorem execLoop_kept {k lc src forward count} (h : Kept s0 s) : KeptOut s0 (execLoop k lc src forward count s) :=
  keptOut_live (h.item fun _ h => kept_ite h.issueFault (kept_ite h.jump.modCluster h.advance.modCluster))
theorem execWaitc_kept {k c} (h : Kept s0 s) : KeptOut s0 (execWaitc k c s) :=
  keptOut_live (h.unless fun h => kept_ite h.issueFault (kept_ite h.issueFault (kept_ite h.issueFault h.advance.modCluster)))

/-! ### The program queue (R193 to R198) -/

theorem Kept.completeProgram {fn ty tag slot r data} (h : Kept s0 s) : Kept s0 (s.completeProgram fn ty tag slot r data) :=
  h.complete
theorem Kept.discardChunks {fn} (h : Kept s0 s) : Kept s0 (s.discardChunks fn) :=
  h.beside
theorem Kept.addChunk {e} (h : Kept s0 s) : Kept s0 (s.addChunk e) :=
  kept_ite h.completeProgram (kept_ite h.completeProgram (kept_ite h.discardChunks.completeProgram
    (kept_ite h.discardChunks.completeProgram h.discardChunks.beside)))

theorem execProgramChunk_kept (h : Kept s0 s) : KeptOut s0 (execProgramChunk s) := by
  refine keptOut_live ?_
  split
  · exact h
  · exact h.dropEntry.addChunk

theorem Kept.addReference {e} (h : Kept s0 s) : Kept s0 (s.addReference e) :=
  kept_ite h.completeProgram (kept_ite h.completeProgram (kept_ite h.completeProgram h.beside))

theorem execProgramReference_kept (h : Kept s0 s) : KeptOut s0 (execProgramReference s) := by
  refine keptOut_live ?_
  split
  · exact h
  · exact h.dropEntry.addReference

theorem Kept.install {q p} (h : Kept s0 s) : Kept s0 (s.install q p) := by
  unfold State.install
  extract_lets
  split
  · exact h.completeProgram
  · refine kept_ite h.completeProgram ?_
    split
    · exact h.completeProgram
    · exact (h.withMem (Memory.store_wf _ _ _)).beside.completeProgram

theorem execProgramVerification_kept (h : Kept s0 s) : KeptOut s0 (execProgramVerification s) := by
  refine keptOut_live ?_
  split
  · exact h
  · extract_lets
    split
    · exact h.beside.completeProgram
    · exact h.beside.install

end

end Sys2Proof.Machine
end

section
/-!
PROOFS. The invariant of every step: each command's meaning carries what `Kept` names, so the memories stay canonical and the job table
without repeats (R202, R242, R389).
-/
namespace Sys2Proof.Machine

/-! Each theorem is checked before the next begins. -/
set_option Elab.async false

/-- What a command's meaning carries, arm by arm. -/
theorem exec_kept {s0 s : State} (c : Instr) (h : Kept s0 s) : KeptOut s0 (exec c s) :=
  match c with
  | .nop .. => keptOut_live (h.item fun _ h => h.advance)
  | .add .. => keptOut_live h.scalarOp
  | .sub .. => keptOut_live h.scalarOp
  | .and .. => keptOut_live h.scalarOp
  | .or .. => keptOut_live h.scalarOp
  | .xor .. => keptOut_live h.scalarOp
  | .shl .. => keptOut_live h.scalarOp
  | .shr .. => keptOut_live h.scalarOp
  | .mul .. => keptOut_live h.scalarOp
  | .addi .. => keptOut_live h.scalarWrite
  | .lih .. => keptOut_live h.scalarWrite
  | .movp .. => keptOut_live h.scalarWrite
  | .rdfeat .. => execRdfeat_kept h
  | .rdstat .. => execRdstat_kept h
  | .loop .. => execLoop_kept h
  | .endl .. => keptOut_live (h.item fun _ h => kept_ite h.issueFault (kept_ite h.advance h.jump).modCluster)
  | .waitc .. => execWaitc_kept h
  | .waitb .. => keptOut_live (h.unless fun h => kept_ite h.issueFault h.advance.modCluster)
  | .waitResume .. => keptOut_live (h.when (·.modCluster))
  | .settw .. => keptOut_live (h.item fun _ h => kept_ite h.issueFault h.advance.modUnit)
  | .endStream .. => keptOut_live (h.unless fun h => kept_ite h.issueFault h.advance.modCluster)
  | .veChain .. => keptOut_live (h.command fun _ _ _ h => h.chainRun)
  | .veTensor .. => keptOut_live (h.command fun _ _ _ h => h.tensorRun)
  | .veRescale .. => keptOut_live (h.groupCommand fun _ _ _ _ _ h => h.switchRun)
  | .veModsw .. => keptOut_live (h.groupCommand fun _ _ _ _ _ h => h.switchRun)
  | .veCvtin .. => keptOut_live (h.command fun _ _ _ h => h.cvtinRun)
  | .veCvtout .. => keptOut_live (h.command fun _ _ _ h => h.cvtoutRun)
  | .veGather .. => keptOut_live (h.command fun _ _ _ h => h.gatherRun)
  | .veAuto .. => keptOut_live (h.groupCommand fun _ _ _ _ _ h => h.autoRun)
  | .veFill .. => keptOut_live (h.command fun _ _ _ h => h.fillRun)
  | .veLdprog .. => keptOut_live (h.command fun _ _ _ h => h.ldprogRun)
  | .veLdconst .. => keptOut_live (h.command fun _ _ _ h => h.ldconstRun)
  | .teFwd .. => keptOut_live (h.groupCommand fun _ _ _ _ _ h => h.teRun)
  | .teInv .. => keptOut_live (h.groupCommand fun _ _ _ _ _ h => h.teRun)
  | .teChecksumVerdict .. => execTeChecksumVerdict_kept h
  | .rmeBconv .. => keptOut_live (h.command fun _ _ _ h => h.bconvRun)
  | .rmeKip .. => keptOut_live (h.command fun _ _ _ h => h.kipRun)
  | .rmeCombine .. => keptOut_live (h.clustersCommand fun _ _ _ _ _ h => h.combineRun)
  | .refRun .. => keptOut_live (h.command fun _ _ _ h => h.refRunRun)
  | .refreshResume .. => execRefreshResume_kept h
  | .suLoad .. => keptOut_live (h.command fun _ _ _ h => h.suRun)
  | .suLoads .. => keptOut_live (h.clustersCommand fun _ _ _ _ _ h => h.loadsRun)
  | .suStore .. => keptOut_live (h.command fun _ _ _ h => h.suRun)
  | .suArm .. => keptOut_live (h.command fun _ _ _ h => h.armRun)
  | .shadowRepeat .. => execShadowRepeat_kept h
  | .suRelay .. => keptOut_live (h.command fun _ _ _ h => h.relayRun)
  | .suKfill .. => keptOut_live (h.command fun _ _ _ h => h.kfillRun)
  | .suPip .. => keptOut_live (h.command fun _ _ _ h => h.pipRun)
  | .suTile .. => keptOut_live (h.command fun _ _ _ h => h.tileRun)
  | .gxMove .. => keptOut_live (h.command fun _ _ _ h => h.gxMoveRun)
  | .gxBcast .. => keptOut_live (h.clustersCommand fun _ _ _ _ _ h => h.gxBcastRun)
  | .fuse .. => keptOut_live h.fuse
  | .sheepdogVerdict .. => execSheepdogVerdict_kept h
  | .transferGrant .. => execTransferGrant_kept h
  | .transferStamp .. => execTransferStamp_kept h
  | .relayRowLanding .. => execRelayRowLanding_kept h
  | .hbmBoundOverrun .. => keptOut_live h.overrun
  | .kcBoundOverrun .. => keptOut_live h.overrun
  | .faultMessage .. => execFaultMessage_kept h
  | .testMessage .. => keptOut_live h.modCollector
  | .deviceCollectorRecord => execDeviceCollectorRecord_kept h
  | .beatBoundary => execBeatBoundary_kept h
  | .programWindowEnd => execProgramWindowEnd_kept h
  | .terrierInjection .. => execTerrierInjection_kept h
  | .terrierVerdict .. => execTerrierVerdict_kept h
  | .terrierRetest .. => keptOut_live (h.when fun h => h.modGroup.unless (·.dueRetirement))
  | .serviceScrub .. => execServiceScrub_kept h
  | .abortFill .. => execAbortFill_kept h
  | .retrieverAbsorb .. => keptOut_live (h.unless (·.modGroup))
  | .retrieverFinalize .. => keptOut_live (h.when (·.modGroup))
  | .ledgerSampling .. => execLedgerSampling_kept h
  | .reconciliation => execReconciliation_kept h
  | .retrieverVerdict => execRetrieverVerdict_kept h
  | .windfallTimeout .. => execWindfallTimeout_kept h
  | .releaseDecision => execReleaseDecision_kept h
  | .checkpointCopy .. => execCheckpointCopy_kept h
  | .submissionWrite .. => execSubmissionWrite_kept h
  | .submissionRead .. => keptOut_live (h.unless (·.beside.modFunc))
  | .programChunk => execProgramChunk_kept h
  | .programReference => execProgramReference_kept h
  | .programVerification => execProgramVerification_kept h
  | .jobEntry => execJobEntry_kept h
  | .jobMapping .. => execJobMapping_kept h
  | .jobFirstIssue .. => execJobFirstIssue_kept h
  | .jobDeadline .. => execJobDeadline_kept h
  | .jobRestart .. => execJobRestart_kept h
  | .jobCompletion .. => execJobCompletion_kept h
  | .transfer => execTransfer_kept h
  | .transferComplete .. => execTransferComplete_kept h
  | .registerKeyset => execRegisterKeyset_kept h
  | .keysetCommit => execKeysetCommit_kept h
  | .removeKeyset => execRemoveKeyset_kept h
  | .removeProgram => execRemoveProgram_kept h
  | .defineArea => keptOut_live (h.onControl fun _ _ h => kept_ite h.completeControl h.beside.completeControl)
  | .deleteArea => execDeleteArea_kept h
  | .cancelJob => execCancelJob_kept h
  | .marker => execMarker_kept h
  | .encode => keptOut_live (h.unless fun h => h.onControl fun _ _ h => h.beside)
  | .backlogDrain .. => keptOut_live h.drainBacklog
  | .extentDigestDone .. => execExtentDigestDone_kept h
  | .bar2Write .. => keptOut_live (h.unless fun h => kept_ite h.countRefused (h.hostWrite.when (·.countRefused)))
  | .bar2Read .. => execBar2Read_kept h
  | .configRequest .. => execConfigRequest_kept h
  | .vfFunctionLevelReset .. => keptOut_live (h.unless (·.flr))
  | .pfFunctionLevelReset => keptOut_live (h.unless (·.flrAll))
  | .pePerstN .. => keptOut_live h.pePerst
  | .d3hotEntry .. => keptOut_live (h.unless (·.modFunc))
  | .eventSourceFire .. => keptOut_live (h.when (·.fire))
  | .eventTaken .. => keptOut_live (h.when (·.take))
  | .evSet .. => execEvSet_kept h
  | .evComplete .. => execEvComplete_kept h
  | .evMaskWrite .. => execEvMaskWrite_kept h
  | .ringEnable .. => keptOut_live (h.unless (·.modFunc))
  | .stickyClear .. => execStickyClear_kept h
  | .logTailWrite .. => execLogTailWrite_kept h
  | .registerWrite .. => execRegisterWrite_kept h
  | .lineWriteback .. => execLineWriteback_kept h
  | .rowRemap .. => keptOut_live (h.when (·.remapRow.beside.managementRecord.event.fire))
  | .patrolScrub .. => keptOut_live (h.when fun h => (kept_foldl h fun _ _ h => h.patrolFind).beside)
  | .kcExtentRepair .. => execKcExtentRepair_kept h
  | .stackTemperatureTrigger .. => execStackTemperatureTrigger_kept h
  | .doubledRefreshEntry .. => keptOut_live (h.when (·.modStack))
  | .memoryClockSlow .. => keptOut_live (h.when (·.modDie))
  | .couplingCapLift => keptOut_live (h.when fun h => kept_forAll h.liftStackCap fun _ _ h => h.restoreMemoryClock)
  | .stepSwitch => execStepSwitch_kept h
  | .avsVoltageConfirm .. => execAvsVoltageConfirm_kept h
  | .stepUpAbandoned => execStepUpAbandoned_kept h
  | .stepUpRetry => keptOut_live (h.when (·.beside.decideStep))
  | .junctionStepUp => keptOut_live (h.when (·.beside.setPermit))
  | .cappedEvaluation .. => keptOut_live (h.when (·.beside.moveCap))
  | .vddCCurrentLift => keptOut_live (h.when (·.setPermit))
  | .hostStep .. => execHostStep_kept h
  | .railRange .. => keptOut_live (h.unless (·.storeRail.beside.raise.fire))
  | .thermalTrip .. => keptOut_live h.trip
  | .powerOnReset => keptOut_next h.resetDevice
  | .brownOutReset => keptOut_next h.resetSource
  | .clockFailure => keptOut_next h.resetSource
  | .lockUp => keptOut_next h.resetSource
  | .resetN => keptOut_next h.resetPin
  | .watchdog => keptOut_next (h.unless (·.writeNow.resetSource))
  | .swReset .. => execSwReset_kept h
  | .releaseStep .. => keptOut_live (h.unless (·.release))
  | .hostReady => keptOut_live (h.unless fun h => h.beside.startFields.startAxes.beside.unless (·.trainHost))
  | .haltReqN => keptOut_live h.setPin.askHalt
  | .halt .. => execHalt_kept h
  | .orderlyHalt => keptOut_live (h.unless fun h => kept_ite (h.when (·.beginHalt)) (h.when (·.endHalt)))
  | .coolAlarmN .. => keptOut_live (h.unless (·.coolAlarm))
  | .coolAlarmStuck => keptOut_live (h.when (·.beside))
  | .coolForcingEnd => keptOut_live (h.when (·.beside))
  | .inputGlitch .. => keptOut_live (kept_ite h.countGlitch (h.unless (·.countGlitch.beside.pinActive)))
  | .inputRacingEnd .. => execInputRacingEnd_kept h
  | .beatIn .. => execBeatIn_kept h
  | .trstN => keptOut_live h.setPin.tapReset
  | .blockIdleReport .. => keptOut_live (h.when (·.unaskBlock.beside.blockReset))
  | .blockIdle .. => keptOut_live (h.when (·.beside.raise.escalate))
  | .groupRetirement .. => keptOut_live (h.unless fun h => kept_ite h.retireExhausted (h.when (·.retire)))
  | .spareProven .. => keptOut_live (h.when fun h => h.fillClusters.fillGroupBlock.modGroup.unless (·.dueRetirement))
  | .linkFrameReceive .. => execLinkFrameReceive_kept h
  | .linkMessageSend .. => execLinkMessageSend_kept h
  | .linkRetransmit .. => execLinkRetransmit_kept h
  | .linkKeepalive .. => keptOut_live ((kept_forAll h fun _ _ h => h.raise).when (·.retrain))
  | .portTraining .. => execPortTraining_kept h
  | .spareRequest .. => keptOut_live (h.when (·.modPort.portState))
  | .spareAcknowledge .. => keptOut_live (h.when (·.modPort.acknowledge))
  | .laneSwap .. => execLaneSwap_kept h
  | .beatMarker .. => execBeatMarker_kept h
  | .aligned => keptOut_live (h.when (·.beside))
  | .clear .. => keptOut_live (h.takeRecord fun _ h => h.takeClear)
  | .fail .. => keptOut_live (h.takeRecord fun _ h => h.takeFail)
  | .ready .. => keptOut_live (h.takeRecord fun _ h => h.takeReady)
  | .restart .. => keptOut_live (h.takeRecord fun _ h => h.takeRestart)
  | .terminate .. => keptOut_live (h.takeRecord fun _ h => h.takeTerminate)
  | .step .. => keptOut_live (h.takeRecord fun _ h => h.memberStep)
  | .domainStepChange => keptOut_live (h.when (·.domainStep))
  | .linkedJobStart .. => execLinkedJobStart_kept h
  | .portEnable .. => keptOut_live (h.when (·.writePort))
  | .retrain .. => keptOut_live (h.when (·.writePort))
  | .identity => mailboxRow_kept h fun _ h => h.mailIdentity
  | .ownerState => mailboxRow_kept h fun _ h => h.mailOwnerState
  | .loadCurve => mailboxRow_kept h fun _ h => h.mailLoadCurve
  | .importOffer => mailboxRow_kept h fun _ h => h.mailImportOffer
  | .importShare => mailboxRow_kept h fun _ h => h.mailImportShare
  | .eraseShare => mailboxRow_kept h fun _ h => h.mailEraseShare
  | .attest => mailboxRow_kept h fun _ h => h.mailAttest
  | .partialDecrypt => mailboxRow_kept h fun _ h => h.mailPartialDecrypt
  | .pointCheck => quinceRow_kept h
  | .scalarMultiplication => quinceRow_kept h
  | .ecdsaVerify => quinceRow_kept h
  | .modularExponentiation => quinceRow_kept h
  | .sealDisable => keptOut_ite (mailboxRow_kept h fun _ h => h.mailSealDisable) (keptOut_live h)
  | .mailboxResponse => keptOut_live (h.when (·.postResponse))
  | .drbgHealthFailure => keptOut_live (h.unless (·.beside.event))
  | .drbgReseed => keptOut_live (h.when (·.beside))
  | .stageGo .. => keptOut_live (h.unless (·.stageGo))
  | .stageComplete .. => keptOut_live (h.when (·.stageComplete))
  | .adoptGo .. => keptOut_live (h.unless (·.adoptGo))
  | .adoptionPiece .. => keptOut_live (h.when (·.nextPiece))
  | .adoptSwitch => execAdoptSwitch_kept h
  | .groupTableApply .. => keptOut_live (h.when (·.applyTable))
  | .pseudoChannelRetrain .. => keptOut_live (h.unless fun h => kept_ite h.abortAdoption h.beside)
  | .adoptAbort .. => keptOut_live (h.when (·.abortAdoption))
  | .adoptTimeout => keptOut_live (h.when (·.abortAdoption))
  | .factoryAuth .. => keptOut_live (h.setPin.beside.unless fun h => kept_ite h.beside h.beside)
  | .factoryEntry => keptOut_live (h.when (·.enterFactory))
  | .powerReq .. => execPowerReq_kept h
  | .twinAll .. => keptOut_live (h.when (·.writeMode))
  | .injectionArm .. => execInjectionArm_kept h
  | .injectionFire => keptOut_live (h.unless fun h => kept_ite h.beside.collect h.beside)
  | .ledgerEventWrite .. => execLedgerEventWrite_kept h
  | .ledgerSnapshot .. => keptOut_live (h.unless fun h => kept_ite h.beside (h.unless (·.count)).flushLedger)
  | .flushNow .. => execFlushNow_kept h
  | .durableCopy .. => keptOut_live (h.unless fun h => kept_ite h.writeDurable h.beside)
  | .windowOffset .. => execWindowOffset_kept h
  | .windowReady => keptOut_live (h.unless (·.beside))
  | .obsSel .. => execObsSel_kept h
  | .anaSel .. => execAnaSel_kept h
  | .extest => keptOut_live (kept_ite h.tap.captureBalls h.refuseJtag)
  | .samplePreload .. => keptOut_live h.tap.captureBalls.beside
  | .idcode => keptOut_live h.tap.beside
  | .clamp => keptOut_live (kept_ite h.tap h.refuseJtag)
  | .highz => keptOut_live (kept_ite h.tap h.refuseJtag)
  | .debugReset .. => keptOut_next (h.unless fun h => h.tap.unless fun h => kept_ite h.writeNow.resetSource h.beside)
  | .scanDump => keptOut_live (kept_ite h.tap.beside h.refuseJtag)
  | .bypass .. => keptOut_live h.tap.beside
  | .status => keptOut_live h.sideband
  | .tj => keptOut_live h.sideband
  | .sbStep => keptOut_live h.sideband
  | .cause => keptOut_live h.sideband
  | .power => keptOut_live h.sideband
  | .alert => keptOut_live (h.unless (·.sideband.beside))
  | .smbusTimeout => keptOut_live h.beside
  | .linkReferenceLoss => keptOut_live (kept_forAll h.beside fun _ _ h => h.portDown)
  | .heldResetRelease => keptOut_next (h.when (·.setPin.resetDevice))
  | .haltDrainLimit => keptOut_live (h.when (·.endHalt))
  | .encodeComplete => execEncodeComplete_kept h
  | .d0Return .. => keptOut_live (h.unless (·.returnD0))
  | .msixVectorUnmask .. => keptOut_live (h.unless (·.modFunc.releaseMessage))
  | .ideKm .. => keptOut_live (h.unless fun h => kept_ite h.restartTests h.draw.modFunc)

/-- An empty queue's step moves the cycle alone. -/
theorem Kept.tick {s0 s : State} (h : Kept s0 s) : Kept s0 s.tick :=
  h.when (·.beside)

/-- Settles O4: a step is a command's meaning, or a tick, and both carry the invariant. -/
theorem everyStepKeepsTheInvariant : Obligations.EveryStepKeepsTheInvariant := by
  intro s t hinv hstep
  unfold step at hstep
  split at hstep
  · cases hstep
    exact (Kept.refl s).tick.inv hinv
  · next c rest _ =>
    obtain ⟨hmem, hram, hflash, hjobs⟩ := hinv
    exact (exec_kept c (.refl { s with pending := rest }) t hstep).inv ⟨hmem, hram, hflash, hjobs⟩

end Sys2Proof.Machine
end

section
/-!
PROOFS. A job record's patches (R203): the value a register is given, and that a record which gives one twice is invalid.
-/
namespace Sys2Proof.Machine

/-! ### Which patch reaches a register -/

/-- Of patches without repeats, the one of a register and scope is the one found. -/
theorem find?_patch {l : List (Nat × Nat × Nat)} (hl : l.Pairwise fun p q => p.1 ≠ q.1 ∨ p.2.1 ≠ q.2.1) {r g v : Nat}
    (h : (r, g, v) ∈ l) : (l.find? fun p => p.1 == r && p.2.1 == g) = some (r, g, v) := by
  induction hl with
  | nil => simp at h
  | @cons p l hp _ ih =>
    rcases List.mem_cons.1 h with rfl | h
    · simp
    · have hne : p.1 ≠ r ∨ p.2.1 ≠ g := hp _ h
      rw [List.find?_cons_of_neg (by simpa [imp_iff_not_or] using hne), ih h]

/-- No patch of a register and scope is found where none stands. -/
theorem find?_patch_eq_none {l : List (Nat × Nat × Nat)} {r g : Nat} (h : ∀ q ∈ l, q.1 = r → q.2.1 ≠ g) :
    (l.find? fun p => p.1 == r && p.2.1 == g) = none := by
  simpa using h

/-- A patch of the group itself reaches its register, whatever is scoped 0xFF. -/
theorem patchOf_of_own {l : List (Nat × Nat × Nat)} (hl : l.Pairwise fun p q => p.1 ≠ q.1 ∨ p.2.1 ≠ q.2.1) {r g v : Nat}
    (h : (r, g, v) ∈ l) : patchOf l g r = some v := by
  rw [patchOf, find?_patch hl h]

/-- Without a patch of the group itself the one scoped 0xFF reaches the register. -/
theorem patchOf_of_every {l : List (Nat × Nat × Nat)} (hl : l.Pairwise fun p q => p.1 ≠ q.1 ∨ p.2.1 ≠ q.2.1) {r g v : Nat}
    (hown : ∀ q ∈ l, q.1 = r → q.2.1 ≠ g) (h : (r, 0xFF, v) ∈ l) : patchOf l g r = some v := by
  rw [patchOf, find?_patch_eq_none hown, find?_patch hl h, Option.map_some]

/-- With neither, no patch reaches it. -/
theorem patchOf_eq_none {l : List (Nat × Nat × Nat)} {r g : Nat} (h : ∀ q ∈ l, q.1 = r → q.2.1 ≠ g ∧ q.2.1 ≠ 0xFF) :
    patchOf l g r = none := by
  rw [patchOf, find?_patch_eq_none fun q hq hr => (h q hq hr).1, find?_patch_eq_none fun q hq hr => (h q hq hr).2, Option.map_none]

/-! ### The table of register values -/

/-- A value listed at a key under which nothing else stands is what the table holds there. -/
theorem Table.at_of_mem {α : Type} {t : Table α} {k : Nat} {v : α} (d : α) (h : (k, v) ∈ t) (hone : ∀ w, (k, w) ∈ t → w = v) :
    t.at k d = v := by
  induction t with
  | nil => simp at h
  | cons e t ih =>
    obtain ⟨i, w⟩ := e
    by_cases hi : i = k
    · simpa [Table.at, Table.find, hi] using hone w (by simp [hi])
    · have hmem : (k, v) ∈ t := by simpa [Ne.symm hi] using h
      simpa [Table.at, Table.find, hi] using ih hmem fun w hw => hone w (List.mem_cons_of_mem _ hw)

/-- The value of each register of each group is the patch's that reaches it, else 0. -/
theorem paramTable_at {l : List (Nat × Nat × Nat)} {groups g r : Nat} (hg : g < groups) (hr : r < 64) :
    (paramTable l groups).at (64 * g + r) 0 = BitVec.ofNat 64 ((patchOf l g r).getD 0) := by
  refine Table.at_of_mem 0 ?_ fun w hw => ?_
  · simp only [paramTable, List.mem_flatMap, List.mem_map, List.mem_range]
    exact ⟨g, hg, r, hr, rfl⟩
  · simp only [paramTable, List.mem_flatMap, List.mem_map, List.mem_range, Prod.mk.injEq] at hw
    obtain ⟨g', -, r', hr', hkey, hval⟩ := hw
    obtain ⟨rfl, rfl⟩ : g' = g ∧ r' = r := by omega
    exact hval.symm

/-! ### Records with a patch twice -/

/-- The record check's own test of repeats says no two patches share register and scope. -/
theorem patchesDistinct_iff (l : List (Nat × Nat × Nat)) :
    patchesDistinct l = true ↔ l.Pairwise fun p q => p.1 ≠ q.1 ∨ p.2.1 ≠ q.2.1 := by
  induction l with
  | nil => simp [patchesDistinct]
  | cons p l ih => simp [patchesDistinct, ih, @eq_comm _ p.1, @eq_comm _ p.2.1]

/-- A record of the wrong form is invalid (R204). -/
theorem State.jobStatus_of_format {s : State} {j : Job} (h : recordFormatOk (s.jobRecord j) = false) : s.jobStatus j = 0x40 := by
  rw [State.jobStatus]
  exact if_pos (by rw [h, Bool.not_false, Bool.or_true])

/-- Settles O29: the patch of the group is looked for first, and each register has one place in the table. -/
theorem patchesTakePrecedence : Obligations.PatchesTakePrecedence := by
  intro l groups g r v s j
  refine ⟨fun _ hg hr hl => ?_, fun h => State.jobStatus_of_format ?_⟩
  · refine ⟨fun h => ?_, fun hown h => ?_, fun h => ?_⟩ <;> refine (paramTable_at hg hr).trans ?_
    · rw [patchOf_of_own hl h, Option.getD_some]
    · rw [patchOf_of_every hl hown h, Option.getD_some]
    · rw [patchOf_eq_none h]; rfl
  · have hrep : patchesDistinct (recPatchList (s.jobRecord j)) = false := by rwa [← Bool.not_eq_true, patchesDistinct_iff]
    simp [recordFormatOk, hrep]

end Sys2Proof.Machine
end

section
/-!
PROOFS. JOB_MAPPING (R204, R206, R207): what setting up a job's groups writes and leaves alone, and the two ends of a try.
-/
namespace Sys2Proof.Machine

variable (s : State)

/-! ### Setting up groups -/

section
variable {β : Type} {g : State → β} (hcluster : ∀ (u : State) k f, g (u.modCluster k f) = g u)
  (hring : ∀ (u : State) k r f, g (u.modRing k r f) = g u)
include hcluster hring

/-- Setting up one cluster changes clusters and rings alone (R177, R201, R218). -/
theorem State.setCluster_keeps (p : Program) (params : Table Word64) (l k : Nat) : g (s.setCluster p params l k) = g s :=
  (State.forAll_keeps g (fun u r => keeps_ite g (hring u _ r _) (hring u _ r _)) _ _).trans (hcluster s _ _)

variable (hgroup : ∀ (u : State) q f, g (u.modGroup q f) = g u) (hunit : ∀ (u : State) q f, g (u.modUnit q f) = g u)
include hgroup hunit

/-- Setting up a group changes groups, their units, clusters and rings alone (R29). -/
theorem State.setGroup_keeps (id : Nat) (p : Program) (params : Table Word64) (set l q : Nat) :
    g (s.setGroup id p params set l q) = g s := by
  unfold State.setGroup
  extract_lets store s₁ s₂
  have h₂ : g s₂ = g s := (hunit s₁ _ _).trans (hgroup s _ _)
  exact (State.forAll_keeps g (fun u k => u.setCluster_keeps hcluster hring p params l k) _ _).trans h₂

/-- Setting up both sets changes no more. -/
theorem State.setGroups_keeps (id : Nat) (p : Program) (params : Table Word64) (a b : List Nat) :
    g (s.setGroups id p params a b) = g s := by
  have hset (set : Nat) (e : Nat × Nat) (u : State) : g (u.setGroup id p params set e.2 e.1) = g u :=
    u.setGroup_keeps hcluster hring hgroup hunit id p params set e.2 e.1
  unfold State.setGroups
  extract_lets s₁
  exact (foldl_keeps g (fun u e => hset 1 e u) _ _).trans (foldl_keeps g (fun u e => hset 0 e u) _ _)

end

/-- The group set up is the job's, and every other keeps the job it had. -/
theorem State.job_setGroup (id : Nat) (p : Program) (params : Table Word64) (set l q x : Nat) :
    ((s.setGroup id p params set l q).group x).job = if x = q then BitVec.ofNat 16 id else (s.group x).job := by
  unfold State.setGroup
  extract_lets store s₁ s₂
  have h₂ : (s₂.group x).job = if x = q then BitVec.ofNat 16 id else (s.group x).job := by
    refine (rfl : _ = (s₁.group x).job).trans ?_
    split
    next hx => rw [hx, State.group_modGroup]
    next hx => rw [State.group_modGroup_other _ _ _ _ hx]
  exact (State.forAll_keeps (fun u : State => (u.group x).job)
    (fun u k => u.setCluster_keeps (g := fun u => (u.group x).job) (fun _ _ _ => rfl) (fun _ _ _ _ => rfl) p params l k) _ _).trans h₂

/-- Groups set up one after the other are all the job's. -/
theorem State.job_foldl_setGroup {s : State} (id : Nat) (p : Program) (params : Table Word64) (set q : Nat) (l : List (Nat × Nat))
    (h : q ∈ l.map (·.1) ∨ (s.group q).job = BitVec.ofNat 16 id) :
    ((l.foldl (fun s e => s.setGroup id p params set e.2 e.1) s).group q).job = BitVec.ofNat 16 id := by
  induction l generalizing s with
  | nil => simpa using h
  | cons e l ih =>
    refine ih ?_
    rw [State.job_setGroup]
    by_cases hq : q = e.1
    · exact .inr (if_pos hq)
    · simpa [hq] using h

/-- The groups of both sets are the job's. -/
theorem State.job_setGroups (id : Nat) (p : Program) (params : Table Word64) {a b : List Nat} {q : Nat} (h : q ∈ a ∨ q ∈ b) :
    ((s.setGroups id p params a b).group q).job = BitVec.ofNat 16 id := by
  refine State.job_foldl_setGroup id p params 1 q _ ?_
  rw [List.zipIdx_map_fst]
  refine h.symm.imp_right fun ha => State.job_foldl_setGroup id p params 0 q _ (.inl ?_)
  rwa [List.zipIdx_map_fst]

/-! ### The mapping -/

section
variable {id : Nat} {j : Job} {slot : Nat} {p : Program} {b : List Byte} {a c : List Nat}

/-- The job's entry in the table after its mapping in beat `beat`. -/
def Job.mapped (j : Job) (slot beat : Nat) (b : List Byte) (a c : List Nat) : Job :=
  { j with
    checked := true, complTag := BitVec.ofNat 32 (field b 44 4), deadline := field b 40 4, program := slot, groupCount := recGroups b,
    twin := c != [], phase := .mapped, mapBeat := beat, set0 := a, set1 := c, params := paramTable (recPatchList b) (recGroups b),
    jobBeat := 0 }

/-- After its groups are set up a mapping changes faults, locks, the job tables and the link alone (R158, R281, R344). -/
theorem State.mapJob_keeps {β : Type} (g : State → β) (hfaults : ∀ (u : State) x, g { u with faults := x } = g u)
    (hlocks : ∀ (u : State) x, g { u with host := { u.host with locks := x } } = g u)
    (hwork : ∀ (u : State) x, g { u with work := x } = g u) (hlink : ∀ (u : State) x, g { u with link := x } = g u) :
    g (s.mapJob id j slot p b a c) = g (s.setGroups id p (paramTable (recPatchList b) (recGroups b)) a c) := by
  unfold State.mapJob
  extract_lets params s₁ s₂ s₃ digests twin s₄ _ s₅
  have h₂ : g s₂ = g s₁ := keeps_ite g rfl (hfaults s₁ _)
  have h₃ : g s₃ = g s₂ := foldl_keeps g (fun u e => by rw [State.lock_eq]; exact hlocks u _) _ _
  have h₅ : g s₅ = g s₁ := (hwork s₄ _).trans ((hwork s₃ _).trans (h₃.trans h₂))
  clear_value s₅
  split
  · exact (hwork (s₅.sendControl _ _ _ _ _) _).trans ((hlink s₅ _).trans h₅)
  · exact h₅

theorem State.mapJob_mem : (s.mapJob id j slot p b a c).mem = s.mem :=
  (s.mapJob_keeps State.mem (fun _ _ => rfl) (fun _ _ => rfl) (fun _ _ => rfl) fun _ _ => rfl).trans
    (s.setGroups_keeps (fun _ _ _ => rfl) (fun _ _ _ _ => rfl) (fun _ _ _ => rfl) (fun _ _ _ => rfl) _ _ _ _ _)

/-- Every group of the mapping is the job's (R207). -/
theorem State.mapJob_group {q : Nat} (h : q ∈ a ∨ q ∈ c) : ((s.mapJob id j slot p b a c).group q).job = BitVec.ofNat 16 id :=
  (s.mapJob_keeps (fun u => (u.group q).job) (fun _ _ => rfl) (fun _ _ => rfl) (fun _ _ => rfl) fun _ _ => rfl).trans (s.job_setGroups _ _ _ h)

/-- The job stands mapped in the table, from this beat. -/
theorem State.mapJob_job : (s.mapJob id j slot p b a c).job? id = some (j.mapped slot s.beat.toNat b a c) := by
  unfold State.mapJob
  extract_lets params s₁ s₂ s₃ digests twin s₄ _ s₅
  have h₁ : s₁.beat = s.beat := s.setGroups_keeps (fun _ _ _ => rfl) (fun _ _ _ _ => rfl) (fun _ _ _ => rfl) (fun _ _ _ => rfl) ..
  have h₂ : s₂.beat = s₁.beat := keeps_ite State.beat rfl rfl
  have h₃ : s₃.beat = s₂.beat := foldl_keeps State.beat (fun u e => by rw [State.lock_eq]) _ _
  have h₅ : s₅.job? id = some (j.mapped slot s.beat.toNat b a c) := by
    rw [← h₁, ← h₂, ← h₃]
    exact Table.find_put_same _ _ _
  clear_value s₅
  split <;> exact h₅

end

/-! ### The keys a mapping is granted -/

/-- A grant changes the key-cache directory alone (R88). -/
theorem grantKey_eq {s t : State} {id ksid len : Nat} {d : KeyDecl} (h : grantKey id ksid len d s = some t) :
    t = { s with work := t.work } := by
  simp only [grantKey] at h
  split at h
  · cases h; rfl
  · split at h <;> cases h
    rfl

@[inherit_doc grantKey_eq]
theorem State.grantKeys_eq {s t : State} {id : Nat} {p : Program} (h : s.grantKeys id p = some t) : t = { s with work := t.work } := by
  refine List.foldlRecOn (motive := fun o => ∀ t, o = some t → t = { s with work := t.work }) _ _ (fun t e => ?_) ?_ t h
  · cases e; rfl
  · intro o ih d _ t e
    split at e
    · cases e
    next u =>
      have hu := ih u rfl
      split at e
      · rw [grantKey_eq e, hu]
      · cases e; exact hu

/-! ### The two ends of a try -/

/-- A refused job leaves the table and completes with its status (R204). -/
theorem State.refuseMapping_ends (id : Nat) (j : Job) (st : Nat) :
    let t := s.refuseMapping id j st
    t.job? id = none ∧ Completed s t j.fn 3 st ∧ t.groups = s.groups ∧ t.clusters = s.clusters := by
  have hkeeps {β : Type} (g : State → β)
      (h : ∀ (u : State) funcs ram, g { u with host := { u.host with funcs := funcs, hostRam := ram } } = g u) :=
    State.complete_keeps { s with work := { s.work with jobs := s.work.jobs.del id, runs := s.work.runs.del id } } g (h _)
      j.fn 3 st j.tag (jobBody id 0 0 0 0 j.complTag) false 0
  refine ⟨(hkeeps (·.job? id) fun _ _ _ => rfl).trans (Table.find_del_same _ _), ?_, hkeeps (·.groups) fun _ _ _ => rfl,
    hkeeps (·.clusters) fun _ _ _ => rfl⟩
  exact (State.completed_complete _ _ _ _ _ _ _ _).of_same
    (fun h => ⟨h.memory, h.hostRam, h.flash, Table.rising_del _ _ h.jobs⟩) rfl rfl

/-- JOB_MAPPING tries the waiting job it names. -/
theorem jobMapping_runs {s : State} {job : BitVec 16} {j : Job} {P : State → Prop} (hd : s.defined) (hb : s.beating = true)
    (hh : s.rst.haltStarted = false) (hj : s.job? job.toNat = some j) (hw : j.phase = .waiting) (h : P (s.tryMap job.toNat j)) :
    Runs (.jobMapping job) s P := by
  refine runs_of_exec_live hd ?_ h
  show execJobMapping job s = _
  simp [execJobMapping, hb, hh, hj, hw]

/-- A job that passes the check, finds its groups and is granted its keys is mapped on them. -/
theorem State.tryMap_of_fits {s u : State} {id slot : Nat} {j : Job} {p : Program} {a c : List Nat} (hst : s.jobStatus j = 0)
    (hp : s.programBy? (slice (s.jobRecord j) 8 32) = some (slot, p)) (hs : s.starved j = false) (hl : s.linkOpen p = true)
    (hn : (p.linked && decide (8 ≤ s.linkedJobs)) = false)
    (hac : s.place p (field (s.jobRecord j) 5 1 % 2 == 1 || s.mode.twinAll) [] = some (a, c)) (hk : s.grantKeys id p = some u) :
    s.tryMap id j = u.mapJob id j slot p (s.jobRecord j) a c := by
  simp only [State.tryMap, hst, ne_eq, not_true_eq_false, if_false, hp, hs, hl, hn, hac, hk, Bool.not_true, Bool.or_false,
    Bool.false_eq_true]

/-- Settles O30: the check's status decides; what sets up the groups changes neither memory nor the beat. -/
theorem jobsMapOntoGroups : Obligations.JobsMapOntoGroups := by
  intro s job j hd hb hh hj hw
  refine ⟨fun slot p a c hst hp hs hl hn hac hk => jobMapping_runs hd hb hh hj hw ?_,
    fun hst => jobMapping_runs hd hb hh hj hw ?_⟩
  · obtain ⟨u, hu⟩ := Option.isSome_iff_exists.1 hk
    have hmap := State.grantKeys_eq hu
    rw [State.tryMap_of_fits hst hp hs hl hn hac hu]
    refine ⟨⟨_, u.mapJob_job, rfl, rfl, rfl, rfl, ?_, rfl, rfl⟩, fun q hq => ?_, ?_⟩
    · rw [hmap]; rfl
    · exact (u.mapJob_group hq).trans (BitVec.ofNat_toNat _ _)
    · rw [u.mapJob_mem, hmap]
  · rw [show s.tryMap job.toNat j = s.refuseMapping job.toNat j (s.jobStatus j) from if_pos hst]
    exact s.refuseMapping_ends _ _ _

end Sys2Proof.Machine
end

section
/-!
PROOFS. The program queue (R193, R194, R197, R198): how chunks and references join it, and how the verification of the object next in
line ends. A completion changes neither the queue, nor the installed programs, nor device memory.
-/
namespace Sys2Proof.Machine

/-- What was stored reads back. -/
theorem Memory.readN_store {m : Memory} (h : m.wf = true) (a : Nat) (bs : List Byte) : (m.store a bs).readN a bs.length = bs := by
  refine List.ext_getElem (by simp [Memory.readN]) fun i hi hb => ?_
  have hread : (m.store a bs).read (a + i) = bs[i] := m.read_writeN_inside bs a i _ h (List.getElem?_eq_getElem hb)
  simpa [Memory.readN] using hread

variable (s : State)

/-! ### Completions of program entries -/

section
variable (fn ty slot data : Nat) (tag : Word32) (r : Reject)

@[simp] theorem State.completeProgram_work : (s.completeProgram fn ty tag slot r data).work = s.work :=
  s.complete_keeps State.work (fun _ _ => rfl) ..
@[simp] theorem State.completeProgram_mem : (s.completeProgram fn ty tag slot r data).mem = s.mem :=
  s.complete_keeps State.mem (fun _ _ => rfl) ..

theorem State.completed_completeProgram : Completed s (s.completeProgram fn ty tag slot r data) fn ty r.code :=
  s.completed_complete ..

end

/-! ### Chunks and references -/

/-- The queue of programs is `l`. -/
def State.withQueue (l : List QueuedProgram) : State := { s with work := { s.work with queue := l } }

/-- The object a chunk entry makes of the bytes before it (R193). -/
def Entry.chunked (e : Entry) (before : List Byte) : QueuedProgram :=
  { fn := e.fn, tag := e.tag, byChunks := true, bytes := before ++ slice e.raw 12 (e.flags / 256 % 64), complete := e.flags % 2 == 1,
    seq := e.seq, visible := e.visible }

/-- The object a reference entry names, as its bytes stand in memory (R193). -/
def State.referred (e : Entry) : QueuedProgram :=
  { fn := e.fn, tag := e.tag, byChunks := false, bytes := s.mem.fetch (field e.raw 8 8) (field e.raw 16 4), complete := true,
    seq := e.seq, visible := e.visible }

/-- The queue without what function `fn` is assembling. -/
def State.queueWithout (fn : Nat) : List QueuedProgram :=
  s.work.queue.filter fun x => !(x.fn == fn && x.byChunks && !x.complete)

/-- Where a function assembles nothing, its discarded chunks are none. -/
theorem State.queueWithout_of_none {s : State} {fn : Nat} (h : s.assembling? fn = none) : s.queueWithout fn = s.work.queue :=
  List.filter_eq_self.2 fun q hq => by rw [Bool.eq_false_of_not_eq_true (List.find?_eq_none.1 h q hq)]; rfl

/-- A chunk entry's length is one that R193 allows. -/
def Entry.ChunkFits (e : Entry) : Prop :=
  e.flags / 256 % 64 = 48 ∨ ((e.flags % 2 == 1) = true ∧ 1 ≤ e.flags / 256 % 64 ∧ e.flags / 256 % 64 ≤ 48)

theorem Entry.ChunkFits.not_refused {e : Entry} (h : e.ChunkFits) :
    ¬ (decide (e.flags / 256 % 64 = 0) || decide (48 < e.flags / 256 % 64) ||
      (!(e.flags % 2 == 1) && e.flags / 256 % 64 != 48)) = true := by
  rcases h with h | ⟨hfinal, hlow, hhigh⟩
  · simp [h]
  · simp [hfinal]; omega

section
variable {s} {e : Entry} (hn : e.ChunkFits) (hroom : s.queueBytes + e.flags / 256 % 64 ≤ 0x10000000)
include hn

/-- A first chunk while another object is unfinished is refused (log entry 66). -/
theorem State.addChunk_of_second (hnone : s.assembling? e.fn = none)
    (hother : (s.work.queue.any fun q => q.byChunks && !q.complete) = true) :
    s.addChunk e = s.completeProgram e.fn 1 e.tag 0 (noPlace 0x21) 0 := by
  rw [State.addChunk, if_neg hn.not_refused]
  exact if_pos (by rw [hnone, hother]; rfl)

include hroom

/-- A chunk that stands next in its object, with a place and room in the queue, joins it. -/
theorem State.addChunk_of_next {old : Option QueuedProgram} (hold : s.assembling? e.fn = old)
    (hother : (old.isNone && s.work.queue.any fun q => q.byChunks && !q.complete) = false)
    (hlen : (old.isNone && decide (4 ≤ s.work.queue.length)) = false)
    (hoff : field e.raw 8 4 = (old.map fun q => q.bytes.length).getD 0) :
    s.addChunk e = s.withQueue (s.queueWithout e.fn ++ [e.chunked ((old.map (·.bytes)).getD [])]) := by
  subst hold
  rw [State.addChunk, if_neg hn.not_refused]
  refine (if_neg (by simp [hother])).trans ((if_neg (not_not.2 hoff)).trans (if_neg ?_))
  simp [hlen, hroom]

/-- A first chunk begins its object at the queue's end. -/
theorem State.addChunk_of_first (hnone : s.assembling? e.fn = none)
    (hother : (s.work.queue.any fun q => q.byChunks && !q.complete) = false) (hlen : s.work.queue.length < 4)
    (hoff : field e.raw 8 4 = 0) : s.addChunk e = s.withQueue (s.work.queue ++ [e.chunked []]) := by
  rw [State.addChunk_of_next hn hroom hnone hother (by simpa using hlen) hoff, State.queueWithout_of_none hnone]
  rfl

end

/-- A reference to bytes in an intake area joins the queue. -/
theorem State.addReference_of_fits {s : State} {e : Entry} (hmem : s.memSys.hbmFailed = false) (hn : field e.raw 16 4 ≠ 0)
    (hin : s.inIntake e.fn (field e.raw 8 8) (field e.raw 16 4) = true) (hlen : s.work.queue.length < 4)
    (hroom : s.queueBytes + field e.raw 16 4 ≤ 0x10000000) : s.addReference e = s.withQueue (s.work.queue ++ [s.referred e]) := by
  simp [State.addReference, hmem, hn, hin, Nat.not_le.2 hlen, Nat.not_lt.2 hroom, State.withQueue, State.referred]

theorem programChunk_runs {s : State} {e : Entry} {P : State → Prop} (hd : s.defined)
    (hv : s.visibleEntry (fun e => e.type == 1) = some e) (h : P ((s.dropEntry e).addChunk e)) : Runs .programChunk s P := by
  refine runs_of_exec_live hd ?_ h
  show execProgramChunk s = _
  simp only [execProgramChunk, hv]

theorem programReference_runs {s : State} {e : Entry} {P : State → Prop} (hd : s.defined)
    (hv : s.visibleEntry (fun e => e.type == 2) = some e) (h : P ((s.dropEntry e).addReference e)) : Runs .programReference s P := by
  refine runs_of_exec_live hd ?_ h
  show execProgramReference s = _
  simp only [execProgramReference, hv]

/-! ### Verification -/

/-- The queue without the object verified. -/
def State.verified (q : QueuedProgram) : State := s.withQueue (s.work.queue.filter fun x => x.seq != q.seq)

/-- What a verdict makes of the object verified: its rejection, or its installation. -/
def State.decideProgram (q : QueuedProgram) : Option Reject → State
  | some r => (s.verified q).completeProgram q.fn (if q.byChunks then 1 else 2) q.tag 0 r 0
  | none => (s.verified q).install q (parseProgram q.bytes)

theorem programVerification_runs {s : State} {q : QueuedProgram} {v : Option Reject} {P : State → Prop} (hd : s.defined)
    (hq : s.nextProgram = some q) (hv : s.verify q.bytes q.bytes.length = v) (h : P (s.decideProgram q v)) :
    Runs .programVerification s P := by
  refine runs_of_exec_live hd ?_ h
  show execProgramVerification s = _
  cases v <;> simp only [execProgramVerification, hq, hv] <;> rfl

/-- The program `p` stands in its slot, its data in the slot's data area (R198). -/
def State.storeProgram (slot : Nat) (p : Program) : State :=
  { s with mem := s.mem.store (s.programData slot) p.data, work := { s.work with programs := s.work.programs.put slot p } }

/-- A program not yet installed takes the lowest free slot where releases need no attestation. -/
theorem State.install_of_free {s : State} {q : QueuedProgram} {p : Program} {slot : Nat}
    (hnew : (s.work.programs.find? fun x => x.2.digest == p.digest) = none) (hopen : s.mode.sealedTrust = false)
    (hslot : s.freeProgramSlot = some slot) :
    s.install q p = (s.storeProgram slot p).completeProgram q.fn (if q.byChunks then 1 else 2) q.tag slot (noPlace 0)
      ((s.storeProgram slot p).programData slot) := by
  simp [State.install, hnew, hopen, hslot, State.storeProgram]

/-- A completion in a state whose functions, host memory and rings are those of `s` is one more than `s` had. -/
theorem State.completed_verified {q : QueuedProgram} {t : State} {fn ty st : Nat} (h : Completed (s.verified q) t fn ty st) :
    Completed s t fn ty st :=
  h.of_same (fun h => ⟨h.memory, h.hostRam, h.flash, h.jobs⟩) rfl rfl

theorem State.completed_storeProgram {slot : Nat} {p : Program} {t : State} {fn ty st : Nat}
    (h : Completed (s.storeProgram slot p) t fn ty st) : Completed s t fn ty st :=
  h.of_same (fun h => ⟨s.mem.store_wf _ _ h.memory, h.hostRam, h.flash, h.jobs⟩) rfl rfl

/-- Settles O37: each entry's handler, and each end of a verification, on the state it meets. -/
theorem programsAreQueuedAndVerified : Obligations.ProgramsAreQueuedAndVerified := by
  intro s e hd
  refine ⟨fun hv hn hroom => ⟨fun hnone hother hlen hoff => programChunk_runs hd hv ?_,
    fun hnone hother => programChunk_runs hd hv ?_, fun old hold hoff => programChunk_runs hd hv ?_⟩,
    fun hv hmem hn hin hlen hroom => programReference_runs hd hv ?_,
    fun q hq => ⟨fun r hr => programVerification_runs hd hq hr ?_,
      fun hr hopen hnew slot hslot => programVerification_runs hd hq hr ?_⟩⟩
  · rw [State.addChunk_of_first (s := s.dropEntry e) hn hroom hnone hother hlen hoff]
    exact ⟨_, rfl, rfl, rfl, rfl, rfl, rfl⟩
  · rw [State.addChunk_of_second (s := s.dropEntry e) hn hnone hother]
    exact ⟨State.completeProgram_work .., State.completeProgram_mem ..,
      State.completed_dropEntry (State.completed_completeProgram ..)⟩
  · rw [State.addChunk_of_next (s := s.dropEntry e) hn hroom hold rfl rfl hoff]
    exact ⟨_, rfl, rfl, rfl, rfl, rfl, rfl⟩
  · rw [State.addReference_of_fits (s := s.dropEntry e) hmem hn hin hlen hroom]
    exact ⟨_, rfl, rfl, rfl, rfl, rfl⟩
  · rw [State.decideProgram]
    refine ⟨?_, ?_, s.completed_verified (State.completed_completeProgram ..), State.completeProgram_mem ..⟩ <;>
      rw [State.completeProgram_work] <;> rfl
  · rw [State.decideProgram, State.install_of_free (s := s.verified q) hnew hopen hslot]
    refine ⟨?_, fun hinv => ?_, ?_, s.completed_verified (State.completed_storeProgram _ (State.completed_completeProgram ..))⟩
    · rw [State.completeProgram_work]
      exact Table.find_put_same _ _ _
    · rw [State.completeProgram_mem]
      exact Memory.readN_store hinv.memory _ _
    · rw [State.completeProgram_work]
      rfl

end Sys2Proof.Machine
end

section
/-!
PROOFS. Claims of ring rows and the injection of relay rows (R216, R230, R232): they change the memory, the rings, the groups' units
and, of a cluster, only what Sheepdog owes and the objects the vector engine has open. What is left is one view of the state.
-/
namespace Sys2Proof.Machine

/-! ### The view beside claims -/

/-- The state without what a claim may change; of each cluster all but Sheepdog's pending verdicts and the open objects. -/
def State.besideClaims (s : State) : State × (Nat → Cluster) :=
  ({ s with mem := {}, units := [], rings := [], clusters := [] }, fun k => { s.cluster k with due := [], objects := [] })

section
variable (s : State)

theorem State.withMem_besideClaims (m : Memory) : State.besideClaims { s with mem := m } = s.besideClaims := rfl

@[simp] theorem State.modRing_besideClaims (k r : Nat) (f : Ring → Ring) : (s.modRing k r f).besideClaims = s.besideClaims := rfl

@[simp] theorem State.modUnit_besideClaims (p : Nat) (f : GroupUnits → GroupUnits) :
    (s.modUnit p f).besideClaims = s.besideClaims := rfl

/-- A change of a cluster's pending verdicts or open objects does not show. -/
theorem State.modCluster_besideClaims (k : Nat) (f : Cluster → Cluster)
    (h : ∀ c, { f c with due := [], objects := [] } = ({ c with due := [], objects := [] } : Cluster) := by exact fun _ => rfl) :
    (s.modCluster k f).besideClaims = s.besideClaims := by
  refine Prod.ext rfl (funext fun j => ?_)
  by_cases hj : j = k
  · subst hj
    simpa [State.besideClaims] using h _
  · simp [State.besideClaims, State.cluster_modCluster_other _ _ _ _ hj]

@[simp] theorem State.violateBy_besideClaims (k w c e r o t a : Nat) (b : Bool) :
    (s.violateBy k w c e r o t a b).besideClaims = s.besideClaims :=
  s.modCluster_besideClaims k _

theorem State.poisonOut_besideClaims (k r first n code : Nat) : (s.poisonOut k r first n code).besideClaims = s.besideClaims :=
  (State.modRing_besideClaims ..).trans (foldl_keeps State.besideClaims (fun u _ => u.withMem_besideClaims _) _ s)

theorem State.poisonEngine_besideClaims (k e code t : Nat) : (s.poisonEngine k e code t).besideClaims = s.besideClaims := by
  have hobjects (u : State) (l : List Nat) : (l.foldl (fun s k => if e = 1 then s.modCluster k fun c =>
      { c with objects := c.objects.map fun e => (e.1, if e.2.code = 0 then { e.2 with code := code } else e.2) }
    else s) u).besideClaims = u.besideClaims :=
    foldl_keeps State.besideClaims (fun u k => keeps_ite _ (u.modCluster_besideClaims k _) rfl) l u
  unfold State.poisonEngine
  extract_lets p ks notes last s₁ s₂ 
  have hout : s₁.besideClaims = s.besideClaims :=
    foldl_keeps State.besideClaims (fun u x => u.poisonOut_besideClaims ..) _ s
  have hopen : s₂.besideClaims = s.besideClaims := (hobjects _ _).trans hout
  split
  · refine keeps_ite _ ?_ hopen
    exact (State.modUnit_besideClaims ..).trans
      ((foldl_keeps State.besideClaims (fun u _ => u.withMem_besideClaims _) _ s₂).trans hopen)
  · exact keeps_ite _ hopen hopen

theorem State.claimAt_besideClaims (k r n t stamp : Nat) : (s.claimAt k r n t stamp).besideClaims = s.besideClaims := by
  unfold State.claimAt
  extract_lets g late s₁
  rw [State.modRing_besideClaims]
  unfold s₁
  split
  · rw [State.poisonEngine_besideClaims, State.violateBy_besideClaims]
  · rfl

/-! ### Time and injection (R24, R230) -/

theorem State.reachAbs_eq (t : Nat) : s.reachAbs t = { s with cycle := (s.reachAbs t).cycle } := by
  unfold State.reachAbs
  split
  · exact s.reach_eq _
  · rfl

@[simp] theorem State.reachAbs_beat (t : Nat) : (s.reachAbs t).beat = s.beat := by rw [State.reachAbs_eq]
@[simp] theorem State.reachAbs_mem (t : Nat) : (s.reachAbs t).mem = s.mem := by rw [State.reachAbs_eq]
@[simp] theorem State.reachAbs_units (t : Nat) : (s.reachAbs t).units = s.units := by rw [State.reachAbs_eq]
@[simp] theorem State.reachAbs_faults (t : Nat) : (s.reachAbs t).faults = s.faults := by rw [State.reachAbs_eq]
@[simp] theorem State.reachAbs_flash (t : Nat) : (s.reachAbs t).flash = s.flash := by rw [State.reachAbs_eq]
@[simp] theorem State.reachAbs_fuses (t : Nat) : (s.reachAbs t).fuses = s.fuses := by rw [State.reachAbs_eq]
@[simp] theorem State.reachAbs_host (t : Nat) : (s.reachAbs t).host = s.host := by rw [State.reachAbs_eq]
@[simp] theorem State.reachAbs_cluster (t k : Nat) : (s.reachAbs t).cluster k = s.cluster k := by rw [State.reachAbs_eq]; rfl
@[simp] theorem State.reachAbs_ring (t k r : Nat) : (s.reachAbs t).ring k r = s.ring k r := by rw [State.reachAbs_eq]; rfl
@[simp] theorem State.reachAbs_ctx? (t k : Nat) : (s.reachAbs t).ctx? k = s.ctx? k := by rw [State.reachAbs_eq]; rfl
@[simp] theorem State.reachAbs_jobId (t p : Nat) : (s.reachAbs t).jobId p = s.jobId p := by rw [State.reachAbs_eq]; rfl
@[simp] theorem State.reachAbs_jobRuns (t p : Nat) : (s.reachAbs t).jobRuns p = s.jobRuns p := by rw [State.reachAbs_eq]; rfl

theorem State.injectRow_besideClaims (p i : Nat) (r : RelayRow) : (s.injectRow p i r).besideClaims = s.besideClaims := by
  unfold State.injectRow
  extract_lets targets places s₁
  have hclaims : s₁.besideClaims = s.besideClaims :=
    foldl_keeps State.besideClaims (fun u k => (State.modRing_besideClaims ..).trans (u.claimAt_besideClaims ..)) targets s
  exact keeps_ite _ hclaims ((State.modUnit_besideClaims ..).trans (s.violateBy_besideClaims ..))

@[simp] theorem State.inject_besideClaims (t : Nat) : (s.inject t).besideClaims = s.besideClaims := by
  have hgo (n : Nat) : ∀ u : State, (State.inject.go t n u).besideClaims = u.besideClaims := by
    induction n with
    | zero => exact fun _ => rfl
    | succ n ih =>
      intro u
      unfold State.inject.go
      split
      · exact (ih _).trans (u.injectRow_besideClaims ..)
      · rfl
  exact hgo _ s

/-- With no row on the chain an injection changes nothing. -/
theorem State.inject_of_no_relay {s : State} (h : ∀ e ∈ s.units, e.2.relay = []) (t : Nat) : s.inject t = s := by
  have hsum : (s.units.map fun e => e.2.relay.length).sum = 0 :=
    List.sum_eq_zero fun n hn => by
      obtain ⟨e, he, rfl⟩ := List.mem_map.mp hn
      exact List.length_eq_zero_iff.mpr (h e he)
  rw [State.inject, hsum, State.inject.go]

end

/-! ### What the view tells -/

section
variable {s t : State} (h : t.besideClaims = s.besideClaims)
include h

theorem State.beat_of_besideClaims : t.beat = s.beat := (congrArg (fun v => v.1.beat) h :)
theorem State.fuses_of_besideClaims : t.fuses = s.fuses := (congrArg (fun v => v.1.fuses) h :)
theorem State.host_of_besideClaims : t.host = s.host := (congrArg (fun v => v.1.host) h :)
theorem State.flash_of_besideClaims : t.flash = s.flash := (congrArg (fun v => v.1.flash) h :)

theorem State.cluster_of_besideClaims (k : Nat) :
    { t.cluster k with due := [], objects := [] } = ({ s.cluster k with due := [], objects := [] } : Cluster) :=
  (congrFun (congrArg Prod.snd h) k :)

theorem State.transfers_of_besideClaims (k : Nat) : (t.cluster k).transfers = (s.cluster k).transfers :=
  (congrArg Cluster.transfers (cluster_of_besideClaims h k) :)

theorem State.sameCore_of_besideClaims (k : Nat) : (s.cluster k).SameCore (t.cluster k) where
  sregs := (congrArg Cluster.sregs (cluster_of_besideClaims h k) :)
  params := (congrArg Cluster.params (cluster_of_besideClaims h k) :)
  loops := (congrArg Cluster.loops (cluster_of_besideClaims h k) :)
  image := (congrArg Cluster.image (cluster_of_besideClaims h k) :)
  state := (congrArg Cluster.state (cluster_of_besideClaims h k) :)

theorem State.jobId_of_besideClaims (p : Nat) : t.jobId p = s.jobId p := (congrArg (fun v => v.1.jobId p) h :)

/-- Whether the job that holds a group runs is seen beside claims. -/
theorem State.jobRuns_of_besideClaims (p : Nat) : t.jobRuns p = s.jobRuns p := (congrArg (fun v => v.1.jobRuns p) h :)

end

end Sys2Proof.Machine
end

section
/-!
PROOFS. Stamps and bound overruns (R221, R223, R236, R245, R246): what a transfer leaves alone when it lands and gives its tag up, and
what a load whose line comes too late leaves in its clusters and sends to its collector.
-/
namespace Sys2Proof.Machine

/-! ### Landing (R223, R224) -/

/-- What a landing leaves alone: the clusters, the beat, and what outlasts a reset. -/
def State.besideLanding (s : State) : Table Cluster × BeatNo × Flash × Fuses × List Host.Cell :=
  (s.clusters, s.beat, s.flash, s.fuses, s.host.hostRam)

section
variable (s : State)

theorem State.withMem_besideLanding (m : Memory) : State.besideLanding { s with mem := m } = s.besideLanding := rfl

@[simp] theorem State.modRing_besideLanding (k r : Nat) (f : Ring → Ring) : (s.modRing k r f).besideLanding = s.besideLanding := rfl

@[simp] theorem State.modUnit_besideLanding (p : Nat) (f : GroupUnits → GroupUnits) :
    (s.modUnit p f).besideLanding = s.besideLanding := rfl

theorem State.gbStore_besideLanding (p row : Nat) (w : Row) : (s.gbStore p row w).besideLanding = s.besideLanding := rfl

theorem State.landRow_besideLanding (k r o : Nat) (w : Row) (marks : List Nat) :
    (s.landRow k r o w marks).besideLanding = s.besideLanding := rfl

theorem State.gbSettle_besideLanding (p x : Nat) : (s.gbSettle p x).besideLanding = s.besideLanding :=
  keeps_ite _ rfl ((State.modUnit_besideLanding ..).trans (foldl_keeps State.besideLanding (fun u _ => u.gbStore_besideLanding ..) _ s))

theorem State.landRows_besideLanding (k r first stamp : Nat) (rows : List Row) (marks : List Nat) (m0 : Nat) :
    (s.landRows k r first stamp rows marks m0).besideLanding = s.besideLanding :=
  (State.modRing_besideLanding ..).trans (foldl_keeps State.besideLanding (fun u _ => u.landRow_besideLanding ..) _ s)

theorem State.landHead_besideLanding (k : Nat) (x : Ctx) (t : Transfer) (tag : Nat) :
    (s.landHead k x t tag).besideLanding = s.besideLanding :=
  (State.modRing_besideLanding ..).trans (keeps_ite _ rfl rfl)

theorem State.landStore_besideLanding (k : Nat) (x : Ctx) (t : Transfer) : (s.landStore k x t).besideLanding = s.besideLanding :=
  keeps_ite _ rfl (keeps_ite _ ((State.withMem_besideLanding ..).trans (s.gbSettle_besideLanding ..)) rfl)

theorem State.landTransfer_besideLanding (k : Nat) (x : Ctx) (t : Transfer) (tag : Nat) :
    (s.landTransfer k x t tag).besideLanding = s.besideLanding :=
  keeps_ite _ (s.landStore_besideLanding ..) <| keeps_ite _ (s.landHead_besideLanding ..) <|
    (State.landRows_besideLanding ..).trans (keeps_ite _ rfl rfl)

theorem Cluster.SameCore.trans {a b c : Cluster} (h : a.SameCore b) (h' : b.SameCore c) : a.SameCore c :=
  ⟨h'.sregs.trans h.sregs, h'.params.trans h.params, h'.loops.trans h.loops, h'.image.trans h.image, h'.state.trans h.state⟩

/-! ### TRANSFER_STAMP (R223, R236) -/

/-- The transfer of cluster `k` lands where its job still runs; the last of a store has its range done. -/
def State.landIfRunning (k : Nat) (t : Transfer) (tag : Nat) : State :=
  match s.ctx? k with
  | some x =>
    if s.jobRuns (k / 32) && x.job.id.toNat == t.job then
      if t.out && t.isLast then (s.landTransfer k x t tag).modRun t.job fun r => { r with stores := markDone t.addr r.stores }
      else s.landTransfer k x t tag
    else s
  | none => s

theorem State.landIfRunning_besideLanding (k : Nat) (t : Transfer) (tag : Nat) :
    (s.landIfRunning k t tag).besideLanding = s.besideLanding := by
  unfold State.landIfRunning
  split
  · exact keeps_ite _ (keeps_ite _ (s.landTransfer_besideLanding ..) (s.landTransfer_besideLanding ..)) rfl
  · rfl

/-- The relay rows injected by the stamp have claimed their places, and the transfer has landed. -/
def State.stamped (k : Nat) (t : Transfer) (tag : Nat) : State := ((s.reachAbs t.stamp).inject t.stamp).landIfRunning k t tag

/-- Up to its stamp and its landing, no transfer leaves a stream unit, and the core stays as it is. -/
theorem State.stamped_cluster (k : Nat) (t : Transfer) (tag : Nat) :
    ((s.stamped k t tag).cluster k).transfers = (s.cluster k).transfers ∧ (s.cluster k).SameCore ((s.stamped k t tag).cluster k) := by
  have hinject := (s.reachAbs t.stamp).inject_besideClaims t.stamp
  have hland : (s.stamped k t tag).cluster k = ((s.reachAbs t.stamp).inject t.stamp).cluster k :=
    congrArg (fun v => v.1.at k {}) (State.landIfRunning_besideLanding _ k t tag)
  rw [hland, ← s.reachAbs_cluster t.stamp]
  exact ⟨transfers_of_besideClaims hinject k, sameCore_of_besideClaims hinject k⟩

/-- Nor do the beat and what outlasts a reset change. -/
theorem State.stamped_rest (k : Nat) (t : Transfer) (tag : Nat) : (s.stamped k t tag).beat = s.beat ∧
    (s.stamped k t tag).flash = s.flash ∧ (s.stamped k t tag).fuses = s.fuses ∧
    (s.stamped k t tag).host.hostRam = s.host.hostRam := by
  have hland := State.landIfRunning_besideLanding ((s.reachAbs t.stamp).inject t.stamp) k t tag
  have hinject := (s.reachAbs t.stamp).inject_besideClaims t.stamp
  refine ⟨?_, ?_, ?_, ?_⟩
  · exact (congrArg (·.2.1) hland).trans ((beat_of_besideClaims hinject).trans (s.reachAbs_beat _))
  · exact (congrArg (·.2.2.1) hland).trans ((flash_of_besideClaims hinject).trans (s.reachAbs_flash _))
  · exact (congrArg (·.2.2.2.1) hland).trans ((fuses_of_besideClaims hinject).trans (s.reachAbs_fuses _))
  · exact (congrArg (·.2.2.2.2) hland).trans (congrArg (·.hostRam) ((host_of_besideClaims hinject).trans (s.reachAbs_host _)))

@[simp] theorem State.cluster_modRing (k r j : Nat) (f : Ring → Ring) : (s.modRing k r f).cluster j = s.cluster j := rfl

@[simp] theorem State.freeTransfer_beat (k : Nat) (t : Transfer) : (s.freeTransfer k t).beat = s.beat := rfl
@[simp] theorem State.freeTransfer_mem (k : Nat) (t : Transfer) : (s.freeTransfer k t).mem = s.mem := rfl
@[simp] theorem State.freeTransfer_flash (k : Nat) (t : Transfer) : (s.freeTransfer k t).flash = s.flash := rfl
@[simp] theorem State.freeTransfer_fuses (k : Nat) (t : Transfer) : (s.freeTransfer k t).fuses = s.fuses := rfl
@[simp] theorem State.freeTransfer_host (k : Nat) (t : Transfer) : (s.freeTransfer k t).host = s.host := rfl

theorem State.cluster_freeTransfer (k : Nat) (t : Transfer) : (s.freeTransfer k t).cluster k =
    { s.cluster k with transfers := (s.cluster k).transfers.filter fun y => y.tag != t.tag || y.tag.isNone
                       tagFreeAt := if (s.cluster k).freeTag?.isNone then t.stamp else (s.cluster k).tagFreeAt } :=
  (State.cluster_modRing ..).trans (s.cluster_modCluster k _)

/-- A tag is given up: its transfer alone leaves the stream unit. -/
theorem State.transfers_freeTransfer (k : Nat) {t : Transfer} {tag : Nat} (h : t.tag = some tag) :
    ((s.freeTransfer k t).cluster k).transfers = (s.cluster k).transfers.filter fun y => decide (y.tag ≠ some tag) := by
  rw [State.cluster_freeTransfer]
  refine List.filter_congr fun y _ => ?_
  rw [h, Bool.eq_iff_iff]
  cases y.tag <;> simp

theorem State.sameCore_freeTransfer (k : Nat) (t : Transfer) : (s.cluster k).SameCore ((s.freeTransfer k t).cluster k) := by
  rw [State.cluster_freeTransfer]
  exact ⟨rfl, rfl, rfl, rfl, rfl⟩

theorem Cluster.tagged?_filter_eq_none (cl : Cluster) {l : List Transfer} {tag : Nat}
    (h : cl.transfers = l.filter fun y => decide (y.tag ≠ some tag)) : cl.tagged? tag = none := by
  rw [Cluster.tagged?, h]
  simp +contextual [List.find?_eq_none]

end

/-- The stamp of a transfer is the next of its ring and of its job's stores, and its beat has begun (R223, R235). -/
def State.StampDue (s : State) (k : Nat) (t : Transfer) : Prop :=
  (s.cluster k).stampFirst t = true ∧ s.storeFirst k t = true ∧ beatOf t.stamp ≤ s.beat.toNat

theorem State.not_stampDue_iff (s : State) (k : Nat) (t : Transfer) :
    (!(s.cluster k).stampFirst t || !s.storeFirst k t || decide (s.beat.toNat < beatOf t.stamp)) = true ↔ ¬ s.StampDue k t := by
  simp only [State.StampDue, Bool.or_eq_true, Bool.not_eq_true', decide_eq_true_eq, not_and_or, Bool.not_eq_true, Nat.not_le, or_assoc]

section
variable {s : State} {k : ClusterId} {tag : BitVec 6} {tr : Transfer} (htag : (s.cluster k.num).tagged? tag.toNat = some tr)
include htag

theorem exec_transferStamp_of_due (h : s.StampDue k.num tr) :
    exec (.transferStamp k tag) s = live s ((s.stamped k.num tr tag.toNat).freeTransfer k.num tr) := by
  have hexec : exec (.transferStamp k tag) s = execTransferStamp k tag s := rfl
  rw [hexec, execTransferStamp, htag]
  exact congrArg (live s) (if_neg fun hn => (s.not_stampDue_iff k.num tr).mp hn h)

theorem exec_transferStamp_of_not_due (h : ¬ s.StampDue k.num tr) : exec (.transferStamp k tag) s = live s s := by
  have hexec : exec (.transferStamp k tag) s = execTransferStamp k tag s := rfl
  rw [hexec, execTransferStamp, htag]
  exact congrArg (live s) (if_pos ((s.not_stampDue_iff k.num tr).mpr h))

/-- The transfer that holds a tag holds it. -/
theorem Cluster.tag_of_tagged : tr.tag = some tag.toNat := by
  simpa using List.find?_some htag

/-- The tag is free after its stamp, the other transfers stay, and the core and all that outlasts a reset are as before. -/
theorem transferStamp_frees (hd : s.defined) (h : s.StampDue k.num tr) : Runs (.transferStamp k tag) s fun t =>
    (t.cluster k.num).tagged? tag.toNat = none ∧
    (t.cluster k.num).transfers = (s.cluster k.num).transfers.filter (fun y => decide (y.tag ≠ some tag.toNat)) ∧
    (s.cluster k.num).SameCore (t.cluster k.num) ∧ t.beat = s.beat ∧ t.flash = s.flash ∧ t.fuses = s.fuses ∧
    t.host.hostRam = s.host.hostRam := by
  refine runs_of_exec_live hd (exec_transferStamp_of_due htag h) ?_
  obtain ⟨htransfers, hcore⟩ := s.stamped_cluster k.num tr tag.toNat
  have hleft := (s.stamped k.num tr tag.toNat).transfers_freeTransfer k.num (Cluster.tag_of_tagged htag)
  rw [htransfers] at hleft
  refine ⟨Cluster.tagged?_filter_eq_none _ hleft, hleft, hcore.trans (State.sameCore_freeTransfer ..), ?_⟩
  rw [State.freeTransfer_beat, State.freeTransfer_flash, State.freeTransfer_fuses, State.freeTransfer_host]
  exact s.stamped_rest ..

/-- A one-row load of a running job stands in its ring's row after its stamp, where no row is on the relay chain. -/
theorem transferStamp_lands {x : Ctx} {row : Row} (hd : s.defined) (h : s.StampDue k.num tr) (hx : s.ctx? k.num = some x)
    (hruns : s.jobRuns k.group.val = true) (hjob : x.job.id.toNat = tr.job) (hout : tr.out = false) (hhead : tr.isHead = false)
    (hop : tr.op ≠ .loads) (hcode : tr.code = 0) (hmarks : tr.marks = []) (hdata : tr.data = [row])
    (hrelay : ∀ e ∈ s.units, e.2.relay = []) : Runs (.transferStamp k tag) s fun t =>
      t.mem = s.mem.storeRow ((s.ring k.num tr.ring).addr k.num (tr.ringRow % max (s.ring k.num tr.ring).size.toNat 1)) row 64 := by
  refine runs_of_exec_live hd (exec_transferStamp_of_due htag h) ?_
  have hinject : (s.reachAbs tr.stamp).inject tr.stamp = s.reachAbs tr.stamp :=
    State.inject_of_no_relay (by simpa using hrelay) _
  have hland : s.stamped k.num tr tag.toNat = (s.reachAbs tr.stamp).landTransfer k.num x tr tag.toNat := by
    simp [State.stamped, hinject, State.landIfRunning, hx, hruns, hjob, hout, ClusterId.num_div]
  rw [State.freeTransfer_mem, hland]
  simp [State.landTransfer, hout, hhead, hop, hcode, hmarks, hdata, State.landRows, State.landRow]

end

/-! ### Bound overruns (R246, R247) -/

/-- A transfer whose line has not arrived by its stamp: its rows are poison, and each of their words is marked. -/
def Transfer.late (t : Transfer) : Transfer :=
  { t with data := t.data.map fun _ => poisonRow, marks := List.range (64 * t.data.length) }

/-- A transfer that the slot of `t` serves: its own tag's, or another cluster's part of the same SU.LOADS. -/
def Transfer.sharesSlot (t x : Transfer) : Bool :=
  x.tag == t.tag || (t.op == .loads && x.op == .loads && x.addr == t.addr && x.stamp == t.stamp && x.tag.isSome)

/-- A cluster in which what the slot of `t` serves is late. -/
def Cluster.withLate (t : Transfer) (cl : Cluster) : Cluster :=
  { cl with transfers := cl.transfers.map fun x => if t.sharesSlot x then x.late else x }

theorem Cluster.tagged?_withLate {cl : Cluster} {t : Transfer} {tag : Nat} (h : cl.tagged? tag = some t) :
    (cl.withLate t).tagged? tag = some t.late := by
  have htag : (fun y : Transfer => y.tag == some tag) ∘ (fun x => if t.sharesSlot x then x.late else x) = fun x => x.tag == some tag :=
    funext fun x => by
      simp only [Function.comp]
      split <;> rfl
  rw [Cluster.tagged?] at h ⊢
  rw [Cluster.withLate, List.find?_map, htag, h]
  simp [Transfer.sharesSlot]

/-- The clusters that the slot of `t` serves hold it late. -/
def State.markLate (s : State) (k : Nat) (t : Transfer) : State :=
  (if t.op = .loads then groupClusters (k / 32) else [k]).foldl (fun s k' => s.modCluster k' (Cluster.withLate t)) s

theorem State.markLate_eq (s : State) (k : Nat) (t : Transfer) : s.markLate k t = { s with clusters := (s.markLate k t).clusters } := by
  have hkeeps := foldl_keeps (fun u : State => { u with clusters := [] }) (f := fun s k' => s.modCluster k' (Cluster.withLate t))
    (fun _ _ => rfl) (if t.op = .loads then groupClusters (k / 32) else [k]) s
  exact (congrArg (fun u : State => { u with clusters := (s.markLate k t).clusters }) hkeeps :)

theorem mem_groupClusters {p k : Nat} : k ∈ groupClusters p ↔ k / 32 = p := by
  simp only [groupClusters, List.mem_map, List.mem_range]
  constructor
  · rintro ⟨c, hc, rfl⟩; omega
  · intro h; exact ⟨k % 32, by omega, by omega⟩

theorem groupClusters_nodup (p : Nat) : (groupClusters p).Nodup :=
  List.nodup_range.map fun a b h => by simpa using h

theorem State.cluster_markLate (s : State) (k : Nat) (t : Transfer) : (s.markLate k t).cluster k = (s.cluster k).withLate t := by
  unfold State.markLate
  split
  · rw [State.cluster_foldl_modCluster _ (groupClusters_nodup _), if_pos (mem_groupClusters.mpr rfl)]
  · exact s.cluster_modCluster k _

/-- The kind field of a fault message (R289). -/
theorem faultWord_kind (unit kind op tag : Nat) : (faultWord unit kind op tag).toNat / 2 ^ 20 % 256 = kind % 256 := by
  rw [faultWord, BitVec.toNat_ofNat]
  omega

/-- The memory side's unit that the first line of a load comes from, and the line's number there (R246, R247, R296). -/
def Transfer.lineUnit (t : Transfer) : Nat :=
  if t.src = .hbm then memoryUnit (hbmStack t.addr / 2) (hbmStack t.addr % 2) (hbmChannel t.addr) 5
  else memoryUnit (t.addr / 2048 % 4) 2 (t.addr / 8192 % 4) 5

@[inherit_doc Transfer.lineUnit] def Transfer.lineTag (t : Transfer) : Nat :=
  if t.src = .hbm then hbmLine t.addr else (t.addr - kcBase) / 2048

/-- What the slot of `t` serves is late, and the fault of `kind` is on its way from the line's unit at the stamp. -/
def State.raiseLate (s : State) (k kind : Nat) (t : Transfer) : State :=
  (s.markLate k t).raiseVia (k / 32) t.lineUnit kind t.opc t.lineTag t.addr t.stamp true

/-- An overrun of a load raises its fault; a line of HBM counts on its stack. -/
theorem State.overrun_eq {s : State} {k tag : Nat} {t : Transfer} (htag : (s.cluster k).tagged? tag = some t)
    (hout : t.out = false) (kind : Nat) : s.overrun k tag kind t.src =
      if t.src = .hbm then (s.raiseLate k kind t).modStack (hbmStack t.addr) fun m => { m with overruns := satInc m.overruns }
      else s.raiseLate k kind t := by
  rw [State.overrun, htag]
  exact if_neg (by simp [hout])

section
variable {s : State} {k tag : Nat} {t : Transfer} (htag : (s.cluster k).tagged? tag = some t)
include htag

/-- What the fault of a late load leaves: its message on the wires, the load late in its cluster, and the memory as it was. -/
theorem State.raiseLate_leaves {kind : Nat} (hkind : kind < 256) :
    (∃ w, (s.raiseLate k kind t).faults.wires = s.faults.wires ++ [w] ∧ w.fireAt = t.stamp ∧
      w.word.toNat / 2 ^ 20 % 256 = kind) ∧
    ((s.raiseLate k kind t).cluster k).tagged? tag = some t.late ∧ (s.raiseLate k kind t).mem = s.mem ∧
    (s.raiseLate k kind t).memSys = s.memSys := by
  have hwires : (s.raiseLate k kind t).faults.wires = s.faults.wires ++
      [⟨faultWord t.lineUnit kind t.opc t.lineTag, t.stamp, (s.group (k / 32)).job, t.addr, true, false, false, some (k / 32)⟩] := by
    rw [State.raiseLate, State.markLate_eq]
    rfl
  refine ⟨⟨_, hwires, rfl, (faultWord_kind ..).trans (Nat.mod_eq_of_lt hkind)⟩, ?_, ?_, ?_⟩
  · exact (congrArg (Cluster.tagged? · tag) (s.cluster_markLate k t)).trans (Cluster.tagged?_withLate htag)
  · exact (congrArg State.mem (s.markLate_eq k t) :)
  · exact (congrArg State.memSys (s.markLate_eq k t) :)

end

/-- Settles O20: a due stamp frees its tag and lands its rows; an overrun marks its rows late before it raises its fault. -/
theorem stampsAndOverruns : Obligations.StampsAndOverruns := by
  intro s k tag tr hd htag late due g
  refine ⟨transferStamp_frees htag hd, fun h => ?_, fun x row h hx hruns hjob hout hhead hop hcode hmarks hdata hrelay =>
    transferStamp_lands htag hd h hx hruns hjob hout hhead hop hcode hmarks hdata hrelay, fun hout hsrc => ?_, fun hout hsrc => ?_⟩
  · exact (exec_transferStamp_of_not_due htag h).trans (live_defined _ _ hd)
  · refine runs_of_exec_live (t := s.overrun k.num tag.toNat 0x40 .hbm) hd rfl ?_
    obtain ⟨hwire, hlate, hmem, hsys⟩ := State.raiseLate_leaves htag (kind := 0x40) (by decide)
    rw [← hsrc, State.overrun_eq htag hout, if_pos hsrc]
    refine ⟨?_, hwire, hlate, hmem⟩
    rw [State.stack_modStack, State.stack, hsys]
    rfl
  · refine runs_of_exec_live (t := s.overrun k.num tag.toNat 0x41 .keyCache) hd rfl ?_
    obtain ⟨hwire, hlate, hmem, hsys⟩ := State.raiseLate_leaves htag (kind := 0x41) (by decide)
    rw [← hsrc, State.overrun_eq htag hout, if_neg (by rw [hsrc]; decide)]
    exact ⟨hsys, hwire, hlate, hmem⟩

end Sys2Proof.Machine
end

section
/-!
PROOFS. Verdicts, relay landings and the refresh window (R122, R164, R228 to R232): each takes the one thing it waits for off its list
and leaves the rest of the state but what it writes.
-/
namespace Sys2Proof.Machine

/-! ### What the writing of rows leaves alone -/

/-- The state without its memory and its rings. -/
def State.besideRows (s : State) : State := { s with mem := {}, rings := [] }

section
variable (s : State)

theorem State.withMem_besideRows (m : Memory) : State.besideRows { s with mem := m } = s.besideRows := rfl

@[simp] theorem State.modRing_besideRows (k r : Nat) (f : Ring → Ring) : (s.modRing k r f).besideRows = s.besideRows := rfl

theorem State.poisonOut_besideRows (k r first n code : Nat) : (s.poisonOut k r first n code).besideRows = s.besideRows :=
  (State.modRing_besideRows ..).trans (foldl_keeps State.besideRows (fun u _ => u.withMem_besideRows _) _ s)

theorem State.landRow_besideRows (k r o : Nat) (w : Row) (marks : List Nat) : (s.landRow k r o w marks).besideRows = s.besideRows := rfl

theorem State.landRows_besideRows (k r first stamp : Nat) (rows : List Row) (marks : List Nat) (m0 : Nat) :
    (s.landRows k r first stamp rows marks m0).besideRows = s.besideRows :=
  (State.modRing_besideRows ..).trans (foldl_keeps State.besideRows (fun u _ => u.landRow_besideRows ..) _ s)

end

section
variable {s t : State} (h : t.besideRows = s.besideRows)
include h

theorem State.unit_of_besideRows (p : Nat) : t.unit p = s.unit p := (congrArg (State.unit · p) h :)
theorem State.faults_of_besideRows : t.faults = s.faults := (congrArg State.faults h :)
theorem State.besideEngines_of_besideRows : t.besideEngines = s.besideEngines := (congrArg State.besideEngines h :)

end

/-! ### SHEEPDOG_VERDICT (R231, R232) -/

section
variable (s : State)

@[simp] theorem State.clusterFault_unit (k e u d o a x t p : Nat) (b : Bool) : (s.clusterFault k e u d o a x t b).unit p = s.unit p := rfl
@[simp] theorem State.clusterFault_cluster (k e u d o a x t j : Nat) (b : Bool) :
    (s.clusterFault k e u d o a x t b).cluster j = s.cluster j := rfl
/-- A cluster's fault is one message more on the wires, of its kind and cycle. -/
theorem State.clusterFault_wires (k e u kind o a x t : Nat) (b : Bool) : ∃ w,
    (s.clusterFault k e u kind o a x t b).faults.wires = s.faults.wires ++ [w] ∧ w.fireAt = t ∧
      w.word.toNat / 2 ^ 20 % 256 = kind % 256 :=
  ⟨_, rfl, rfl, faultWord_kind ..⟩

@[simp] theorem State.modCluster_unit (k p : Nat) (f : Cluster → Cluster) : (s.modCluster k f).unit p = s.unit p := rfl
@[simp] theorem State.modUnit_cluster (p k : Nat) (f : GroupUnits → GroupUnits) : (s.modUnit p f).cluster k = s.cluster k := rfl

end

/-- The cluster's oldest violation is counted, keeps its place where it is the first, and raises its fault. -/
theorem sheepdogVerdict_runs {s : State} {k : ClusterId} {d : SheepdogDue} {rest : List SheepdogDue} (hd : s.defined)
    (hdue : (s.cluster k.num).due = d :: rest) : Runs (.sheepdogVerdict k) s fun t =>
      (t.cluster k.num).due = rest ∧ (t.unit k.group.val).sdViolations = satInc (s.unit k.group.val).sdViolations ∧
      ((s.unit k.group.val).sdViolations = 0 → (t.unit k.group.val).sdFirstAt = d.at_ - 2 ∧
        (t.unit k.group.val).sdCheck = BitVec.ofNat 3 d.check ∧ (t.unit k.group.val).sdCluster.toNat = k.cluster.val) ∧
      ((s.unit k.group.val).sdViolations ≠ 0 → (t.unit k.group.val).sdFirstAt = (s.unit k.group.val).sdFirstAt ∧
        (t.unit k.group.val).sdCheck = (s.unit k.group.val).sdCheck) ∧
      (∃ w, t.faults.wires = s.faults.wires ++ [w] ∧ w.fireAt = d.at_ ∧ w.word.toNat / 2 ^ 20 % 256 = 0x20) ∧
      t.mem = s.mem ∧ s.EngineFrame t := by
  have hexec : exec (.sheepdogVerdict k) s = execSheepdogVerdict k s := rfl
  rw [execSheepdogVerdict, hdue] at hexec
  refine runs_of_exec_live hd hexec ⟨?_, ?_, fun hfirst => ?_, fun hlater => ?_, State.clusterFault_wires .., rfl,
    State.engineFrame_of_rest rfl⟩
  · simp
  · simp [ClusterId.num_div]
  · simp [ClusterId.num_div, ClusterId.num_mod, hfirst]
  · have hlater : ¬ (s.unit k.group.val).sdViolations = 0#32 := hlater
    simp [ClusterId.num_div, hlater]

/-! ### RELAY_ROW_LANDING (R228, R229) -/

section
variable (s : State)

/-- The rows injected by the first stamp among those of group `p` have claimed their places. -/
def State.injectDue (p : Nat) : State :=
  match firstStamp (s.unit p).relay with
  | some m => s.inject m
  | none => s

theorem State.injectDue_besideClaims (p : Nat) : (s.injectDue p).besideClaims = s.besideClaims := by
  unfold State.injectDue
  split
  · exact s.inject_besideClaims _
  · rfl

/-- Row `i` of those group `p` has on the chain leaves it at its stamp. -/
def State.offChain (p i : Nat) (r : RelayRow) : State :=
  (s.reachAbs r.stamp).modUnit p fun u => { u with relay := u.relay.eraseIdx i }

/-- A relay row is written to the places it claimed. -/
def State.landRelay (r : RelayRow) : State := r.places.foldl (fun s e => s.landRows e.1 r.ring e.2 r.stamp [r.data] [] 0) s

theorem State.landRelay_besideRows (r : RelayRow) : (s.landRelay r).besideRows = s.besideRows :=
  foldl_keeps State.besideRows (fun u _ => u.landRows_besideRows ..) _ s

/-- A row of one place is written there. -/
theorem State.landRelay_mem {r : RelayRow} {j o : Nat} (h : r.places = [(j, o)]) : (s.landRelay r).mem =
    s.mem.storeRow ((s.ring j r.ring).addr j (o % max (s.ring j r.ring).size.toNat 1)) r.data 64 := by
  simp [State.landRelay, h, State.landRows, State.landRow]

/-- The row of group `p` that lands next, once its beat has begun, leaves the chain, and lands where its job runs. -/
def State.landNext (p : Nat) : State :=
  match nextLanding (s.unit p).relay with
  | none => s
  | some (i, r) =>
    if s.beat.toNat < beatOf r.stamp then s
    else if (s.offChain p i r).jobRuns p && ((s.offChain p i r).jobId p).toNat == r.job then (s.offChain p i r).landRelay r
    else s.offChain p i r

theorem State.landNext_of_next {p i : Nat} {r : RelayRow} (hnext : nextLanding (s.unit p).relay = some (i, r))
    (hbeat : beatOf r.stamp ≤ s.beat.toNat) : s.landNext p =
      if s.jobRuns p && (s.jobId p).toNat == r.job then (s.offChain p i r).landRelay r else s.offChain p i r := by
  have hruns : (s.offChain p i r).jobRuns p = s.jobRuns p := s.reachAbs_jobRuns r.stamp p
  have hid : (s.offChain p i r).jobId p = s.jobId p := s.reachAbs_jobId r.stamp p
  rw [State.landNext, hnext]
  simp only [hruns, hid, if_neg (Nat.not_lt.mpr hbeat)]

theorem exec_relayRowLanding (g : Fin 68) : exec (.relayRowLanding g) s = live s ((s.injectDue g).landNext g) := rfl

/-- Landed or dropped, the row has left the chain, and no fault is raised. -/
theorem State.landNext_leaves {p i : Nat} {r : RelayRow} (hnext : nextLanding (s.unit p).relay = some (i, r))
    (hbeat : beatOf r.stamp ≤ s.beat.toNat) :
    ((s.landNext p).unit p).relay = (s.unit p).relay.eraseIdx i ∧ (s.landNext p).faults = s.faults := by
  have hoff : ((s.offChain p i r).unit p).relay = (s.unit p).relay.eraseIdx i ∧ (s.offChain p i r).faults = s.faults := by
    simp [State.offChain, State.unit]
  have hland := (s.offChain p i r).landRelay_besideRows r
  rw [s.landNext_of_next hnext hbeat]
  split
  · exact ⟨(congrArg GroupUnits.relay (unit_of_besideRows hland p)).trans hoff.1, (faults_of_besideRows hland).trans hoff.2⟩
  · exact hoff

end

/-- The row that lands next leaves the chain, and is written to the places it claimed if its job runs. -/
theorem relayRowLanding_runs {s : State} {g : Fin 68} {i : Nat} {r : RelayRow} (hd : s.defined)
    (hnext : nextLanding ((s.injectDue g).unit g).relay = some (i, r)) (hbeat : beatOf r.stamp ≤ s.beat.toNat) :
    Runs (.relayRowLanding g) s fun t =>
      (t.unit g).relay = ((s.injectDue g).unit g).relay.eraseIdx i ∧ t.faults = (s.injectDue g).faults ∧
      (s.jobRuns g = false ∨ (s.jobId g).toNat ≠ r.job → t.mem = (s.injectDue g).mem) ∧
      ∀ j o, s.jobRuns g = true → (s.jobId g).toNat = r.job → r.places = [(j, o)] →
        t.mem = (s.injectDue g).mem.storeRow (((s.injectDue g).ring j r.ring).addr j
          (o % max ((s.injectDue g).ring j r.ring).size.toNat 1)) r.data 64 := by
  have hclaims := s.injectDue_besideClaims g
  rw [← State.beat_of_besideClaims hclaims] at hbeat
  have hoff : ((s.injectDue g).offChain g i r).mem = (s.injectDue g).mem := (s.injectDue g).reachAbs_mem r.stamp
  refine runs_of_exec_live hd (exec_relayRowLanding s g) ⟨((s.injectDue g).landNext_leaves hnext hbeat).1,
    ((s.injectDue g).landNext_leaves hnext hbeat).2, fun hstays => ?_, fun j o hruns hid hplace => ?_⟩
  all_goals rw [(s.injectDue g).landNext_of_next hnext hbeat, State.jobRuns_of_besideClaims hclaims,
    State.jobId_of_besideClaims hclaims]
  · rw [if_neg (by simpa [imp_iff_not_or] using hstays), hoff]
  · rw [if_pos (by simp [hruns, hid]), State.landRelay_mem _ hplace, hoff]
    have hring : ((s.injectDue g).offChain g i r).ring j r.ring = (s.injectDue g).ring j r.ring :=
      (s.injectDue g).reachAbs_ring r.stamp j r.ring
    rw [hring]

/-! ### TE_CHECKSUM_VERDICT (R122) -/

/-- The oldest verdict of group `p` is judged: it leaves the list in its cycle. -/
def State.takeVerdict (s : State) (p : Nat) (d : TeVerdict) (rest : List TeVerdict) : State :=
  (s.reachAbs d.at_).modUnit p fun u => { u with teVerdicts := rest }

/-- The outputs of a command whose sums fail are poisoned, after its fault. -/
def State.failVerdict (s : State) (p : Nat) (d : TeVerdict) : State :=
  d.outs.foldl (fun s e => s.poisonOut e.1 e.2.1 e.2.2.1 e.2.2.2 0x0C) (s.clusterFault (32 * p) 2 1 0x13 (cmdOp d.cmd) 0 0 d.at_ true)

theorem State.failVerdict_besideRows (s : State) (p : Nat) (d : TeVerdict) : (s.failVerdict p d).besideRows =
    (s.clusterFault (32 * p) 2 1 0x13 (cmdOp d.cmd) 0 0 d.at_ true).besideRows :=
  foldl_keeps State.besideRows (fun u _ => u.poisonOut_besideRows ..) _ _

theorem State.takeVerdict_eq (s : State) (p : Nat) (d : TeVerdict) (rest : List TeVerdict) : s.takeVerdict p d rest =
    { s with cycle := (s.takeVerdict p d rest).cycle, units := (s.takeVerdict p d rest).units } := by
  rw [State.takeVerdict, State.reachAbs_eq]
  rfl

section
variable {s : State} {g : Fin 68} {d : TeVerdict} {rest : List TeVerdict} {disturb : Word32}

theorem exec_teChecksumVerdict (hdue : (s.unit g).teVerdicts = d :: rest) (hbeat : beatOf d.at_ ≤ s.beat.toNat) :
    exec (.teChecksumVerdict g disturb) s = live s
      (if d.sums.all (sumsHold disturb.toNat) then s.takeVerdict g d rest else (s.takeVerdict g d rest).failVerdict g d) := by
  have hexec : exec (.teChecksumVerdict g disturb) s = execTeChecksumVerdict g disturb s := rfl
  rw [hexec, execTeChecksumVerdict, hdue]
  exact congrArg (live s) (if_neg (Nat.not_lt.mpr hbeat))

/-- A verdict is judged once: sums that hold change nothing else, and one that fails raises its fault. -/
theorem teChecksumVerdict_runs (hd : s.defined) (hdue : (s.unit g).teVerdicts = d :: rest) (hbeat : beatOf d.at_ ≤ s.beat.toNat) :
    Runs (.teChecksumVerdict g disturb) s fun t =>
      (t.unit g).teVerdicts = rest ∧ State.EngineFrame { s with cycle := t.cycle } t ∧
      (d.sums.all (sumsHold disturb.toNat) = true → t = { s with cycle := t.cycle, units := t.units }) ∧
      (d.sums.all (sumsHold disturb.toNat) = false → ∃ w, t.faults.wires = s.faults.wires ++ [w] ∧
        w.fireAt = d.at_ ∧ w.word.toNat / 2 ^ 20 % 256 = 0x13) := by
  refine runs_of_exec_live hd (exec_teChecksumVerdict hdue hbeat) ?_
  have hunit : ((s.takeVerdict g d rest).unit g).teVerdicts = rest := by simp [State.takeVerdict]
  cases hsums : d.sums.all (sumsHold disturb.toNat) with
  | true =>
    rw [if_pos rfl]
    refine ⟨hunit, State.engineFrame_of_rest ?_, fun _ => s.takeVerdict_eq g d rest, fun h => by simp at h⟩
    exact (congrArg State.besideEngines (s.takeVerdict_eq g d rest) :)
  | false =>
    rw [if_neg (by simp)]
    have hrows := (s.takeVerdict g d rest).failVerdict_besideRows g d
    have hcycle : ((s.takeVerdict g d rest).failVerdict g d).cycle = (s.takeVerdict g d rest).cycle := (congrArg State.cycle hrows :)
    refine ⟨(congrArg GroupUnits.teVerdicts (State.unit_of_besideRows hrows g)).trans hunit, State.engineFrame_of_rest ?_,
      fun h => by simp at h, fun _ => ?_⟩
    · rw [hcycle]
      exact (State.besideEngines_of_besideRows hrows).trans (congrArg State.besideEngines (s.takeVerdict_eq g d rest) :)
    · obtain ⟨w, hwires, hfire, hkind⟩ := (s.takeVerdict g d rest).clusterFault_wires (32 * g) 2 1 0x13 (cmdOp d.cmd) 0 0 d.at_ true
      have hfaults : (s.takeVerdict g d rest).faults = s.faults := (congrArg State.faults (s.takeVerdict_eq g d rest) :)
      rw [State.faults_of_besideRows hrows, hwires, hfaults]
      exact ⟨w, rfl, hfire, hkind⟩

end

/-! ### REFRESH_RESUME (R164) -/

section
variable (s : State)

/-- A group that a refresh gives back holds none, whatever else is given back with it. -/
theorem State.refresh_giveBack (free : State → Option Nat) (n : Nat) (l : List Nat) {p : Nat}
    (h : p ∈ l ∨ (s.unit p).refresh = none) : ((l.foldl (fun s g => (s.modUnit g fun u =>
      { u with refresh := none, tileFree := free s, tileWritten := [], tileWrites := [] }).spend n) s).unit p).refresh = none := by
  induction l generalizing s with
  | nil => simpa using h
  | cons g l ih =>
    refine ih _ (or_iff_not_imp_left.mpr fun hl => ?_)
    have hspend (u : State) : ((u.spend n).unit p).refresh = (u.unit p).refresh := rfl
    rw [hspend, State.unit_modUnit_eq]
    split
    · rfl
    · simp_all

/-- The groups of a refresh hold none after its last store (R163). -/
theorem State.refreshFinish_refresh (p : Nat) (x : Ctx) (f : Refresh) (last : Nat) {q : Nat}
    (h : q ∈ s.refreshGroups p (refSpan f.cmd)) : ((s.refreshFinish p x f last).unit q).refresh = none := by
  dsimp only [State.refreshFinish]
  refine State.refresh_giveBack _ (fun s => some s.free) _ _ (.inl ?_)
  rwa [State.refreshGroups_of_rest (s := s)]
  refine congrArg IssueView.rest (?_ : State.issueView _ = State.issueView s)
  simp only [↓State.closeOutputs_issueView, ↓State.pushPlanes_issueView, ↓State.writeChecks_issueView]

end

section
variable {s : State} {g : Fin 68} {f : Refresh} {x : Ctx}

theorem exec_refreshResume (hf : (s.unit g).refresh = some f) (hsuspended : f.suspended = true) (hruns : s.jobRuns g = true)
    (hx : s.ctx? (32 * g.val) = some x) : exec (.refreshResume g) s = live s
      (if f.remaining ≤ windowEnd then
        s.refreshFinish g x { f with suspended := false } (s.beat.toNat * beatCycles + f.remaining)
      else s.modUnit g fun u => { u with refresh := some { f with suspended := false, remaining := f.remaining - windowEnd } }) := by
  have hexec : exec (.refreshResume g) s = execRefreshResume g s := rfl
  rw [hexec, execRefreshResume, hf, hx]
  exact congrArg (live s) (if_pos (by simp [hsuspended, hruns]))

/-- A suspended refresh that the window is too short for runs on through it. -/
theorem refreshResume_runs_on (hd : s.defined) (hf : (s.unit g).refresh = some f) (hsuspended : f.suspended = true)
    (hruns : s.jobRuns g = true) (hx : s.ctx? (32 * g.val) = some x) (hlong : windowEnd < f.remaining) :
    Runs (.refreshResume g) s fun t =>
      (t.unit g).refresh = some { f with suspended := false, remaining := f.remaining - windowEnd } ∧ t.mem = s.mem ∧
      t.clusters = s.clusters ∧ t.rings = s.rings ∧ s.EngineFrame t := by
  refine runs_of_exec_live hd (exec_refreshResume hf hsuspended hruns hx) ?_
  rw [if_neg (Nat.not_le.mpr hlong)]
  exact ⟨by simp, rfl, rfl, rfl, State.engineFrame_of_rest rfl⟩

/-- One that ends within the window gives its groups back. -/
theorem refreshResume_ends (hd : s.defined) (hf : (s.unit g).refresh = some f) (hsuspended : f.suspended = true)
    (hruns : s.jobRuns g = true) (hx : s.ctx? (32 * g.val) = some x) (hshort : f.remaining ≤ windowEnd)
    (hg : g.val ∈ s.refreshGroups g (refSpan f.cmd)) :
    Runs (.refreshResume g) s fun t => (t.unit g).refresh = none ∧ s.EngineFrame t := by
  refine runs_of_exec_live hd (exec_refreshResume hf hsuspended hruns hx) ?_
  rw [if_pos hshort]
  have hview := s.refreshFinish_issueView g x { f with suspended := false } (s.beat.toNat * beatCycles + f.remaining)
  exact ⟨State.refreshFinish_refresh _ _ _ _ _ hg, State.engineFrame_of_rest (congrArg IssueView.rest hview)⟩

end

/-- Settles O21: each verdict, landing and resumption on the state it meets; injection keeps what tells whether the job runs. -/
theorem verdictsLandingsAndRefresh : Obligations.VerdictsLandingsAndRefresh := by
  intro s k g disturb hd p
  refine ⟨fun d rest => sheepdogVerdict_runs hd, ?_, fun d rest => teChecksumVerdict_runs hd, fun f x hf hsuspended hruns hx =>
    ⟨refreshResume_runs_on hd hf hsuspended hruns hx, refreshResume_ends hd hf hsuspended hruns hx⟩⟩
  intro s1 i r
  exact relayRowLanding_runs hd

end Sys2Proof.Machine
end

section
/-!
PROOFS. TRANSFER_GRANT (R221, R222): the statement on it is too strong. A slot that R222 gives to a piece of SU.LOADS is served in
every cluster of the group that waits for the same piece, and the statement's clause on memory asks only that the piece chosen be
marked as going out, not the pieces served with it. No command queues an SU.LOADS that goes out; the state below is one the statement
admits all the same.
-/
namespace Sys2Proof.Machine

/-- A piece of an SU.LOADS that waits for a slot of HBM, in the direction given. -/
def loadsPiece (out : Bool) : Transfer :=
  { op := .loads, src := .hbm, ring := 0, index := 0, addr := 0, rows := 1, bytes := 2048, ringRow := 0, eligible := 0, isHead := false,
    isLast := true, job := 1, role := 0, out := out }

/-- Clusters 0 and 1 of a running job wait for one piece of SU.LOADS, marked as going out in cluster 0 alone. Ring 0 of cluster 1
awaits the verdict of a read that came too early (R230), and the grant has it judged: the engine's row is poisoned. -/
def loadsStore : State :=
  { State.reset with
    mem := { cells := [(scratchRow 1 0, 0)] }
    groups := [(0, { job := 1 })]
    clusters := [(0, { transfers := [loadsPiece true] }), (1, { transfers := [loadsPiece false] })]
    rings := [(16, { size := 64, awaited := [⟨0, 0, 1, 0, 0⟩], note := some ⟨1, 0, 0, 1⟩ })]
    work := { State.reset.work with
      jobs := [(1, { id := 1, fn := 0, tag := 0, recordAddr := 0, recordLen := 64, visible := 0, seq := 0, groupCount := 1,
                     set0 := [0], phase := .running })] } }

theorem loadsStore_jobRuns : loadsStore.jobRuns 0 = true := by decide +kernel

theorem loadsStore_slotOpen : loadsStore.slotOpen 0 .hbm 8 = true := by decide +kernel

/-- R222 gives the slot to cluster 0's piece, which is marked as going out. -/
theorem loadsStore_chosen : (loadsStore.inject 8).chosen 0 .hbm 8 = some ⟨0, 0, 0, .transfer 0 (loadsPiece true)⟩ := by decide +kernel

/-- Serving it judges cluster 1's read too, and poisons the row that was read. -/
theorem loadsStore_serve_mem :
    ((loadsStore.inject 8).serve 0 (.transfer 0 (loadsPiece true)) 8).mem ≠ (loadsStore.inject 8).mem := by decide +kernel

theorem exec_transferGrant_loadsStore : exec (.transferGrant 0 .hbm 8) loadsStore =
    .next ((loadsStore.inject 8).serve 0 (.transfer 0 (loadsPiece true)) 8) := by
  have hexec : exec (.transferGrant 0 .hbm 8) loadsStore = execTransferGrant 0 .hbm 8 loadsStore := rfl
  have hopen : (loadsStore.jobRuns (0 : Fin 68) && loadsStore.slotOpen (0 : Fin 68) .hbm 8) = true := by
    simp [loadsStore_jobRuns, loadsStore_slotOpen]
  rw [hexec]
  refine (congrArg (live loadsStore) ((if_pos hopen).trans ?_)).trans (live_defined _ _ rfl)
  exact congrArg (fun c : Option Bid => match c with
    | none => loadsStore.inject 8
    | some b => (loadsStore.inject 8).serve 0 b.by_ 8) loadsStore_chosen

/-- Refutes O19: a grant to a piece of SU.LOADS marked as going out changes memory where another cluster's piece is served with it. -/
theorem not_grantTakesSlotAndTag : ¬ Obligations.GrantTakesSlotAndTag := by
  intro h
  obtain ⟨-, hgrant⟩ := h loadsStore 0 .hbm 8 rfl
  obtain ⟨-, htransfer, -⟩ := hgrant loadsStore_jobRuns loadsStore_slotOpen
  obtain ⟨t, hexec, -, -, hmem, -⟩ := htransfer _ 0 (loadsPiece true) loadsStore_chosen rfl
  obtain rfl : _ = t := Host.Outcome.next.inj (exec_transferGrant_loadsStore.symm.trans hexec)
  exact loadsStore_serve_mem (hmem rfl)

end Sys2Proof.Machine
end

section
/-!
PROOFS. The stream commands' transfers (R89, R185, R220, R224, R225, R228): what each command adds to the waiting transfers of its clusters,
and that issuing it writes no byte of memory.
-/
namespace Sys2Proof.Machine

/-! ### The pieces of a move (R220, R224) -/

/-- Transfers of a move: one for every eight rows, of each plane share on an object ring, and one for the head. -/
def SuMove.pieces (m : SuMove) (x : Ctx) : Nat :=
  if m.object then m.rows / max x.perPlane 1 * ((x.perPlane + 7) / 8) + (m.start && !m.out || m.finish && m.out).toNat
  else (m.rows + 7) / 8

theorem objectPieces_length (x : Ctx) (base cur n : Nat) :
    (objectPieces x base cur n).length = n / max x.perPlane 1 * ((x.perPlane + 7) / 8) := by
  simp [objectPieces, List.length_flatMap, List.map_const']

theorem rawPieces_length (a n : Nat) : (rawPieces a n).length = (n + 7) / 8 := by simp [rawPieces]

theorem SuMove.transfers_length (m : SuMove) (x : Ctx) (opc t0 role code word : Nat) :
    (m.transfers x opc t0 role code word).length = m.pieces x := by
  simp only [SuMove.transfers, List.length_map, List.length_zipIdx, SuMove.pieces]
  cases hobj : m.object
  · simp [rawPieces_length]
  · cases m.out
    · cases m.start <;> simp [objectPieces_length]
    · cases m.finish <;> simp [objectPieces_length]

/-- The transfers of a raw walk: the rows from the cursor on by eights, the first eligible at `t0` (R220). -/
structure RawTransfer (m : SuMove) (x : Ctx) (t0 i : Nat) (tr : Transfer) : Prop where
  addr : tr.addr = m.cursor + 2048 * i
  rows : tr.rows = min 8 (m.rows - 8 * i)
  eligible : tr.eligible = t0 + i
  ring : tr.ring = m.ring
  out : tr.out = m.out
  src : tr.src = m.src
  tag : tr.tag = none
  job : tr.job = x.job.id.toNat

theorem SuMove.rawTransfer_of_getElem? {m : SuMove} {x : Ctx} {opc t0 role code word i : Nat} {tr : Transfer} (hraw : m.object = false)
    (h : (m.transfers x opc t0 role code word)[i]? = some tr) : RawTransfer m x t0 i tr := by
  simp only [SuMove.transfers, hraw, rawPieces, Bool.false_and, Bool.false_eq_true, if_false, List.getElem?_map, List.getElem?_zipIdx,
    Option.map_eq_some_iff] at h
  obtain ⟨_, ⟨_, ⟨_, ⟨j, hj, rfl⟩, rfl⟩, rfl⟩, rfl⟩ := h
  obtain ⟨-, rfl⟩ := List.getElem?_eq_some_iff.mp hj
  exact { addr := by simp, rows := by simp, eligible := by simp, ring := rfl, out := rfl, src := rfl, tag := rfl, job := rfl }

section
variable (s : State)

/-! ### What the checks of a stream command leave alone -/

/-- The memory, and the transfers of every stream unit. -/
def State.moves (s : State) : Memory × (Nat → List Transfer) := (s.mem, fun k => (s.cluster k).transfers)

@[simp] theorem State.modRing_moves (k r : Nat) (f : Ring → Ring) : (s.modRing k r f).moves = s.moves := rfl

/-- A change of a cluster shows in its transfers. -/
theorem State.modCluster_moves (k : Nat) (f : Cluster → Cluster) :
    (s.modCluster k f).moves = (s.mem, Function.update s.moves.2 k (f (s.cluster k)).transfers) := by
  refine Prod.ext rfl (funext fun j => ?_)
  by_cases hj : j = k
  · subst hj; simp [State.moves]
  · simp [State.moves, hj, State.cluster_modCluster_other _ _ _ _ hj]

@[simp] theorem State.violateBy_moves (k w c e r o t a : Nat) (b : Bool) : (s.violateBy k w c e r o t a b).moves = s.moves :=
  (s.modCluster_moves k _).trans (congrArg (Prod.mk s.mem) (Function.update_eq_self k s.moves.2))

@[simp] theorem State.suAbsent_moves (k : Nat) (c : CmdWord) (t : Nat) : (s.suAbsent k c t).2.moves = s.moves :=
  keeps_ite (State.moves ∘ Prod.snd) rfl rfl

@[simp] theorem State.releasePoison_moves (k role : Nat) (sg : Segment) (opc a t : Nat) :
    (s.releasePoison k role sg opc a t).moves = s.moves :=
  keeps_ite _ (keeps_ite _ rfl rfl) (keeps_ite _ rfl rfl)

/-- What a move appends to the waiting transfers of its cluster, looked up in the state `u`. -/
def State.queued (u : State) (k : Nat) (c : CmdWord) (x : Ctx) (t t0 word role code : Nat) (m : SuMove) : List Transfer :=
  if m.out then m.transfers x (cmdOp c) t0 role code word
  else (m.transfers x (cmdOp c) t0 role code word).map fun tr => u.takeLoad k x tr t

@[simp] theorem State.queued_length (u : State) (k : Nat) (c : CmdWord) (x : Ctx) (t t0 word role code : Nat) (m : SuMove) :
    (u.queued k c x t t0 word role code m).length = (m.transfers x (cmdOp c) t0 role code word).length :=
  keeps_ite List.length rfl (List.length_map _)

/-- What a load's transfer takes leaves the rest of it. -/
theorem State.rawTransfer_takeLoad {u : State} {k at_ t0 i : Nat} {x y : Ctx} {m : SuMove} {tr : Transfer} (h : RawTransfer m x t0 i tr) :
    RawTransfer m x t0 i (u.takeLoad k y tr at_) := by
  unfold State.takeLoad
  split
  all_goals exact { h with }

theorem State.rawTransfer_of_queued {u : State} {k t t0 word role code i : Nat} {c : CmdWord} {x : Ctx} {m : SuMove} {tr : Transfer}
    (hraw : m.object = false) (h : (u.queued k c x t t0 word role code m)[i]? = some tr) : RawTransfer m x t0 i tr := by
  unfold State.queued at h
  split at h
  · exact SuMove.rawTransfer_of_getElem? hraw h
  · rw [List.getElem?_map, Option.map_eq_some_iff] at h
    obtain ⟨y, hy, rfl⟩ := h
    exact State.rawTransfer_takeLoad (SuMove.rawTransfer_of_getElem? hraw hy)

/-- A permitted move appends its transfers, in a state with the memory and the transfers of the one it issues in; the end of a loaded
object and the record of a store follow. -/
theorem State.suMove_of_rangeRole {k : Nat} {c : CmdWord} {x : Ctx} {t t0 word role : Nat} {m : SuMove} {unset : Bool}
    (h : s.rangeRole k x c m.src m.out (m.range x).1 (m.range x).2 = some role) :
    ∃ (u : State) (code : Nat) (desc : StreamDesc) (store : StoreRange), u.moves = s.moves ∧
      s.suMove k c x t t0 word m unset =
        let s := (u.modCluster k fun cl => { cl with transfers := cl.transfers ++ u.queued k c x t t0 word role code m }).modRing k m.ring
          fun g => { g with desc := desc }
        let s := if m.object && m.finish && !m.out && !m.start then s.endLoad k m.ring (m.cursor + m.rows) else s
        if m.out && m.src == .hbm then s.modRun x.job.id.toNat fun r => { r with stores := r.stores ++ [store] } else s := by
  unfold State.suMove
  dsimp only
  rw [h]
  refine ⟨_, _, _, _, ?_, rfl⟩
  split
  all_goals
    simp only [↓State.releasePoison_moves, ↓apply_ite State.moves, ↓State.violateBy_moves, ↓State.suAbsent_moves, ↓ite_self]

/-- The end of a loaded object alters transfers that wait, and adds none. -/
theorem State.endLoad_transfers (k r rows : Nat) :
    ∃ f, ((s.endLoad k r rows).cluster k).transfers = (s.cluster k).transfers.map f := by
  unfold State.endLoad
  dsimp only
  split
  · exact ⟨_, by rw [State.cluster_modCluster]⟩
  · exact ⟨id, (List.map_id _).symm⟩

@[simp] theorem State.endLoad_mem (k r rows : Nat) : (s.endLoad k r rows).mem = s.mem := keeps_ite State.mem rfl rfl

section
variable {s : State} {k : Nat} {c : CmdWord} {x : Ctx} {t t0 word role : Nat} {m : SuMove} {unset : Bool}

/-- A move writes no byte of memory when it issues (R220). -/
@[simp] theorem State.suMove_mem : (s.suMove k c x t t0 word m unset).mem = s.mem := by
  cases h : s.rangeRole k x c m.src m.out (m.range x).1 (m.range x).2 with
  | none =>
    dsimp only [State.suMove]
    rw [h]
    rfl
  | some role =>
    obtain ⟨u, code, desc, store, hu, hmove⟩ := s.suMove_of_rangeRole (t := t) (t0 := t0) (word := word) (unset := unset) h
    have hmem : u.mem = s.mem := congrArg Prod.fst hu
    rw [hmove, ← hmem]
    exact keeps_ite State.mem (keeps_ite State.mem (State.endLoad_mem ..) rfl) (keeps_ite State.mem (State.endLoad_mem ..) rfl)

/-- A permitted move queues its transfers behind those that wait; one that ends a loaded object alters them. -/
theorem State.suMove_transfers (h : s.rangeRole k x c m.src m.out (m.range x).1 (m.range x).2 = some role) :
    ∃ (u : State) (code : Nat) (f : Transfer → Transfer), (m.object = false → f = id) ∧
      ((s.suMove k c x t t0 word m unset).cluster k).transfers =
        ((s.cluster k).transfers ++ u.queued k c x t t0 word role code m).map f := by
  obtain ⟨u, code, desc, store, hu, hmove⟩ := s.suMove_of_rangeRole (t := t) (t0 := t0) (word := word) (unset := unset) h
  have hkept : (u.cluster k).transfers = (s.cluster k).transfers := congrFun (congrArg Prod.snd hu) k
  have hstore (v : State) (q : Bool) (f : JobRun → JobRun) :
      ((if q then v.modRun x.job.id.toNat f else v).cluster k).transfers = (v.cluster k).transfers :=
    keeps_ite (fun v : State => (v.cluster k).transfers) rfl rfl
  have hadded (f : Cluster → Cluster) (g : Ring → Ring) : (((u.modCluster k f).modRing k m.ring g).cluster k) = f (u.cluster k) :=
    u.cluster_modCluster k f
  rw [hmove, ← hkept]
  dsimp only
  rw [hstore]
  split
  next hend =>
    obtain ⟨f, hf⟩ := State.endLoad_transfers _ k m.ring (m.cursor + m.rows)
    exact ⟨u, code, f, fun hraw => by simp [hraw] at hend, hf.trans (by rw [hadded])⟩
  next => exact ⟨u, code, id, fun _ => rfl, by rw [hadded, List.map_id]⟩

/-- A permitted move queues one transfer for each of its pieces (R220, R224). -/
theorem State.suMove_length (h : s.rangeRole k x c m.src m.out (m.range x).1 (m.range x).2 = some role) :
    ((s.suMove k c x t t0 word m unset).cluster k).transfers.length = (s.cluster k).transfers.length + m.pieces x := by
  obtain ⟨u, code, f, -, htransfers⟩ := s.suMove_transfers (t := t) (t0 := t0) (word := word) (unset := unset) h
  simp [htransfers, SuMove.transfers_length]

/-- On a raw ring, or from a tile register, these are the rows in address order (R220, R224). -/
theorem State.suMove_raw (h : s.rangeRole k x c m.src m.out (m.range x).1 (m.range x).2 = some role) (hraw : m.object = false) {i : Nat}
    {tr : Transfer} (htr : (((s.suMove k c x t t0 word m unset).cluster k).transfers.drop (s.cluster k).transfers.length)[i]? = some tr) :
    RawTransfer m x t0 i tr := by
  obtain ⟨u, code, f, hf, htransfers⟩ := s.suMove_transfers (t := t) (t0 := t0) (word := word) (unset := unset) h
  rw [htransfers, hf hraw, List.map_id, List.drop_left] at htr
  exact State.rawTransfer_of_queued hraw htr

end

end

/-! ### What an issue keeps -/

section
variable (s : State) (k : Nat) (x : Ctx) (w : CmdWord)

/-- Issuing a command alters neither the parameters nor the key cache's directory, which permit a range (R182). -/
theorem State.rangeRole_issuedBy (src : SlotSource) (out : Bool) (a n : Nat) :
    (s.issuedBy k).rangeRole k x w src out a n = s.rangeRole k x w src out a n := by
  unfold State.rangeRole
  rw [State.cluster_issuedBy]
  rfl

theorem State.suPlan_issuedBy (out : Bool) : (s.issuedBy k).suPlan k w out = s.suPlan k w out := by
  unfold State.suPlan State.suAddress
  rw [State.wordValue_issuedBy]
  rfl

theorem State.transfers_issuedBy : ((s.issuedBy k).cluster k).transfers = (s.cluster k).transfers := by
  rw [State.cluster_issuedBy]
  rfl

end

/-- A move has queued its pieces on cluster `k` behind the transfers that waited, the first eligible at `t0`, and no byte of memory has
changed (R220). -/
structure QueuesMove (s t : State) (k : Nat) (m : SuMove) (x : Ctx) (t0 : Nat) : Prop where
  mem : t.mem = s.mem
  length : (t.cluster k).transfers.length = (s.cluster k).transfers.length + m.pieces x
  raw : m.object = false → ∀ i tr, ((t.cluster k).transfers.drop (s.cluster k).transfers.length)[i]? = some tr →
    RawTransfer m x t0 i tr

/-- Behind the transfers that waited on cluster `k` stand those for which `P` holds, and no byte of memory has changed. -/
def Queued (s t : State) (k : Nat) (P : List Transfer → Prop) : Prop :=
  t.mem = s.mem ∧ ∃ trs, (t.cluster k).transfers.length = (s.cluster k).transfers.length + trs.length ∧
    (t.cluster k).transfers.drop (s.cluster k).transfers.length = trs ∧ P trs

theorem QueuesMove.queued {s t : State} {k t0 : Nat} {m : SuMove} {x : Ctx} (h : QueuesMove s t k m x t0) {P : List Transfer → Prop}
    (hP : ∀ trs, trs.length = m.pieces x → (m.object = false → ∀ i tr, trs[i]? = some tr → RawTransfer m x t0 i tr) → P trs) :
    Queued s t k P := by
  have hlength : ((t.cluster k).transfers.drop (s.cluster k).transfers.length).length = m.pieces x := by
    rw [List.length_drop, h.length, Nat.add_sub_cancel_left]
  exact ⟨h.mem, _, by rw [hlength, h.length], rfl, hP _ hlength h.raw⟩

/-- A permitted move queues its pieces after its command has issued. -/
theorem State.queuesMove_suMove {s : State} {k : Nat} {w : CmdWord} {x : Ctx} {m : SuMove} (t t0 word : Nat) (unset : Bool)
    (h : (s.rangeRole k x w m.src m.out (m.range x).1 (m.range x).2).isSome = true) :
    QueuesMove s ((s.issuedBy k).suMove k w x t t0 word m unset) k m x t0 := by
  obtain ⟨role, hrole⟩ := Option.isSome_iff_exists.mp h
  rw [← s.rangeRole_issuedBy k x w] at hrole
  refine ⟨State.suMove_mem, ?_, fun hraw i tr => ?_⟩
  all_goals rw [← s.transfers_issuedBy k]
  · exact State.suMove_length hrole
  · exact State.suMove_raw hrole hraw

/-- What Sheepdog does not bar is permitted (R183, R231). -/
theorem State.isSome_of_suBar {s : State} {k : Nat} {w : CmdWord} {x : Ctx} {m : SuMove} (h : s.suBar k w x m = none) :
    (s.rangeRole k x w m.src m.out (m.range x).1 (m.range x).2).isSome = true := by
  by_contra hbad
  exact absurd (h.symm.trans (if_neg hbad)) (by simp)

/-! ### SU.LOAD and SU.STORE (R220, R224) -/

section
variable {s : State} {k : Nat} {w : CmdWord} {x : Ctx} {i : Instr} {out : Bool} {sh : Shape}

/-- An accepted SU.LOAD or SU.STORE issues and queues its plan. -/
theorem runs_of_suRun (hd : s.defined) (hexec : exec i s = live s (s.command k w sh 3 (fun s x => s.suOk k x w out)
      (fun s x t => s.suRun k w x t out) fun s x _ => s.suBar k w x (s.suPlan k w out).1))
    (ha : s.Accepts k x w sh 3 fun s x _ => s.suBar k w x (s.suPlan k w out).1) (hok : s.suOk k x w out = true) :
    Runs i s fun t => Issued s t k 4 1 ∧ s.EngineFrame t ∧ QueuesMove s t k (s.suPlan k w out).1 x ((s.cluster k).nextAt + 1) := by
  refine runs_of_accepts_occupied hd hexec ha hok (.of_eq (State.suRun_issueView ..)) ?_
  rw [State.suRun, State.suPlan_issuedBy]
  exact State.queuesMove_suMove _ _ _ _ (State.isSome_of_suBar ha.clear)

/-- The ring of an SU.LOAD is its destination, that of an SU.STORE its source (R185). -/
theorem State.ring_suPlan {r : Nat} (hr : (if out then cmdA w else cmdD w) = .ring r) : (s.suPlan k w out).1.ring = r :=
  congrArg ringNo hr

theorem State.object_suPlan {r : Nat} (hr : (if out then cmdA w else cmdD w) = .ring r) :
    (s.suPlan k w out).1.object = (s.ring k r).object := by
  simp [State.suPlan, hr, ringNo, Operand.ringNo?]

/-- A raw walk begins at the address that word 3 names. -/
theorem State.cursor_suPlan {r : Nat} (hr : (if out then cmdA w else cmdD w) = .ring r) (hraw : (s.ring k r).object = false) :
    (s.suPlan k w out).1.cursor = s.suAddress k w (sourceOf (cmdSpec w)) := by
  simp [State.suPlan, hr, ringNo, Operand.ringNo?, hraw]

/-- An object's walk has a piece for every eight rows of each plane share, and one for the head at its start or its end. -/
theorem State.pieces_suPlan {r : Nat} (hr : (if out then cmdA w else cmdD w) = .ring r) (hobj : (s.ring k r).object = true) :
    (s.suPlan k w out).1.pieces x = cmdCount w / max x.perPlane 1 * ((x.perPlane + 7) / 8) +
      (if out then cmdObjEnd w else cmdObjStart w).toNat := by
  have hobject := (State.object_suPlan (s := s) (k := k) hr).trans hobj
  rw [SuMove.pieces, hobject]
  cases out <;> simp_all [State.suPlan, ringNo, Operand.ringNo?]

end

/-- Settles O15: the command's plan is a raw walk of COUNT rows, or an object's plane shares with its head. -/
theorem streamCommandsQueueTransfers : Obligations.StreamCommandsQueueTransfers := by
  intro s k w x hd t0 n src a bar queues raw shares
  have hraw (out : Bool) {r : Nat} (hr : (if out then cmdA w else cmdD w) = .ring r) (hobj : (s.ring k.num r).object = false) {t : State}
      (hq : QueuesMove s t k.num (s.suPlan k.num w out).1 x (t0 + 1)) : Queued s t k.num (raw out r) := by
    have hplain := (State.object_suPlan hr).trans hobj
    refine hq.queued fun trs hlength htrs => ⟨hlength.trans (by rw [SuMove.pieces, hplain]; rfl), fun i tr hi => ?_⟩
    have hmove := htrs hplain i tr hi
    exact ⟨hmove.addr.trans (by rw [State.cursor_suPlan hr hobj]), hmove.rows, hmove.eligible, hmove.ring.trans (State.ring_suPlan hr),
      hmove.out, hmove.src, hmove.tag, hmove.job⟩
  have hobject (out : Bool) {r : Nat} (hr : (if out then cmdA w else cmdD w) = .ring r) (hobj : (s.ring k.num r).object = true) {t : State}
      (hq : QueuesMove s t k.num (s.suPlan k.num w out).1 x (t0 + 1)) :
      Queued s t k.num fun trs => trs.length = shares + (if out then cmdObjEnd w else cmdObjStart w).toNat :=
    hq.queued fun trs hlength _ => hlength.trans (State.pieces_suPlan hr hobj)
  refine ⟨fun r ha hok hr => ?_, fun r ha hok hr => ?_⟩
  · obtain ⟨t, ht, hissued, hframe, hq⟩ := runs_of_suRun (out := false) (i := .suLoad k w) hd rfl ha hok
    exact ⟨fun hobj => ⟨t, ht, hissued, hframe, hraw false hr hobj hq⟩,
      fun hobj => ⟨t, ht, hissued, hframe, hobject false hr hobj hq⟩⟩
  · obtain ⟨t, ht, hissued, hframe, hq⟩ := runs_of_suRun (out := true) (i := .suStore k w) hd rfl ha hok
    exact ⟨fun hobj => ⟨t, ht, hissued, hframe, hraw true hr hobj hq⟩,
      fun hobj => ⟨t, ht, hissued, hframe, hobject true hr hobj hq⟩⟩

end Sys2Proof.Machine
end

section
/-!
PROOFS. The other stream commands (R89, R185, R225, R228): SU.LOADS's parts, the move of SU.TILE, the rows of SU.RELAY, SU.PIP's
stores into a tile register, and the fill that SU.KFILL begins.
-/
namespace Sys2Proof.Machine

/-! ### SU.TILE (R185) -/

/-- A tile operand names one of sixteen registers (R180). -/
theorem lt_of_operandOf_eq_tile {code t : Nat} (h : operandOf code = .tile t) : t < 16 := by
  unfold operandOf at h
  dsimp only at h
  split at h
  · split at h
    · simp at h
    · split at h <;> simp at h
  · simp at h
  · simp at h
  · exact Operand.tile.inj h ▸ Nat.mod_lt _ (by decide)

theorem tileOperands_lt {w : CmdWord} {r t : Nat} {out : Bool} (h : tileOperands w = some (r, t, out)) : t < 16 := by
  unfold tileOperands at h
  split at h
  next ht =>
    obtain ⟨-, rfl, -⟩ : _ ∧ _ ∧ _ := by simpa using h
    exact lt_of_operandOf_eq_tile ht
  next ht _ =>
    obtain ⟨-, rfl, -⟩ : _ ∧ _ ∧ _ := by simpa using h
    exact lt_of_operandOf_eq_tile ht
  next => simp at h

section
variable {s : State} {k : ClusterId} {w : CmdWord} {x : Ctx}

/-- Rows of a register stand in their group's buffer. -/
theorem State.rangeRole_tilePlan {r t : Nat} {out : Bool} (ht : t < 16) (hwindow : (s.tileWindow (k.num / 32) t).2 + cmdCount w ≤ 2048) :
    (s.rangeRole k.num x w .groupBuffer out ((s.tilePlan k.num w r t out).range x).1 ((s.tilePlan k.num w r t out).range x).2).isSome =
      true := by
  have hinside : rangeInside ((s.tilePlan k.num w r t out).range x).1 ((s.tilePlan k.num w r t out).range x).2
      (gbBase + k.num / 32 * groupBufferBytes) groupBufferBytes = true := by
    simp only [rangeInside, SuMove.range, State.tilePlan, tileRowNo, groupBufferBytes, Bool.and_eq_true, decide_eq_true_eq,
      Bool.false_eq_true, if_false]
    omega
  dsimp only [State.rangeRole]
  rw [if_pos hinside]
  rfl

theorem suTile_runs (hd : s.defined) (ha : s.Accepts k.num x w shTile 3 fun s _ _ => s.tileBar k.num w)
    (hop : (tileOperands w).isSome = true) : Runs (.suTile k w) s fun t => Issued s t k.num 4 1 ∧ s.EngineFrame t ∧ t.mem = s.mem ∧
      (t.cluster k.num).transfers.length = (s.cluster k.num).transfers.length + (cmdCount w + 7) / 8 := by
  refine runs_of_accepts_occupied hd rfl ha hop (.of_eq (State.tileRun_issueView ..)) ?_
  obtain ⟨⟨r, t, out⟩, htile⟩ := Option.isSome_iff_exists.mp hop
  have hwindow : (s.tileWindow (k.num / 32) t).2 + cmdCount w ≤ 2048 := by
    have hclear := ha.clear
    rw [State.tileBar, htile] at hclear
    by_contra hpast
    exact absurd (hclear.symm.trans (if_neg hpast)) (by simp)
  have hqueues := State.queuesMove_suMove (x := x) (m := s.tilePlan k.num w r t out) (s.cluster k.num).nextAt ((s.cluster k.num).nextAt + 1)
    ((s.issuedBy k.num).cluster k.num).lastItem false (State.rangeRole_tilePlan (tileOperands_lt htile) hwindow)
  rw [State.tileRun, htile]
  exact ⟨hqueues.mem, hqueues.length⟩

end

/-! ### SU.RELAY (R228) -/

section
variable (s : State)

/-- The memory, and what each group holds beside its clusters. -/
def State.memUnits (s : State) : Memory × Table GroupUnits := (s.mem, s.units)

@[simp] theorem State.noteReads_memUnits (k : Nat) (o : Operand) (rd : List (Nat × Nat)) : (s.noteReads k o rd).memUnits = s.memUnits := by
  unfold State.noteReads
  split <;> rfl

@[simp] theorem State.readRows_memUnits (k e : Nat) (o : Operand) (rd : List (Nat × Nat)) (op t : Nat) (dep : Bool) :
    (s.readRows k e o rd op t dep).2.memUnits = s.memUnits := by
  unfold State.readRows
  extract_lets s₀ s₁
  have hnote : s₁.memUnits = s.memUnits := s.noteReads_memUnits k o rd
  refine keeps_ite (State.memUnits ∘ Prod.snd) hnote ?_
  refine keeps_ite (State.memUnits ∘ Prod.snd) hnote ?_
  refine keeps_ite (State.memUnits ∘ Prod.snd) hnote ?_
  refine keeps_ite (State.memUnits ∘ Prod.snd) hnote ?_
  split
  · split <;> exact hnote
  · exact hnote

@[simp] theorem State.popOperand_memUnits (k : Nat) (o : Operand) (n t : Nat) : (s.popOperand k o n t).memUnits = s.memUnits := by
  unfold State.popOperand State.popOperandRuns
  split <;> rfl

/-- SU.RELAY puts a row on the chain for each of its count (R228). -/
theorem State.relayRun_chain (k : Nat) (c : CmdWord) (x : Ctx) (t : Nat) : (s.relayRun k c x t).mem = s.mem ∧
    ((s.relayRun k c x t).unit (k / 32)).relay.length = (s.unit (k / 32)).relay.length + cmdCount c := by
  have hread := s.readRows_memUnits k 3 (cmdA c) (oneByOne (t + 7) (List.range (cmdCount c))) (cmdOp c) t (cmdDep c)
  dsimp only [State.relayRun]
  generalize s.readRows k 3 (cmdA c) (oneByOne (t + 7) (List.range (cmdCount c))) (cmdOp c) t (cmdDep c) = read at hread ⊢
  have hpop := (read.2.popOperand_memUnits k (cmdA c) (cmdCount c) (t + 7)).trans hread
  refine ⟨congrArg Prod.fst hpop, ?_⟩
  rw [State.unit_modUnit]
  have hunit : ((read.2.popOperand k (cmdA c) (cmdCount c) (t + 7)).unit (k / 32)) = s.unit (k / 32) := by
    have hunits : (read.2.popOperand k (cmdA c) (cmdCount c) (t + 7)).units = s.units := congrArg Prod.snd hpop
    rw [State.unit, State.unit, hunits]
  simp [hunit, oneByOne]

end

/-! ### SU.PIP into a tile register (R83) -/

section
variable (s : State)

/-- The memory and the rings. -/
def State.memRings (s : State) : Memory × Table Ring := (s.mem, s.rings)

theorem State.rmeWriteCheck_memRings (p r count n : Nat) (f : Nat → Nat → Nat) (c : CmdWord) (t : Nat) :
    (s.rmeWriteCheck p (.tile r) count n f c t).2.memRings = s.memRings :=
  keeps_ite (State.memRings ∘ Prod.snd) rfl rfl

@[simp] theorem State.groupFault_memRings (p e u d o a x t : Nat) (b : Bool) : (s.groupFault p e u d o a x t b).memRings = s.memRings :=
  rfl

@[simp] theorem State.violate_memRings (k c e r o t a : Nat) (b : Bool) : (s.violate k c e r o t a b).memRings = s.memRings := rfl

@[simp] theorem State.modUnit_memRings (p : Nat) (f : GroupUnits → GroupUnits) : (s.modUnit p f).memRings = s.memRings := rfl

@[simp] theorem State.gbWrite_memRings (p row t : Nat) (d : Row) : (s.gbWrite p row t d).memRings = s.memRings := rfl

@[simp] theorem State.noteWork_memRings (k e r rows t last : Nat) : (s.noteWork k e (.tile r) rows t last).memRings = s.memRings := rfl

theorem State.rmeOut_memRings (p r n i : Nat) (f : Nat → Nat → Nat) (planes : List (List Nat)) (code : Nat) :
    (s.rmeOut p (.tile r) n i f planes code).memRings = s.memRings :=
  foldl_keeps State.memRings (fun u _ => foldl_keeps State.memRings (fun u _ => u.gbWrite_memRings ..) _ u) _ s

theorem State.rmeNote_memRings (p e r count n t last : Nat) : (s.rmeNote p e (.tile r) count n t last).memRings = s.memRings :=
  (State.modUnit_memRings ..).trans (foldl_keeps State.memRings (fun u _ => u.noteWork_memRings ..) _ s)

/-- SU.PIP into a tile register changes neither the memory, which its stores reach later, nor a ring. -/
theorem State.pipRun_memRings {k r : Nat} {c : CmdWord} (x : Ctx) (t : Nat) (hr : cmdD c = .tile r) :
    (s.pipRun k c x t).memRings = s.memRings := by
  dsimp only [State.pipRun]
  rw [hr]
  simp only [↓State.rmeNote_memRings, ↓State.rmeOut_memRings, ↓State.rmeWriteCheck_memRings, ↓apply_ite State.memRings,
    ↓apply_ite Prod.snd, ↓State.groupFault_memRings, ↓State.violate_memRings, ↓ite_self]

end

/-! ### SU.KFILL (R89) -/

section
variable {s : State} {k : ClusterId} {w : CmdWord} {x : Ctx} {ks : KeySet} {d : KeyDecl} {e : KcEntry} {key : KeyEntry}

/-- The key that SU.KFILL names is one the program declares. -/
theorem State.keyDecl?_of_kfillOf (h : s.kfillOf x w = some (ks, d, e, key)) : x.keyDecl? (cmdSpec w) = some d := by
  simp only [State.kfillOf, Option.bind_eq_some_iff, Option.map_eq_some_iff, Prod.mk.injEq] at h
  obtain ⟨_, -, d', hd, _, -, _, -, -, rfl, -⟩ := h
  exact hd

/-- An accepted SU.KFILL that names a key issues. -/
theorem suKfill_runs {P : State → Prop} (hd : s.defined) (ha : s.Accepts k.num x w shKfill 3)
    (hkey : s.kfillOf x w = some (ks, d, e, key)) (hkc : d.fromHbm = false)
    (hP : P ((s.issuedBy k.num).kfillRun k.num w x (s.cluster k.num).nextAt)) :
    Runs (.suKfill k w) s fun t => Issued s t k.num 4 1 ∧ s.EngineFrame t ∧ P t := by
  have hbar : s.Accepts k.num x w shKfill 3 fun s x _ => if (s.kfillOf x w).isSome then none else some (2, 3, 0) :=
    ⟨ha.ready, ha.job, ha.guard, by simp [hkey]⟩
  have hown : ((x.keyDecl? (cmdSpec w)).any fun d => !d.fromHbm) = true := by simp [State.keyDecl?_of_kfillOf hkey, hkc]
  exact runs_of_accepts_occupied hd rfl hbar hown (.of_eq (State.kfillRun_issueView ..)) hP

/-- The key named is found in the work unit's directory. -/
theorem State.kfillOf_of_work {u : State} (h : u.work = s.work) : u.kfillOf x w = s.kfillOf x w := by
  simp only [State.kfillOf, State.kcEntry?, h]

theorem State.kfillOf_issuedBy : (s.issuedBy k.num).kfillOf x w = s.kfillOf x w := State.kfillOf_of_work rfl

/-- The fill of an entry begins with the next cycle (R89). -/
theorem State.kfillRun_begins {j t : Nat} (hkey : s.kfillOf x w = some (ks, d, e, key)) (habsent : s.absent j = false)
    (hneed : e.filled = false ∨ e.bad = true) (hfill : e.fill = none) :
    let head := s.mem.readN (ks.regionBase + key.offset) 64
    let ok := fillHeaderOk ks d head && !(s.mem.anyPoison (ks.regionBase + key.offset) 64)
    ∃ f : KcFill, f.job = x.job.id.toNat ∧ f.cluster = j ∧ f.first = t + 1 ∧ f.next = 0 ∧
      f.count = 1 + (key.length - 256 + 2047) / 2048 ∧
      (s.kfillRun j w x t).work.kcDir = s.work.kcDir.map fun g => if e.same g then
        { g with filled := true, bad := !ok, header := head, fill := some f, landing := [] } else g := by
  intro head ok
  have hpresent : s.suAbsent j w t = (0, s) := if_neg (by simp [habsent])
  have hopen : ¬ (decide ((0 : Nat) ≠ 0) || (e.filled && !e.bad) || e.fill.isSome) = true := by
    rcases hneed with h | h <;> simp [h, hfill]
  have hcopied : (if ok then { s with mem := copyKey s.mem (ks.regionBase + key.offset + 256) e.extents (key.length - 256) } else s).work =
      s.work := keeps_ite State.work rfl rfl
  unfold State.kfillRun
  dsimp only
  rw [hpresent]
  dsimp only
  rw [hkey]
  dsimp only
  rw [if_neg hopen]
  generalize (if ok then { s with mem := copyKey s.mem (ks.regionBase + key.offset + 256) e.extents (key.length - 256) } else s) = u
    at hcopied ⊢
  refine ⟨{ job := x.job.id.toNat, cluster := j, first := t + 1, next := 0, count := 1 + (key.length - 256 + 2047) / 2048, opc := cmdOp w,
            word := (u.cluster j).lastItem }, rfl, rfl, rfl, rfl, rfl, ?_⟩
  rw [State.modKc, hcopied]

/-- One that is filled or being filled moves nothing (R90). -/
theorem State.kfillRun_keeps {j t : Nat} (hkey : s.kfillOf x w = some (ks, d, e, key))
    (hdone : (e.filled = true ∧ e.bad = false) ∨ e.fill ≠ none) :
    (s.kfillRun j w x t).mem = s.mem ∧ (s.kfillRun j w x t).work = s.work := by
  have hwork : (s.suAbsent j w t).2.work = s.work := keeps_ite (fun r : Nat × State => r.2.work) rfl rfl
  have hmem : (s.suAbsent j w t).2.mem = s.mem := keeps_ite (fun r : Nat × State => r.2.mem) rfl rfl
  have hshut : (decide ((s.suAbsent j w t).1 ≠ 0) || (e.filled && !e.bad) || e.fill.isSome) = true := by
    rcases hdone with ⟨hfilled, hgood⟩ | hfill
    · simp [hfilled, hgood]
    · simp [Option.isSome_iff_ne_none.mpr hfill]
  unfold State.kfillRun
  dsimp only
  rw [State.kfillOf_of_work hwork, hkey]
  dsimp only
  rw [if_pos hshut]
  exact ⟨hmem, hwork⟩

end

/-! ### SU.LOADS (R225) -/

section
variable (s : State)

/-- A range of HBM is permitted by the registers, which the engines' work leaves alone (R182). -/
theorem State.rangeRole_of_params {u : State} {k : Nat} (h : (u.cluster k).params = (s.cluster k).params) (x : Ctx) (w : CmdWord)
    (out : Bool) (a n : Nat) : u.rangeRole k x w .hbm out a n = s.rangeRole k x w .hbm out a n := by
  simp only [State.rangeRole, Ctx.addressRole, Cluster.param, h]

/-- What a stream runs for is read off the state beside the engines. -/
theorem State.ctx?_of_besideEngines {u : State} (h : u.besideEngines = s.besideEngines) (k : Nat) : u.ctx? k = s.ctx? k :=
  (congrArg (fun v : State => v.ctx? k) h :)

/-- A cluster's permitted part of an SU.LOADS appends a transfer for each 2,048 source bytes, in a state with the memory and the
transfers of the one it issues in. -/
theorem State.loadsPart_of_rangeRole {k : Nat} {c : CmdWord} {x : Ctx} {t t0 base word pre role : Nat}
    (h : s.rangeRole k x c .hbm false base (loadsLength x c) = some role) :
    ∃ (u : State) (l : List Transfer) (desc : Ring → StreamDesc), u.moves = s.moves ∧ l.length = (loadsLength x c + 2047) / 2048 ∧
      s.loadsPart k c x t t0 base word pre =
        (u.modCluster k fun cl => { cl with transfers := cl.transfers ++ l }).modRing k (ringNo (cmdD c)) fun g =>
          { g with desc := desc g } := by
  unfold State.loadsPart
  dsimp only
  rw [h]
  refine ⟨_, _, fun g => _, ?_, ?_, rfl⟩
  · simp only [↓apply_ite State.moves, ↓State.violateBy_moves, ↓State.suAbsent_moves, ↓ite_self]
  · simp only [List.length_map, List.length_range]

/-- A cluster's part of an SU.LOADS adds to its own transfers alone, and writes no byte of memory. -/
theorem State.loadsPart_moves (k : Nat) (c : CmdWord) (x : Ctx) (t t0 base word pre : Nat) :
    ∃ l : List Transfer, (s.loadsPart k c x t t0 base word pre).moves = (s.mem, Function.update s.moves.2 k (s.moves.2 k ++ l)) ∧
      (s.rangeRole k x c .hbm false base (loadsLength x c) ≠ none → l.length = (loadsLength x c + 2047) / 2048) := by
  cases h : s.rangeRole k x c .hbm false base (loadsLength x c) with
  | none =>
    refine ⟨[], ?_, fun hne => absurd rfl hne⟩
    unfold State.loadsPart
    dsimp only
    rw [h, List.append_nil, Function.update_eq_self]
    exact s.violateBy_moves ..
  | some role =>
    obtain ⟨u, l, desc, hu, hlength, hpart⟩ := s.loadsPart_of_rangeRole (t := t) (t0 := t0) (word := word) (pre := pre) h
    have hmem : u.mem = s.mem := congrArg Prod.fst hu
    have hkept : (u.cluster k).transfers = s.moves.2 k := congrFun (congrArg Prod.snd hu) k
    refine ⟨l, ?_, fun _ => hlength⟩
    rw [hpart, State.modRing_moves, State.modCluster_moves, hmem, hkept, hu]

theorem State.loadsPart_mem (k : Nat) (c : CmdWord) (x : Ctx) (t t0 base word pre : Nat) :
    (s.loadsPart k c x t t0 base word pre).mem = s.mem := by
  obtain ⟨l, hl, -⟩ := s.loadsPart_moves k c x t t0 base word pre
  exact congrArg Prod.fst hl

theorem State.loadsPart_transfers_other {k j : Nat} (hj : j ≠ k) (c : CmdWord) (x : Ctx) (t t0 base word pre : Nat) :
    ((s.loadsPart k c x t t0 base word pre).cluster j).transfers = (s.cluster j).transfers := by
  obtain ⟨l, hl, -⟩ := s.loadsPart_moves k c x t t0 base word pre
  exact (congrFun (congrArg Prod.snd hl) j).trans (Function.update_of_ne hj ..)

theorem State.loadsPart_length {k : Nat} {c : CmdWord} {x : Ctx} {base : Nat} (t t0 word pre : Nat)
    (h : s.rangeRole k x c .hbm false base (loadsLength x c) ≠ none) :
    ((s.loadsPart k c x t t0 base word pre).cluster k).transfers.length =
      (s.cluster k).transfers.length + (loadsLength x c + 2047) / 2048 := by
  obtain ⟨l, hl, hlength⟩ := s.loadsPart_moves k c x t t0 base word pre
  have hown : ((s.loadsPart k c x t t0 base word pre).cluster k).transfers = (s.cluster k).transfers ++ l :=
    (congrFun (congrArg Prod.snd hl) k).trans (Function.update_self ..)
  rw [hown, List.length_append, hlength h]

/-- SU.LOADS writes no byte of memory when it issues. -/
theorem State.loadsRun_mem (c : CmdWord) (x : Ctx) (t base : Nat) (ks : List Nat) (pre : Nat) :
    (s.loadsRun c x t base ks pre).mem = s.mem :=
  foldl_keeps State.mem (fun u _ => u.loadsPart_mem ..) ks s

/-- A cluster outside the list keeps its transfers. -/
theorem State.loadsRun_transfers_other (c : CmdWord) (x : Ctx) (t base : Nat) {ks : List Nat} (pre : Nat) {j : Nat} (hj : j ∉ ks) :
    ((s.loadsRun c x t base ks pre).cluster j).transfers = (s.cluster j).transfers := by
  induction ks generalizing s with
  | nil => rfl
  | cons k ks ih => exact (ih _ (List.not_mem_of_not_mem_cons hj)).trans (s.loadsPart_transfers_other (List.ne_of_not_mem_cons hj) ..)

/-- Each cluster of the list whose range is permitted gets its own transfers, one for each 2,048 source bytes (R225). -/
theorem State.loadsRun_length (c : CmdWord) (x : Ctx) (t base : Nat) {ks : List Nat} (hks : ks.Nodup) (pre : Nat) {j : Nat} {xj : Ctx}
    (hj : j ∈ ks) (hx : s.ctx? j = some xj) (hrole : s.rangeRole j xj c .hbm false base (loadsLength xj c) ≠ none) :
    ((s.loadsRun c x t base ks pre).cluster j).transfers.length =
      (s.cluster j).transfers.length + (loadsLength xj c + 2047) / 2048 := by
  induction ks generalizing s with
  | nil => simp at hj
  | cons k ks ih =>
    obtain ⟨hk, hks⟩ := List.nodup_cons.mp hks
    by_cases hjk : j = k
    · subst hjk
      have hlater := (s.loadsPart j c xj t (t + 1) base (s.cluster j).lastItem pre).loadsRun_transfers_other c x t base pre hk
      rw [State.loadsRun, List.foldl_cons, hx]
      exact (congrArg List.length hlater).trans (s.loadsPart_length t (t + 1) _ pre hrole)
    · have hview := s.loadsPart_issueView k c ((s.ctx? k).getD x) t (t + 1) base (s.cluster k).lastItem pre
      have hctx := (s.ctx?_of_besideEngines (congrArg IssueView.rest hview) j).trans hx
      rw [← s.rangeRole_of_params (congrArg (fun v : IssueView => (v.core j).params) hview :)] at hrole
      rw [← s.loadsPart_transfers_other hjk c ((s.ctx? k).getD x) t (t + 1) base (s.cluster k).lastItem pre]
      exact ih _ hks ((List.mem_cons.mp hj).resolve_left hjk) hctx hrole

end

/-- A command that clusters issue together, accepted and passing its own checks, whose work occupies no engine. -/
theorem runs_of_acceptsTogether_idle {s : State} {ks engines : List Nat} {x : Ctx} {w : CmdWord} {sh : Shape}
    {bar : State → Ctx → Nat → Barred} {own : State → Ctx → Bool} {run : State → Ctx → Nat → List Nat → Nat → State}
    {p k : Nat} {i : Instr} {P : State → Prop} (hd : s.defined)
    (hexec : exec i s = live s (s.clustersCommand ks p w sh engines own run bar))
    (ha : s.AcceptsTogether ks x w sh engines bar) (hk : k ∈ ks) (hown : own s x = true)
    (hrun : (run (s.issuedTogether ks (s.cluster k).nextAt) x (s.cluster k).nextAt ks 0).issueView =
      (s.issuedTogether ks (s.cluster k).nextAt).issueView)
    (hP : P (run (s.issuedTogether ks (s.cluster k).nextAt) x (s.cluster k).nextAt ks 0)) :
    Runs i s fun u => Issued s u k 4 1 ∧ s.EngineFrame u ∧ P u := by
  refine ⟨_, hexec.trans (live_defined _ _ hd), ?_⟩
  rw [State.clustersCommand_of_accepts ha hown, ← (ha.canTake hk).2]
  obtain ⟨hissued, hframe⟩ := State.issued_of_view (s.besideEngines_issuedTogether ks _) (s.cluster_issuedTogether ha.distinct _ hk)
    (.of_eq hrun)
  exact ⟨hissued, hframe, hP⟩

theorem State.mem_issuedTogether (s : State) (ks : List Nat) (t : Nat) : (s.issuedTogether ks t).mem = s.mem :=
  (foldl_keeps State.mem (f := fun s k => s.stamp k t) (fun _ _ => rfl) ks _).trans
    (foldl_keeps State.mem (f := fun s k => s.advance k 4 1) (fun _ _ => rfl) ks s)

/-- The word that a command names is read as it was before the issue. -/
theorem State.suAddress_issuedTogether (s : State) {ks : List Nat} (hks : ks.Nodup) (t : Nat) {k : Nat} (hk : k ∈ ks) (w : CmdWord)
    (src : SlotSource) : (s.issuedTogether ks t).suAddress k w src = s.suAddress k w src := by
  unfold State.suAddress
  rw [s.cluster_issuedTogether hks t hk]
  rfl

/-- SU.LOADS issues on each cluster of the group, and gives it its own transfers where its range is permitted. -/
theorem suLoads_runs {s : State} {p : Fin 68} {w : CmdWord} {x : Ctx} {j : Nat} (hd : s.defined) (hj : j ∈ groupClusters p)
    (ha : s.AcceptsTogether (groupClusters p) x w shLoads [3] fun s x _ => s.loadsBar (32 * p.val) x w)
    (haligned : s.suAligned (32 * p.val) w .hbm = true) :
    Runs (.suLoads p w) s fun t => Issued s t j 4 1 ∧ s.EngineFrame t ∧ t.mem = s.mem ∧
      ∀ xj, s.ctx? j = some xj → s.rangeRole j xj w .hbm false (s.suAddress (32 * p.val) w .hbm) (loadsLength xj w) ≠ none →
        (t.cluster j).transfers.length = (s.cluster j).transfers.length + (loadsLength xj w + 2047) / 2048 := by
  have hlead : 32 * p.val ∈ groupClusters p := mem_groupClusters.mpr (by omega)
  have hcluster := s.cluster_issuedTogether ha.distinct (s.cluster j).nextAt hj
  have hctx := s.ctx?_of_besideEngines (s.besideEngines_issuedTogether (groupClusters p) (s.cluster j).nextAt) j
  have hexec : exec (.suLoads p w) s = execSuLoads p w s := rfl
  refine runs_of_acceptsTogether_idle hd hexec ha hj haligned (State.loadsRun_issueView ..) ?_
  rw [State.suAddress_issuedTogether s ha.distinct _ hlead]
  refine ⟨(State.loadsRun_mem ..).trans (s.mem_issuedTogether ..), fun xj hx hrole => ?_⟩
  have hparams : ((s.issuedTogether (groupClusters p) (s.cluster j).nextAt).cluster j).params = (s.cluster j).params := by
    rw [hcluster, Cluster.issue]
  rw [← s.rangeRole_of_params hparams] at hrole
  refine (State.loadsRun_length _ w x _ _ ha.distinct 0 hj (hctx.trans hx) hrole).trans ?_
  rw [hcluster, Cluster.issue]

/-- Settles O16: each command's checks pass by the premises, and its work adds to the transfers, the chain or the directory alone. -/
theorem otherStreamCommandsIssue : Obligations.OtherStreamCommandsIssue := by
  intro s k w x hd p t0 base done
  refine ⟨fun j hj ha haligned => suLoads_runs hd hj ha haligned, suTile_runs hd, fun ha hok => ?_, fun ha hwalk => ?_,
    fun ks d e key ha hkey hkc => ⟨fun habsent hneed hfill => ?_, fun hdone => ?_⟩⟩
  · have hchain := (s.issuedBy k.num).relayRun_chain k.num w x t0
    rw [ClusterId.num_div k] at hchain
    exact runs_of_accepts_occupied hd rfl ha hok (.of_eq (State.relayRun_issueView ..)) hchain
  · refine runs_of_accepts_occupied hd rfl ha hwalk (.of_eq (State.pipRun_issueView ..)) fun r hr => ?_
    have hkept := (s.issuedBy k.num).pipRun_memRings (k := k.num) x t0 hr
    exact ⟨congrArg Prod.fst hkept, congrArg Prod.snd hkept⟩
  · refine suKfill_runs hd ha hkey hkc ?_
    exact State.kfillRun_begins (s := s.issuedBy k.num) (State.kfillOf_issuedBy.trans hkey) habsent hneed hfill
  · refine suKfill_runs hd ha hkey hkc ?_
    exact State.kfillRun_keeps (s := s.issuedBy k.num) (State.kfillOf_issuedBy.trans hkey) hdone

end Sys2Proof.Machine
end

section
/-!
PROOFS. The memory system (R91, R250, R253 to R256, R258): what a write-back, a remap and the patrol leave in the table of failed
rows, the refill of a key-cache extent, and the cap of the thermal coupling.
-/
namespace Sys2Proof.Machine

/-! ### Sets kept as lists -/

theorem mem_insertNew {α : Type} [DecidableEq α] {l : List α} {x y : α} : y ∈ insertNew l x ↔ y = x ∨ y ∈ l := by
  unfold insertNew
  split
  next h => exact ⟨.inr, fun hy => hy.elim (fun e => e ▸ List.contains_iff_mem.mp h) id⟩
  next => simp [or_comm]

theorem mem_insertSorted {l : List Nat} {x y : Nat} : y ∈ insertSorted l x ↔ y = x ∨ y ∈ l := by
  induction l with
  | nil => simp [insertSorted]
  | cons z l ih =>
    unfold insertSorted
    split
    · simp
    · split
      next h => simp [h]
      next => simp [ih, or_left_comm]

theorem mem_foldl_insertSorted {xs l : List Nat} {y : Nat} : y ∈ xs.foldl insertSorted l ↔ y ∈ xs ∨ y ∈ l := by
  induction xs generalizing l with
  | nil => simp
  | cons x xs ih => simp [ih, mem_insertSorted, or_assoc, or_left_comm]

/-! ### A command with a condition -/

/-- A command that acts under a condition runs where the condition holds (R454). -/
theorem runs_of_live_ite {i : Instr} {s t : State} {P : State → Prop} {c : Prop} [Decidable c] (hd : s.defined)
    (he : exec i s = live s (if c then t else s)) (hc : c) (ht : P t) : Runs i s P :=
  runs_of_exec_live hd (he.trans (by rw [if_pos hc])) ht

section
variable (s : State)

/-! ### LINE_WRITEBACK (R250) -/

/-- The row of a line of HBM, as it waits for its remap (R243, R253). -/
def rowDue (a : Nat) : RemapDue := { stack := hbmStack a, pc := hbmChannel a, row := hbmLine a / 16 }

theorem State.rowDue_mem_failRow (a : Nat) : rowDue a ∈ (s.failRow a).memSys.failedRows := mem_insertNew.mpr (.inl rfl)

/-- A line has been written back: no write-back of it waits, and one that none waited for is counted (R250). -/
def State.writtenBack (s : State) (a : Nat) : State :=
  if s.memSys.writebacks.contains (a / 64 * 64) then
    { s with memSys := { s.memSys with writebacks := s.memSys.writebacks.filter (· != a / 64 * 64) } }
  else s.countCorrected a

theorem State.writeBack_of_clean (a : Nat) : s.writeBack a false = s.writtenBack a := rfl

theorem State.writeBack_of_again (a : Nat) : s.writeBack a true = ((s.writtenBack a).countCorrected a).failRow a := rfl

/-- It changes the memory system's registers and the ledger's counters alone. -/
theorem State.writtenBack_eq (a : Nat) :
    s.writtenBack a = { s with memSys := (s.writtenBack a).memSys, ledger := (s.writtenBack a).ledger } := by
  unfold State.writtenBack
  split <;> rfl

theorem State.writtenBack_failedRows (a : Nat) : (s.writtenBack a).memSys.failedRows = s.memSys.failedRows :=
  keeps_ite (fun u : State => u.memSys.failedRows) rfl rfl

theorem State.not_mem_writtenBack_writebacks (a : Nat) : a / 64 * 64 ∉ (s.writtenBack a).memSys.writebacks := by
  unfold State.writtenBack
  split
  · simp
  next h => exact fun hmem => h (List.contains_iff_mem.mpr hmem)

/-! ### ROW_REMAP (R253, R254) -/

/-- Device memory and the memory system's registers: what records, events and the clock's step leave alone. -/
def State.stores (s : State) : Memory × MemorySystem := (s.mem, s.memSys)

@[simp] theorem State.event_stores (c : Nat) (b : List Byte) : (s.event c b).stores = s.stores := by simp [State.stores]

@[simp] theorem State.fire_stores (fn i : Nat) : (s.fire fn i).stores = s.stores := rfl

@[simp] theorem State.appendLog_stores (w : List Word64) : (s.appendLog w).stores = s.stores := by
  have hadd (u : State) (l : List Nat) : (u.forAll l fun u id => u.modRun id fun r => r.addFault w).stores = u.stores :=
    State.forAll_keeps State.stores (fun u id => (rfl : (u.modRun id fun r => r.addFault w).stores = u.stores)) l u
  exact (hadd _ _).trans (keeps_ite State.stores rfl rfl)

@[simp] theorem State.managementRecord_stores (k o j a : Nat) : (s.managementRecord k o j a).2.stores = s.stores :=
  State.appendLog_stores _ _

/-- A row that has not been remapped takes a spare where the pool and the table have one. -/
theorem State.remapRow_of_spareFree {st pc row : Nat} (hfree : (s.stack st).spareFree pc = true)
    (hnew : (s.stack st).remap.find (rowKey pc row) = none) :
    s.remapRow st pc row = (0x42, s.modStack st fun k => k.takeSpare pc row false) := by
  simp [State.remapRow, hfree, hnew]

/-- A row that finds no spare is dead: its pages are retired, and memory stays as it is. -/
theorem State.remapRow_of_not_spareFree {st pc row : Nat} (hfull : (s.stack st).spareFree pc = false) :
    (s.remapRow st pc row).2.mem = s.mem ∧
      (s.remapRow st pc row).2.memSys.retiredPages = (rowPages st pc row).foldl insertSorted s.memSys.retiredPages := by
  simp [State.remapRow, hfull]

/-! ### PATROL_SCRUB (R255, R256) -/

/-- A patrol that finds nothing moves on by one line, and begins again behind the last one, where it counts the pass. -/
theorem MemorySystem.advance_nil (m : MemorySystem) :
    m.advance [] = if m.patrolPos.toNat / 64 * 64 + 64 < hbmSize
      then { m with patrolPos := BitVec.ofNat 38 (m.patrolPos.toNat / 64 * 64 + 64) }
      else { m with patrolPos := 0, passes := satInc m.passes } := by
  have hnext : 64 * (m.patrolPos.toNat / 64 + 1) = m.patrolPos.toNat / 64 * 64 + 64 := by omega
  simp [MemorySystem.advance, hnext]

theorem MemorySystem.advance_failedRows (m : MemorySystem) (finds : List ScrubFind) : (m.advance finds).failedRows = m.failedRows :=
  keeps_ite MemorySystem.failedRows rfl rfl

/-- A line that loses its data is marked poisoned. -/
theorem State.linePoisoned_loseLine (a : Nat) : (s.loseLine a).mem.linePoisoned a = true :=
  List.contains_iff_mem.mpr (mem_insertSorted.mpr (.inl rfl))

/-- An uncorrectable line that was not marked yet loses its data and raises one message (R255). -/
theorem State.patrolFind_of_uncorrectable {f : ScrubFind} (ha : f.addr.toNat < hbmSize) (hu : f.uncorrectable = true)
    (hp : s.mem.linePoisoned f.addr.toNat = false) :
    (s.patrolFind f).mem.linePoisoned f.addr.toNat = true ∧ (s.patrolFind f).faults.wires.length = s.faults.wires.length + 1 ∧
      rowDue f.addr.toNat ∈ (s.patrolFind f).memSys.failedRows := by
  have hfind : s.patrolFind f = (s.loseLine f.addr.toNat).raise (memoryUnit (hbmStack f.addr.toNat / 2) (hbmStack f.addr.toNat % 2)
      (hbmChannel f.addr.toNat) 4) 0x09 0x803 (hbmLine f.addr.toNat) f.addr.toNat s.now 0 true := by
    simp [State.patrolFind, Nat.not_le.mpr ha, hu, hp]
  rw [hfind]
  exact ⟨s.linePoisoned_loseLine _, List.length_append, State.rowDue_mem_failRow _ _⟩

/-! ### KC_EXTENT_REPAIR (R91) -/

/-- A refill changes device memory alone. -/
theorem State.repairEntry_eq (e : KcEntry) (x : Nat) : s.repairEntry e x = { s with mem := (s.repairEntry e x).mem } := by
  unfold State.repairEntry
  split
  · rfl
  · split
    · rfl
    · extract_lets
      split <;> rfl

/-- The key-cache directory with extent `x` waiting for repair nowhere (R91). -/
def repairedDir (dir : List KcEntry) (x : Nat) : List KcEntry :=
  dir.map fun e => { e with repairing := e.repairing.filter (· != x) }

theorem not_mem_repairing_of_mem_repairedDir {dir : List KcEntry} {x : Nat} {e : KcEntry} (h : e ∈ repairedDir dir x) :
    x ∉ e.repairing := by
  obtain ⟨f, -, rfl⟩ := List.mem_map.mp h
  simp

/-! ### The coupling's cause of the clock's step (R258, R416) -/

/-- What a decision about the clock's step leaves alone: memory, the memory system's registers and what each cause permits. -/
def State.besideStep (s : State) : (Memory × MemorySystem) × (Nat → Nat) := (s.stores, s.power.permit)

theorem State.withLink_besideStep (l : LinkUnit) : State.besideStep { s with link := l } = s.besideStep := rfl

/-- A change of the power unit that keeps what each cause permits. -/
theorem State.withPower_besideStep (p : PowerUnit) (h : p.permit = s.power.permit := by rfl) :
    State.besideStep { s with power := p } = s.besideStep :=
  congrArg (Prod.mk s.stores) h

theorem State.announce_besideStep (code : Nat) : (s.announce code).besideStep = s.besideStep := by
  unfold State.announce
  extract_lets p
  split
  · exact s.withPower_besideStep _
  · exact keeps_ite _ (s.withPower_besideStep _) (s.withPower_besideStep _)

theorem State.decideStep_besideStep (code : Nat) : (s.decideStep code).besideStep = s.besideStep := by
  have hdrop : s.dropStepUp.besideStep = s.besideStep := keeps_ite _ rfl (s.withPower_besideStep _)
  exact keeps_ite _ ((State.announce_besideStep _ _).trans hdrop)
    (keeps_ite _ hdrop (keeps_ite _ rfl (s.withPower_besideStep _)))

theorem State.applyCauses_besideStep : s.applyCauses.besideStep = s.besideStep := by
  unfold State.applyCauses
  extract_lets own u
  split
  · refine keeps_ite _ rfl ?_
    exact (State.withLink_besideStep _ _).trans ((State.withLink_besideStep _ _).trans (s.withLink_besideStep u))
  · exact s.decideStep_besideStep own

theorem State.applyCauses_permit : s.applyCauses.power.permit = s.power.permit := congrArg Prod.snd s.applyCauses_besideStep

@[simp] theorem State.setPermit_stores (c k : Nat) : (s.setPermit c k).stores = s.stores :=
  keeps_ite State.stores rfl (congrArg Prod.fst (State.applyCauses_besideStep _))

/-- A cause but the host's permits the step it is set to. -/
theorem State.permit_setPermit {c : Nat} (hc : c ≠ 6) (k : Nat) : (s.setPermit c k).power.permit c = k := by
  unfold State.setPermit
  split
  next h => exact h
  next => exact (congrFun (State.applyCauses_permit _) c).trans (by simp [PowerUnit.permit, hc])

theorem State.permit_setPermit_other {c j : Nat} (hj : j ≠ c) (k : Nat) : (s.setPermit c k).power.permit j = s.power.permit j := by
  refine keeps_ite (fun u : State => u.power.permit j) rfl ((congrFun (State.applyCauses_permit _) j).trans ?_)
  simp [PowerUnit.permit, Table.at_put_other _ _ _ _ _ hj]

theorem PowerUnit.inEffect_of_le {p : PowerUnit} {code : Nat} (h : p.pending = none) (hle : code ≤ p.stepCode.toNat) :
    p.inEffect code = true := by
  simp [PowerUnit.inEffect, h, hle]

theorem State.mem_of_stores {s t : State} (h : t.stores = s.stores) : t.mem = s.mem := congrArg Prod.fst h

theorem State.stack_of_stores {s t : State} (h : t.stores = s.stores) (n : Nat) : t.stack n = s.stack n :=
  congrArg (fun v => v.2.hbmStacks.at n {}) h

/-! ### STACK_TEMPERATURE_TRIGGER (R258) -/

/-- A stack's reading is stored with its sensor, and shown by the stack. -/
theorem State.storeTemp_stack {r : TempReading} {n : Nat} (hr : r.sensor.toNat = 42 + n) (hn : n < 8) :
    (s.storeTemp r).mem = s.mem ∧ ((s.storeTemp r).stack n).temp = r.temp := by
  have hrange : inRange 42 8 (42 + n) = true := by simp [inRange]; omega
  have hlow : ¬ 50 ≤ 42 + n := by omega
  simp [State.storeTemp, hr, hlow, hrange]

/-- A stack at 83.0 °C or more asks for its cap (R258). -/
theorem State.stackReading_of_hot {n : Nat} {t : Int} (ht : 332 ≤ t) : (s.stackReading n t).mem = s.mem ∧
    (s.stackReading n t).stack n = { s.stack n with capAsked := true } ∧ (s.stackReading n t).power.permit 1 = 2 := by
  rw [State.stackReading, if_pos ht, State.coupleDies]
  generalize State.dieCap _ = cap
  have hstores := (State.setPermit_stores ((s.modStack n fun k => { k with capAsked := true }).setPermit 1 2) 2 cap).trans
    (State.setPermit_stores _ 1 2)
  refine ⟨(State.mem_of_stores hstores :), ?_, ?_⟩
  · rw [State.stack_of_stores hstores, State.stack_modStack]
  · rw [State.permit_setPermit_other _ (by decide), State.permit_setPermit _ (by decide)]

/-! ### COUPLING_CAP_LIFT (R258) -/

/-- Stack `i` asks for its cap no more. -/
def State.dropCap (s : State) (i : Nat) : State :=
  if (s.stack i).capAsked then s.modStack i fun k => { k with capAsked := false } else s

theorem State.stack_modStack_other {n j : Nat} (hj : j ≠ n) (f : Stack → Stack) : (s.modStack n f).stack j = s.stack j := by
  simp [State.stack, Table.at_put_other _ _ _ _ _ hj]

theorem State.capAsked_dropCap (i j : Nat) : ((s.dropCap i).stack j).capAsked = true ↔ (s.stack j).capAsked = true ∧ j ≠ i := by
  unfold State.dropCap
  by_cases hj : j = i
  · subst hj
    split <;> simp_all
  · split <;> simp [hj, s.stack_modStack_other hj]

theorem State.capAsked_forAll_dropCap (l : List Nat) (j : Nat) :
    ((s.forAll l State.dropCap).stack j).capAsked = true ↔ (s.stack j).capAsked = true ∧ j ∉ l := by
  induction l generalizing s with
  | nil => simp [State.forAll]
  | cons i l ih => exact (ih (s.dropCap i)).trans (by simp [State.capAsked_dropCap, and_assoc])

theorem State.mem_forAll_dropCap (l : List Nat) : (s.forAll l State.dropCap).mem = s.mem :=
  State.forAll_keeps State.mem (f := State.dropCap) (fun _ _ => keeps_ite State.mem rfl rfl) l s

/-- A stack that has been cool for as long as R258 asks. -/
def State.coolLong (s : State) (k : Stack) : Prop :=
  k.doubledRefresh = false ∧ k.temp.toInt < 320 ∧ k.coolSince + coolBeats ≤ s.beat.toNat

/-- Once every stack has been cool for long, a cap that any stack asked for is lifted (R258). -/
theorem State.liftStackCap_of_coolLong (hasked : ∃ i < 8, (s.stack i).capAsked = true) (hcool : ∀ i < 8, s.coolLong (s.stack i)) :
    s.liftStackCap = ((s.forAll (List.range 8) State.dropCap).setPermit 1 0).coupleDies := by
  refine if_pos ?_
  simpa [State.coolLong, and_assoc] using And.intro hasked hcool

/-- The return of a memory clock changes its die alone. -/
theorem State.restoreMemoryClock_eq (i : Nat) :
    s.restoreMemoryClock i = { s with memSys := { s.memSys with dies := (s.restoreMemoryClock i).memSys.dies } } := by
  unfold State.restoreMemoryClock
  extract_lets d
  split <;> rfl

/-- What the return of the memory clocks leaves alone: memory, the stacks and what each cause permits. -/
def State.besideDies (s : State) : Memory × Table Stack × (Nat → Nat) := (s.mem, s.memSys.hbmStacks, s.power.permit)

theorem State.forAll_restoreMemoryClock_besideDies (l : List Nat) : (s.forAll l State.restoreMemoryClock).besideDies = s.besideDies :=
  State.forAll_keeps State.besideDies (fun u i => by rw [u.restoreMemoryClock_eq i]; rfl) l s

end

/-! ### The commands where their conditions hold -/

section
variable {s : State} (hd : s.defined) (hup : s.hbmUp = true)
include hd hup

theorem lineWriteback_clean_runs {addr : DevAddr} (ha : addr.toNat < hbmSize) :
    Runs (.lineWriteback addr false) s fun t => t.memSys.failedRows = s.memSys.failedRows ∧ t.mem = s.mem ∧
      (∀ l ∈ t.memSys.writebacks, l ≠ addr.toNat / 64 * 64) ∧ t = { s with memSys := t.memSys, ledger := t.ledger } := by
  have heq := s.writtenBack_eq addr.toNat
  refine runs_of_live_ite (t := s.writeBack addr.toNat false) hd rfl (by simp [hup, ha]) ?_
  rw [State.writeBack_of_clean]
  exact ⟨s.writtenBack_failedRows _, (congrArg State.mem heq :), fun l hl e => s.not_mem_writtenBack_writebacks _ (e ▸ hl), heq⟩

theorem lineWriteback_again_runs {addr : DevAddr} (ha : addr.toNat < hbmSize) :
    Runs (.lineWriteback addr true) s fun t => t.mem = s.mem ∧ t = { s with memSys := t.memSys, ledger := t.ledger } ∧
      rowDue addr.toNat ∈ t.memSys.failedRows := by
  have heq := s.writtenBack_eq addr.toNat
  refine runs_of_live_ite (t := s.writeBack addr.toNat true) hd rfl (by simp [hup, ha]) ?_
  rw [State.writeBack_of_again]
  refine ⟨(congrArg State.mem heq :), ?_, State.rowDue_mem_failRow _ _⟩
  rw [heq]
  rfl

section
variable {n : Fin 8} {pc : Fin 32} {row : BitVec 20} (hdue : (⟨n, pc, row.toNat⟩ : RemapDue) ∈ s.memSys.failedRows)
  (hroom : s.ledger.room 4 = true) (htime : s.beating = false ∨ 60928 ≤ s.cycle.toNat)
  (hstill : s.memSys.migrating ≠ some (32 * n.val + pc.val))
include hdue hroom htime hstill

/-- A row whose remap is due is remapped in the service slice, and then waits no more. -/
theorem rowRemap_runs {P : State → Prop}
    (hP : ∀ t, t.stores = ((s.remapRow n pc row.toNat).2.mem, { (s.remapRow n pc row.toNat).2.memSys with
      failedRows := (s.remapRow n pc row.toNat).2.memSys.failedRows.filter (· != ⟨n, pc, row.toNat⟩) }) → P t) :
    Runs (.rowRemap n pc row) s P := by
  refine runs_of_live_ite hd rfl (by simpa [hup, hdue, hroom, hstill] using htime) (hP _ ?_)
  rw [State.fire_stores, State.event_stores, State.managementRecord_stores]
  rfl

/-- A failed row takes the next spare of its pseudo-channel (R253). -/
theorem rowRemap_spare_runs (hnew : (s.stack n).remap.find (rowKey pc row.toNat) = none) (hfree : (s.stack n).spareFree pc = true) :
    Runs (.rowRemap n pc row) s fun t =>
      (t.stack n).remap.find (rowKey pc row.toNat) = some ((s.stack n).sparesUsed.at pc 0) ∧
      (t.stack n).sparesUsed.at pc 0 = (s.stack n).sparesUsed.at pc 0 + 1 ∧
      (⟨n, pc, row.toNat⟩ : RemapDue) ∉ t.memSys.failedRows ∧ t.mem = s.mem := by
  refine rowRemap_runs hd hup hdue hroom htime hstill fun t ht => ?_
  rw [s.remapRow_of_spareFree hfree hnew] at ht
  obtain ⟨hmem, hmemSys⟩ := Prod.mk.inj ht
  have hstack : t.stack n = (s.stack n).takeSpare pc row.toNat false := by simp [State.stack, hmemSys]
  refine ⟨?_, ?_, ?_, hmem⟩
  · simp [hstack, Stack.takeSpare]
  · simp [hstack, Stack.takeSpare, Table.modify]
  · simp [hmemSys]

/-- A failed row that finds no spare retires its pages (R253, R254). -/
theorem rowRemap_dead_runs (hfull : (s.stack n).spareFree pc = false) :
    Runs (.rowRemap n pc row) s fun t => (∀ a ∈ rowPages n pc row.toNat, a ∈ t.memSys.retiredPages) ∧
      (⟨n, pc, row.toNat⟩ : RemapDue) ∉ t.memSys.failedRows ∧ t.mem = s.mem := by
  obtain ⟨hkept, hretired⟩ := s.remapRow_of_not_spareFree (row := row.toNat) hfull
  refine rowRemap_runs hd hup hdue hroom htime hstill fun t ht => ?_
  obtain ⟨hmem, hmemSys⟩ := Prod.mk.inj ht
  refine ⟨fun a ha => ?_, by simp [hmemSys], hmem.trans hkept⟩
  rw [hmemSys, hretired]
  exact mem_foldl_insertSorted.mpr (.inl ha)

end

section
variable (hen : s.memSys.patrolEn = true)
include hen

theorem patrolScrub_runs {finds : List ScrubFind} {P : State → Prop} (hP : P { finds.foldl State.patrolFind s with
    memSys := (finds.foldl State.patrolFind s).memSys.advance finds }) : Runs (.patrolScrub finds) s P :=
  runs_of_live_ite hd rfl (by simp [hup, hen]) hP

/-- A patrol that finds nothing changes its own position and the count of its passes alone. -/
theorem patrolScrub_nil_runs : Runs (.patrolScrub []) s fun t => t.mem = s.mem ∧ t = { s with memSys := t.memSys } ∧
    (s.memSys.patrolPos.toNat / 64 * 64 + 64 < hbmSize → t.memSys.patrolPos.toNat = s.memSys.patrolPos.toNat / 64 * 64 + 64 ∧
      t.memSys.passes = s.memSys.passes) ∧
    (hbmSize ≤ s.memSys.patrolPos.toNat / 64 * 64 + 64 → t.memSys.patrolPos = 0 ∧ t.memSys.passes = satInc s.memSys.passes) := by
  refine patrolScrub_runs hd hup hen ⟨rfl, rfl, ?_⟩
  rw [List.foldl_nil, MemorySystem.advance_nil]
  refine ⟨fun hlt => ?_, fun hle => ?_⟩
  · rw [if_pos hlt]
    exact ⟨Nat.mod_eq_of_lt (hlt.trans (by decide)), rfl⟩
  · rw [if_neg (Nat.not_lt.mpr hle)]
    exact ⟨rfl, rfl⟩

/-- An uncorrectable line that the patrol meets first is poisoned, raises one message and fails its row (R253, R255). -/
theorem patrolScrub_uncorrectable_runs {f : ScrubFind} (ha : f.addr.toNat < hbmSize) (hu : f.uncorrectable = true)
    (hp : s.mem.linePoisoned f.addr.toNat = false) : Runs (.patrolScrub [f]) s fun t => t.mem.linePoisoned f.addr.toNat = true ∧
      t.faults.wires.length = s.faults.wires.length + 1 ∧ rowDue f.addr.toNat ∈ t.memSys.failedRows := by
  obtain ⟨hmark, hwire, hrow⟩ := s.patrolFind_of_uncorrectable ha hu hp
  exact patrolScrub_runs hd hup hen ⟨hmark, hwire, by rw [MemorySystem.advance_failedRows]; exact hrow⟩

end

/-- An extent that waits for its repair is refilled, and then waits no more. -/
theorem kcExtentRepair_runs {x : BitVec 9} (hwait : ∃ e ∈ s.work.kcDir, x.toNat ∈ e.repairing) :
    Runs (.kcExtentRepair x) s fun t => t.work.kcDir = repairedDir s.work.kcDir x.toNat ∧
      t = { s with mem := t.mem, work := t.work } := by
  obtain ⟨e, he⟩ : ∃ e, s.work.kcDir.find? (fun e => e.repairing.contains x.toNat) = some e :=
    Option.isSome_iff_exists.mp (List.find?_isSome.mpr (by simpa using hwait))
  let u := s.repairEntry e x.toNat
  have hu : u = { s with mem := u.mem } := s.repairEntry_eq e x.toNat
  refine runs_of_exec_live (t := { u with work := { u.work with kcDir := repairedDir u.work.kcDir x.toNat } }) hd ?_ ⟨?_, ?_⟩
  · show execKcExtentRepair x s = _
    rw [execKcExtentRepair, he]
    simp [hup, repairedDir, u]
  · rw [hu]
  · rw [hu]

/-- A hot reading of a stack in a part that runs. -/
theorem stackTemperatureTrigger_runs {n : Fin 8} {temp : BitVec 10} (hready : s.rst.hostReady = true) (ht : 332 ≤ temp.toInt) :
    Runs (.stackTemperatureTrigger (BitVec.ofNat 6 (42 + n.val)) temp) s fun t =>
      (t.stack n).capAsked = true ∧ (t.stack n).temp = temp ∧ t.power.permit 1 = 2 ∧ t.mem = s.mem := by
  have hsensor : (BitVec.ofNat 6 (42 + n.val)).toNat = 42 + n.val := Nat.mod_eq_of_lt (by omega)
  have hrange : inRange 42 8 (42 + n.val) = true := by simp [inRange]; omega
  obtain ⟨⟨-, htrip⟩, hhalt⟩ : (s.memSys.hbmReady = true ∧ s.rst.tripped = false) ∧ s.rst.halted = false := by
    simpa [State.hbmUp] using hup
  obtain ⟨hmem, htemp⟩ := s.storeTemp_stack (r := ⟨BitVec.ofNat 6 (42 + n.val), temp⟩) hsensor n.isLt
  obtain ⟨hmem', hstack, hpermit⟩ := (s.storeTemp ⟨BitVec.ofNat 6 (42 + n.val), temp⟩).stackReading_of_hot (n := n) ht
  refine runs_of_exec_live (t := (s.storeTemp ⟨BitVec.ofNat 6 (42 + n.val), temp⟩).stackReading n temp.toInt) hd ?_
    ⟨by rw [hstack], by rw [hstack]; exact htemp, hpermit, hmem'.trans hmem⟩
  show execStackTemperatureTrigger _ temp s = _
  simp [execStackTemperatureTrigger, hready, htrip, hhalt, hsensor, hrange]

/-- A stack enters doubled refresh once its cap is in effect (R258). -/
theorem doubledRefreshEntry_runs {n : Fin 8} (hcap : (s.stack n).capAsked = true)
    (htemp : 340 ≤ (s.stack n).temp.toInt) (hin : s.power.inEffect 2 = true) :
    Runs (.doubledRefreshEntry n) s fun t => t.stack n = { s.stack n with doubledRefresh := true } ∧ t = { s with memSys := t.memSys } :=
  runs_of_live_ite hd rfl (by simp [hup, hcap, htemp, hin]) ⟨s.stack_modStack n _, rfl⟩

/-- A memory-side die slows its clock once its cap is in effect (R258). -/
theorem memoryClockSlow_runs {d : Fin 4} (hcap : (s.die d).capAsked = true)
    (htemp : 400 ≤ (s.die d).temp.toInt) (hin : s.power.inEffect 3 = true) :
    Runs (.memoryClockSlow d) s fun t => t.die d = { s.die d with slowClock := true } ∧ t = { s with memSys := t.memSys } :=
  runs_of_live_ite hd rfl (by simp [hup, hcap, htemp, hin]) ⟨s.die_modDie d _, rfl⟩

omit hup in
/-- Once every stack has been cool for long, no stack asks for a cap any more, and the stacks' cause permits 600 MHz (R258). -/
theorem couplingCapLift_runs (hb : s.beating = true) (hasked : ∃ i < 8, (s.stack i).capAsked = true)
    (hcool : ∀ i < 8, s.coolLong (s.stack i)) :
    Runs .couplingCapLift s fun t => (∀ i : Fin 8, (t.stack i).capAsked = false) ∧ t.power.permit 1 = 0 ∧ t.mem = s.mem := by
  have hdies := s.liftStackCap.forAll_restoreMemoryClock_besideDies (List.range 4)
  refine runs_of_live_ite (t := s.liftStackCap.forAll (List.range 4) State.restoreMemoryClock) hd rfl hb ?_
  generalize s.liftStackCap.forAll (List.range 4) State.restoreMemoryClock = t at hdies ⊢
  rw [s.liftStackCap_of_coolLong hasked hcool, State.coupleDies] at hdies
  generalize State.dieCap _ = cap at hdies
  have hlifted := s.capAsked_forAll_dropCap (List.range 8)
  have hmem := s.mem_forAll_dropCap (List.range 8)
  generalize s.forAll (List.range 8) State.dropCap = u at hdies hlifted hmem
  obtain ⟨htmem, hrest⟩ := Prod.mk.inj hdies
  obtain ⟨hstacks, hpermit⟩ := Prod.mk.inj hrest
  have hstores : ((u.setPermit 1 0).setPermit 2 cap).stores = u.stores := by simp
  refine ⟨fun i => ?_, ?_, htmem.trans ((State.mem_of_stores hstores).trans hmem)⟩
  · have hstack : t.stack i = u.stack i :=
      (congrArg (fun l : Table Stack => l.at i.val {}) hstacks).trans (State.stack_of_stores hstores i)
    rw [hstack]
    exact Bool.eq_false_iff.mpr fun h => ((hlifted i).mp h).2 (List.mem_range.mpr i.isLt)
  · rw [hpermit, State.permit_setPermit_other _ (by decide), State.permit_setPermit _ (by decide)]

end

/-- Settles O44: a command at a time, each on the state that its premises describe. -/
theorem memoryRepairsItself : Obligations.MemoryRepairsItself := by
  intro s addr n pc row f x d temp hd hup due k
  refine ⟨fun ha => ⟨lineWriteback_clean_runs hd hup ha, lineWriteback_again_runs hd hup ha⟩,
    fun hdue hroom htime hstill hnew hlength => ⟨fun hspare => ?_, fun hnone => ?_⟩,
    fun hen _ => ⟨patrolScrub_nil_runs hd hup hen, patrolScrub_uncorrectable_runs hd hup hen⟩,
    fun hwait => ?_, stackTemperatureTrigger_runs hd hup,
    fun hcap htemp hp hstep => doubledRefreshEntry_runs hd hup hcap htemp (PowerUnit.inEffect_of_le hp hstep),
    fun hcap htemp hp hstep => memoryClockSlow_runs hd hup hcap htemp (PowerUnit.inEffect_of_le hp hstep),
    fun hb hall => ?_⟩
  · have hfree : k.spareFree pc = true := by simp [Stack.spareFree, hlength, hspare]
    exact rowRemap_spare_runs hd hup hdue hroom htime hstill hnew hfree
  · have hfull : k.spareFree pc = false := by simp [Stack.spareFree, Nat.not_lt.mpr hnone]
    exact rowRemap_dead_runs hd hup hdue hroom htime hstill hfull
  · obtain ⟨t, ht, hdir, heq⟩ := kcExtentRepair_runs hd hup hwait
    exact ⟨t, ht, fun e he => not_mem_repairing_of_mem_repairedDir (hdir ▸ he), by rw [hdir]; exact List.length_map _, heq⟩
  · refine couplingCapLift_runs hd hb ⟨0, by decide, (hall 0).1⟩ fun i hi => ?_
    obtain ⟨-, hrefresh, htemp, hsince⟩ := hall ⟨i, hi⟩
    exact ⟨hrefresh, htemp, hsince⟩

end Sys2Proof.Machine
end

section
/-!
PROOFS. Terrier (R267 to R270): what a record and a recall notice leave of the groups and the wires, the verdict on a group case by
case, and what a retest makes of a quarantine.
-/
namespace Sys2Proof.Machine

variable (s : State)

/-! ### What records and notices leave alone -/

/-- Device memory, the groups, the fuses and the fault messages on their way: what writing a record and issuing a notice leave alone. -/
def State.standing : Memory × Table Group × Fuses × List FaultWire := (s.mem, s.groups, s.fuses, s.faults.wires)

theorem mem_of_standing {s t : State} (h : t.standing = s.standing) : t.mem = s.mem := congrArg Prod.fst h
theorem wires_of_standing {s t : State} (h : t.standing = s.standing) : t.faults.wires = s.faults.wires := congrArg (·.2.2.2) h
theorem group_of_standing {s t : State} (h : t.standing = s.standing) (p : Nat) : t.group p = s.group p :=
  (congrArg (fun v : Memory × Table Group × Fuses × List FaultWire => v.2.1.at p (Group.initial v.2.2.1 p)) h :)

theorem State.withWork_standing (w : WorkUnit) : State.standing { s with work := w } = s.standing := rfl

theorem State.modRun_standing (id : Nat) (f : JobRun → JobRun) : (s.modRun id f).standing = s.standing := rfl

theorem State.event_standing (c : Nat) (b : List Byte) : (s.event c b).standing = s.standing := by simp [State.standing]

theorem State.appendLog_standing (w : List Word64) : (s.appendLog w).standing = s.standing := by
  have hadd (u : State) (l : List Nat) : (u.forAll l fun u id => u.modRun id fun r => r.addFault w).standing = u.standing :=
    State.forAll_keeps State.standing (fun u id => u.modRun_standing id _) l u
  exact (hadd _ _).trans (keeps_ite State.standing rfl rfl)

theorem FaultUnit.stick_wires (f : FaultUnit) (u k : Nat) : (f.stick u k).wires = f.wires := by
  unfold FaultUnit.stick
  extract_lets key g
  have hbit : g.wires = f.wires := keeps_ite FaultUnit.wires rfl (keeps_ite FaultUnit.wires rfl rfl)
  exact keeps_ite FaultUnit.wires hbit hbit

theorem State.managementRecord_standing (k o j a : Nat) : (s.managementRecord k o j a).2.standing = s.standing := by
  have hstick : State.standing { s with faults := s.faults.stick managementUnit k } = s.standing := by
    simp [State.standing, FaultUnit.stick_wires]
  exact (State.appendLog_standing _ _).trans hstick

theorem State.receiptItem_standing (fn k : Nat) (c : List Byte) (j : Nat) : (s.receiptItem fn k c j).standing = s.standing :=
  keeps_ite State.standing rfl (keeps_ite State.standing rfl rfl)

theorem State.deliverNotice_standing (c : List Byte) (fns : List Nat) : (s.deliverNotice c fns).standing = s.standing := by
  have hnow (l : List Nat) : (s.forAll l fun s fn => s.receiptItem fn 2 c).standing = s.standing :=
    State.forAll_keeps State.standing (fun s fn => s.receiptItem_standing fn 2 c 0) l s
  exact keeps_ite State.standing (hnow _) (hnow _)

theorem State.issueNotice_standing (b : List Byte) (fns : List Nat) : (s.issueNotice b fns).standing = s.standing :=
  keeps_ite State.standing (State.deliverNotice_standing _ _ _) rfl

theorem State.recall_standing (k f v : Nat) (g : List Nat) (a b : Nat) (w : List Word64) (c : Bool) :
    (s.recall k f v g a b w c).standing = s.standing := by
  have hnote (u : State) (note : JobRun → JobRun) (l : List Nat) :
      (u.forAll l fun u id => if (u.run id).inWindow g a b then u.modRun id note else u).standing = u.standing :=
    State.forAll_keeps State.standing (fun u id => keeps_ite State.standing (u.modRun_standing id note) rfl) l u
  exact (State.issueNotice_standing _ _ _).trans ((State.event_standing _ _ _).trans (hnote _ _ _))

/-! ### Faults raised -/

/-- The messages sent on the way from `s` to `t`, behind those already there, are of `kinds`. -/
def State.Raised (s t : State) (kinds : List Nat) : Prop :=
  ∃ ws, t.faults.wires = s.faults.wires ++ ws ∧ ws.map (fun x => x.word.toNat / 2 ^ 20 % 256) = kinds

theorem State.Raised.trans {s t u : State} {k l : List Nat} (h : s.Raised t k) (h' : t.Raised u l) : s.Raised u (k ++ l) := by
  obtain ⟨a, hta, rfl⟩ := h
  obtain ⟨b, hub, rfl⟩ := h'
  exact ⟨a ++ b, by rw [hub, hta, List.append_assoc], List.map_append⟩

theorem State.Raised.of_wires {s t u : State} {k : List Nat} (h : s.Raised t k) (hw : u.faults.wires = t.faults.wires) : s.Raised u k :=
  let ⟨ws, ht, hk⟩ := h
  ⟨ws, hw.trans ht, hk⟩

theorem State.raised_of_faultWord {s t : State} {unit kind op tag : Nat} {w : FaultWire} (hkind : kind < 256)
    (ht : t.faults.wires = s.faults.wires ++ [w]) (hw : w.word = faultWord unit kind op tag) : s.Raised t [kind] :=
  ⟨[w], ht, by rw [List.map_singleton, hw, faultWord_kind, Nat.mod_eq_of_lt hkind]⟩

/-! ### A group that failed -/

/-- The group after a failure under R269 in beat `b`: quarantined, and the failure counted with the beat's family and visit. -/
def Group.failedTest (g : Group) (b : Nat) : Group :=
  { g with
    quarantine := true, quarantineBeat := b, terrierFails := satInc g.terrierFails
    lastFamily := BitVec.ofNat 4 (terrierFamily b), lastVisit := BitVec.ofNat 6 (terrierVisit b) }

theorem State.group_quarantineGroup_terrierFail (p : Nat) :
    ((s.quarantineGroup p).terrierFail p).group p = (s.group p).failedTest s.beat.toNat := by
  simp [State.quarantineGroup, State.terrierFail, State.group, State.modGroup, Group.failedTest]

theorem State.group_terrierFault (p kind op : Nat) :
    (s.terrierFault p kind op).2.group p = (s.group p).failedTest s.beat.toNat :=
  State.group_quarantineGroup_terrierFail _ p

theorem State.group_terrierFault_other {p q : Nat} (h : q ≠ p) (kind op : Nat) : (s.terrierFault p kind op).2.group q = s.group q :=
  by simp [State.terrierFault, State.quarantineGroup, State.terrierFail, State.group, State.modGroup, Table.at_put_other _ _ _ _ _ h]

theorem State.terrierFault_raised (p op : Nat) {kind : Nat} (h : kind < 256) : s.Raised (s.terrierFault p kind op).2 [kind] :=
  State.raised_of_faultWord h rfl rfl

theorem State.terrierFault_mem (p kind op : Nat) : (s.terrierFault p kind op).2.mem = s.mem := rfl

/-- A quarantine stays while another group fails. -/
theorem State.quarantine_terrierFault {p q : Nat} (h : (s.group q).quarantine = true) (kind op : Nat) :
    ((s.terrierFault p kind op).2.group q).quarantine = true := by
  by_cases hq : q = p
  · rw [hq, State.group_terrierFault]; rfl
  · rw [State.group_terrierFault_other _ hq, h]

theorem State.deadChecker_standing (p : Nat) : (s.deadChecker p).standing = (s.terrierFault p 0x60 0x801).2.standing :=
  State.recall_standing ..

/-- The faults of signatures that differ: the group's, and its peer's where that is another group. -/
def State.bothFail (p q : Nat) : State :=
  if p = q then (s.terrierFault p 0x61 0x800).2 else ((s.terrierFault p 0x61 0x800).2.terrierFault q 0x61 0x800).2

theorem State.mismatch_standing (p q : Nat) : (s.mismatch p q).standing = (s.bothFail p q).standing := State.recall_standing ..

theorem State.bothFail_mem (p q : Nat) : (s.bothFail p q).mem = s.mem :=
  keeps_ite State.mem (s.terrierFault_mem ..) ((State.terrierFault_mem ..).trans (s.terrierFault_mem ..))

theorem State.bothFail_raised (p q : Fin 68) : s.Raised (s.bothFail p q) (if p = q then [0x61] else [0x61, 0x61]) := by
  have hfirst : s.Raised (s.terrierFault p 0x61 0x800).2 [0x61] := s.terrierFault_raised p _ (by decide)
  by_cases h : p = q
  · rw [State.bothFail, if_pos (congrArg Fin.val h), if_pos h]
    exact hfirst
  · rw [State.bothFail, if_neg (Fin.val_ne_of_ne h), if_neg h]
    exact hfirst.trans (State.terrierFault_raised _ q _ (by decide))

theorem State.bothFail_quarantine (p q : Nat) :
    ((s.bothFail p q).group p).quarantine = true ∧ ((s.bothFail p q).group q).quarantine = true := by
  have hfirst : ((s.terrierFault p 0x61 0x800).2.group p).quarantine = true := by rw [State.group_terrierFault]; rfl
  unfold State.bothFail
  split
  next h => exact ⟨hfirst, h ▸ hfirst⟩
  next => exact ⟨State.quarantine_terrierFault _ hfirst _ _, by rw [State.group_terrierFault]; rfl⟩

theorem State.deadDie_standing (k : Nat) : (s.deadDie k).standing =
    (s.raise (memoryUnit k 3 0 0) 0x67 0x801 0 0 s.now 0 false).standing :=
  (State.event_standing _ _ _).trans (State.recall_standing ..)

/-! ### The verdict on a group (R269) -/

section
variable {s} {p : Nat} {f r : Bool}

theorem State.groupVerdict_of_dead (h : (s.unit p).injection = some ⟨s.beat.toNat, f, r⟩) (hdead : (f && r) = false) (q : Nat) :
    s.groupVerdict p true q none = s.deadChecker p := by
  have hfr : (!f || !r) = true := by rw [← Bool.not_and, hdead]; rfl
  simp [State.groupVerdict, h, hfr]

theorem State.groupVerdict_of_good (h : (s.unit p).injection = some ⟨s.beat.toNat, true, true⟩) (q : Nat) :
    s.groupVerdict p true q none = s.modGroup p fun g =>
      { g with lastGood := g.lastGood.put (goodKey (terrierFamily s.beat.toNat) (terrierVisit s.beat.toNat)) s.beat.toNat } := by
  simp [State.groupVerdict, h]

theorem State.groupVerdict_of_differ (h : (s.unit p).injection = none) (q : Nat) : s.groupVerdict p false q none = s.mismatch p q := by
  simp [State.groupVerdict, h]

theorem State.groupVerdict_of_fired (h : (s.unit p).injection = none) (agree : Bool) (q : Nat) (w : Word64) :
    s.groupVerdict p agree q (some w) =
      (({ s with faults := { s.faults with wires := s.faults.wires ++ [s.faultFired w] } }).quarantineGroup p).terrierFail p := by
  simp [State.groupVerdict, h]

end

/-! ### The commands -/

section
variable {s} (hd : s.defined) (hb : s.beating = true)
include hd hb

theorem terrierVerdict_group_runs {p q : Fin 68} (hp : s.powered p = true) {a b : Word64} {w : Option Word64} {P : State → Prop}
    (h : P (s.groupVerdict p (a == b) q w)) : Runs (.terrierVerdict (.group p) a b q w) s P :=
  runs_of_live (t := if s.powered p then s.groupVerdict p (a == b) q w else s) hd hb rfl (by rwa [if_pos hp])

theorem terrierVerdict_die_runs {k : Fin 4} {f r : Bool} (hk : (s.die k).injection = some ⟨s.beat.toNat, f, r⟩) (a b : Word64)
    (q : Fin 68) {P : State → Prop}
    (h : P (if f && r then s.modDie k fun d => { d with lastGood := s.beat.toNat } else s.deadDie k)) :
    Runs (.terrierVerdict (.memoryDie k) a b q none) s P := by
  refine runs_of_live hd hb rfl ?_
  simpa only [hk, Option.filter_some, beq_self_eq_true, if_true] using h

theorem terrierInjection_runs (p : Fin 68) (f r : Bool) (hp : s.powered p = true) : Runs (.terrierInjection (.group p) f r) s fun t =>
    t.unit p = { s.unit p with injection := some ⟨s.beat.toNat, f, r⟩ } ∧ t = { s with units := t.units } :=
  runs_of_live (t := if s.powered p then s.modUnit p fun x => { x with injection := some ⟨s.beat.toNat, f, r⟩ } else s) hd hb rfl
    (by rw [if_pos hp]; exact ⟨s.unit_modUnit p _, rfl⟩)

theorem terrierInjection_die_runs (k : Fin 4) (f r : Bool) : Runs (.terrierInjection (.memoryDie k) f r) s fun t =>
    t.die k = { s.die k with injection := some ⟨s.beat.toNat, f, r⟩ } ∧ t = { s with memSys := t.memSys } :=
  runs_of_live hd hb rfl ⟨s.die_modDie k _, rfl⟩

end

/-! ### The retest (R270) -/

/-- The group after a retest: counted, and out of quarantine where it passed and is not due for retirement. -/
def State.retested (p : Nat) (passes : Bool) : State :=
  s.modGroup p fun g => { g with retests := satInc g.retests, quarantine := g.retireDue || !passes }

theorem State.group_retested (p : Nat) (passes : Bool) : (s.retested p passes).group p =
    { s.group p with retests := satInc (s.group p).retests, quarantine := (s.group p).retireDue || !passes } :=
  s.group_modGroup p _

theorem State.dueRetirement_of_slot (h : s.fuses.retired.length < 16) (p : Nat) :
    s.dueRetirement p = s.modGroup p fun g => { g with retireDue := true } := if_pos h

/-- With no fuse slot left the group fails, under a record that leaves groups and memory alone. -/
theorem State.dueRetirement_of_full (h : 16 ≤ s.fuses.retired.length) (p : Nat) :
    (s.dueRetirement p).group p = { s.group p with role := .failed, failed := true } ∧ (s.dueRetirement p).mem = s.mem := by
  have hrecord := s.managementRecord_standing 0x93 opManagement 0 p
  rw [State.dueRetirement, if_neg (Nat.not_lt.mpr h), State.group_modGroup, group_of_standing hrecord p]
  exact ⟨rfl, (mem_of_standing hrecord :)⟩

theorem terrierRetest_runs {s : State} {p : Fin 68} {passes : Bool} {P : State → Prop} (hd : s.defined) (hb : s.beating = true)
    (hquarantine : (s.group p).quarantine = true) (hbeat : (s.group p).quarantineBeat < s.beat.toNat)
    (h : P (if passes then s.retested p passes else (s.retested p passes).dueRetirement p)) : Runs (.terrierRetest p passes) s P :=
  runs_of_live_ite (c := (s.beating && (s.group p).quarantine && decide ((s.group p).quarantineBeat < s.beat.toNat)) = true) hd rfl
    (by simp [hb, hquarantine, hbeat]) h

/-- Settles O26: the verdict's cases one by one; a recall changes neither the groups nor memory nor the wires. -/
theorem terrierProvesCheckers : Obligations.TerrierProvesCheckers := by
  intro s p q k a b w f r hd hb beat key injected raises
  refine ⟨terrierInjection_runs hd hb p f r, terrierInjection_die_runs hd hb k f r, fun hp hinj hdead => ?_, fun hp hinj => ?_,
    fun hp hinj hab => ?_, fun hp hinj => ?_, fun hinj => ?_, fun hinj hdead => ?_, fun hq hqb => ⟨?_, fun hslot => ?_, fun hfull => ?_⟩⟩
  · refine terrierVerdict_group_runs hd hb hp ?_
    rw [beq_self_eq_true, State.groupVerdict_of_dead hinj hdead]
    have hsame := s.deadChecker_standing p
    rw [group_of_standing hsame, State.group_terrierFault]
    exact ⟨rfl, rfl, (s.terrierFault_raised p _ (by decide)).of_wires (wires_of_standing hsame),
      (mem_of_standing hsame).trans (s.terrierFault_mem ..)⟩
  · refine terrierVerdict_group_runs hd hb hp ?_
    rw [beq_self_eq_true, State.groupVerdict_of_good hinj, State.group_modGroup]
    exact ⟨Table.at_put_same _ _ _ _, rfl, rfl⟩
  · refine terrierVerdict_group_runs hd hb hp ?_
    rw [beq_eq_false_iff_ne.mpr hab, State.groupVerdict_of_differ hinj]
    have hsame := s.mismatch_standing p q
    obtain ⟨hown, hpeer⟩ := s.bothFail_quarantine p q
    refine ⟨by rw [group_of_standing hsame, hown], by rw [group_of_standing hsame, hpeer], 
      (s.bothFail_raised p q).of_wires (wires_of_standing hsame), (mem_of_standing hsame).trans (s.bothFail_mem p q)⟩
  · refine terrierVerdict_group_runs hd hb hp ?_
    rw [State.groupVerdict_of_fired hinj, State.group_quarantineGroup_terrierFail]
    exact ⟨rfl, rfl, rfl, s.faultFired w, rfl, rfl, rfl⟩
  · refine terrierVerdict_die_runs hd hb hinj a b q ?_
    rw [Bool.and_self, if_pos rfl]
    exact ⟨s.die_modDie k _, rfl⟩
  · refine terrierVerdict_die_runs hd hb hinj a b q ?_
    have hsame := s.deadDie_standing k
    rw [hdead, if_neg Bool.false_ne_true]
    exact ⟨(State.raised_of_faultWord (by decide) rfl rfl).of_wires (wires_of_standing hsame), (mem_of_standing hsame).trans rfl⟩
  · refine terrierRetest_runs hd hb hq hqb ?_
    rw [if_pos rfl, State.group_retested]
    exact ⟨Bool.or_false _, rfl, rfl⟩
  · refine terrierRetest_runs hd hb hq hqb ?_
    rw [if_neg Bool.false_ne_true, (s.retested p false).dueRetirement_of_slot hslot, State.group_modGroup, State.group_retested]
    exact ⟨Bool.or_true _, rfl, rfl, rfl⟩
  · refine terrierRetest_runs hd hb hq hqb ?_
    obtain ⟨hgroup, hmem⟩ := (s.retested p false).dueRetirement_of_full hfull p
    rw [if_neg Bool.false_ne_true, hgroup, State.group_retested]
    exact ⟨Bool.or_true _, rfl, rfl, hmem⟩

end Sys2Proof.Machine
end

section
/-!
PROOFS. Retriever (R271 to R273): the slice a beat of the walk absorbs, the digest at its end, and the verdict on the PENDING groups.
-/
namespace Sys2Proof.Machine

/-! ### What one element of a fold brings about -/

/-- An element that stands once in a list decides what it meets: the others leave alone what it starts from and what it leaves. -/
theorem foldl_decides {σ α : Type} {f : σ → α → σ} {R Q : σ → Prop} {l : List α} {x : α} (hl : l.Nodup) (hx : x ∈ l)
    (hbefore : ∀ u, ∀ y ≠ x, R u → R (f u y)) (hat : ∀ u, R u → Q (f u x)) (hafter : ∀ u, ∀ y ≠ x, Q u → Q (f u y)) {s : σ} (hs : R s) :
    Q (l.foldl f s) := by
  obtain ⟨a, b, rfl⟩ := List.append_of_mem hx
  obtain ⟨honce, -⟩ := List.nodup_cons.mp (List.nodup_middle.mp hl)
  have hne (y : α) (hy : y ∈ a ∨ y ∈ b) : y ≠ x := fun h => honce (List.mem_append.mpr (h ▸ hy))
  rw [List.foldl_append, List.foldl_cons]
  have hfirst : R (a.foldl f s) := List.foldlRecOn a f hs fun u hu y hy => hbefore u y (hne y (.inl hy)) hu
  exact List.foldlRecOn b f (hat _ hfirst) fun u hu y hy => hafter u y (hne y (.inr hy)) hu

/-- An element of a list brings about what the others leave as it is, in every state of which `R` holds all along. -/
theorem foldl_establishes {σ α : Type} {f : σ → α → σ} {R Q : σ → Prop} {l : List α} {x : α} (hx : x ∈ l) (hR : ∀ u y, R u → R (f u y))
    (hat : ∀ u, R u → Q (f u x)) (hkeep : ∀ u, ∀ y ∈ l, y ≠ x → Q u → Q (f u y)) {s : σ} (hs : R s) : Q (l.foldl f s) := by
  obtain ⟨a, b, rfl⟩ := List.append_of_mem hx
  rw [List.foldl_append, List.foldl_cons]
  have hfirst : R (a.foldl f s) := List.foldlRecOn a f hs fun u hu y _ => hR u y hu
  refine (List.foldlRecOn b f (motive := fun u => R u ∧ Q u) ⟨hR _ x hfirst, hat _ hfirst⟩ fun u hu y hy => ⟨hR u y hu.1, ?_⟩).2
  by_cases hxy : y = x
  · exact hxy ▸ hat u hu.1
  · exact hkeep u y (List.mem_append.mpr (.inr (List.mem_cons_of_mem x hy))) hxy hu.2

/-! ### RETRIEVER_ABSORB and RETRIEVER_FINALIZE -/

/-- What cluster `c` of a group has absorbed of the walk with the slice of this beat; the last slice ends with its pointer block. -/
def State.walkPart (s : State) (p c : Nat) : List Byte :=
  let u := s.beat.toNat % 128
  let bytes := (s.group p).resRows.toNat * 256
  (if u == 0 then [] else (s.group p).absorbed.at c []) ++
    s.mem.readN (spBase + (32 * p + c) * scratchpadBytes + 8192 * u) (min 8192 (bytes - 8192 * u)) ++
    if u + 1 = walkBeats bytes then s.pointerBlock (32 * p + c) else []

/-- The slice of this beat absorbed for every cluster of a group; the first one begins a walk that counts. -/
def State.absorbSlice (s : State) (p : Nat) : State :=
  s.modGroup p fun g => { g with
    walkU := BitVec.ofNat 7 (s.beat.toNat % 128), walkEpoch := s.beat.toNat / 128, walkDone := false
    walkCounts := if s.beat.toNat % 128 == 0 then true else (s.group p).walkCounts && (s.group p).walkEpoch == s.beat.toNat / 128
    absorbed := (List.range 32).map fun c => (c, s.walkPart p c) }

variable {s : State} {p : Fin 68}

theorem retrieverAbsorb_runs (hd : s.defined) (hb : s.beating = true) (hp : s.powered p = true) (hres : (s.group p).residency ≠ .none)
    (hu : s.beat.toNat % 128 < walkBeats ((s.group p).resRows.toNat * 256)) : Runs (.retrieverAbsorb p) s fun t =>
      (t.group p).walkU.toNat = s.beat.toNat % 128 ∧ (t.group p).absorbed.length = 32 ∧ (t.group p).walkDone = false ∧
      (s.beat.toNat % 128 = 0 → (t.group p).walkCounts = true) ∧ t = { s with groups := t.groups } := by
  have hruns : ¬(!s.beating || !s.powered p || (s.group p).residency == .none ||
      decide (walkBeats ((s.group p).resRows.toNat * 256) ≤ s.beat.toNat % 128)) = true := by
    simpa [hb, hp, hres] using hu
  refine runs_of_exec_live (t := s.absorbSlice p) hd (congrArg (live s) (if_neg hruns)) ?_
  rw [State.absorbSlice, State.group_modGroup]
  refine ⟨?_, by simp, rfl, fun h0 => by simp [h0], rfl⟩
  exact (BitVec.toNat_ofNat _ _).trans (Nat.mod_eq_of_lt (Nat.mod_lt _ (by decide)))

theorem retrieverFinalize_runs (hd : s.defined) (hb : s.beating = true) (hres : (s.group p).residency ≠ .none)
    (hepoch : (s.group p).walkEpoch = s.beat.toNat / 128)
    (hlast : s.beat.toNat % 128 + 1 = walkBeats ((s.group p).resRows.toNat * 256)) (habs : (s.group p).absorbed ≠ []) :
    Runs (.retrieverFinalize p) s fun t => (t.group p).walkDone = true ∧
      (t.group p).digest = digest32 ((List.range 32).flatMap fun c => digest32 ((s.group p).absorbed.at c [])) ∧
      t = { s with groups := t.groups } := by
  refine runs_of_live_ite (c := (s.beating && (s.group p).residency != .none && (s.group p).walkEpoch == s.beat.toNat / 128 &&
    s.beat.toNat % 128 + 1 == walkBeats ((s.group p).resRows.toNat * 256) && (s.group p).absorbed != []) = true) hd rfl
    (by simp [hb, hres, hepoch, hlast, habs]) ?_
  rw [State.group_modGroup]
  exact ⟨rfl, rfl, rfl⟩

/-! ### RETRIEVER_VERDICT (R273) -/

theorem State.group_reach (s : State) (c p : Nat) : (s.reach c).group p = s.group p := by rw [State.reach_eq]; rfl

theorem State.group_pendingVerdict_other (s : State) {p q : Nat} (h : p ≠ q) : (s.pendingVerdict q).group p = s.group p :=
  keeps_ite (fun u : State => u.group p) (s.group_modGroup_other q p _ h) (keeps_ite (fun u : State => u.group p)
    (s.group_modGroup_other q p _ h)
    ((State.group_modGroup_other _ q p _ h).trans (group_of_standing (s.managementRecord_standing ..) p)))

/-- What the verdict makes of a PENDING group whose walk counts. -/
structure Group.Judged (g h : Group) : Prop where
  walkDone : h.walkDone = false
  confirmed : g.digest = g.model → h.residency = .confirmed
  cleared : g.digest ≠ g.model → h.residency = .none

theorem State.pendingVerdict_judged (s : State) {p : Nat} (hcounts : (s.group p).walkCounts = true) :
    (s.group p).Judged ((s.pendingVerdict p).group p) := by
  unfold State.pendingVerdict
  simp only [hcounts, Bool.not_true, Bool.false_eq_true, if_false]
  split
  next h =>
    rw [State.group_modGroup]
    exact ⟨rfl, fun _ => rfl, fun hne => absurd (eq_of_beq h) hne⟩
  next h =>
    rw [State.group_modGroup]
    exact ⟨rfl, fun he => absurd (beq_iff_eq.mpr he) h, fun _ => rfl⟩

/-- The groups whose walk has ended. -/
def State.walked (s : State) : List Nat := (List.range 68).filter fun p => (s.group p).walkDone

theorem State.mem_walked {q : Nat} : q ∈ s.walked ↔ q < 68 ∧ (s.group q).walkDone = true := by simp [State.walked]

/-- Where every walk that ended is a PENDING group's, the verdict decides these groups alone. -/
theorem exec_retrieverVerdict_of_pending (hpending : ∀ q < 68, (s.group q).walkDone = true → (s.group q).residency = .pending) :
    exec .retrieverVerdict s =
      live s (if !s.beating then s else (s.reach 63552).forAll (s.reach 63552).walked State.pendingVerdict) := by
  have hwalked (q : Nat) (hq : q ∈ (s.reach 63552).walked) : ((s.reach 63552).group q).residency = .pending := by
    obtain ⟨hlt, hdone⟩ := State.mem_walked.mp hq
    rw [State.group_reach] at hdone ⊢
    exact hpending q hlt hdone
  have hnone : ((s.reach 63552).walked.filter fun q =>
      ((s.reach 63552).group q).residency == .confirmed && ((s.reach 63552).group q).walkCounts) = [] :=
    List.filter_eq_nil_iff.mpr fun q hq => by simp [hwalked q hq]
  have hall : ((s.reach 63552).walked.filter fun q => ((s.reach 63552).group q).residency == .pending) = (s.reach 63552).walked :=
    List.filter_eq_self.mpr fun q hq => by rw [hwalked q hq]; rfl
  show execRetrieverVerdict s = _
  unfold State.walked at hnone hall ⊢
  unfold execRetrieverVerdict
  simp only [hnone, hall, List.foldl_nil, List.map_nil]

theorem retrieverVerdict_judges (hd : s.defined) (hb : s.beating = true)
    (hpending : ∀ q < 68, (s.group q).walkDone = true → (s.group q).residency = .pending) (hdone : (s.group p).walkDone = true)
    (hcounts : (s.group p).walkCounts = true) : Runs .retrieverVerdict s fun t => (s.group p).Judged (t.group p) := by
  refine runs_of_live hd hb (exec_retrieverVerdict_of_pending hpending) ?_
  refine foldl_decides (R := fun u : State => u.group p = s.group p) (Q := fun u : State => (s.group p).Judged (u.group p))
    (x := p.val) (List.nodup_range.filter _) (State.mem_walked.mpr ⟨p.isLt, by rw [State.group_reach, hdone]⟩) ?_ ?_ ?_ (s.group_reach ..)
  · exact fun u q hq hu => (u.group_pendingVerdict_other hq.symm).trans hu
  · exact fun u hu => hu ▸ u.pendingVerdict_judged (hu ▸ hcounts)
  · exact fun u q hq hu => by rwa [u.group_pendingVerdict_other hq.symm]

/-- Settles O27: the walk's two commands on the group they concern, and the verdict, where each group's own turn decides it. -/
theorem retrieverWalksResidency : Obligations.RetrieverWalksResidency := by
  intro s p hd hb g u beats
  refine ⟨retrieverAbsorb_runs hd hb, retrieverFinalize_runs hd hb, fun hpending hdone hcounts => ?_⟩
  obtain ⟨t, ht, hwalk, hconfirmed, hcleared⟩ := retrieverVerdict_judges hd hb hpending hdone hcounts
  exact ⟨t, ht, hwalk, hconfirmed, hcleared⟩

end Sys2Proof.Machine
end

section
/-!
PROOFS. Aborts, checkpoint copies and tokens (R236, R280, R282, R351): what the fills leave of a fenced job's clusters and group
buffers, where the banks of a checkpoint are copied, and what a missing token does.
-/
namespace Sys2Proof.Machine

/-! ### Memory that reads as filled -/

theorem cellAt_filter (d : Nat → Byte) (q : Nat → Bool) (l : List Host.Cell) (x : Nat) :
    cellAt d (l.filter fun c => !q c.1) x = if q x then d x else cellAt d l x := by
  induction l with
  | nil => simp [cellAt]
  | cons c l ih =>
    obtain ⟨i, b⟩ := c
    by_cases hx : i = x
    · subst hx
      by_cases hq : q i <;> simp [cellAt, hq, ih]
    · by_cases hq : q i <;> simp [cellAt, hq, hx, ih]

theorem Memory.read_poisonFill (m : Memory) (a n x : Nat) :
    (m.poisonFill a n).read x = if inRange a n x then unlistedByte x else m.read x := cellAt_filter _ (inRange a n) m.cells x

/-- A byte of a group buffer that nothing is listed for reads as filled (R427). -/
theorem unlistedByte_of_groupBuffer {p a : Nat} (hp : p < 68) (h : inRange (gbBase + p * groupBufferBytes) groupBufferBytes a = true) :
    unlistedByte a = 0xFF := by
  simp only [inRange, Bool.and_eq_true, decide_eq_true_eq] at h
  unfold gbBase groupBufferBytes at h
  exact if_pos (by unfold gbBase spBase spSize; omega)

/-! ### ABORT_FILL (R236) -/

section
variable (s : State)

/-- Where a running job's stream stands after the fills: at its end, with no transfer or object left. -/
def Cluster.aborted (c : Cluster) : Cluster :=
  { c with
    transfers := [], objects := [], handover := [], handoverHdr := none, handoverAt := [], handoverLate := false, state := .ended
    due := [], lastWork := [], busy := [] }

/-- The rings of a job's clusters and its open stores, aborted. -/
def State.abortRows (id : Nat) (j : Job) : State :=
  ((s.run id).stores.filter fun x => !x.done).foldl State.abortStore <|
    s.forAll (j.groups.flatMap groupClusters) fun u k => u.forAll (List.range 16) fun u i =>
      if (u.ring k i).size = 0 || ((s.programOf j).use && (u.ring k i).resident) then u
      else (if (s.programOf j).load && (u.ring k i).resident then u.modRing k i fun g => { g with ready := 0, head := 0 } else u).abortRing
        k i (s.run id).fencedAt

/-- A group buffer filled, and its units dropped. -/
def State.fillGroup (p : Nat) : State :=
  ({ s with mem := s.mem.poisonFill (gbBase + p * groupBufferBytes) groupBufferBytes }).modUnit p GroupUnits.dropped

/-- The job's group buffers filled and its clusters stopped. -/
def State.abortGroups (j : Job) : State :=
  (s.forAll j.groups State.fillGroup).forAll (j.groups.flatMap groupClusters) fun u k => u.modCluster k Cluster.aborted

theorem State.abortJob_eq (id : Nat) (j : Job) : s.abortJob id j =
    State.modRun { (s.abortRows id j).abortGroups j with
      work := { ((s.abortRows id j).abortGroups j).work with
        kcDir := ((s.abortRows id j).abortGroups j).work.kcDir.map (KcEntry.dropFill id) } } id
      fun r => { r with stores := r.stores.filter (·.done), fills := r.fills + 1 } := rfl

theorem State.abortRows_work (id : Nat) (j : Job) : (s.abortRows id j).work = s.work := by
  have hstores (u : State) (l : List StoreRange) : (l.foldl State.abortStore u).work = u.work := 
    foldl_keeps State.work (f := State.abortStore) (fun _ _ => rfl) l u
  refine (hstores _ _).trans (State.forAll_keeps State.work (fun u k => State.forAll_keeps State.work (fun u i => ?_) _ _) _ _)
  exact keeps_ite State.work rfl (keeps_ite (fun v : State => (v.abortRing k i (s.run id).fencedAt).work) rfl rfl)

theorem State.abortGroups_work (j : Job) : (s.abortGroups j).work = s.work :=
  (State.forAll_keeps State.work (fun u k => u.modCluster_work k _) _ _).trans
    (State.forAll_keeps State.work (f := State.fillGroup) (fun _ _ => rfl) _ _)

theorem State.abortGroups_mem (j : Job) : (s.abortGroups j).mem = (s.forAll j.groups State.fillGroup).mem :=
  State.forAll_keeps State.mem (fun u k => u.modCluster_mem k _) _ _

theorem State.run_abortJob (id : Nat) (j : Job) : ((s.abortJob id j).run id).fills = (s.run id).fills + 1 := by
  have hwork : ((s.abortRows id j).abortGroups j).work = s.work := (State.abortGroups_work _ j).trans (s.abortRows_work id j)
  rw [State.abortJob_eq, State.run_modRun]
  show (((s.abortRows id j).abortGroups j).work.runs.at id {}).fills + 1 = _
  rw [hwork]
  rfl

theorem State.read_abortJob {id : Nat} {j : Job} {p a : Nat} (hj : p ∈ j.groups) (hp : p < 68)
    (ha : inRange (gbBase + p * groupBufferBytes) groupBufferBytes a = true) : (s.abortJob id j).mem.read a = 0xFF := by
  show ((s.abortRows id j).abortGroups j).mem.read a = 0xFF
  rw [State.abortGroups_mem, ← unlistedByte_of_groupBuffer hp ha]
  have hread (u : State) (q : Nat) : (u.fillGroup q).mem.read a =
      if inRange (gbBase + q * groupBufferBytes) groupBufferBytes a then unlistedByte a else u.mem.read a := Memory.read_poisonFill ..
  refine foldl_establishes (R := fun _ => True) (Q := fun u : State => u.mem.read a = unlistedByte a) hj (fun _ _ h => h) (fun u _ => ?_)
    (fun u q _ _ hu => ?_) trivial
  · rw [hread, if_pos ha]
  · rw [hread, hu, ite_self]

/-- The cluster stands at its end with no transfer or object left. -/
def Cluster.Stopped (c : Cluster) : Prop := c.state = .ended ∧ c.transfers = [] ∧ c.objects = []

theorem State.cluster_abortJob {id : Nat} {j : Job} {p k : Nat} (hj : p ∈ j.groups) (hk : k / 32 = p) :
    ((s.abortJob id j).cluster k).Stopped := by
  have hmem : k ∈ j.groups.flatMap groupClusters := List.mem_flatMap.mpr ⟨p, hj, mem_groupClusters.mpr hk⟩
  refine foldl_establishes (R := fun _ => True) (Q := fun u : State => (u.cluster k).Stopped) hmem (fun _ _ h => h) (fun u _ => ?_)
    (fun u i _ hi hu => ?_) trivial
  · rw [State.cluster_modCluster]
    exact ⟨rfl, rfl, rfl⟩
  · rwa [State.cluster_modCluster_other _ _ _ _ hi.symm]

end

section
variable {s : State} {job : BitVec 16}

theorem exec_abortFill_of_filled (hd : s.defined) (h : (s.run job.toNat).fills ≠ 0) : exec (.abortFill job) s = .next s := by
  show live s _ = _
  split
  · exact live_defined s s hd
  · rw [if_neg (by simp [h]), live_defined s s hd]

theorem abortFill_runs {j : Job} {P : State → Prop} (hd : s.defined) (hj : s.job? job.toNat = some j)
    (hph : j.phase = .fencedRestart ∨ j.phase = .fencedTerminate) (hfills : (s.run job.toNat).fills = 0) (hg : j.groups ≠ [])
    (h : P ((if s.beating then s.reach 60928 else s).abortJob job.toNat j)) : Runs (.abortFill job) s P := by
  have hphase : (j.phase == .fencedRestart || j.phase == .fencedTerminate) = true := by
    rcases hph with h | h <;> rw [h] <;> rfl
  refine runs_of_live_ite (c := ((j.phase == .fencedRestart || j.phase == .fencedTerminate) && (s.run job.toNat).fills == 0 &&
    j.groups != []) = true) (t := (if s.beating then s.reach 60928 else s).abortJob job.toNat j) hd ?_ (by simp [hphase, hfills, hg]) h
  show execAbortFill job s = _
  unfold execAbortFill
  rw [hj]

/-! ### CHECKPOINT_COPY (R280) -/

@[simp] theorem length_leBytes (n v : Nat) : (leBytes n v).length = n := by
  induction n generalizing v with
  | zero => rfl
  | succ n ih => simp [leBytes, ih]

theorem SavedCore.length_bytes (v : SavedCore) (w : List (BitVec 16)) : (v.bytes w).length = 289 + 2 * w.length := by
  simp [SavedCore.bytes, List.length_flatMap]
  omega

theorem Checkpoint.length_windowsOf (c : Checkpoint) (key : Nat) : (c.windowsOf key).length ≤ 16 := by
  unfold Checkpoint.windowsOf
  split
  · cases c.windows.find (64 * (key / 4096) + key % 4096 / 32) <;> simp
  · simp

/-- A bank's copy takes 512 bytes (log entry 21). -/
theorem Checkpoint.length_bank (c : Checkpoint) (key : Nat) (v : SavedCore) : (c.bank key v).length = 512 := by
  have hw := c.length_windowsOf key
  simp [Checkpoint.bank, SavedCore.length_bytes]
  omega

theorem Checkpoint.bank_take_four (c : Checkpoint) (key : Nat) (v : SavedCore) : (c.bank key v).take 4 = leBytes 4 c.beat := by
  simp only [Checkpoint.bank, List.append_assoc]
  exact List.take_left' (length_leBytes 4 c.beat)

theorem State.checkpointArea_eq (s : State) (id : Nat) (half : Bool) (n : Nat) :
    s.checkpointArea id half n = s.checkpointArea id half 0 + 512 * n := by
  simp [State.checkpointArea]

/-- The copy of one bank in its turn. -/
def State.copyBank (s : State) (id : Nat) (c : Checkpoint) (m : Memory) (e : (Nat × SavedCore) × Nat) : Memory :=
  if (s.run id).copied < 2 ∧ e.2 % 2 = (s.run id).copied then m.store (s.checkpointArea id c.half e.2) (c.bank e.1.1 e.1.2) else m

theorem Memory.read_store_bank (m : Memory) (c : Checkpoint) (key : Nat) (v : SavedCore) {a x : Nat} (h : x < a ∨ a + 512 ≤ x) :
    (m.store a (c.bank key v)).read x = m.read x :=
  m.read_store_outside a x _ (by rwa [c.length_bank])

theorem Memory.readN_store_bank {m : Memory} (hm : m.wf = true) (c : Checkpoint) (key : Nat) (v : SavedCore) (a : Nat) :
    (m.store a (c.bank key v)).readN a 4 = leBytes 4 c.beat := by
  have htake (m : Memory) : m.readN a 4 = (m.readN a 512).take 4 := by simp [Memory.readN, ← List.map_take, List.take_range]
  have hall := Memory.readN_store hm a (c.bank key v)
  rw [c.length_bank] at hall
  rw [htake, hall, c.bank_take_four]

theorem State.read_copyBank_other (s : State) (id : Nat) (c : Checkpoint) (m : Memory) (e : (Nat × SavedCore) × Nat) {x : Nat}
    (h : x < s.checkpointArea id c.half e.2 ∨ s.checkpointArea id c.half e.2 + 512 ≤ x) : (s.copyBank id c m e).read x = m.read x :=
  keeps_ite (fun m : Memory => m.read x) (m.read_store_bank c _ _ h) rfl

theorem State.copyBank_wf (s : State) (id : Nat) (c : Checkpoint) {m : Memory} (h : m.wf = true) (e : (Nat × SavedCore) × Nat) :
    (s.copyBank id c m e).wf = true :=
  keeps_ite Memory.wf (m.store_wf _ _ h) h

/-- The bank whose turn it is stands in its place, beginning with the job beat, after all banks of the turn are copied. -/
theorem State.readN_copied {id i : Nat} {c : Checkpoint} {m : Memory} (hm : m.wf = true) (hi : i < c.cores.length)
    (hcopied : (s.run id).copied < 2) (hturn : i % 2 = (s.run id).copied) :
    (c.cores.zipIdx.foldl (s.copyBank id c) m).readN (s.checkpointArea id c.half i) 4 = leBytes 4 c.beat := by
  have hmem : (c.cores[i], i) ∈ c.cores.zipIdx := List.mem_zipIdx_iff_getElem?.mpr (List.getElem?_eq_getElem hi)
  refine foldl_establishes (R := fun m : Memory => m.wf = true)
    (Q := fun m : Memory => m.readN (s.checkpointArea id c.half i) 4 = leBytes 4 c.beat) hmem (fun m e h => s.copyBank_wf id c h e)
    (fun m h => ?_) (fun m e he hne h => ?_) hm
  · rw [State.copyBank, if_pos ⟨hcopied, hturn⟩]
    exact Memory.readN_store_bank h c _ _ _
  · have hother : e.2 ≠ i := fun h => hne (Prod.ext (Option.some.inj
      ((List.mem_zipIdx_iff_getElem?.mp he).symm.trans (h ▸ List.getElem?_eq_getElem hi))) h)
    rw [← h]
    refine List.map_congr_left fun n hn => s.read_copyBank_other id c m e ?_
    have hn := List.mem_range.mp hn
    rw [s.checkpointArea_eq id c.half i, s.checkpointArea_eq id c.half e.2]
    omega

theorem checkpointCopy_runs {c : Checkpoint} {P : State → Prop} (hd : s.defined) (hc : (s.run job.toNat).committed = some c)
    (h : P (({ s with mem := c.cores.zipIdx.foldl (s.copyBank job.toNat c) s.mem }).modRun job.toNat
      fun r => { r with copied := min 2 (r.copied + 1) })) : Runs (.checkpointCopy job) s P := by
  refine runs_of_exec_live hd ?_ h
  show execCheckpointCopy job s = _
  simp only [execCheckpointCopy, hc]
  rfl

/-! ### WINDFALL_TIMEOUT (R351) -/

theorem State.tokenMissing_of_owing {id : Nat} {j : Job} {l : LinkPlan} (hl : (s.programOf j).link = some l) (hj : 1 ≤ j.jobBeat)
    (hmark : ∀ m, j.releaseMark = some m → m < j.jobBeat) (howes : (s.run id).owing l.members (j.jobBeat - 1) ≠ []) :
    s.tokenMissing id j = true := by
  have hreplayed : (j.releaseMark.any fun m => decide (j.jobBeat ≤ m)) = false := by
    cases h : j.releaseMark with
    | none => rfl
    | some m => simpa using hmark m h
  simp [State.tokenMissing, hl, hj, howes, hreplayed]

theorem windfallTimeout_runs {j : Job} (hd : s.defined) (hj : s.job? job.toNat = some j) (hrun : j.phase = .running)
    (hmissing : s.tokenMissing job.toNat j = true) : Runs (.windfallTimeout job) s fun t =>
      (∃ w, t.faults.wires = s.faults.wires ++ [w] ∧ w.word.toNat / 2 ^ 20 % 256 = 0x52 ∧ w.job = job) ∧
      (∃ j', t.job? job.toNat = some j' ∧ j'.withheld = true) ∧ t.mem = s.mem := by
  have hexec : exec (.windfallTimeout job) s = live s (if (j.phase == .running && s.tokenMissing job.toNat j) = true then
      (s.raise (ioUnit 1 0 0) 0x52 0xC03 0 0 s.now job false).modJob job.toNat fun j => j.withhold false 0 else s) := by
    show execWindfallTimeout job s = _
    unfold execWindfallTimeout
    rw [hj]
  refine runs_of_live_ite hd hexec (by simp [hrun, hmissing]) ⟨?_, ⟨_, State.job_modJob _ _ _ j hj, rfl⟩, State.modJob_mem ..⟩
  rw [State.modJob_faults]
  exact ⟨_, rfl, faultWord_kind .., rfl⟩

end

/-- Settles O25: the fills bring about what is read behind them, the banks of a turn lie apart, and a token that is owed withholds. -/
theorem abortCheckpointAndTokens : Obligations.AbortCheckpointAndTokens := by
  intro s job j hd
  refine ⟨fun hj hph hfills hg => ?_, exec_abortFill_of_filled hd, fun c hc => ?_, fun l hj hl hrun hbeat hmark howes =>
    windfallTimeout_runs hd hj hrun (State.tokenMissing_of_owing hl hbeat hmark howes)⟩
  · refine abortFill_runs hd hj hph hfills hg ⟨?_, fun p hp => ⟨fun c hc => State.cluster_abortJob _ hp (by omega), fun hlt a ha =>
      State.read_abortJob _ hp hlt ha⟩⟩
    have hrun : (if s.beating then s.reach 60928 else s).run job.toNat = s.run job.toNat :=
      keeps_ite (fun u : State => u.run job.toNat) (by rw [State.reach_eq]; rfl) rfl
    rw [State.run_abortJob, hrun, hfills]
  · refine checkpointCopy_runs hd hc ?_
    rw [State.run_modRun]
    refine ⟨rfl, hc, fun hinv i hi hcopied hturn => State.readN_copied hinv.memory hi hcopied hturn, fun a ha => ?_, rfl, rfl⟩
    refine foldl_keeps (fun m : Memory => m.read a) (fun m e => s.read_copyBank_other job.toNat c m e (.inl ?_)) _ _
    rw [State.checkpointArea_eq]
    omega

end Sys2Proof.Machine
end

section
/-!
PROOFS. What every step answers, and what it and a reset leave (R424, R425, R454): a command's meaning is a next state, which
SCAN_DUMP stops unless the command can reset the device.
-/
namespace Sys2Proof.Machine

theorem step_of_pending_cons {s : State} {c : Instr} {rest : List Instr} (h : s.pending = c :: rest) :
    step s = exec c { s with pending := rest } := by
  unfold step
  rw [h]

/-- Settles O1: what a step does with a queue that is not empty. -/
theorem stepRunsFrontCommand : Obligations.StepRunsFrontCommand :=
  fun _ _ _ h => step_of_pending_cons h

/-- An answer of a command: a next state that SCAN_DUMP stops (R454), or one that nothing stops, of a command that can reset. -/
def AnswersTo (c : Instr) (s : State) (o : Out) : Prop :=
  ∃ t, o = live s t ∨ mayReset c = true ∧ o = .next t

theorem answersTo_live (c : Instr) (s t : State) : AnswersTo c s (live s t) := ⟨t, .inl rfl⟩

theorem answersTo_ite {c : Instr} {s : State} {p : Prop} [Decidable p] {a b : Out} (ha : AnswersTo c s a) (hb : AnswersTo c s b) :
    AnswersTo c s (if p then a else b) := by
  split <;> assumption

/-- A row's register answers as its own command does. -/
theorem rowWrite_answers {fn : Fin 17} {o : Nat} {v : Word64} {w : AccessWidth} {s : State} {out : Out} {c : Instr}
    (hc : mayReset c = true) (h : rowWrite fn o v w s = some out) : AnswersTo c s out := by
  unfold rowWrite at h
  extract_lets at h
  split at h
  · exact Option.some.inj h ▸ answersTo_live ..
  split at h
  · exact Option.some.inj h ▸ answersTo_live ..
  split at h
  · exact Option.some.inj h ▸ answersTo_live ..
  split at h
  · cases h
  split at h <;> cases h
  case h_4 => exact answersTo_ite (answersTo_live ..) (answersTo_live ..)
  case h_6 => exact answersTo_ite ⟨_, .inr ⟨hc, rfl⟩⟩ (answersTo_live ..)
  case h_8 => exact answersTo_ite (answersTo_live ..) (answersTo_live ..)
  all_goals exact answersTo_live ..

theorem execRegisterWrite_answers (fn : Fin 17) (offset : BitVec 26) (v : Word64) (w : AccessWidth) (s : State) :
    AnswersTo (.registerWrite fn offset v w) s (execRegisterWrite fn offset v w s) := by
  unfold execRegisterWrite
  extract_lets
  split
  · next h => exact rowWrite_answers rfl h
  · exact answersTo_live ..

/-- Every command answers a next state, or SCAN_DUMP stops it (R454). -/
theorem exec_answers (c : Instr) (s : State) : AnswersTo c s (exec c s) := by
  cases c
  case registerWrite => exact execRegisterWrite_answers ..
  case sealDisable => exact answersTo_ite (answersTo_live ..) (answersTo_live ..)
  case powerOnReset | brownOutReset | clockFailure | lockUp | watchdog | resetN | heldResetRelease | swReset | debugReset =>
    exact ⟨_, .inr ⟨rfl, rfl⟩⟩
  all_goals exact answersTo_live ..

theorem live_of_scanDumped {s : State} (h : s.rst.scanDumped = true) (t : State) : live s t = .fault .undefinedAfterScanDump :=
  if_pos h

/-- What a step keeps of the fuses and of the queue's rest, and that it takes one command from the queue. -/
theorem step_kept {s t : State} (h : step s = .next t) : s.fuses.Kept t.fuses ∧ t.pending = s.pending.tail := by
  cases hq : s.pending with
  | nil =>
    rw [step_of_pending_nil hq] at h
    cases h
    have hk := (Kept.refl s).tick
    exact ⟨hk.fuses, hk.pending.trans hq⟩
  | cons c rest =>
    rw [step_of_pending_cons hq] at h
    have hk := exec_kept c (.refl { s with pending := rest }) t h
    exact ⟨hk.fuses, hk.pending⟩

/-- Settles O5: blown fuses are among what every command carries. -/
theorem everyStepKeepsBlownFuses : Obligations.EveryStepKeepsBlownFuses :=
  fun _ _ h => (step_kept h).1

/-- Settles O6: every command's answer is a next state or the stop of R454, and the queue is among what it carries. -/
theorem everyCommandAnswers : Obligations.EveryCommandAnswers := by
  intro c s
  have hpending (t : State) (h : exec c s = .next t) : t.pending = s.pending := (exec_kept c (.refl s) t h).pending
  obtain ⟨t, ht⟩ := exec_answers c s
  refine ⟨fun hd => ?_, hpending, fun t h => (step_kept h).2, fun hdumped hreset => ?_⟩
  · have hnext : exec c s = .next t := ht.elim (·.trans (live_defined s t hd)) (·.2)
    exact ⟨t, hnext, hpending t hnext⟩
  · exact ht.elim (·.trans (live_of_scanDumped hdumped t)) fun h => absurd h.1 (by simp [hreset])

/-! ### The state after a reset (R306, R332 to R334, R425, R453) -/

theorem State.reset_inv : State.reset.Inv := ⟨rfl, rfl, rfl, .nil⟩

/-- No group holds anything after a reset, whatever its fuses make of it. -/
theorem State.reset_group (p : Nat) : (State.reset.group p).residency = .none ∧ (State.reset.group p).job = 0 := ⟨rfl, rfl⟩

/-- Every function is as its reset value has it; the PF alone has a quota (R316). -/
theorem State.reset_func (fn : Nat) : State.reset.func fn = { quota := if fn = 0 then 4096 else 0 } := by
  show Func.reset fn = _
  unfold Func.reset
  split <;> rfl

/-- Settles O3: the values stand in the state that a reset leaves. -/
theorem resetLeavesNothingBehind : Obligations.ResetLeavesNothingBehind := by
  unfold Obligations.ResetLeavesNothingBehind
  intro s
  have hcool : s.CoolHeld := fun h => absurd h (by decide)
  refine ⟨State.reset_inv, hcool, rfl, rfl, rfl, rfl, rfl, rfl, rfl, rfl, rfl, rfl, rfl, rfl, rfl, rfl, rfl, rfl, rfl, rfl, rfl,
    fun p => State.reset_group p, fun fn => ?_⟩
  rw [State.reset_func]
  refine ⟨?_, rfl, rfl, rfl, rfl, rfl, rfl, rfl, rfl, rfl, rfl, rfl, rfl⟩
  by_cases h : fn = 0
  · rw [h]
    rfl
  · rw [if_neg h]
    exact if_neg (Fin.val_ne_zero_iff.mpr h)

end Sys2Proof.Machine
end

section
/-!
PROOFS. One bit of a bit vector set or cleared, and the clock's decisions beside the pins: what the fields of pins, events, modes and
domains read after a write of one bit.
-/
namespace Sys2Proof.Machine

theorem getLsbD_ofNat_two_pow {w : Nat} (i j : Nat) : (BitVec.ofNat w (2 ^ i)).getLsbD j = (decide (j < w) && decide (i = j)) := by
  rw [BitVec.getLsbD_ofNat, Nat.testBit_two_pow]

theorem getLsbD_setBit {w : Nat} (x : BitVec w) (i j : Nat) :
    (setBit x i).getLsbD j = (x.getLsbD j || (decide (j < w) && decide (i = j))) := by
  rw [setBit, BitVec.getLsbD_or, getLsbD_ofNat_two_pow]

theorem getLsbD_clearBit {w : Nat} (x : BitVec w) (i j : Nat) :
    (clearBit x i).getLsbD j = (x.getLsbD j && !decide (i = j)) := by
  rw [clearBit, BitVec.getLsbD_and, BitVec.getLsbD_not, getLsbD_ofNat_two_pow]
  by_cases hj : j < w
  · simp [hj]
  · simp [BitVec.getLsbD_of_ge x j (Nat.le_of_not_lt hj)]

@[simp] theorem getLsbD_setBit_same {w : Nat} (x : BitVec w) {i : Nat} (h : i < w) : (setBit x i).getLsbD i = true := by
  simp [getLsbD_setBit, h]

@[simp] theorem getLsbD_clearBit_same {w : Nat} (x : BitVec w) (i : Nat) : (clearBit x i).getLsbD i = false := by
  simp [getLsbD_clearBit]

theorem getLsbD_setBit_other {w : Nat} (x : BitVec w) {i j : Nat} (h : i ≠ j) : (setBit x i).getLsbD j = x.getLsbD j := by
  simp [getLsbD_setBit, h]

theorem getLsbD_clearBit_other {w : Nat} (x : BitVec w) {i j : Nat} (h : i ≠ j) : (clearBit x i).getLsbD j = x.getLsbD j := by
  simp [getLsbD_clearBit, h]

/-! ### The pins beside the clock's decisions (R415, R416) -/

section
variable (s : State)

theorem State.setPin_other (i : Nat) (active : Bool) {j : Nat} (h : i ≠ j) :
    (s.setPin i active).pins.active.getLsbD j = s.pins.active.getLsbD j := by
  cases active
  · exact getLsbD_clearBit_other _ h
  · exact getLsbD_setBit_other _ h

theorem State.setPin_same (active : Bool) {i : Nat} (h : i < 7) : (s.setPin i active).pins.active.getLsbD i = active := by
  cases active
  · exact getLsbD_clearBit_same _ _
  · exact getLsbD_setBit_same _ h

/-- The state but for the power unit and the links, which alone a decision about the clock's step changes. -/
def State.besideClock : State := { s with power := State.reset.power, link := State.reset.link }

theorem State.eq_of_besideClock {s t : State} (h : t.besideClock = s.besideClock) : t = { s with power := t.power, link := t.link } :=
  congrArg (fun u : State => { u with power := t.power, link := t.link }) h

theorem State.withLink_besideClock (l : LinkUnit) : State.besideClock { s with link := l } = s.besideClock := rfl

theorem State.announce_besideClock (code : Nat) : (s.announce code).besideClock = s.besideClock := by
  unfold State.announce
  extract_lets p
  split
  · rfl
  · exact keeps_ite _ rfl rfl

theorem State.decideStep_besideClock (code : Nat) : (s.decideStep code).besideClock = s.besideClock := by
  have hdrop : s.dropStepUp.besideClock = s.besideClock := keeps_ite _ rfl rfl
  exact keeps_ite _ ((State.announce_besideClock _ _).trans hdrop) (keeps_ite _ hdrop (keeps_ite _ rfl rfl))

theorem State.applyCauses_besideClock : s.applyCauses.besideClock = s.besideClock := by
  unfold State.applyCauses
  extract_lets own u
  split
  · refine keeps_ite _ rfl ?_
    exact (State.withLink_besideClock _ _).trans ((State.withLink_besideClock _ _).trans (s.withLink_besideClock u))
  · exact s.decideStep_besideClock own

@[simp] theorem State.setPermit_besideClock (c k : Nat) : (s.setPermit c k).besideClock = s.besideClock :=
  keeps_ite _ rfl (State.applyCauses_besideClock _)

end

end Sys2Proof.Machine
end

section
/-!
PROOFS. The event controller (R327 to R329): what each of its operations makes of one source's bits, what a list of sources makes of
them, and that all of it happens in the host unit.
-/
namespace Sys2Proof.Machine

/-! ### What changes the host unit alone -/

/-- The state but for the host unit. -/
def State.besideHost (s : State) : State := { s with host := State.reset.host }

theorem State.eq_of_besideHost {s t : State} (h : t.besideHost = s.besideHost) : t = { s with host := t.host } :=
  congrArg (fun u : State => { u with host := t.host }) h

/-- What each step of a fold does to its own place only, the fold does once to each place it visits. -/
theorem foldl_pointwise {σ α β : Type} [DecidableEq α] {g : σ → α → β} {f : σ → α → σ} {φ : β → β} {l : List α} (hl : l.Nodup)
    (hsame : ∀ s, ∀ i ∈ l, g (f s i) i = φ (g s i)) (hother : ∀ s i j, i ≠ j → g (f s i) j = g s j) (s : σ) (j : α) :
    g (l.foldl f s) j = if j ∈ l then φ (g s j) else g s j := by
  induction l generalizing s with
  | nil => rfl
  | cons x l ih =>
    obtain ⟨hx, hl⟩ := List.nodup_cons.mp hl
    rw [List.foldl_cons, ih hl fun s i hi => hsame s i (.tail _ hi)]
    by_cases hj : x = j
    · subst hj
      simp [hx, hsame]
    · simp [Ne.symm hj, hother s x j hj]

/-- A command that stands still under a condition runs where the condition fails (R454). -/
theorem runs_of_live_unless {i : Instr} {s t : State} {P : State → Prop} {c : Prop} [Decidable c] (hd : s.defined)
    (he : exec i s = live s (if c then s else t)) (hc : ¬ c) (ht : P t) : Runs i s P :=
  runs_of_exec_live hd (he.trans (by rw [if_neg hc])) ht

/-! ### Saturating counters -/

theorem toNat_satAdd {w : Nat} (x : BitVec w) (n : Nat) : (satAdd x n).toNat = min (x.toNat + n) (2 ^ w - 1) := by
  have := Nat.two_pow_pos w
  unfold satAdd
  split
  · rw [BitVec.toNat_ofNat, Nat.mod_eq_of_lt ‹_›]
    omega
  · rw [BitVec.toNat_allOnes]
    omega

theorem toNat_satInc {w : Nat} (x : BitVec w) : (satInc x).toNat = min (x.toNat + 1) (2 ^ w - 1) := toNat_satAdd x 1

theorem le_satInc {w : Nat} (x : BitVec w) : x.toNat ≤ (satInc x).toNat := by
  rw [toNat_satInc]
  have := x.isLt
  omega

/-! ### Messages and sources -/

section
variable (s : State) (fn : Nat)

@[simp] theorem State.modFunc_besideHost (f : Func → Func) : (s.modFunc fn f).besideHost = s.besideHost := rfl

@[simp] theorem State.message_besideHost (v : Nat) : (s.message fn v).besideHost = s.besideHost := keeps_ite _ rfl rfl

@[simp] theorem State.releaseMessage_besideHost (v : Nat) : (s.releaseMessage fn v).besideHost = s.besideHost :=
  keeps_ite _ (State.message_besideHost _ fn v) rfl

@[simp] theorem State.take_besideHost (i : Nat) : (s.take fn i).besideHost = s.besideHost :=
  keeps_ite _ (State.message_besideHost _ fn _) rfl

@[simp] theorem State.completeSource_besideHost (i : Nat) : (s.completeSource fn i).besideHost = s.besideHost :=
  keeps_ite _ rfl (State.take_besideHost _ fn i)

/-- The registers of a function's event controller beside the vectors. -/
def Func.eventBits (f : Func) : BitVec 16 × BitVec 16 × BitVec 16 × Word32 := (f.evPending, f.evActive, f.evMask, f.evStray)

/-- A message changes none of them. -/
@[simp] theorem State.message_eventBits (v : Nat) : ((s.message fn v).func fn).eventBits = (s.func fn).eventBits :=
  keeps_ite (fun u : State => (u.func fn).eventBits) (by rw [State.func_modFunc]; rfl) rfl

/-- A source's pending, active and mask bit. -/
def Func.source (f : Func) (i : Nat) : Bool × Bool × Bool := (f.evPending.getLsbD i, f.evActive.getLsbD i, f.evMask.getLsbD i)

theorem Func.source_congr {f g : Func} (h : f.eventBits = g.eventBits) (i : Nat) : f.source i = g.source i :=
  congrArg (fun b => (b.1.getLsbD i, b.2.1.getLsbD i, b.2.2.1.getLsbD i)) h

/-- A source can be taken: it is pending, unmasked and not active (R327). -/
def takes : Bool × Bool × Bool → Bool
  | (pending, active, mask) => pending && !mask && !active

/-- A source's bits after it was taken, where it can be. -/
def taken (b : Bool × Bool × Bool) : Bool × Bool × Bool := if takes b then (false, true, b.2.2) else b

/-- A source's bits after its completion: it is taken again at once where it waits. -/
def completed (b : Bool × Bool × Bool) : Bool × Bool × Bool := if b.2.1 then taken (b.1, false, b.2.2) else b

theorem taken_active : ∀ p a m : Bool, (taken (p, a, m)).2.1 = (a || (p && !m)) := by decide

theorem taken_mask : ∀ p a m : Bool, (taken (p, a, m)).2.2 = m := by decide

theorem completed_active : ∀ p a m : Bool, (completed (p, a, m)).2.1 = (a && (p && !m)) := by decide

/-- The function's registers after its source `i` was taken. -/
def Func.tookSource (f : Func) (i : Nat) : Func := { f with evPending := clearBit f.evPending i, evActive := setBit f.evActive i }

theorem State.take_of_takes {i : Nat} (h : takes ((s.func fn).source i) = true) :
    ((s.take fn i).func fn).eventBits = ((s.func fn).tookSource i).eventBits := by
  have htake : s.take fn i = (s.modFunc fn fun f => f.tookSource i).message fn ((s.func fn).evVector.toList.getD i 0).toNat := if_pos h
  rw [htake, State.message_eventBits, State.func_modFunc]

theorem State.take_of_not_takes {i : Nat} (h : takes ((s.func fn).source i) = false) : s.take fn i = s :=
  if_neg (Bool.not_eq_true _ ▸ h)

theorem Func.tookSource_same (f : Func) {i : Nat} (hi : i < 16) : (f.tookSource i).source i = (false, true, (f.source i).2.2) := by
  rw [Func.source, Func.tookSource, getLsbD_clearBit_same, getLsbD_setBit_same _ hi]
  rfl

theorem Func.tookSource_other (f : Func) {i j : Nat} (h : i ≠ j) : (f.tookSource i).source j = f.source j := by
  simp [Func.tookSource, Func.source, getLsbD_setBit_other, getLsbD_clearBit_other, h]

theorem State.take_source_same {i : Nat} (hi : i < 16) : ((s.take fn i).func fn).source i = taken ((s.func fn).source i) := by
  cases h : takes ((s.func fn).source i)
  · rw [s.take_of_not_takes fn h, taken, h]
    rfl
  · rw [Func.source_congr (s.take_of_takes fn h), Func.tookSource_same _ hi, taken, h]
    rfl

theorem State.take_source_other {i j : Nat} (hij : i ≠ j) : ((s.take fn i).func fn).source j = (s.func fn).source j := by
  cases h : takes ((s.func fn).source i)
  · rw [s.take_of_not_takes fn h]
  · rw [Func.source_congr (s.take_of_takes fn h), Func.tookSource_other _ hij]

theorem State.take_stray (i : Nat) : ((s.take fn i).func fn).evStray = (s.func fn).evStray := by
  cases h : takes ((s.func fn).source i)
  · rw [s.take_of_not_takes fn h]
  · exact congrArg (·.2.2.2) (s.take_of_takes fn h)

theorem State.completeSource_of_active {i : Nat} (h : (s.func fn).evActive.getLsbD i = true) :
    s.completeSource fn i = (s.modFunc fn fun f => { f with evActive := clearBit f.evActive i }).take fn i :=
  if_neg (by simp [h])

theorem State.completeSource_of_idle {i : Nat} (h : (s.func fn).evActive.getLsbD i = false) :
    s.completeSource fn i = s.modFunc fn fun f => { f with evStray := satInc f.evStray } :=
  if_pos (by simp [h])

theorem State.completeSource_source_same {i : Nat} (hi : i < 16) :
    ((s.completeSource fn i).func fn).source i = completed ((s.func fn).source i) := by
  cases h : (s.func fn).evActive.getLsbD i
  · rw [s.completeSource_of_idle fn h, State.func_modFunc]
    simp [completed, Func.source, h]
  · rw [s.completeSource_of_active fn h, State.take_source_same _ _ hi, State.func_modFunc]
    simp [completed, Func.source, h]

theorem State.completeSource_source_other {i j : Nat} (hij : i ≠ j) :
    ((s.completeSource fn i).func fn).source j = (s.func fn).source j := by
  cases h : (s.func fn).evActive.getLsbD i
  · rw [s.completeSource_of_idle fn h, State.func_modFunc]
    rfl
  · rw [s.completeSource_of_active fn h, State.take_source_other _ _ hij, State.func_modFunc]
    simp [Func.source, getLsbD_clearBit_other _ hij]

/-- A completion raises the count of strays where the source is not active, and never lowers it. -/
theorem State.completeSource_stray (i : Nat) : ((s.completeSource fn i).func fn).evStray =
    if (s.func fn).evActive.getLsbD i then (s.func fn).evStray else satInc (s.func fn).evStray := by
  cases h : (s.func fn).evActive.getLsbD i
  · rw [s.completeSource_of_idle fn h, State.func_modFunc]
    rfl
  · rw [s.completeSource_of_active fn h, State.take_stray, State.func_modFunc]
    rfl

theorem State.le_completeSource_stray (i : Nat) :
    (s.func fn).evStray.toNat ≤ ((s.completeSource fn i).func fn).evStray.toNat := by
  rw [State.completeSource_stray]
  split
  · rfl
  · exact le_satInc _

/-! ### Lists of sources -/

theorem sourcesOf_le (fn : Nat) : sourcesOf fn ≤ 10 := by
  unfold sourcesOf
  split <;> decide

theorem mem_sourceBits {fn : Nat} {v : Word64} {i : Nat} : i ∈ sourceBits fn v ↔ i < sourcesOf fn ∧ v.getLsbD i = true := by
  simp [sourceBits]

theorem sourceBits_nodup (fn : Nat) (v : Word64) : (sourceBits fn v).Nodup := List.nodup_range.filter _

theorem lt_of_mem_sourceBits {fn : Nat} {v : Word64} {i : Nat} (h : i ∈ sourceBits fn v) : i < 16 :=
  ((mem_sourceBits.mp h).1.trans_le (sourcesOf_le fn)).trans (by decide)

/-- The sources whose bits are written fire, and no other (R310, R334). -/
theorem State.forAll_fire_pending {v : Word64} {i : Nat} (hi : i < sourcesOf fn) :
    ((s.forAll (sourceBits fn v) fun s i => s.fire fn i).func fn).evPending.getLsbD i =
      ((s.func fn).evPending.getLsbD i || v.getLsbD i) := by
  have h := foldl_pointwise (g := fun (u : State) i => (u.func fn).evPending.getLsbD i) (f := fun u i => u.fire fn i) (φ := fun _ => true)
    (sourceBits_nodup fn v) (fun u i hm => by rw [State.fire, State.func_modFunc, getLsbD_setBit_same _ (lt_of_mem_sourceBits hm)])
    (fun u i j hij => by simp [State.fire, getLsbD_setBit_other _ hij]) s i
  rw [State.forAll, h, ite_congr (propext mem_sourceBits) (fun _ => rfl) fun _ => rfl]
  cases v.getLsbD i <;> simp [hi]

theorem State.forAll_completeSource_source {v : Word64} {i : Nat} (hi : i < sourcesOf fn) :
    ((s.forAll (sourceBits fn v) fun s i => s.completeSource fn i).func fn).source i =
      if v.getLsbD i then completed ((s.func fn).source i) else (s.func fn).source i := by
  have h := foldl_pointwise (g := fun (u : State) i => (u.func fn).source i) (f := fun u i => u.completeSource fn i) (φ := completed)
    (sourceBits_nodup fn v) (fun u i hm => u.completeSource_source_same fn (lt_of_mem_sourceBits hm))
    (fun u i j hij => u.completeSource_source_other fn hij) s i
  rw [State.forAll, h, ite_congr (propext mem_sourceBits) (fun _ => rfl) fun _ => rfl]
  simp [hi]

theorem State.forAll_take_source {i : Nat} (hi : i < sourcesOf fn) :
    ((s.forAll (List.range (sourcesOf fn)) fun s i => s.take fn i).func fn).source i = taken ((s.func fn).source i) := by
  have h := foldl_pointwise (g := fun (u : State) i => (u.func fn).source i) (f := fun u i => u.take fn i) (φ := taken)
    List.nodup_range
    (fun u i hm => u.take_source_same fn (((List.mem_range.mp hm).trans_le (sourcesOf_le fn)).trans (by decide)))
    (fun u i j hij => u.take_source_other fn hij) s i
  rw [State.forAll, h, if_pos (List.mem_range.mpr hi)]

/-- A completion of a source that is not active is counted (R327). -/
theorem State.forAll_completeSource_stray {v : Word64} {i : Nat} (hi : i < sourcesOf fn) (hv : v.getLsbD i = true)
    (hidle : (s.func fn).evActive.getLsbD i = false) (hroom : (s.func fn).evStray.toNat + 1 < 2 ^ 32) :
    (s.func fn).evStray < ((s.forAll (sourceBits fn v) fun s i => s.completeSource fn i).func fn).evStray := by
  have hkeep (u : State) (j : Nat) : (u.func fn).evActive.getLsbD i = false →
      ((u.completeSource fn j).func fn).evActive.getLsbD i = false := by
    intro h
    by_cases hj : j = i
    · subst hj
      rw [u.completeSource_of_idle fn h, State.func_modFunc]
      exact h
    · exact (congrArg (·.2.1) (u.completeSource_source_other fn hj)).trans h
  refine foldl_establishes (R := fun u : State => (u.func fn).evActive.getLsbD i = false ∧
      (s.func fn).evStray.toNat ≤ (u.func fn).evStray.toNat) (mem_sourceBits.mpr ⟨hi, hv⟩)
    (fun u j h => ⟨hkeep u j h.1, h.2.trans (u.le_completeSource_stray fn j)⟩) (fun u h => ?_)
    (fun u j _ _ h => BitVec.lt_def.mpr ((BitVec.lt_def.mp h).trans_le (u.le_completeSource_stray fn j))) ⟨hidle, le_rfl⟩
  rw [State.completeSource_stray, h.1, BitVec.lt_def]
  simp only [Bool.false_eq_true, if_false, toNat_satInc]
  omega

/-- A full write of the mask sets the bits of the function's sources. -/
theorem writeMask_getLsbD {fn : Nat} (old : BitVec 16) (v : Word64) {i : Nat} (hi : i < sourcesOf fn) :
    (writeMask fn old v .full).getLsbD i = v.getLsbD i := by
  have hused : ((if fn = 0 then 0x3FF else 0xF : BitVec 16)).getLsbD i = true := by
    unfold sourcesOf at hi
    split at hi <;> simp_all <;> interval_cases i <;> rfl
  have hlt : i < 16 := (hi.trans_le (sourcesOf_le fn)).trans (by decide)
  have hfull : accessWrite .full (old.zeroExtend 64) v = v := by simp [accessWrite, accessMask, accessValue]
  rw [writeMask, hfull]
  simp only [BitVec.getLsbD_or, BitVec.getLsbD_and, BitVec.getLsbD_not, BitVec.truncate_eq_setWidth, BitVec.getLsbD_setWidth, hused, hlt]
  simp

/-! ### Unmasking a vector (R328) -/

/-- What an unmasked vector reads in the mask and the table. -/
def Func.unmasked (f : Func) (v : Nat) : Func :=
  { f with msixMask := clearBit f.msixMask v, msixTable := f.msixTable.modify (2 * v + 1) 0 fun x => x &&& 0xFFFFFFFEFFFFFFFF }

@[simp] theorem State.message_msixMask (v : Nat) : ((s.message fn v).func fn).msixMask = (s.func fn).msixMask :=
  keeps_ite (fun u : State => (u.func fn).msixMask) (by rw [State.func_modFunc]) rfl

/-- A message of an unmasked vector of a function that can send leaves the pending bits alone: it goes out. -/
theorem State.message_of_open {v : Nat} (hm : (s.func fn).msixMask.getLsbD v = false) (hc : s.canSend fn = true) :
    (s.message fn v).func fn = s.func fn := by
  rw [State.message, if_neg (by simp [hm, hc])]
  rfl

/-- The function's registers with its vector's waiting message gone. -/
def Func.sentMessage (f : Func) (v : Nat) : Func := { f with msixPending := clearBit f.msixPending v }

theorem State.releaseMessage_of_waiting {v : Nat}
    (h : ((s.func fn).msixPending.getLsbD v && !(s.func fn).msixMask.getLsbD v && s.canSend fn) = true) :
    s.releaseMessage fn v = (s.modFunc fn fun f => f.sentMessage v).message fn v := if_pos h

theorem State.releaseMessage_of_not_waiting {v : Nat}
    (h : ((s.func fn).msixPending.getLsbD v && !(s.func fn).msixMask.getLsbD v && s.canSend fn) = false) :
    s.releaseMessage fn v = s := if_neg (Bool.not_eq_true _ ▸ h)

theorem State.releaseMessage_msixMask (v : Nat) : ((s.releaseMessage fn v).func fn).msixMask = (s.func fn).msixMask := by
  cases h : (s.func fn).msixPending.getLsbD v && !(s.func fn).msixMask.getLsbD v && s.canSend fn
  · rw [s.releaseMessage_of_not_waiting fn h]
  · rw [s.releaseMessage_of_waiting fn h, State.message_msixMask, State.func_modFunc]
    rfl

/-- What decides whether a function can send is neither its mask nor its pending bits. -/
theorem State.canSend_modFunc {f : Func → Func} (h : ∀ x, (f x).d3hot = x.d3hot ∧ (f x).streams = x.streams) :
    (s.modFunc fn f).canSend fn = s.canSend fn := by
  obtain ⟨hd3, hstreams⟩ := h (s.func fn)
  simp only [State.canSend, State.func_modFunc, hd3, hstreams]
  rfl

/-- An unmasked vector has no message waiting where the function can send. -/
theorem State.releaseMessage_pending {v : Nat} (hm : (s.func fn).msixMask.getLsbD v = false) (hc : s.canSend fn = true) :
    ((s.releaseMessage fn v).func fn).msixPending.getLsbD v = false := by
  cases hp : (s.func fn).msixPending.getLsbD v
  · rwa [s.releaseMessage_of_not_waiting fn (by simp [hp])]
  · have hu : (s.modFunc fn fun f => f.sentMessage v).func fn = (s.func fn).sentMessage v := s.func_modFunc ..
    have hsend : (s.modFunc fn fun f => f.sentMessage v).canSend fn = true :=
      (s.canSend_modFunc fn (f := fun f => f.sentMessage v) fun _ => ⟨rfl, rfl⟩).trans hc
    rw [s.releaseMessage_of_waiting fn (by simp [hp, hm, hc]), State.message_of_open _ fn (by rw [hu]; exact hm) hsend, hu]
    exact getLsbD_clearBit_same _ _

end

/-- Settles O42: what an operation of the event controller makes of one source's bits, it makes of those of every source it names. -/
theorem eventsAreTakenOnce : Obligations.EventsAreTakenOnce := by
  unfold Obligations.EventsAreTakenOnce
  intro s fn src v vec hd f n
  have hsources : n = sourcesOf fn := if_congr Iff.rfl rfl rfl
  have hsrc (h : src.val < n) : src.val < sourcesOf fn := hsources ▸ h
  refine ⟨fun h => ?_, fun h hp hm ha => ?_, fun h => ?_, fun ho => ?_, fun ho => ?_, fun ho => ?_, fun ho => ?_⟩
  · exact runs_of_live_ite hd rfl (hsrc h) ⟨State.func_modFunc .., rfl⟩
  · refine runs_of_live_ite hd rfl (hsrc h) ?_
    have htakes : takes (f.source src) = true := by simp [takes, Func.source, hp, hm, ha]
    have hbits := s.take_of_takes fn htakes
    exact ⟨congrArg (·.1) hbits, congrArg (·.2.1) hbits, State.eq_of_besideHost (s.take_besideHost fn src)⟩
  · have hexec : exec (.eventTaken fn src) s = live s s := by
      show live s (if src.val < sourcesOf fn then s.take fn src else s) = _
      split
      next hlt =>
        have hno : takes (f.source src) = false := by
          rcases h with h | h | h | h
          · omega
          all_goals simp [takes, Func.source, h]
        rw [s.take_of_not_takes fn hno]
      next => rfl
    exact hexec.trans (live_defined s s hd)
  · refine runs_of_live_unless hd rfl (by simp [ho]) ⟨?_, fun i hi => s.forAll_fire_pending fn (hsources ▸ hi)⟩
    exact State.eq_of_besideHost (State.forAll_keeps _ (fun u i => u.modFunc_besideHost fn _) _ s)
  · refine runs_of_live_unless hd rfl (by simp [ho]) ⟨?_, fun i hi => ?_, fun ⟨i, hi, hv, ha⟩ hroom => ?_⟩
    · exact State.eq_of_besideHost (State.forAll_keeps _ (fun u i => u.completeSource_besideHost fn i) _ s)
    · refine (congrArg (·.2.1) (s.forAll_completeSource_source fn (v := v) (hsources ▸ hi))).trans ?_
      cases v.getLsbD i
      · exact (Bool.and_true _).symm
      · exact completed_active ..
    · exact s.forAll_completeSource_stray fn (hsources ▸ hi) hv ha hroom
  · let u := s.modFunc fn fun f => { f with evMask := writeMask fn f.evMask v .full }
    refine runs_of_live_unless hd rfl (by simp [ho])
      ⟨State.eq_of_besideHost (State.forAll_keeps _ (fun u i => u.take_besideHost fn i) _ u), fun i hi => ?_⟩
    have hi' : i < sourcesOf fn := hsources ▸ hi
    have hu : (u.func fn).source i = (f.evPending.getLsbD i, f.evActive.getLsbD i, v.getLsbD i) := by
      rw [State.func_modFunc, Func.source, writeMask_getLsbD _ _ hi']
    have hsrc := (u.forAll_take_source fn hi').trans (congrArg taken hu)
    exact ⟨(congrArg (·.2.2) hsrc).trans (taken_mask ..), (congrArg (·.2.1) hsrc).trans (taken_active ..)⟩
  · let u := s.modFunc fn fun f => f.unmasked vec
    have hu : (u.func fn).msixMask = clearBit f.msixMask vec := by rw [State.func_modFunc]; rfl
    refine runs_of_live_unless hd rfl (by simp [ho])
      ⟨(u.releaseMessage_msixMask fn vec).trans hu, fun hc => ?_, State.eq_of_besideHost (u.releaseMessage_besideHost fn vec)⟩
    exact u.releaseMessage_pending fn (by rw [hu, getLsbD_clearBit_same]) ((s.canSend_modFunc fn (f := fun f => f.unmasked vec) fun _ => ⟨rfl, rfl⟩).trans hc)

end Sys2Proof.Machine
end

section
/-!
PROOFS. Register writes of the host (R293, R306, R310, R333) and IDE key messages (R330).
-/
namespace Sys2Proof.Machine

/-- The bits that a mask of ones clears. -/
theorem getLsbD_and_not_ofNat {n w : Nat} (x : BitVec n) (v : BitVec w) {i : Nat} (hi : i < n) :
    (x &&& ~~~BitVec.ofNat n v.toNat).getLsbD i = (x.getLsbD i && !v.getLsbD i) := by
  rw [BitVec.getLsbD_and, BitVec.getLsbD_not, BitVec.getLsbD_ofNat, BitVec.testBit_toNat]
  simp [hi]

section
variable (f : FaultUnit) (v : Word64)

/-! ### Sticky bits (R293, R306) -/

theorem FaultUnit.clear_zero_bit {i : Nat} (hi : i < 68) : (f.clear 0 v).stickyGroups.getLsbD i =
    (f.stickyGroups.getLsbD i && !(decide (i < 64) && v.getLsbD i)) := by
  show (f.stickyGroups &&& ~~~BitVec.ofNat 68 (v.toNat % 2 ^ 64)).getLsbD i = _
  rw [BitVec.getLsbD_and, BitVec.getLsbD_not, BitVec.getLsbD_ofNat, Nat.testBit_mod_two_pow, BitVec.testBit_toNat]
  simp [hi]

theorem FaultUnit.clear_one_bit {i : Nat} (hi : i < 68) : (f.clear 1 v).stickyGroups.getLsbD i =
    (f.stickyGroups.getLsbD i && !(decide (64 ≤ i) && v.getLsbD (i - 64))) := by
  show (f.stickyGroups &&& ~~~BitVec.ofNat 68 (v.toNat % 16 * 2 ^ 64)).getLsbD i = _
  have hbit : (v.toNat % 16 * 2 ^ 64).testBit i = (decide (64 ≤ i) && v.getLsbD (i - 64)) := by
    rw [show 16 = 2 ^ 4 from rfl, Nat.testBit_mul_two_pow, Nat.testBit_mod_two_pow, BitVec.testBit_toNat]
    have hlt : decide (i - 64 < 4) = true := decide_eq_true (by omega)
    rw [hlt, Bool.true_and]
  rw [BitVec.getLsbD_and, BitVec.getLsbD_not, BitVec.getLsbD_ofNat, hbit]
  simp [hi]

theorem FaultUnit.clear_two_msd {i : Nat} (hi : i < 4) : (f.clear 2 v).stickyMsd.getLsbD i = (f.stickyMsd.getLsbD i && !v.getLsbD i) :=
  getLsbD_and_not_ofNat _ v hi

theorem FaultUnit.clear_two_io {i : Nat} (hi : i < 10) : (f.clear 2 v).stickyIo.getLsbD i = (f.stickyIo.getLsbD i && !v.getLsbD (8 + i)) := by
  show (f.stickyIo &&& ~~~BitVec.ofNat 10 (v.toNat / 256)).getLsbD i = _
  rw [BitVec.getLsbD_and, BitVec.getLsbD_not, BitVec.getLsbD_ofNat, show 256 = 2 ^ 8 from rfl, Nat.testBit_div_two_pow, BitVec.testBit_toNat, Nat.add_comm]
  simp [hi]

end

/-! ### Rings (R333) -/

theorem HostRing.control_enables {r : HostRing} {v : Word64} (bits : Nat) (hv : v.getLsbD 8 = true) (hr : r.enabled = false) :
    r.control v bits = { r with log2 := BitVec.ofNat 5 (v.toNat % 2 ^ bits), enabled := true, head := 0, tail := 0, phase := true } := by
  simp [HostRing.control, hv, hr]

theorem HostRing.control_disables {r : HostRing} {v : Word64} (bits : Nat) (hv : v.getLsbD 8 = false) :
    (r.control v bits).enabled = false ∧ (r.control v bits).tail = r.tail := by
  rw [HostRing.control, if_neg (by simp only [hv, Bool.false_and]; decide)]
  exact ⟨hv, rfl⟩

/-- BASE after a full write: taken while the ring is disabled. -/
theorem HostRing.setBase_base (r : HostRing) (v : Word64) :
    (r.setBase v .full).base = if r.enabled then r.base else v &&& 0xFFFFFFFFFFFFF000 := by
  have hfull : accessWrite .full r.base v = v := by simp [accessWrite, accessMask, accessValue]
  unfold HostRing.setBase
  split <;> simp [*]

/-- A ring of a function after RING_ENABLE. -/
theorem State.ringEnable_ring (s : State) (fn : Nat) (rq : Bool) (v : Word64) :
    let t := s.modFunc fn fun f => if rq then { f with rq := f.rq.control v 4 } else { f with cq := f.cq.control v 5 }
    (if rq then (t.func fn).rq else (t.func fn).cq) =
      (if rq then (s.func fn).rq else (s.func fn).cq).control v (if rq then 4 else 5) := by
  intro t
  rw [State.func_modFunc]
  cases rq <;> rfl

/-! ### Register rows (R310) -/

theorem exec_registerWrite_of_no_row {fn : Fin 17} {o : BitVec 26} {v : Word64} {w : AccessWidth} {s : State}
    (h : rowWrite fn (o.toNat / 8 * 8) v w s = none) :
    exec (.registerWrite fn o v w) s = live s (if !s.hostOpen then s else s.writeOwn fn (o.toNat / 8 * 8) v w) := by
  show execRegisterWrite fn o v w s = _
  rw [execRegisterWrite, h]

/-- BASE of the completion ring has no row of its own. -/
theorem rowWrite_ringBase (fn : Fin 17) (v : Word64) (w : AccessWidth) (s : State) : rowWrite fn 0x30000 v w s = none :=
  keeps_ite (g := fun x : Option Out => x) rfl rfl

/-- No block of BAR0 decodes an offset from 0xD_0000 on. -/
theorem rowWrite_of_undecoded {o : Nat} (ho : 0xD0000 ≤ o) (fn : Fin 17) (v : Word64) (w : AccessWidth) (s : State) :
    rowWrite fn o v w s = none := by
  unfold rowWrite
  extract_lets
  rw [if_neg (by omega), if_neg (by omega), if_neg (by omega)]
  split
  · rfl
  · split
    case h_16 => rfl
    all_goals omega

theorem State.writeOwn_of_undecoded {o : Nat} (ho : 0xD0000 ≤ o) (s : State) (fn : Nat) (v : Word64) (w : AccessWidth) :
    s.writeOwn fn o v w = s := by
  have hout (a n : Nat) (h : a + n ≤ 0xD0000) : inRange a n o = false := by simp [inRange]; omega
  have hne (a : Nat) (h : a < 0xD0000) : o ≠ a := by omega
  simp [State.writeOwn, hout, hne]

/-! ### IDE (R330) -/

/-- A function with a stream more, where it has room for one. -/
def Func.addStream (f : Func) (limit : Nat) (stream : BitVec 8) : Func :=
  if f.streams.contains stream || limit ≤ f.streams.length then f else { f with streams := f.streams ++ [stream] }

theorem Func.mem_addStream {f : Func} {limit : Nat} {stream : BitVec 8} (h : f.streams.length < limit) :
    stream ∈ (f.addStream limit stream).streams := by
  unfold Func.addStream
  split
  next hfull => simpa [Nat.not_le.mpr h] using hfull
  next => exact List.mem_append_right _ (.head _)

/-- Settles O43: a register write changes what its register holds, in the host unit or in the collector. -/
theorem hostRegistersTakeWrites : Obligations.HostRegistersTakeWrites := by
  unfold Obligations.HostRegistersTakeWrites
  intro s fn rq v w tail o str hd ho ring f
  have hopen : ¬ (!s.hostOpen) = true := by simp [ho]
  have hfull : ¬ (!s.hostOpen || AccessWidth.full != .full) = true := by simp [ho]
  have hstill {i : Instr} (h : exec i s = live s s) : exec i s = .next s := h.trans (live_defined s s hd)
  refine ⟨fun hv hr => ?_, fun hv => ?_, ?_, ?_, fun r hw => ?_, ?_, fun h => ?_, fun h => ?_, ?_, rfl, rfl, rfl, fun h => ?_, fun h => ?_,
    fun h => ?_⟩
  · have hring := (s.ringEnable_ring fn rq v).trans (HostRing.control_enables _ hv hr)
    exact runs_of_live_unless hd rfl hopen ⟨congrArg (·.enabled) hring, congrArg (·.head) hring, congrArg (·.tail) hring,
      congrArg (·.phase) hring, congrArg (·.base) hring, rfl⟩
  · have hring := s.ringEnable_ring fn rq v
    obtain ⟨hoff, htail⟩ := HostRing.control_disables (r := ring s) (if rq then 4 else 5) hv
    exact runs_of_live_unless hd rfl hopen ⟨(congrArg (·.enabled) hring).trans hoff, (congrArg (·.tail) hring).trans htail, rfl⟩
  · exact runs_of_live_unless hd rfl hfull ⟨rfl, rfl, fun i hi => f.clear_zero_bit v hi⟩
  · exact runs_of_live_unless hd rfl hfull ⟨rfl, rfl, fun i hi => f.clear_one_bit v hi⟩
  · exact hstill (congrArg (live s) (if_pos (by simp [hw])))
  · exact runs_of_live_unless hd rfl hfull ⟨rfl, rfl, fun i hi => f.clear_two_msd v hi, fun i hi => f.clear_two_io v hi⟩
  · exact (congrArg (live s) ((if_neg hopen).trans (if_pos h))).trans (live_defined s _ hd)
  · exact hstill (congrArg (live s) ((if_neg hopen).trans (if_neg (Nat.not_le.mpr h))))
  · have hexec := exec_registerWrite_of_no_row (o := 0x30000) (w := .full) (rowWrite_ringBase fn v .full s)
    refine runs_of_live_unless (t := s.modFunc fn fun f => f.writeRings 0 v .full) hd hexec hopen ⟨?_, rfl⟩
    have hfunc : ((s.modFunc fn fun f => f.writeRings 0 v .full).func fn).cq = (s.func fn).cq.setBase v .full := by
      rw [State.func_modFunc]
      rfl
    exact (congrArg (·.base) hfunc).trans (HostRing.setBase_base _ v)
  · have hrow : 0xD0000 ≤ o.toNat / 8 * 8 := by omega
    have hexec := exec_registerWrite_of_no_row (rowWrite_of_undecoded hrow fn v w s)
    exact hstill (hexec.trans (by rw [if_neg hopen, State.writeOwn_of_undecoded hrow]))
  · let limit := if fn.val = 0 then 8 else 1
    refine runs_of_live_unless (t := (s.draw 32).modFunc fn fun f => f.addStream limit str) hd
      (congrArg (live s) (if_congr Iff.rfl rfl (if_neg (by simp [h])))) hopen ⟨rfl, fun hlt => ?_, rfl⟩
    rw [State.func_modFunc]
    exact Func.mem_addStream hlt
  · refine runs_of_live_unless hd rfl hopen ?_
    rw [if_pos (by simp [h])]
    exact ⟨rfl, rfl⟩

end Sys2Proof.Machine
end

section
/-!
PROOFS. Submission: the aperture (R315, R316), areas (R312), control entries (R200, R319, R320) and the job table's entry (R202).
-/
namespace Sys2Proof.Machine

/-! ### The aperture (R315, R316) -/

section
variable {s : State} {fn : Fin 17} {offset : BitVec 16} {data : List Byte} {tlps : Nat} {on : Bool}

/-- A write of the aperture is an entry in one piece from a function that may send one (R315, R330). -/
def State.WellFormed (s : State) (fn : Nat) (offset : BitVec 16) (data : List Byte) (tlps : Nat) (on : Bool) : Prop :=
  data.length = 64 ∧ offset.toNat % 64 = 0 ∧ tlps = 1 ∧ (s.func fn).d3hot = false ∧ (s.ideRequired = true → on = true)

theorem malformed_iff : (data.length ≠ 64 || offset.toNat % 64 ≠ 0 || tlps ≠ 1 || (s.func fn).d3hot || (s.ideRequired && !on)) = true ↔
    ¬ s.WellFormed fn offset data tlps on := by
  simp only [State.WellFormed, Bool.or_eq_true, decide_eq_true_eq, Bool.and_eq_true, Bool.not_eq_true']
  cases (s.func fn).d3hot <;> cases s.ideRequired <;> cases on <;> simp <;> tauto

end

/-- The aperture is open to accesses: host-ready, and the attachment not held. -/
theorem not_apertureClosed {s : State} (hr : s.rst.hostReady = true) (hh : s.host.pcieHeld = false) :
    ¬ (!s.rst.hostReady || s.host.pcieHeld) = true := by
  simp [hr, hh]

/-- Settles O33: a write is an entry with credit, one without, or none at all. -/
theorem apertureTakesEntries : Obligations.ApertureTakesEntries := by
  unfold Obligations.ApertureTakesEntries
  intro s fn offset data tlps len on hd hr hh wellFormed
  have hopen := not_apertureClosed hr hh
  have hwell (h : wellFormed) := mt malformed_iff.mp (not_not.mpr h)
  refine ⟨fun h hc => ?_, fun h hc => ?_, fun h => ?_, ?_⟩
  · exact runs_of_live_unless hd (congrArg (live s) (if_congr Iff.rfl rfl ((if_neg (hwell h)).trans (if_neg hc)))) hopen ⟨rfl, rfl, rfl, rfl⟩
  · exact runs_of_live_unless hd (congrArg (live s) (if_congr Iff.rfl rfl ((if_neg (hwell h)).trans (if_pos hc)))) hopen
      ⟨State.func_modFunc .., rfl, rfl⟩
  · exact runs_of_live_unless hd (congrArg (live s) (if_congr Iff.rfl rfl (if_pos (malformed_iff.mpr h)))) hopen
      ⟨State.func_modFunc .., rfl, rfl⟩
  · exact runs_of_live_unless hd rfl hopen ⟨rfl, State.func_modFunc .., rfl⟩

/-! ### Control entries (R317 to R320) -/

section
variable {s : State} {e : Entry} {sub : Nat}

/-- A command that completes its entry in state `u`, which differs from the first neither in the entry's function nor in what opens
its ring. Completing leaves the work, device memory and the areas alone. -/
theorem runs_of_completion {i : Instr} {u : State} (st num job : Nat) {P : State → Prop} (hd : s.defined)
    (he : exec i s = live s (u.completeControl e st num job 0)) (hinv : s.Inv → u.Inv) (hfunc : u.func e.fn = s.func e.fn)
    (hopen : u.cqOpen e.fn = s.cqOpen e.fn)
    (h : ∀ t, t.work = u.work → t.mem = u.mem → t.host.areas = u.host.areas → Completed s t e.fn 5 st → P t) : Runs i s P :=
  runs_of_exec_live hd he <|
    h _ (State.completeControl_work ..) (State.completeControl_mem ..) (u.complete_keeps (·.host.areas) (fun _ _ => rfl) _ _ _ _ _ _ _)
      ((u.completed_completeControl e st num job 0).of_same hinv hfunc hopen)

/-- A control command runs its handler on the state without its entry (R319). -/
theorem exec_of_visible {i : Instr} {f : State → Entry → State} (he : exec i s = live s (s.onControl sub f))
    (hv : s.visibleEntry (fun e => e.type == 5 && e.sub == sub) = some e) {u : State} (hu : f (s.dropEntry e) e = u) : exec i s = live s u :=
  he.trans (by rw [State.onControl_of_visible hv, hu])

theorem State.Inv.dropEntry (h : s.Inv) : (s.dropEntry e).Inv := ⟨h.memory, h.hostRam, h.flash, h.jobs⟩

/-- A command that does nothing but complete its entry. -/
theorem runs_of_refusal {i : Instr} (st num job : Nat) {P : State → Prop} (hd : s.defined)
    (he : exec i s = live s ((s.dropEntry e).completeControl e st num job 0))
    (h : ∀ t, t.work = s.work → t.mem = s.mem → t.host.areas = s.host.areas → Completed s t e.fn 5 st → P t) : Runs i s P :=
  runs_of_completion st num job hd he State.Inv.dropEntry rfl rfl h

end

/-- The area of a DEFINE_AREA entry stands, and its pages count as released (R312, R313). -/
def State.defineArea (s : State) (e : Entry) : State :=
  let base := field e.raw 16 8
  let len := field e.raw 24 8
  { s with host := { s.host with
    areas := s.host.areas.put (field e.raw 10 1) { release := field e.raw 9 1 == 1, owner := e.fn, base := base, length := len }
    unreleased := s.host.unreleased.filter fun u => !inRange base len (2048 * u.1) } }

/-- Area `num` is gone. -/
def State.deleteArea (s : State) (num : Nat) : State := { s with host := { s.host with areas := s.host.areas.del num } }

/-- Settles O34: an area is made or deleted before its entry completes, and completing changes no area. -/
theorem areasAreDefinedAndDeleted : Obligations.AreasAreDefinedAndDeleted := by
  intro s e hd num
  refine ⟨fun hv => ?_, fun a hv ha hfn => ?_⟩
  · intro st
    refine ⟨fun hst => ?_, fun hst => ?_⟩
    · refine runs_of_completion (u := (s.dropEntry e).defineArea e) 0 num 0 hd (exec_of_visible rfl hv (if_neg (not_not.mpr hst)))
        (fun h => ⟨h.memory, h.hostRam, h.flash, h.jobs⟩) rfl rfl fun t _ hmem hareas hdone => ⟨?_, hdone, hmem⟩
      rw [hareas]
      exact Table.find_put_same ..
    · exact runs_of_refusal st num 0 hd (exec_of_visible rfl hv (if_pos hst)) fun t _ hmem hareas hdone => ⟨hareas, hdone, hmem⟩
  · have hfound : (s.dropEntry e).host.areas.find (field e.raw 10 1) = some a := ha
    have hbusy : (s.dropEntry e).areaBusy a = s.areaBusy a := rfl
    refine ⟨fun hb => ?_, fun hb => ?_⟩
    · refine runs_of_completion (u := (s.dropEntry e).deleteArea num) 0 num 0 hd (exec_of_visible rfl hv ?_)
        (fun h => ⟨h.memory, h.hostRam, h.flash, h.jobs⟩) rfl rfl fun t _ hmem hareas hdone => ⟨?_, hdone, hmem⟩
      · simp only [hfound, hfn, hbusy, hb, ne_eq, not_true_eq_false, if_false, Bool.false_eq_true]
        rfl
      · rw [hareas]
        exact Table.find_del_same ..
    · refine runs_of_refusal 0x51 num 0 hd (exec_of_visible rfl hv ?_) fun t _ hmem hareas hdone => ⟨hareas, hdone, hmem⟩
      simp only [hfound, hfn, hbusy, hb, ne_eq, not_true_eq_false, if_false, if_true]
      rfl

/-! ### CANCEL_JOB, MARKER and REMOVE_PROGRAM (R200, R319, R320) -/

theorem State.host_endJob (s : State) (id : Nat) (f : Job → Job) : (s.endJob id f).host = s.host := State.modJob_host ..

/-- A running job that ends is fenced for termination (R205). -/
def Job.fencedOff (j : Job) : Job := { j with phase := .fencedTerminate, withheld := true, decision := some false }

theorem State.job?_endJob {s : State} {id : Nat} {j : Job} (hj : s.job? id = some j) (hr : j.phase = .running) (f : Job → Job) :
    (s.endJob id f).job? id = some (f j.fencedOff) := by
  rw [State.endJob, Job.fencedOff]
  exact (s.job_modJob id _ j hj).trans (by rw [hr])

@[simp] theorem State.mem_endJob (s : State) (id : Nat) (f : Job → Job) : (s.endJob id f).mem = s.mem := State.modJob_mem ..

/-- What opens a function's completion ring lies in the host unit, the mode and the configuration (R323, R330). -/
theorem State.cqOpen_congr {s t : State} (fn : Nat) (hhost : t.host = s.host) (hmode : t.mode = s.mode) (hcfg : t.cfg = s.cfg) :
    t.cqOpen fn = s.cqOpen fn := by
  simp only [State.cqOpen, State.canSend, State.ideRequired, State.cfgNum, State.func, hhost, hmode, hcfg]
  rfl

/-- Device memory and the work replaced. -/
def State.storing (s : State) (m : Memory) (w : WorkUnit) : State := { s with mem := m, work := w }

theorem State.storing_host (s : State) (m : Memory) (w : WorkUnit) : (s.storing m w).host = s.host := rfl

theorem State.storing_cqOpen (s : State) (m : Memory) (w : WorkUnit) (fn : Nat) : (s.storing m w).cqOpen fn = s.cqOpen fn := rfl

theorem State.Inv.storing {s : State} (h : s.Inv) {m : Memory} {w : WorkUnit} (hm : m.wf = true) (hw : w.jobs = s.work.jobs) :
    (s.storing m w).Inv :=
  ⟨hm, h.hostRam, h.flash, hw ▸ h.jobs⟩

/-- Device memory with a program's store and data area filled with ones (R197, R200). -/
def State.clearedMemory (s : State) (slot : Nat) : Memory :=
  let a := s.programStore slot
  let n := s.programData slot - a + dataAreaBytes
  (s.mem.fill a 0xFF n).unmark a n

theorem State.clearedMemory_wf {s : State} (h : s.mem.wf = true) (slot : Nat) : (s.clearedMemory slot).wf = true :=
  Memory.unmark_wf _ _ _ (Memory.fill_wf _ _ _ _ h)

/-- A program removed: its store and data area hold ones, and its slot is empty. -/
def State.clearProgram (s : State) (slot : Nat) : State :=
  s.storing (s.clearedMemory slot) { s.work with programs := s.work.programs.del slot }

/-- Settles O36: each command completes its entry after its effect, and completing changes neither jobs nor programs. -/
theorem controlEntriesAct : Obligations.ControlEntriesAct := by
  intro s e j p hd id slot
  refine ⟨fun hv hj hfn hr => ?_, fun hv hj => ?_, fun hv => ?_, fun hv hp => ?_⟩
  · have hfound : (s.dropEntry e).job? (field e.raw 12 2) = some j := hj
    refine runs_of_completion (u := (s.dropEntry e).endJob id fun j => { j with cancelled := true }) 0 0 id hd (exec_of_visible rfl hv ?_)
      ((Kept.refl s).dropEntry.endJob).inv ?_ ?_ fun t hwork hmem _ hdone => ⟨⟨{ j.fencedOff with cancelled := true }, ?_, rfl, rfl⟩, hdone, ?_⟩
    · simp only [hfound, hfn, hr, ne_eq, not_true_eq_false, if_false, reduceCtorEq]
      rfl
    · rw [State.func, State.host_endJob]
      rfl
    · exact State.cqOpen_congr (s := s.dropEntry e) _ (State.host_endJob ..) (State.modJob_mode ..) (State.modJob_cfg ..)
    · rw [State.job?, hwork]
      exact State.job?_endJob hfound hr _
    · rw [hmem, State.mem_endJob]
      rfl
  · have hfound : (s.dropEntry e).job? (field e.raw 12 2) = none := hj
    refine runs_of_refusal 0x53 0 id hd (exec_of_visible rfl hv ?_) fun t hwork hmem _ hdone => ⟨hwork, hdone, hmem⟩
    simp only [hfound]
    rfl
  · refine runs_of_refusal 0 0 0 hd ?_ fun t hwork hmem _ hdone => ⟨hwork, hdone, hmem⟩
    show execMarker s = _
    rw [execMarker, hv]
  · have hfound : (s.dropEntry e).work.programs.find (field e.raw 9 1) = some p := hp
    have hinuse : (s.dropEntry e).programInUse (field e.raw 9 1) = s.programInUse slot := rfl
    refine ⟨fun hu => ?_, fun hu => ?_⟩
    · refine runs_of_completion (u := (s.dropEntry e).clearProgram slot) 0 slot 0 hd (exec_of_visible rfl hv ?_)
        (fun h => h.dropEntry.storing (State.clearedMemory_wf h.memory slot) rfl) ?_ (State.storing_cqOpen ..)
        fun t hwork _ _ hdone => ⟨?_, hdone⟩
      · simp only [hfound, hinuse, hu, if_false, Bool.false_eq_true]
        rfl
      · rw [State.func, State.clearProgram, State.storing_host]
        rfl
      · rw [hwork]
        exact Table.find_del_same ..
    · refine runs_of_refusal 0x24 slot 0 hd (exec_of_visible rfl hv ?_) fun t hwork hmem _ hdone => ⟨hwork, hmem, hdone⟩
      simp only [hfound, hinuse, hu, if_true]
      rfl

end Sys2Proof.Machine
end

section
/-!
PROOFS. The job table: a job's entry into it (R202, R317, R320), and how a job leaves it: its completion, the groups it frees, its
receipt (R31, R324, R325, R384, R385).
-/
namespace Sys2Proof.Machine

/-! ### JOB_ENTRY -/

/-- The job of an entry enters the table and has a run record of its own (R202, R280). -/
def State.enterJob (s : State) (j : Job) : State :=
  { s with work := { s.work with jobs := s.work.jobs.put j.id.toNat j, runs := s.work.runs.put j.id.toNat { area := s.freeArea } } }

theorem State.job?_enterJob (s : State) (j : Job) : (s.enterJob j).job? j.id.toNat = some j := Table.find_put_same ..

theorem State.job?_enterJob_other (s : State) (j : Job) {i : Nat} (h : i ≠ j.id.toNat) : (s.enterJob j).job? i = s.job? i :=
  Table.find_put_other _ _ _ _ h

section
variable {s : State} {e : Entry}

/-- A job entry whose record lies in the function's intake areas enters under a free ID where the table has room. -/
theorem exec_jobEntry_of_room (hv : s.visibleEntry (fun e => e.type == 3) = some e) (hm : s.memSys.hbmFailed = false)
    (hroom : s.work.jobs.length < 256) (hin : s.inIntake e.fn (s.newJob e).recordAddr (s.newJob e).recordLen = true)
    (hlo : 64 ≤ (s.newJob e).recordLen) (hhi : (s.newJob e).recordLen ≤ 65536) (hid : (s.newJob e).id ≠ 0)
    (hfree : s.job? (s.newJob e).id.toNat = none) : exec .jobEntry s = live s ((s.dropEntry e).enterJob (s.newJob e)) := by
  have hid' : (s.newJob e).id.toNat ≠ 0 := fun h => hid (BitVec.eq_of_toNat_eq h)
  have hfree' : (s.dropEntry e).job? (s.newJob e).id.toNat = none := hfree
  show execJobEntry s = _
  rw [execJobEntry, hv]
  simp only [State.dropEntry_memSys, State.dropEntry_work, State.dropEntry_inIntake, hm, Nat.not_le.mpr hroom, hin, Nat.not_lt.mpr hlo,
    Nat.not_lt.mpr hhi, hid', hfree', Bool.not_true, Bool.or_self, decide_false, Option.isSome_none, Bool.false_eq_true, if_false]
  rfl

/-- With the table full the entry completes with TABLE_FULL. -/
theorem exec_jobEntry_of_full (hv : s.visibleEntry (fun e => e.type == 3) = some e) (hm : s.memSys.hbmFailed = false)
    (hfull : 256 ≤ s.work.jobs.length) : exec .jobEntry s =
      live s ((s.dropEntry e).complete e.fn 3 0x4A e.tag (jobBody (s.newJob e).id.toNat 0 0 0 0 (s.newJob e).complTag)) := by
  show execJobEntry s = _
  rw [execJobEntry, hv]
  simp only [State.dropEntry_memSys, State.dropEntry_work, hm, hfull, Bool.false_eq_true, if_false, if_true]

end

/-- Settles O28: the entry leaves the list, and its job enters the table or completes. -/
theorem jobsEnterTheTable : Obligations.JobsEnterTheTable := by
  intro s e hd hv hm j
  refine ⟨fun hroom hin hlo hhi hid hfree => ?_, fun hfull => ?_⟩
  · refine runs_of_exec_live hd (exec_jobEntry_of_room hv hm hroom hin hlo hhi hid hfree)
      ⟨State.job?_enterJob _ j, rfl, rfl, fun i hi => State.job?_enterJob_other _ j hi, rfl, rfl, rfl⟩
  · refine runs_of_exec_live hd (exec_jobEntry_of_full hv hm hfull)
      ⟨State.completed_dropEntry (State.completed_complete _ _ _ _ _ _ _ _), ?_, ?_⟩
    · exact State.complete_keeps _ State.work (fun _ _ => rfl) _ _ _ _ _ _ _
    · exact State.complete_keeps _ State.mem (fun _ _ => rfl) _ _ _ _ _ _ _

/-! ### JOB_COMPLETION (R325) -/

/-- The state but for the work, the groups, the clusters and the host's locks and areas, which a job that ends lets go. -/
def State.besideRuns (s : State) : State :=
  { s with work := State.reset.work, groups := [], clusters := [], host := { s.host with locks := [], areas := [] } }

section
variable {s t : State}

theorem mem_of_besideRuns (h : t.besideRuns = s.besideRuns) : t.mem = s.mem := (congrArg State.mem h :)

theorem func_of_besideRuns (h : t.besideRuns = s.besideRuns) (fn : Nat) : t.func fn = s.func fn :=
  (congrArg (fun u : State => u.func fn) h :)

theorem cqOpen_of_besideRuns (h : t.besideRuns = s.besideRuns) (fn : Nat) : t.cqOpen fn = s.cqOpen fn :=
  (congrArg (fun u : State => u.cqOpen fn) h :)

theorem inv_of_besideRuns (h : t.besideRuns = s.besideRuns) (hj : s.work.jobs.rising → t.work.jobs.rising) (hi : s.Inv) : t.Inv where
  memory := by rw [mem_of_besideRuns h]; exact hi.memory
  hostRam := by rw [show t.host.hostRam = s.host.hostRam from (congrArg (fun u : State => u.host.hostRam) h :)]; exact hi.hostRam
  flash := by rw [show t.flash = s.flash from (congrArg State.flash h :)]; exact hi.flash
  jobs := hj hi.jobs

end

section
variable (s : State)

/-- A run of steps on the groups and clusters leaves the rest and the work alone. -/
theorem State.forAll_beside {f : State → Nat → State} (h : ∀ u x, (f u x).besideRuns = u.besideRuns ∧ (f u x).work = u.work) (l : List Nat) :
    (s.forAll l f).besideRuns = s.besideRuns ∧ (s.forAll l f).work = s.work :=
  ⟨State.forAll_keeps State.besideRuns (fun u x => (h u x).1) l s, State.forAll_keeps State.work (fun u x => (h u x).2) l s⟩

theorem State.markResident_beside (j : Job) (p : Program) :
    (s.markResident j p).besideRuns = s.besideRuns ∧ (s.markResident j p).work = s.work := by
  unfold State.markResident
  refine s.forAll_beside (fun _ _ => ?_) _
  exact ⟨rfl, rfl⟩

/-- A cluster whose job let it go. -/
def Cluster.letGo (c : Cluster) : Cluster := { c with state := .idle, transfers := [], due := [] }

/-- One group of a job let go. -/
def State.freeGroup (p : Nat) : State :=
  (s.modGroup p fun g => { g with job := 0, logical := 0, set := 0 }).forAll (groupClusters p) fun s k => s.modCluster k Cluster.letGo

theorem State.freeGroups_eq (j : Job) : s.freeGroups j = s.forAll j.groups State.freeGroup := rfl

theorem State.freeGroup_beside (p : Nat) : (s.freeGroup p).besideRuns = s.besideRuns ∧ (s.freeGroup p).work = s.work := by
  unfold State.freeGroup
  generalize hu : s.modGroup p _ = u
  obtain ⟨hrest, hwork⟩ := u.forAll_beside (f := fun s k => s.modCluster k Cluster.letGo) (fun _ _ => ⟨rfl, rfl⟩) (groupClusters p)
  subst hu
  exact ⟨hrest, hwork⟩

theorem State.freeGroup_group (p q : Nat) :
    (s.freeGroup p).group q = (s.modGroup p fun g => { g with job := 0, logical := 0, set := 0 }).group q := by
  unfold State.freeGroup
  refine State.forAll_keeps (fun u : State => u.group q) (fun _ _ => ?_) _ _
  rfl

/-- Every group of the job is free. -/
theorem State.freeGroups_job {j : Job} {q : Nat} (hq : q ∈ j.groups) : ((s.freeGroups j).group q).job = 0 := by
  rw [State.freeGroups_eq]
  refine foldl_establishes (R := fun _ : State => True) (Q := fun u : State => (u.group q).job = 0) hq (fun _ _ _ => trivial)
    (fun u _ => ?_) (fun u p _ hp hu => ?_) trivial
  · rw [State.freeGroup_group, State.group_modGroup]
  · rwa [State.freeGroup_group, State.group_modGroup_other _ _ _ _ hp.symm]

/-- A job that lets go of its groups, extents and locks leaves the table (R88, R313). -/
theorem State.releaseAll_beside (id : Nat) (j : Job) : (s.releaseAll id j).besideRuns = s.besideRuns ∧
    (s.releaseAll id j).work.jobs = s.work.jobs.del id := by
  let u : State := { s with work := { s.work with
    kcDir := (s.work.kcDir.map fun e => { e with jobs := e.jobs.filter (· != id) }).filter fun e => e.jobs != []
    jobs := s.work.jobs.del id, runs := s.work.runs.del id, completing := s.work.completing.del id } }
  obtain ⟨hrest, hwork⟩ := u.forAll_beside State.freeGroup_beside j.groups
  exact ⟨hrest, congrArg WorkUnit.jobs hwork⟩

theorem State.releaseAll_job (id : Nat) {j : Job} {q : Nat} (hq : q ∈ j.groups) : ((s.releaseAll id j).group q).job = 0 :=
  State.freeGroups_job _ hq

/-- Logging a receipt changes the jobs' logs alone (R276). -/
theorem State.logReceipt_eq (r : JobRun) (serial fn : Nat) :
    s.logReceipt r serial fn = { s with work := { s.work with jobLogs := (s.logReceipt r serial fn).work.jobLogs } } := by
  unfold State.logReceipt
  exact List.foldlRecOn (motive := fun u : State => u = { s with work := { s.work with jobLogs := u.work.jobLogs } }) _ _ rfl
    fun u hu x _ => by rw [hu]

/-- A receipt is owed, and stands in the logs of the groups its job released on (R31, R276). -/
def State.oweReceipt (d : ReceiptDue) : State :=
  let t := s.logReceipt d.run d.serial d.job.fn
  { t with work := { t.work with receiptsDue := t.work.receiptsDue ++ [d] } }

theorem State.oweReceipt_eq (d : ReceiptDue) : s.oweReceipt d =
    { s with work := { s.work with jobLogs := (s.oweReceipt d).work.jobLogs, receiptsDue := (s.oweReceipt d).work.receiptsDue } } := by
  unfold State.oweReceipt
  rw [State.logReceipt_eq]

/-- The next serial is taken where the job owes a receipt (R386). -/
def State.takeSerial (j : Job) : State := if j.lastOut.isSome then s.nextSerial.2 else s

theorem State.takeSerial_beside (j : Job) : (s.takeSerial j).besideRuns = s.besideRuns ∧ (s.takeSerial j).work.jobs = s.work.jobs :=
  ⟨keeps_ite State.besideRuns rfl rfl, keeps_ite (fun u : State => u.work.jobs) rfl rfl⟩

/-- The receipt a finished job is owed (R385). -/
def State.receiptOf (id : Nat) (j : Job) : ReceiptDue :=
  { job := j, run := s.run id, status := s.finalStatus j, serial := s.nextSerial.1, prog := s.programOf j
    ksDigest := ((s.keySet? (s.programOf j).ksid).map (·.digest)).getD (List.replicate 32 0) }

/-- A job has left the table: its groups, extents and locks are free, and its receipt is owed. -/
def State.closeJob (id : Nat) (j : Job) : State :=
  let t := s.takeSerial j
  let t := if s.finalStatus j = 0 && (s.programOf j).load then t.markResident j (s.programOf j) else t
  let t := t.releaseAll id j
  if j.lastOut.isSome then t.oweReceipt (s.receiptOf id j) else t

/-- The body of the final record of a job (R324). -/
def State.finalBody (id : Nat) (j : Job) : List Byte :=
  jobBody id (j.releaseMark.getD 0) (s.run id).restarts (if s.finalStatus j = 0x4C then (s.run id).kind else 0)
    (if j.lastOut.isSome then s.nextSerial.1 else 0) j.complTag

/-- A finished job leaves the table and completes with its status (R325). -/
theorem State.finishJob_eq (id : Nat) {j : Job} (hs : j.silent = false) :
    s.finishJob id j = (s.closeJob id j).complete j.fn 3 (s.finalStatus j) j.tag (s.finalBody id j) j.lastOut.isSome id := by
  unfold State.finishJob State.closeJob State.takeSerial State.finalBody
  cases j.lastOut.isSome
  · simp only [hs, Bool.false_eq_true, if_false]
  · simp only [hs, Bool.false_eq_true, if_false, if_true]
    rfl

theorem State.closeJob_spec (id : Nat) (j : Job) : (s.closeJob id j).besideRuns = s.besideRuns ∧
    (s.closeJob id j).work.jobs = s.work.jobs.del id ∧ ∀ q ∈ j.groups, ((s.closeJob id j).group q).job = 0 := by
  unfold State.closeJob
  extract_lets t₀ t₁ t₂
  obtain ⟨hrest₀, hjobs₀⟩ := s.takeSerial_beside j
  obtain ⟨hrest₁, hjobs₁⟩ : t₁.besideRuns = s.besideRuns ∧ t₁.work.jobs = s.work.jobs := by
    obtain ⟨hmark, hwork⟩ := t₀.markResident_beside j (s.programOf j)
    exact ⟨keeps_ite State.besideRuns (hmark.trans hrest₀) hrest₀,
      keeps_ite (fun u : State => u.work.jobs) ((congrArg WorkUnit.jobs hwork).trans hjobs₀) hjobs₀⟩
  obtain ⟨hrest₂, hjobs₂⟩ := t₁.releaseAll_beside id j
  have hfree (q : Nat) (hq : q ∈ j.groups) : (t₂.group q).job = 0 := t₁.releaseAll_job id hq
  rw [hjobs₁] at hjobs₂
  split
  · rw [State.oweReceipt_eq]
    exact ⟨hrest₂.trans hrest₁, hjobs₂, hfree⟩
  · exact ⟨hrest₂.trans hrest₁, hjobs₂, hfree⟩

/-! ### Completions of a job -/

/-- Completing changes no group and no memory. -/
theorem State.complete_group (fn ty st : Nat) (tag : Word32) (b : List Byte) (r : Bool) (id q : Nat) :
    (s.complete fn ty st tag b r id).group q = s.group q :=
  s.complete_keeps (fun u => u.group q) (fun _ _ => rfl) _ _ _ _ _ _ _

theorem State.complete_mem (fn ty st : Nat) (tag : Word32) (b : List Byte) (r : Bool) (id : Nat) :
    (s.complete fn ty st tag b r id).mem = s.mem :=
  s.complete_keeps State.mem (fun _ _ => rfl) _ _ _ _ _ _ _

theorem State.complete_work (fn ty st : Nat) (tag : Word32) (b : List Byte) (r : Bool) (id : Nat) :
    (s.complete fn ty st tag b r id).work = s.work :=
  s.complete_keeps State.work (fun _ _ => rfl) _ _ _ _ _ _ _

variable {job : BitVec 16} {j : Job}

/-- A job that has ended completes, leaves the table and frees its groups. -/
theorem jobCompletion_runs_of_ended (hd : s.defined) (hj : s.job? job.toNat = some j)
    (hend : j.phase = .finished ∨ (j.phase = .fencedTerminate ∧ 1 ≤ (s.run job.toNat).fills)) (hs : j.silent = false) :
    Runs (.jobCompletion job) s fun t => t.job? job.toNat = none ∧ (∀ q ∈ j.groups, (t.group q).job = 0) ∧
      Completed s t j.fn 3 (s.finalStatus j) ∧ t.mem = s.mem := by
  obtain ⟨hrest, hjobs, hfree⟩ := s.closeJob_spec job.toNat j
  have hexec : exec (.jobCompletion job) s = live s (s.finishJob job.toNat j) := by
    show execJobCompletion job s = _
    rw [execJobCompletion, hj]
    exact congrArg (live s) (if_pos (by simpa using hend))
  rw [s.finishJob_eq _ hs] at hexec
  refine runs_of_exec_live hd hexec ⟨?_, fun q hq => ?_, ?_, (State.complete_mem ..).trans (mem_of_besideRuns hrest)⟩
  · rw [State.job?, State.complete_work, hjobs, Table.find_del_same]
  · rw [State.complete_group, hfree q hq]
  · exact (State.completed_complete _ _ _ _ _ _ _ _).of_same
      (inv_of_besideRuns hrest fun h => hjobs ▸ Table.rising_del _ _ h) (func_of_besideRuns hrest _) (cqOpen_of_besideRuns hrest _)

/-- A released beat completes with a release record. -/
theorem jobCompletion_runs_of_released {x : Nat × Nat} (hd : s.defined) (hj : s.job? job.toNat = some j) (hr : j.phase = .running)
    (hs : j.silent = false) (hx : s.work.completing.find job.toNat = some x) :
    Runs (.jobCompletion job) s fun t => t.work.completing.find job.toNat = none ∧ t.job? job.toNat = some j ∧
      Completed s t j.fn 0x13 0 ∧ t.mem = s.mem := by
  let u : State := { s with work := { s.work with completing := s.work.completing.del job.toNat } }
  refine runs_of_exec_live hd (t := u.complete j.fn 0x13 0 j.tag
    (jobBody job.toNat (j.releaseMark.getD 0) (u.run job.toNat).restarts 0 0 j.complTag) false job.toNat) ?_ ⟨?_, ?_, ?_, State.complete_mem ..⟩
  · show execJobCompletion job s = _
    rw [execJobCompletion, hj]
    simp only [hr, hx, hs, reduceCtorEq, if_false, decide_false, Bool.false_and, Bool.or_self, Bool.false_eq_true]
    rfl
  · rw [State.complete_work]
    exact Table.find_del_same ..
  · rw [State.job?, State.complete_work]
    exact hj
  · exact (u.completed_complete _ _ _ _ _ _ _).of_same (fun h => ⟨h.memory, h.hostRam, h.flash, h.jobs⟩) rfl rfl

end

/-! ### EXTENT_DIGEST_DONE (R31, R366, R385) -/

/-- A receipt item delivered changes the host unit alone. -/
theorem State.receiptItem_besideHost (s : State) (fn kind : Nat) (b : List Byte) (job : Nat) :
    (s.receiptItem fn kind b job).besideHost = s.besideHost :=
  keeps_ite _ rfl (keeps_ite _ rfl rfl)

/-- Settles O32: what a completion makes of the jobs, and how a receipt is signed or waits. -/
theorem jobsCompleteAndFree : Obligations.JobsCompleteAndFree := by
  intro s job j hd
  refine ⟨fun hj hend hs => jobCompletion_runs_of_ended s hd hj hend hs,
    fun x hj hr hs hx => jobCompletion_runs_of_released s hd hj hr hs hx, fun d hdue => ⟨fun hok => ?_, fun hok => ?_⟩⟩
  · let u : State := { s.draw 32 with work := { s.work with receiptsDue := s.work.receiptsDue.filter fun x => x.serial != d.serial } }
    let item := s.receiptBytes d ++ signature "LNM-KENTIA" (s.receiptBytes d) s.sec.drbgPos
    have hexec : exec (.extentDigestDone job) s = live s (u.receiptItem d.job.fn 1 item job.toNat) := by
      show execExtentDigestDone job s = _
      rw [execExtentDigestDone, hdue]
      exact congrArg (live s) (if_neg (by simp [hok]))
    have hhost := u.receiptItem_besideHost d.job.fn 1 item job.toNat
    exact runs_of_exec_live hd hexec ⟨(congrArg (fun t : State => t.sec.drbgPos) hhost :), (congrArg (fun t : State => t.work.receiptsDue) hhost :),
      (congrArg State.mem hhost :)⟩
  · refine runs_of_exec_live (t := s.restartTests) hd ?_ ⟨rfl, rfl, rfl⟩
    show execExtentDigestDone job s = _
    rw [execExtentDigestDone, hdue]
    exact congrArg (live s) (if_pos (by simp [hok]))

end Sys2Proof.Machine
end

section
/-!
PROOFS. Host access to HBM (R311 to R314, R321): which bytes a host write stores and a host read answers, through BAR2 and by a transfer.
-/
namespace Sys2Proof.Machine

/-! ### Bytes written where they are taken -/

/-- Device memory after those of the bytes `cells` that are taken. -/
def Memory.writeTaken (m : Memory) (takes : Nat → Bool) (cells : List (Nat × Byte)) : Memory :=
  cells.foldl (fun m e => if takes e.1 then m.write e.1 e.2 else m) m

theorem Memory.read_writeTaken_other {m : Memory} {takes : Nat → Bool} {cells : List (Nat × Byte)} {x : Nat}
    (h : ∀ e ∈ cells, e.1 = x → takes x = false) : (m.writeTaken takes cells).read x = m.read x := by
  refine List.foldlRecOn (motive := fun u : Memory => u.read x = m.read x) cells _ rfl fun u hu e he => ?_
  by_cases hx : e.1 = x
  · rw [if_neg (by simp [hx, h e he hx])]
    exact hu
  · exact keeps_ite (fun u : Memory => u.read x) ((Memory.read_write_other _ _ _ _ (Ne.symm hx)).trans hu) hu

theorem Memory.read_writeTaken_same {m : Memory} {takes : Nat → Bool} {cells : List (Nat × Byte)} {x : Nat} {b : Byte} (hm : m.wf = true)
    (hnodup : (cells.map (·.1)).Nodup) (hmem : (x, b) ∈ cells) (ht : takes x = true) : (m.writeTaken takes cells).read x = b := by
  induction cells generalizing m with
  | nil => cases hmem
  | cons e l ih =>
    obtain ⟨hfresh, hl⟩ := List.nodup_cons.mp hnodup
    rcases List.mem_cons.mp hmem with rfl | hmem
    · have hrest : ((m.write x b).writeTaken takes l).read x = (m.write x b).read x :=
        Memory.read_writeTaken_other fun e he hx => absurd (hx ▸ List.mem_map_of_mem (f := (·.1)) he) hfresh
      rw [Memory.writeTaken, List.foldl_cons, if_pos ht]
      exact hrest.trans (Memory.read_write_same _ _ _ hm)
    · refine ih (m := if takes e.1 then m.write e.1 e.2 else m) ?_ hl hmem
      split
      · exact Memory.write_wf _ _ _ hm
      · exact hm

/-- The bytes of a list with the addresses they go to from `a` on. -/
def placed (a : Nat) (data : List Byte) : List (Nat × Byte) := data.zipIdx.map fun e => (a + e.2, e.1)

theorem mem_placed {a : Nat} {data : List Byte} {e : Nat × Byte} : e ∈ placed a data ↔ ∃ i, e.1 = a + i ∧ data[i]? = some e.2 := by
  obtain ⟨x, b⟩ := e
  simp only [placed, List.mem_map, Prod.mk.injEq, Prod.exists, List.mem_zipIdx_iff_getElem?]
  constructor
  · rintro ⟨c, i, hi, rfl, rfl⟩
    exact ⟨i, rfl, hi⟩
  · rintro ⟨i, rfl, hi⟩
    exact ⟨b, i, hi, rfl, rfl⟩

theorem placed_nodup (a : Nat) (data : List Byte) : ((placed a data).map (·.1)).Nodup := by
  have hmap : (placed a data).map (·.1) = (List.range' 0 data.length).map (a + ·) := by
    rw [placed, List.map_map, ← List.zipIdx_map_snd, List.map_map]
    rfl
  rw [hmap]
  exact List.Nodup.map (fun x y h => Nat.add_left_cancel h) List.nodup_range'

/-! ### Host writes and reads (R313, R314) -/

section
variable (s : State) (fn a : Nat) (data : List Byte)

/-- The write covers line `ln` whole with bytes it may write. -/
def State.writesWhole (ln : Nat) : Bool :=
  (List.range 64).all fun j => decide (a ≤ 64 * ln + j) && decide (64 * ln + j < a + data.length) && s.byteAllowed fn true (64 * ln + j)

/-- The write takes the byte at `i`: it is allowed, and its line is not poisoned or is written whole (R255). -/
def State.writeTakes (i : Nat) : Bool := s.byteAllowed fn true i && (!s.mem.linePoisoned i || s.writesWhole fn a data (i / 64))

theorem State.hostWrite_read (x : Nat) :
    (s.hostWrite fn a data).2.mem.read x = (s.mem.writeTaken (s.writeTakes fn a data) (placed a data)).read x := rfl

/-- A host write changes device memory alone. -/
theorem State.hostWrite_eq : (s.hostWrite fn a data).2 = { s with mem := (s.hostWrite fn a data).2.mem } := rfl

end

section
variable {s : State} {fn a : Nat} {data : List Byte}

/-- A byte outside the write, or one the function may not write, stays. -/
theorem State.hostWrite_keeps {x : Nat} (h : s.byteAllowed fn true x = false ∨ x < a ∨ a + data.length ≤ x) :
    (s.hostWrite fn a data).2.mem.read x = s.mem.read x := by
  rw [State.hostWrite_read]
  refine Memory.read_writeTaken_other fun e he hx => ?_
  obtain ⟨i, hi, hget⟩ := mem_placed.mp he
  have hlt : i < data.length := (List.getElem?_eq_some_iff.mp hget).1
  rcases h with h | h | h
  · simp [State.writeTakes, h]
  all_goals omega

/-- An allowed byte of a line that is not poisoned is stored. -/
theorem State.hostWrite_stores {i : Nat} {b : Byte} (hm : s.mem.wf = true) (hi : data[i]? = some b)
    (hallowed : s.byteAllowed fn true (a + i) = true) (hclean : s.mem.linePoisoned (a + i) = false) :
    (s.hostWrite fn a data).2.mem.read (a + i) = b := by
  rw [State.hostWrite_read]
  exact Memory.read_writeTaken_same hm (placed_nodup a data) (mem_placed.mpr ⟨i, rfl, hi⟩) (by simp [State.writeTakes, hallowed, hclean])

/-- A host write keeps device memory canonical. -/
theorem State.hostWrite_wf (hm : s.mem.wf = true) : (s.hostWrite fn a data).2.mem.wf = true := (Kept.refl s).hostWrite.memory hm

theorem State.hostRead_length (s : State) (fn a n : Nat) : (s.hostRead fn a n).1.length = n := by simp [State.hostRead]

/-- What a host read answers for the byte at `x`: all ones where the function may not read it or its line is poisoned. -/
def State.answered (s : State) (fn x : Nat) : Byte :=
  if s.byteAllowed fn false x && !s.mem.linePoisoned x then s.mem.read x else 0xFF

theorem State.hostRead_eq (s : State) (fn a n : Nat) : (s.hostRead fn a n).1 = (List.range n).map fun i => s.answered fn (a + i) := by
  unfold State.hostRead State.answered
  simp only [List.map_map, Function.comp_def]

theorem State.hostRead_getElem? (s : State) (fn a : Nat) {n i : Nat} (hi : i < n) :
    (s.hostRead fn a n).1[i]? = some (s.answered fn (a + i)) := by
  rw [State.hostRead_eq, List.getElem?_map, List.getElem?_range hi]
  rfl

/-! ### Counting -/

/-- A host write with its refusal counted. -/
def State.writeCounted (s : State) (fn a : Nat) (data : List Byte) (short : Bool) : State :=
  if (s.hostWrite fn a data).1 || short then (s.hostWrite fn a data).2.countRefused fn else (s.hostWrite fn a data).2

theorem State.writeCounted_mem (short : Bool) : (s.writeCounted fn a data short).mem = (s.hostWrite fn a data).2.mem :=
  keeps_ite State.mem rfl rfl

theorem State.writeCounted_eq (short : Bool) : s.writeCounted fn a data short =
    { s with host := (s.writeCounted fn a data short).host, mem := (s.writeCounted fn a data short).mem } := by
  unfold State.writeCounted
  split <;> rfl

end

/-! ### BAR2 (R309, R311, R314) -/

section
variable (s : State) (fn o : Nat)

theorem State.bar2Addr_fst_add (i : Nat) : (s.bar2Addr fn (o + i)).1 = (s.bar2Addr fn o).1 + i := by
  unfold State.bar2Addr
  split
  · exact (Nat.add_assoc _ _ _).symm
  · exact (Nat.add_assoc _ _ _).symm

/-- The window holds every byte before one it holds. -/
theorem State.bar2Addr_snd_of_le {i j : Nat} (hij : i ≤ j) (h : (s.bar2Addr fn (o + j)).2 = true) : (s.bar2Addr fn (o + i)).2 = true := by
  simp only [State.bar2Addr] at h ⊢
  split at h
  next hfn => rw [if_pos hfn]
  next hfn =>
    rw [if_neg hfn]
    simp only [decide_eq_true_eq] at h ⊢
    omega

theorem State.bar2Span_le (n : Nat) : s.bar2Span fn o n ≤ n :=
  ((List.takeWhile_prefix _).length_le).trans (List.length_range ..).le

/-- The bytes of an access that the window holds are those before its end. -/
theorem State.lt_bar2Span_iff {i n : Nat} (hi : i < n) : i < s.bar2Span fn o n ↔ (s.bar2Addr fn (o + i)).2 = true := by
  let p := fun i => (s.bar2Addr fn (o + i)).2
  constructor
  · intro h
    have hmem : ((List.range n).takeWhile p)[i]'h ∈ (List.range n).takeWhile p := List.getElem_mem _
    have hget : ((List.range n).takeWhile p)[i]'h = i := by
      rw [(List.takeWhile_prefix p).getElem h, List.getElem_range]
    have hp : p (((List.range n).takeWhile p)[i]'h) = true := List.mem_takeWhile_imp hmem
    rwa [hget] at hp
  · intro h
    have hall : ∀ j ∈ List.range (i + 1), p j = true := fun j hj =>
      s.bar2Addr_snd_of_le fn o (Nat.le_of_lt_succ (List.mem_range.mp hj)) h
    have hsplit : List.range n = List.range (i + 1) ++ (List.range' (i + 1) (n - (i + 1))) := by
      rw [List.range_eq_range', List.range_eq_range']
      have happend := List.range'_append (s := 0) (m := i + 1) (n := n - (i + 1)) (step := 1)
      rw [Nat.one_mul, Nat.zero_add, Nat.add_sub_cancel' hi] at happend
      exact happend.symm
    have hlen : (i + 1) ≤ ((List.range n).takeWhile p).length := by
      rw [hsplit, List.takeWhile_append_of_pos hall, List.length_append, List.length_range]
      exact Nat.le_add_right _ _
    exact hlen

end

/-- Refusals and poisoned lines of a read are counted (R314). -/
def State.readCounted (s : State) (fn : Nat) (refused : Bool) (bad : Nat) : State :=
  let t := if refused then s.countRefused fn else s
  if bad = 0 then t else t.countPoison fn

/-- Counting changes the functions alone. -/
theorem State.readCounted_keeps {β : Type} (g : State → β) (h : ∀ (u : State) n f, g (u.modFunc n f) = g u) (s : State) (fn : Nat)
    (refused : Bool) (bad : Nat) : g (s.readCounted fn refused bad) = g s := by
  have hrefused : g (if refused then s.countRefused fn else s) = g s := keeps_ite g (h _ _ _) rfl
  refine keeps_ite g hrefused (Eq.trans ?_ hrefused)
  rw [State.countPoison, State.fire, h, h]

/-- The bytes of the last read. -/
def State.showing (s : State) (data : List Byte) : State := { s with host := { s.host with lastRead := data } }

/-- The bytes a read shows: memory's as far as the window and the table of R313 allow, and ones past them. -/
theorem State.shown_getElem? (s : State) (fn a : Nat) {n len i : Nat} (hn : n ≤ len) (hi : i < len) :
    ((s.hostRead fn a n).1 ++ List.replicate (len - n) 0xFF)[i]? =
      some (if decide (i < n) && s.byteAllowed fn false (a + i) && !s.mem.linePoisoned (a + i) then s.mem.read (a + i) else 0xFF) := by
  by_cases h : i < n
  · rw [List.getElem?_append_left (by rwa [State.hostRead_length]), State.hostRead_getElem? _ _ _ h, State.answered]
    simp only [h, decide_true, Bool.true_and]
  · rw [List.getElem?_append_right (by rw [State.hostRead_length]; omega), State.hostRead_length, List.getElem?_replicate, if_pos (by omega)]
    simp only [h, decide_false, Bool.false_and, Bool.false_eq_true, if_false]

/-- Settles O40: a write stores what lies before the window's end, byte by byte, and a read answers the same bytes. -/
theorem windowMovesAllowedBytes : Obligations.WindowMovesAllowedBytes := by
  intro s fn o data len on hd ho a inside
  have hopen : ¬ (!s.hostOpen) = true := by simp [ho]
  refine ⟨fun hide hon => ?_, fun hide => ?_, ?_⟩
  · exact runs_of_live_unless hd (congrArg (live s) (if_congr Iff.rfl rfl (if_pos (by simp [hide, hon])))) hopen ⟨rfl, State.func_modFunc ..⟩
  · let n := s.bar2Span fn o.toNat data.length
    have hstream : ¬ (s.ideRequired && !on) = true := by rcases hide with h | h <;> simp [h]
    have hexec : exec (.bar2Write fn o data on) s =
        live s (if !s.hostOpen then s else s.writeCounted fn a (data.take n) (n < data.length)) :=
      congrArg (live s) (if_congr Iff.rfl rfl (if_neg hstream))
    refine runs_of_live_unless hd hexec hopen ⟨fun i b hinv hi hin hallowed hclean => ?_, fun x hx => ?_, State.writeCounted_eq _⟩
    · have hlt : i < n := (s.lt_bar2Span_iff fn o.toNat (List.getElem?_eq_some_iff.mp hi).1).mpr hin
      rw [State.writeCounted_mem]
      exact State.hostWrite_stores hinv.memory (by rw [List.getElem?_take, if_pos hlt, hi]) hallowed hclean
    · rw [State.writeCounted_mem]
      refine State.hostWrite_keeps (hx.imp_right (Or.imp_right fun h => ?_))
      have := List.length_take_le n data
      have := s.bar2Span_le fn o.toNat data.length
      simp only [List.length_take]
      omega
  · let n := if s.ideRequired && !on then 0 else s.bar2Span fn o.toNat len
    have hn : n ≤ len := by
      unfold n
      split
      · exact Nat.zero_le _
      · exact s.bar2Span_le fn o.toNat len
    let u := s.showing ((s.hostRead fn a n).1 ++ List.replicate (len - n) 0xFF)
    let t := u.readCounted fn ((s.hostRead fn a n).2.1 || n < len) (s.hostRead fn a n).2.2
    have hexec : exec (.bar2Read fn o len on) s = live s (if !s.hostOpen then s else t) := rfl
    have hread : t.host.lastRead = (s.hostRead fn a n).1 ++ List.replicate (len - n) 0xFF :=
      u.readCounted_keeps (fun u => u.host.lastRead) (fun _ _ _ => rfl) fn _ _
    refine runs_of_live_unless hd hexec hopen ⟨u.readCounted_keeps State.mem (fun _ _ _ => rfl) fn _ _, ?_, fun i hi => ?_⟩
    · rw [hread, List.length_append, State.hostRead_length, List.length_replicate]
      omega
    · have hin : decide (i < n) = ((!s.ideRequired || on) && inside i) := by
        have hspan := s.lt_bar2Span_iff fn o.toNat hi
        unfold n
        cases s.ideRequired <;> cases on <;> simp [hspan, inside]
      rw [hread, s.shown_getElem? fn a hn hi, hin]

end Sys2Proof.Machine
end

section
/-!
PROOFS. Transfers (R319, R321): their start, and what the end of one leaves in HBM, in host memory and in the function's ring.
-/
namespace Sys2Proof.Machine

/-! ### Completions beside counters -/

/-- What of a function its completion ring rests on. -/
def Func.opening (f : Func) : Word64 × HostRing × List BacklogItem × Bool × List (BitVec 8) :=
  (f.seq, f.cq, f.cqBacklog, f.d3hot, f.streams)

/-- The function's ring, and what opens it (R322, R323, R330). -/
def State.ringView (s : State) (fn : Nat) : (Word64 × HostRing × List BacklogItem × Bool × List (BitVec 8)) × Bool × ModeUnit × ConfigUnit :=
  ((s.func fn).opening, s.host.pcieHeld, s.mode, s.cfg)

theorem State.modFunc_ringView (s : State) (n fn : Nat) {f : Func → Func} (h : ∀ x, (f x).opening = x.opening) :
    (s.modFunc n f).ringView fn = s.ringView fn := by
  have hfunc : ((s.modFunc n f).func fn).opening = (s.func fn).opening := by
    by_cases hn : fn = n
    · rw [hn, State.func_modFunc, h]
    · rw [State.func_modFunc_other _ _ _ _ hn]
  simp only [State.ringView, hfunc]
  rfl

theorem State.cqOpen_of_ringView {s u : State} {fn : Nat} (hview : u.ringView fn = s.ringView fn) : u.cqOpen fn = s.cqOpen fn := by
  have hcq : (u.func fn).cq = (s.func fn).cq := congrArg (·.1.2.1) hview
  have hbacklog : (u.func fn).cqBacklog = (s.func fn).cqBacklog := congrArg (·.1.2.2.1) hview
  have hd3 : (u.func fn).d3hot = (s.func fn).d3hot := congrArg (·.1.2.2.2.1) hview
  have hstreams : (u.func fn).streams = (s.func fn).streams := congrArg (·.1.2.2.2.2) hview
  have hheld : u.host.pcieHeld = s.host.pcieHeld := congrArg (·.2.1) hview
  have hmode : u.mode = s.mode := congrArg (·.2.2.1) hview
  have hcfg : u.cfg = s.cfg := congrArg (·.2.2.2) hview
  simp only [State.cqOpen, State.canSend, State.ideRequired, State.cfgNum, hcq, hbacklog, hd3, hstreams, hheld, hmode, hcfg]

/-- A completion seen from a state with the same ring, under which the ring opens alike. -/
theorem Completed.of_ringView {s u t : State} {fn ty st : Nat} (h : Completed u t fn ty st) (hinv : s.Inv → u.Inv)
    (hview : u.ringView fn = s.ringView fn) : Completed s t fn ty st where
  written hi ho := by
    have hseq : (u.func fn).seq = (s.func fn).seq := congrArg (·.1.1) hview
    have hcq : (u.func fn).cq = (s.func fn).cq := congrArg (·.1.2.1) hview
    have hw := h.written (hinv hi) ((State.cqOpen_of_ringView hview).trans ho)
    rwa [hseq, hcq] at hw
  waits hc := h.waits ((State.cqOpen_of_ringView hview).trans hc)

/-! ### Starting and ending a transfer -/

/-- The transfer an entry asks for (R321). -/
def Entry.transfer (e : Entry) : HostTransfer :=
  { fn := e.fn, tag := e.tag, toHost := e.flags % 2 == 1, hostAddr := field e.raw 16 8, devAddr := field e.raw 24 8, length := field e.raw 32 4
    seq := e.seq }

/-- A transfer has left the list of those under way. -/
def State.endTransfer (s : State) (x : HostTransfer) : State :=
  { s with host := { s.host with transfers := s.host.transfers.filter fun y => y.seq != x.seq } }

section
variable {s : State} {fn : Fin 17} {x : HostTransfer}

/-- The bytes of a transfer to the device stored, and refusals counted. -/
def State.movedIn (s : State) (x : HostTransfer) : State :=
  s.writeCounted x.fn x.devAddr (s.host.ramRead x.hostAddr x.length) false

/-- The bytes of a transfer to the host written to host memory, and refusals and poisoned lines counted. -/
def State.movedOut (s : State) (x : HostTransfer) : State :=
  let r := s.hostRead x.fn x.devAddr x.length
  State.readCounted { s with host := { s.host with hostRam := ramWriteN s.host.hostRam x.hostAddr r.1 } } x.fn r.2.1 r.2.2

theorem exec_transferComplete_in (hx : (s.host.transfers.find? fun t => t.fn == fn.val) = some x) (hdir : x.toHost = false) :
    exec (.transferComplete fn true) s =
      live s (((s.endTransfer x).movedIn x).complete fn 4 0 x.tag (transferBody x.length 0)) := by
  show execTransferComplete fn true s = _
  rw [execTransferComplete, hx, State.movedIn, State.writeCounted, Bool.or_false]
  simp only [hdir, State.moveTransfer, Bool.false_and, Bool.not_true, Bool.false_eq_true, if_false]
  rfl

theorem exec_transferComplete_out (hx : (s.host.transfers.find? fun t => t.fn == fn.val) = some x) (hdir : x.toHost = true)
    (hsend : s.canSend fn = true) :
    exec (.transferComplete fn true) s =
      live s (((s.endTransfer x).movedOut x).complete fn 4 (if (s.hostRead x.fn x.devAddr x.length).2.2 = 0 then 0 else 0x5A) x.tag
        (transferBody x.length (s.hostRead x.fn x.devAddr x.length).2.2)) := by
  show execTransferComplete fn true s = _
  rw [execTransferComplete, hx]
  simp only [hdir, hsend, State.moveTransfer, Bool.not_true, Bool.and_false, Bool.false_eq_true, if_false, if_true]
  rfl

/-! What the moves leave alone, and what they leave in memory. -/

theorem State.movedIn_ringView (s : State) (x : HostTransfer) (n : Nat) : (s.movedIn x).ringView n = s.ringView n :=
  keeps_ite (fun u : State => u.ringView n) (State.modFunc_ringView _ _ _ fun _ => rfl) rfl

theorem State.movedIn_mem (s : State) (x : HostTransfer) :
    (s.movedIn x).mem = (s.hostWrite x.fn x.devAddr (s.host.ramRead x.hostAddr x.length)).2.mem :=
  State.writeCounted_mem _

theorem State.movedIn_transfers (s : State) (x : HostTransfer) : (s.movedIn x).host.transfers = s.host.transfers :=
  keeps_ite (fun u : State => u.host.transfers) rfl rfl

theorem State.movedIn_kept (s : State) (x : HostTransfer) : Kept s (s.movedIn x) := by
  unfold State.movedIn State.writeCounted
  split
  · exact (Kept.refl s).hostWrite.countRefused
  · exact (Kept.refl s).hostWrite

theorem State.countPoison_ringView (s : State) (fn n : Nat) : (s.countPoison fn).ringView n = s.ringView n := by
  rw [State.countPoison, State.fire, State.modFunc_ringView, State.modFunc_ringView]
  · exact fun _ => rfl
  · exact fun _ => rfl

theorem State.readCounted_ringView (s : State) (fn : Nat) (refused : Bool) (bad n : Nat) :
    (s.readCounted fn refused bad).ringView n = s.ringView n := by
  have hrefused : (if refused then s.countRefused fn else s).ringView n = s.ringView n :=
    keeps_ite (fun u : State => u.ringView n) (s.modFunc_ringView _ _ fun _ => rfl) rfl
  exact keeps_ite (fun u : State => u.ringView n) hrefused ((State.countPoison_ringView _ fn n).trans hrefused)

theorem State.movedOut_ringView (s : State) (x : HostTransfer) (n : Nat) : (s.movedOut x).ringView n = s.ringView n :=
  State.readCounted_ringView _ _ _ _ n

theorem State.movedOut_keeps {β : Type} (g : State → β) (h : ∀ (u : State) n f, g (u.modFunc n f) = g u)
    (hram : ∀ u : State, ∀ ram, g { u with host := { u.host with hostRam := ram } } = g u) (s : State) (x : HostTransfer) :
    g (s.movedOut x) = g s :=
  (State.readCounted_keeps g h _ _ _ _).trans (hram _ _)

theorem State.movedOut_hostRam (s : State) (x : HostTransfer) :
    (s.movedOut x).host.hostRam = ramWriteN s.host.hostRam x.hostAddr (s.hostRead x.fn x.devAddr x.length).1 :=
  State.readCounted_keeps (fun u => u.host.hostRam) (fun _ _ _ => rfl) _ _ _ _

theorem Kept.readCounted {s0 s : State} {n bad : Nat} {refused : Bool} (h : Kept s0 s) : Kept s0 (s.readCounted n refused bad) :=
  kept_ite (kept_ite h.countRefused h) (kept_ite h.countRefused h).countPoison

theorem State.movedOut_kept (s : State) (x : HostTransfer) : Kept s (s.movedOut x) :=
  ((Kept.refl s).withRam (ramWriteN_wf _ _ _)).readCounted

/-- A completion that finds its ring closed writes no host memory. -/
theorem State.complete_hostRam_of_closed {s : State} {n : Nat} (h : s.cqOpen n = false) (ty st : Nat) (tag : Word32) (b : List Byte) (r : Bool)
    (j : Nat) : (s.complete n ty st tag b r j).host.hostRam = s.host.hostRam := by
  rw [State.complete, if_neg (by simp [h])]
  exact keeps_ite (fun u : State => u.host.hostRam) rfl rfl

/-- The first transfer of a function is the function's. -/
theorem HostTransfer.fn_of_find {l : List HostTransfer} (h : (l.find? fun t => t.fn == fn.val) = some x) : x.fn = fn := by
  simpa using List.find?_some h

/-- A transfer starts, or completes with 0x58. -/
theorem exec_transfer {e : Entry} (he : s.nextTransfer = some e) : exec .transfer s =
    live s (if s.transferRange (field e.raw 24 8) (field e.raw 16 8) (field e.raw 32 4)
      then { s.dropEntry e with host := { (s.dropEntry e).host with transfers := s.host.transfers ++ [e.transfer] } }
      else (s.dropEntry e).complete e.fn 4 0x58 e.tag (transferBody 0 0)) := by
  have hrange : (s.dropEntry e).transferRange (field e.raw 24 8) (field e.raw 16 8) (field e.raw 32 4) =
    s.transferRange (field e.raw 24 8) (field e.raw 16 8) (field e.raw 32 4) := rfl
  show execTransfer s = _
  rw [execTransfer, he]
  simp only [hrange]
  cases s.transferRange (field e.raw 24 8) (field e.raw 16 8) (field e.raw 32 4) <;> rfl

theorem transferComplete_runs_in (hd : s.defined) (hx : (s.host.transfers.find? fun t => t.fn == fn.val) = some x) (hdir : x.toHost = false) :
    Runs (.transferComplete fn true) s fun t => t.host.transfers = s.host.transfers.filter (fun y => y.seq != x.seq) ∧ Completed s t fn 4 0 ∧
      t.mem = (s.hostWrite fn x.devAddr (s.host.ramRead x.hostAddr x.length)).2.mem := by
  refine runs_of_exec_live hd (exec_transferComplete_in hx hdir) ⟨?_, ?_, ?_⟩
  · exact (State.complete_keeps _ (fun u => u.host.transfers) (fun _ _ => rfl) _ _ _ _ _ _ _).trans (State.movedIn_transfers _ x)
  · exact (State.completed_complete _ _ _ _ _ _ _ _).of_ringView
      (fun h => (State.movedIn_kept (s.endTransfer x) x).inv ⟨h.memory, h.hostRam, h.flash, h.jobs⟩) (State.movedIn_ringView _ x fn)
  · rw [State.complete_mem, State.movedIn_mem, HostTransfer.fn_of_find hx]
    rfl

theorem transferComplete_runs_out (hd : s.defined) (hx : (s.host.transfers.find? fun t => t.fn == fn.val) = some x) (hdir : x.toHost = true)
    (hsend : s.canSend fn = true) : Runs (.transferComplete fn true) s fun t =>
      t.host.transfers = s.host.transfers.filter (fun y => y.seq != x.seq) ∧ t.mem = s.mem ∧
      Completed s t fn 4 (if (s.hostRead fn x.devAddr x.length).2.2 = 0 then 0 else 0x5A) ∧
      (s.Inv → s.cqOpen fn = false → t.host.ramRead x.hostAddr x.length = (s.hostRead fn x.devAddr x.length).1) := by
  have hfn := HostTransfer.fn_of_find hx
  have hexec := exec_transferComplete_out hx hdir hsend
  have hview := (s.endTransfer x).movedOut_ringView x fn
  rw [hfn] at hexec
  refine runs_of_exec_live hd hexec ⟨?_, ?_, ?_, fun hi hc => ?_⟩
  · refine (State.complete_keeps _ (fun u => u.host.transfers) (fun _ _ => rfl) _ _ _ _ _ _ _).trans ?_
    exact (s.endTransfer x).movedOut_keeps (fun u => u.host.transfers) (fun _ _ _ => rfl) (fun _ _ => rfl) x
  · exact (State.complete_mem ..).trans ((s.endTransfer x).movedOut_keeps State.mem (fun _ _ _ => rfl) (fun _ _ => rfl) x)
  · exact (State.completed_complete _ _ _ _ _ _ _ _).of_ringView
      (fun h => (State.movedOut_kept (s.endTransfer x) x).inv ⟨h.memory, h.hostRam, h.flash, h.jobs⟩) hview
  · have hclosed : ((s.endTransfer x).movedOut x).cqOpen fn = false := (State.cqOpen_of_ringView hview).trans hc
    have hram := (State.complete_hostRam_of_closed hclosed 4 (if (s.hostRead fn x.devAddr x.length).2.2 = 0 then 0 else 0x5A) x.tag
      (transferBody x.length (s.hostRead fn x.devAddr x.length).2.2) false 0).trans (State.movedOut_hostRam _ x)
    rw [hfn] at hram
    have hlen := s.hostRead_length fn x.devAddr x.length
    exact (HostUnit.ramRead_of_written hi.hostRam hram hlen.ge).trans (List.take_of_length_le hlen.le)

end

/-- Settles O35: a transfer to the device ends as the host write of its bytes, one to the host as the host read of them. -/
theorem transfersMoveBytes : Obligations.TransfersMoveBytes := by
  intro s e fn x hd
  refine ⟨fun he => ?_, fun fin hx hdir hfin => ?_, fun hx hdir hsend => transferComplete_runs_out hd hx hdir hsend⟩
  · intro ok
    have hexec := exec_transfer he
    refine ⟨fun hok => ?_, fun hok => ?_⟩
    · exact runs_of_exec_live hd (hexec.trans (congrArg (live s) (if_pos hok))) ⟨e.transfer, rfl, rfl, rfl, rfl, rfl, rfl, rfl, rfl, rfl⟩
    · refine runs_of_exec_live hd (hexec.trans (congrArg (live s) (if_neg (Bool.eq_false_iff.mp hok)))) ⟨?_, ?_⟩
      · exact State.complete_keeps _ (fun u => u.host.transfers) (fun _ _ => rfl) _ _ _ _ _ _ _
      · exact State.completed_dropEntry (State.completed_complete _ _ _ _ _ _ _ _)
  · obtain ⟨t, ht, htransfers, hdone, hmem⟩ := transferComplete_runs_in hd hx hdir
    refine ⟨t, ht, htransfers, hdone, fun i b hinv hi hallowed hclean => ?_, fun a ha => ?_⟩
    · rw [hmem]
      exact State.hostWrite_stores hinv.memory (hfin ▸ hi) hallowed hclean
    · rw [hmem]
      have hlen : (s.host.ramRead x.hostAddr x.length).length = x.length := by simp [HostUnit.ramRead]
      exact State.hostWrite_keeps (by rwa [hlen])

end Sys2Proof.Machine
end

section
/-!
PROOFS. Fault messages at their collectors (R289 to R292, R294): the record a message opens a latch with, what a merge keeps of it, and
that what a fault leaves behind reaches no latch.
-/
namespace Sys2Proof.Machine

/-! ### The record (R294) -/

theorem RecordFields.length_words (r : RecordFields) : r.words.length = 3 := rfl

theorem recWord_record_zero (s : State) (r : RecordFields) :
    recWord (s.record r) 0 = beatOf r.fireAt % 2 ^ 48 + cycleOf r.fireAt * 2 ^ 48 := by
  have hlt : beatOf r.fireAt % 2 ^ 48 + cycleOf r.fireAt * 2 ^ 48 < 2 ^ 64 := by
    have : cycleOf r.fireAt < 65536 := Nat.mod_lt _ (by decide)
    omega
  exact (BitVec.toNat_ofNat _ _).trans (Nat.mod_eq_of_lt hlt)

/-- Where the fields of word 1 lie. -/
theorem word_one_fields {u k o j b0 b1 b2 b3 b4 b5 : Nat} (hu : u < 2 ^ 20) (hk : k < 2 ^ 8) :
    let w := (u + k * 2 ^ 20 + o * 2 ^ 28 + j * 2 ^ 40 + b0 * 2 ^ 56 + b1 * 2 ^ 57 + b2 * 2 ^ 58 + b3 * 2 ^ 59 + b4 * 2 ^ 60 + b5 * 2 ^ 61) % 2 ^ 64
    w % 2 ^ 20 = u ∧ w / 2 ^ 20 % 256 = k := by
  omega

theorem recUnit_recKind_record (s : State) (r : RecordFields) :
    recUnit (s.record r) = r.unit % 2 ^ 20 ∧ recKind (s.record r) = r.kind % 256 := by
  have hword : recWord (s.record r) 1 = (r.unit % 2 ^ 20 + r.kind % 256 * 2 ^ 20 + r.op % 4096 * 2 ^ 28 + r.job % 2 ^ 16 * 2 ^ 40 +
     r.first.toNat * 2 ^ 56 + r.overflow.toNat * 2 ^ 57 + r.merged.toNat * 2 ^ 58 + r.poisoned.toNat * 2 ^ 59 +
     r.detSuspect.toNat * 2 ^ 60 + r.injected.toNat * 2 ^ 61) % 2 ^ 64 := BitVec.toNat_ofNat _ _
  rw [recUnit, recKind, hword]
  exact word_one_fields (Nat.mod_lt _ (by decide)) (Nat.mod_lt _ (by decide))

theorem recBeat_recCycle_record (s : State) (r : RecordFields) :
    recBeat (s.record r) = beatOf r.fireAt % 2 ^ 48 ∧ recCycle (s.record r) = cycleOf r.fireAt := by
  rw [recBeat, recCycle, recWord_record_zero]
  omega

/-! ### Collectors -/

/-- The faults and the groups' collectors. -/
def State.collectors (s : State) : FaultUnit × (Nat → Collector) := (s.faults, fun p => (s.unit p).collector)

theorem collector_of_collectors {s t : State} (h : t.collectors = s.collectors) (i : CollectorId) : t.collector i = s.collector i := by
  cases i with
  | group p => exact congrFun (congrArg Prod.snd h) p
  | die k => exact congrArg (fun v => v.1.dieCollectors.at k {}) h

section
variable (s : State)

theorem State.modUnit_collectors (p : Nat) {f : GroupUnits → GroupUnits} (h : ∀ u, (f u).collector = u.collector) :
    (s.modUnit p f).collectors = s.collectors := by
  refine Prod.ext rfl (funext fun q => ?_)
  by_cases hq : q = p
  · subst hq
    simp only [State.collectors, State.unit_modUnit, h]
  · simp only [State.collectors, State.unit_modUnit_other _ _ _ _ hq]

theorem State.collector_modCollector (i : CollectorId) (f : Collector → Collector) : (s.modCollector i f).collector i = f (s.collector i) := by
  cases i with
  | group p => exact congrArg GroupUnits.collector (s.unit_modUnit p _)
  | die k => exact Table.at_put_same _ _ _ _

/-- A collector's change leaves the messages under way alone, and what lies beside collectors. -/
theorem State.modCollector_keeps {β : Type} (g : State → β) (hunits : ∀ (u : State) p f, g (u.modUnit p f) = g u)
    (hdie : ∀ u : State, ∀ d, g { u with faults := { u.faults with dieCollectors := d } } = g u) (i : CollectorId) (f : Collector → Collector) :
    g (s.modCollector i f) = g s := by
  cases i with
  | group p => exact hunits s p fun u => { u with collector := f u.collector }
  | die k => exact hdie s (s.faults.dieCollectors.modify k {} f)

theorem State.beginEpisodes_keeps {β : Type} (g : State → β) (h : ∀ (u : State) n f, g (u.modRun n f) = g u) (ids : List Nat) :
    g (s.beginEpisodes ids) = g s :=
  State.forAll_keeps g (fun _ _ => h _ _ _) _ _

/-- A message opens a closed latch (R291): its record of kind, unit and fire time goes to the device collector. -/
structure Opens (s t : State) (i : CollectorId) (word fire : Nat) : Prop where
  isOpen : (t.collector i).isOpen = true
  messages : (t.collector i).messages = satInc (s.collector i).messages
  toDevice : t.faults.toDevice = s.faults.toDevice ++ [(t.collector i).words]
  kind : recKind (t.collector i).words = word / 2 ^ 20 % 256
  unit : recUnit (t.collector i).words = word % 2 ^ 20
  beat : recBeat (t.collector i).words = fire / 65536 % 2 ^ 48
  cycle : recCycle (t.collector i).words = fire % 65536

variable {w : FaultWire} {i : CollectorId}

/-- A collector whose latch opens with a record. -/
def Collector.opened (c : Collector) (r : List Word64) : Collector := { c.hold r with isOpen := true, messages := satInc c.messages }

/-- A collector's latch opened with a record, which is on its way to the device collector. -/
def State.openLatch (i : CollectorId) (r : List Word64) : State :=
  let u := s.modCollector i fun c => c.opened r
  { u with faults := { u.faults with toDevice := u.faults.toDevice ++ [r] } }

theorem State.openLatch_collector (i : CollectorId) (r : List Word64) : (s.openLatch i r).collector i = (s.collector i).opened r := by
  refine Eq.trans ?_ (s.collector_modCollector i fun c => c.opened r)
  cases i <;> rfl

theorem State.modCollector_wires (i : CollectorId) (f : Collector → Collector) : (s.modCollector i f).faults.wires = s.faults.wires :=
  s.modCollector_keeps (fun u => u.faults.wires) (fun _ _ _ => rfl) (fun _ _ => rfl) i f

theorem State.modCollector_toDevice (i : CollectorId) (f : Collector → Collector) : (s.modCollector i f).faults.toDevice = s.faults.toDevice :=
  s.modCollector_keeps (fun u => u.faults.toDevice) (fun _ _ _ => rfl) (fun _ _ => rfl) i f

theorem State.modCollector_mem (i : CollectorId) (f : Collector → Collector) : (s.modCollector i f).mem = s.mem :=
  s.modCollector_keeps State.mem (fun _ _ _ => rfl) (fun _ _ => rfl) i f

theorem State.modCollector_work (i : CollectorId) (f : Collector → Collector) : (s.modCollector i f).work = s.work :=
  s.modCollector_keeps State.work (fun _ _ _ => rfl) (fun _ _ => rfl) i f

theorem State.collect_of_closed (hi : w.collector = some i) (hk : w.word.toNat / 2 ^ 20 % 256 ≠ 0xFF)
    (hc : (s.collector i).isOpen = false) :
    s.collect w = (s.openLatch i (s.latchRecord w)).beginEpisodes
      ((s.openLatch i (s.latchRecord w)).fencedBy (w.word.toNat / 2 ^ 20 % 256) w.jobOf) := by
  unfold State.collect
  simp only [hi, hk, hc, if_false, Bool.false_eq_true] <;> rfl

/-- The fields of the record a message opens a latch with. -/
theorem State.latchRecord_eq (w : FaultWire) : ∃ r : RecordFields, s.latchRecord w = s.record r ∧ r.fireAt = w.fireAt ∧
    r.unit = w.word.toNat % 2 ^ 20 ∧ r.kind = w.word.toNat / 2 ^ 20 % 256 := by
  unfold State.latchRecord
  exact ⟨_, rfl, rfl, rfl, rfl⟩

/-- A message that meets a closed latch opens it; memory and the messages behind it stay as they are. -/
theorem State.opens_collect (hi : w.collector = some i) (hk : w.word.toNat / 2 ^ 20 % 256 ≠ 0xFF) (hc : (s.collector i).isOpen = false) :
    Opens s (s.collect w) i w.word.toNat w.fireAt ∧ (s.collect w).faults.wires = s.faults.wires ∧ (s.collect w).mem = s.mem := by
  obtain ⟨r, hr, hfire, hunit, hkind⟩ := s.latchRecord_eq w
  rw [s.collect_of_closed hi hk hc, hr]
  generalize State.fencedBy _ _ _ = ids
  let u := s.openLatch i (s.record r)
  have hfaults : (u.beginEpisodes ids).faults = u.faults := u.beginEpisodes_keeps State.faults (fun _ _ _ => rfl) ids
  have hlatch : (u.beginEpisodes ids).collector i = u.collector i :=
    u.beginEpisodes_keeps (fun v => v.collector i) (fun _ _ _ => by cases i <;> rfl) ids
  have hcol := s.openLatch_collector i (s.record r)
  have hwords : ((u.beginEpisodes ids).collector i).words = s.record r := by
    rw [hlatch, hcol]
    rfl
  obtain ⟨hru, hrk⟩ := recUnit_recKind_record s r
  obtain ⟨hrb, hrc⟩ := recBeat_recCycle_record s r
  refine ⟨⟨?_, ?_, ?_, ?_, ?_, ?_, ?_⟩, ?_, ?_⟩
  · rw [hlatch, hcol]
    rfl
  · rw [hlatch, hcol]
    rfl
  · rw [hwords, hfaults]
    exact congrArg (· ++ [s.record r]) (s.modCollector_toDevice i _)
  · rw [hwords, hrk, hkind, Nat.mod_mod]
  · rw [hwords, hru, hunit, Nat.mod_mod]
  · rw [hwords, hrb, hfire]
    rfl
  · rw [hwords, hrc, hfire]
    rfl
  · rw [hfaults]
    exact s.modCollector_wires i _
  · exact (u.beginEpisodes_keeps State.mem (fun _ _ _ => rfl) ids).trans (s.modCollector_mem i _)

/-! ### Merging (R291) -/

/-- What a collector with an open latch keeps and counts of a message that merges into it. -/
structure Collector.Merged (c d : Collector) : Prop where
  isOpen : d.isOpen = true
  messages : d.messages = satInc c.messages
  rec0 : d.rec0 = c.rec0
  merged : d.rec1.getLsbD 58 = true

theorem Collector.merged_merge {c : Collector} (h : c.isOpen = true) (u kind : Nat) :
    c.Merged { c.merge u kind with messages := satInc c.messages } := by
  refine ⟨h, rfl, rfl, ?_⟩
  show ((c.rec1 ||| BitVec.ofNat 64 (2 ^ 58)) ||| _).getLsbD 58 = true
  rw [BitVec.getLsbD_or, BitVec.getLsbD_or, getLsbD_ofNat_two_pow]
  simp

/-- DET_SUSPECT set later leaves all of it. -/
theorem Collector.Merged.suspect {c d : Collector} (h : c.Merged d) (id : Nat) : c.Merged (d.suspect id) := by
  rw [Collector.suspect, if_pos h.isOpen]
  refine ⟨h.isOpen, h.messages, ?_, ?_⟩
  · exact (keeps_ite (fun w : List Word64 => w.getD 0 0) rfl rfl : (suspectRefusal id d.words).getD 0 0 = d.rec0).trans h.rec0
  · show ((suspectRefusal id d.words).getD 1 0).getLsbD 58 = true
    refine keeps_ite (fun w : List Word64 => (w.getD 1 0).getLsbD 58) ?_ h.merged
    show (d.rec1 ||| BitVec.ofNat 64 (2 ^ 60)).getLsbD 58 = true
    rw [BitVec.getLsbD_or, h.merged, Bool.true_or]

theorem State.collector_modCollector_other {i j : CollectorId} (h : j ≠ i) (f : Collector → Collector) :
    (s.modCollector i f).collector j = s.collector j := by
  match i, j with
  | .group p, .group q => exact congrArg GroupUnits.collector (s.unit_modUnit_other p q _ fun e => h (by rw [e]))
  | .group p, .die k => rfl
  | .die k, .group p => rfl
  | .die k, .die l => exact Table.at_put_other _ _ _ _ _ fun e => h (by rw [e])

/-- What DET_SUSPECT leaves of a collector, a refusal's suspicion leaves. -/
theorem State.suspectRefusals_collector {Q : Collector → Prop} (hQ : ∀ c id, Q c → Q (c.suspect id)) (id : Nat) {i : CollectorId}
    (h : Q (s.collector i)) : Q ((s.suspectRefusals id).collector i) := by
  unfold State.suspectRefusals
  extract_lets u
  have hu : Q (u.collector i) := by
    refine List.foldlRecOn (motive := fun u : State => Q (u.collector i)) _ _ h fun v hv p _ => ?_
    by_cases hi : i = .group p
    · subst hi
      rw [State.collector_modCollector]
      exact hQ _ _ hv
    · rwa [State.collector_modCollector_other _ hi]
  cases i with
  | group p => exact hu
  | die k =>
    show Q (Table.at (u.faults.dieCollectors.map fun e => (e.1, e.2.suspect id)) k {})
    rw [Table.at, Table.find_map]
    revert hu
    show Q ((u.faults.dieCollectors.find k).getD {}) → _
    cases u.faults.dieCollectors.find k with
    | none => exact fun h => h
    | some c => exact hQ c id

/-- What changes neither under a suspicion nor with a job and its run record. -/
theorem State.meetRestarting_keeps {β : Type} (g : State → β) (hsuspect : ∀ (u : State) id, g (u.suspectRefusals id) = g u)
    (hjobs : ∀ u : State, ∀ w, g { u with work := w } = g u) (id : Nat) : g (s.meetRestarting id) = g s := by
  unfold State.meetRestarting
  split
  · refine keeps_ite g ?_ rfl
    refine (hjobs _ _).trans (Eq.trans ?_ (hsuspect s id))
    unfold State.modJob
    split
    · exact hjobs _ _
    · rfl
  · rfl

theorem State.suspectRefusals_keeps {β : Type} (g : State → β) (hunits : ∀ (u : State) p f, g (u.modUnit p f) = g u)
    (hfaults : ∀ u : State, ∀ d l, l.length = u.faults.toDevice.length →
      g { u with faults := { u.faults with dieCollectors := d, toDevice := l } } = g u) (id : Nat) : g (s.suspectRefusals id) = g s := by
  unfold State.suspectRefusals
  extract_lets u
  have hu : g u = g s := State.forAll_keeps g (fun v p => v.modCollector_keeps g hunits (fun v d => hfaults v d _ rfl) _ _) _ s
  exact (hfaults u _ _ (List.length_map _)).trans hu

/-- A restarting fault that meets a refusal changes of the collectors and messages nothing but records on their way. -/
theorem State.meetRestarting_spec (id : Nat) : (s.meetRestarting id).mem = s.mem ∧ (s.meetRestarting id).faults.wires = s.faults.wires ∧
    (s.meetRestarting id).faults.toDevice.length = s.faults.toDevice.length :=
  ⟨s.meetRestarting_keeps State.mem (fun u id => u.suspectRefusals_keeps State.mem (fun _ _ _ => rfl) (fun _ _ _ _ => rfl) id) (fun _ _ => rfl) id,
    s.meetRestarting_keeps (fun u => u.faults.wires)
      (fun u id => u.suspectRefusals_keeps (fun u => u.faults.wires) (fun _ _ _ => rfl) (fun _ _ _ _ => rfl) id) (fun _ _ => rfl) id,
    s.meetRestarting_keeps (fun u => u.faults.toDevice.length)
      (fun u id => u.suspectRefusals_keeps (fun u => u.faults.toDevice.length) (fun _ _ _ => rfl) (fun _ _ _ h => h) id) (fun _ _ => rfl) id⟩

theorem State.meetRestarting_collector {Q : Collector → Prop} (hQ : ∀ c id, Q c → Q (c.suspect id)) (id : Nat) {i : CollectorId}
    (h : Q (s.collector i)) : Q ((s.meetRestarting id).collector i) := by
  have hwork (u : State) (w : WorkUnit) : State.collector { u with work := w } i = u.collector i := by cases i <;> rfl
  unfold State.meetRestarting
  split
  · split
    · rw [State.modRun, hwork]
      unfold State.modJob
      split
      · rw [hwork]
        exact s.suspectRefusals_collector hQ id h
      · exact s.suspectRefusals_collector hQ id h
    · exact h
  · exact h

/-- A message that meets an open latch merges into it (R291). -/
theorem State.merged_collect (hi : w.collector = some i) (hk : w.word.toNat / 2 ^ 20 % 256 ≠ 0xFF) (ho : (s.collector i).isOpen = true) :
    (s.collector i).Merged ((s.collect w).collector i) ∧ (s.collect w).faults.wires = s.faults.wires ∧
      (s.collect w).faults.toDevice.length = s.faults.toDevice.length ∧ (s.collect w).mem = s.mem := by
  let f := fun c : Collector => { c.merge (w.word.toNat % 2 ^ 20) (w.word.toNat / 2 ^ 20 % 256) with messages := satInc c.messages }
  let u := s.modCollector i f
  have hcollect : s.collect w = if kindClass (w.word.toNat / 2 ^ 20 % 256) == KindClass.restarting &&
      kindScope (w.word.toNat / 2 ^ 20 % 256) != FenceScope.none then u.meetRestarting w.jobOf else u := by
    unfold State.collect
    simp only [hi, hk, ho, if_false, if_true] <;> rfl
  have hu : (s.collector i).Merged (u.collector i) := by
    rw [State.collector_modCollector]
    exact Collector.merged_merge ho _ _
  have hwires : u.faults.wires = s.faults.wires := s.modCollector_wires i f
  have hdevice : u.faults.toDevice = s.faults.toDevice := s.modCollector_toDevice i f
  have hmem : u.mem = s.mem := s.modCollector_mem i f
  rw [hcollect]
  split
  · obtain ⟨hm, hw, hd⟩ := u.meetRestarting_spec w.jobOf
    exact ⟨u.meetRestarting_collector (fun c id h => h.suspect id) _ hu, hw.trans hwires, hd.trans (by rw [hdevice]), hm.trans hmem⟩
  · exact ⟨hu, hwires, by rw [hdevice], hmem⟩

/-- A test message is counted, and nothing else (R268, R305). -/
theorem State.collect_of_test (hi : w.collector = some i) (hk : w.word.toNat / 2 ^ 20 % 256 = 0xFF) :
    s.collect w = s.modCollector i fun c => { c with testMsgs := satInc c.testMsgs } := by
  unfold State.collect
  simp only [hi, hk, if_true]

/-! ### What a fault leaves behind reaches no latch (R53, R91, R255) -/

theorem State.withMem_collectors (m : Memory) : State.collectors { s with mem := m } = s.collectors := rfl

theorem State.poisonOut_collectors (k r first n code : Nat) : (s.poisonOut k r first n code).collectors = s.collectors := by
  unfold State.poisonOut
  extract_lets g size u spoil
  have hu : u.collectors = s.collectors := foldl_keeps State.collectors (fun v _ => v.withMem_collectors _) _ s
  exact hu

theorem State.poisonEngine_collectors (k e code t : Nat) : (s.poisonEngine k e code t).collectors = s.collectors := by
  have hobjects (u : State) (l : List Nat) (f : Cluster → Cluster) :
      (l.foldl (fun s k => if e = 1 then s.modCluster k f else s) u).collectors = u.collectors := by
    refine foldl_keeps State.collectors (fun u k => keeps_ite _ ?_ rfl) l u
    rfl
  unfold State.poisonEngine
  extract_lets p ks notes last s₁ s₂
  have hout : s₁.collectors = s.collectors := foldl_keeps State.collectors (fun u x => u.poisonOut_collectors ..) _ s
  have hopen : s₂.collectors = s.collectors := (hobjects _ _ _).trans hout
  split
  · refine keeps_ite _ ?_ hopen
    exact (State.modUnit_collectors _ _ (by intro; rfl)).trans
      ((foldl_keeps State.collectors (fun u _ => u.withMem_collectors _) _ s₂).trans hopen)
  · exact keeps_ite _ ((State.modUnit_collectors _ _ (by intro; rfl)).trans hopen) hopen

theorem State.noteUnitFault_collectors (v : Word64) : (s.noteUnitFault v).collectors = s.collectors := by
  unfold State.noteUnitFault
  refine keeps_ite _ rfl (keeps_ite _ rfl (keeps_ite _ rfl (keeps_ite _ ?_ (keeps_ite _ ?_ rfl))))
  · exact State.poisonEngine_collectors _ _ _ _ _
  · exact State.poisonEngine_collectors _ _ _ _ _

end

/-- Settles O22: a message opens the latch of its collector or merges into it, and a test message does neither. -/
theorem messagesOpenOrMerge : Obligations.MessagesOpenOrMerge := by
  intro s w rest v i p hd opens
  have hopens {t : State} {word fire : Nat} (h : Opens s t i word fire) : opens s t word fire :=
    ⟨h.isOpen, h.messages, h.toDevice, h.kind, h.unit, h.beat, h.cycle⟩
  refine ⟨runs_of_exec_live hd rfl ⟨rfl, State.unit_modUnit ..⟩, fun hi hk hc => ?_, fun hq hi => ?_⟩
  · have hnote := s.noteUnitFault_collectors v
    have hfaults : (s.noteUnitFault v).faults = s.faults := congrArg Prod.fst hnote
    have hlatch := collector_of_collectors hnote i
    obtain ⟨ho, hwires, -⟩ := (s.noteUnitFault v).opens_collect (w := s.wireOf v) hi hk (by rw [hlatch]; exact hc)
    refine runs_of_exec_live hd rfl ⟨by rw [hwires, hfaults], hopens ⟨ho.isOpen, ?_, ?_, ho.kind, ho.unit, ho.beat, ho.cycle⟩⟩
    · rw [ho.messages, hlatch]
    · rw [ho.toDevice, hfaults]
  · let u : State := { s with faults := { s.faults with wires := rest } }
    have hexec : exec (.faultMessage none) s = live s (u.collect w) := by
      show execFaultMessage none s = _
      rw [execFaultMessage, hq]
    have hlatch : u.collector i = s.collector i := by cases i <;> rfl
    refine ⟨fun hk hc => ?_, fun hk ho => ?_, fun hk => ?_⟩
    · obtain ⟨hop, hwires, hmem⟩ := u.opens_collect hi hk (hlatch ▸ hc)
      refine runs_of_exec_live hd hexec ⟨hwires, hopens ⟨hop.isOpen, ?_, hop.toDevice, hop.kind, hop.unit, hop.beat, hop.cycle⟩, hmem⟩
      rw [hop.messages, hlatch]
    · obtain ⟨hm, hwires, hdevice, hmem⟩ := u.merged_collect hi hk (hlatch ▸ ho)
      rw [hlatch] at hm
      exact runs_of_exec_live hd hexec ⟨hwires, hm.isOpen, hm.messages, hdevice, hm.rec0, hm.merged, hmem⟩
    · rw [u.collect_of_test hi hk] at hexec
      refine runs_of_exec_live hd hexec ⟨u.modCollector_wires i _, u.modCollector_toDevice i _, ?_, u.modCollector_work i _, u.modCollector_mem i _⟩
      rw [State.collector_modCollector, hlatch]

end Sys2Proof.Machine
end

section
/-!
PROOFS. Records at the device collector (R293, R297 to R300): the fence that is counted, and what becomes of the job it fences.
-/
namespace Sys2Proof.Machine

section
variable (s : State)

/-! ### What reactions leave alone -/

/-- The records under way to the device collector, the fences counted, and device memory. -/
def State.fenceCount : Nat × Word32 × Word32 × Memory := (s.faults.toDevice.length, s.faults.fencesJ, s.faults.fencesW, s.mem)

@[simp] theorem State.modJob_fenceCount (id : Nat) (f : Job → Job) : (s.modJob id f).fenceCount = s.fenceCount := by
  simp [State.fenceCount]

@[simp] theorem State.modRun_fenceCount (id : Nat) (f : JobRun → JobRun) : (s.modRun id f).fenceCount = s.fenceCount := rfl

@[simp] theorem State.modGroup_fenceCount (p : Nat) (f : Group → Group) : (s.modGroup p f).fenceCount = s.fenceCount := rfl

@[simp] theorem State.sendControl_fenceCount (k v b key plan : Nat) : (s.sendControl k v b key plan).fenceCount = s.fenceCount := rfl

@[simp] theorem State.count_fenceCount (i n : Nat) : (s.count i n).fenceCount = s.fenceCount := rfl

theorem State.askIdle_fenceCount (l : List Nat) : (s.askIdle l).fenceCount = s.fenceCount :=
  State.forAll_keeps State.fenceCount (f := fun s p => (s.askBlock (2 * p)).askBlock (2 * p + 1)) (fun _ _ => rfl) l s

theorem State.meetRestarting_fenceCount (id : Nat) : (s.meetRestarting id).fenceCount = s.fenceCount :=
  s.meetRestarting_keeps State.fenceCount
    (fun u id => u.suspectRefusals_keeps State.fenceCount (fun _ _ _ => rfl) (fun u _ _ h => by simp [State.fenceCount, h]) id) (fun _ _ => rfl) id

theorem State.fenceRestart_fenceCount (id kind : Nat) (point : Option (List Nat)) : (s.fenceRestart id kind point).fenceCount = s.fenceCount := by
  unfold State.fenceRestart
  split
  · rfl
  · refine keeps_ite _ (s.modJob_fenceCount id _) (keeps_ite _ (s.meetRestarting_fenceCount id) ?_)
    extract_lets crowded u v x
    have hx : x.fenceCount = s.fenceCount := (u.modJob_fenceCount id _).trans (s.askIdle_fenceCount _)
    split
    · exact keeps_ite _ hx hx
    · exact hx

theorem State.fenceTerminate_fenceCount (id kind : Nat) : (s.fenceTerminate id kind).fenceCount = s.fenceCount := by
  unfold State.fenceTerminate
  split
  · rfl
  · extract_lets u v x
    have hu : u.fenceCount = s.fenceCount := keeps_ite _ rfl (s.askIdle_fenceCount _)
    have hx : x.fenceCount = s.fenceCount := (u.modJob_fenceCount id _).trans hu
    split
    · exact keeps_ite _ hx hx
    · exact hx

theorem State.refuseJob_fenceCount (id kind : Nat) (point : List Nat) : (s.refuseJob id kind point).fenceCount = s.fenceCount := by
  unfold State.refuseJob
  split
  · rfl
  · exact keeps_ite _ (State.fenceTerminate_fenceCount _ _ _) (keeps_ite _ rfl (State.fenceTerminate_fenceCount _ _ _))

theorem State.reactJob_fenceCount (id : Nat) (w : List Word64) : (s.reactJob id w).fenceCount = s.fenceCount := by
  unfold State.reactJob
  split
  · rfl
  · refine keeps_ite _ rfl ?_
    extract_lets u v
    have hu : u.fenceCount = s.fenceCount := s.modJob_fenceCount id _
    have hv : v.fenceCount = s.fenceCount := by
      unfold v
      split
      · exact keeps_ite _ hu hu
      · exact hu
    split
    · exact keeps_ite _ ((State.fenceTerminate_fenceCount _ _ _).trans hv) ((State.fenceRestart_fenceCount _ _ _ _).trans hv)
    · exact keeps_ite _ ((State.refuseJob_fenceCount _ _ _ _).trans hv) ((State.fenceTerminate_fenceCount _ _ _).trans hv)
    · exact hv

/-! ### The record's own effect on the collector and its group (R286, R293) -/

/-- What a job's reaction starts from: the counts, the table, of its run the restarts and the open episode, and the beat. -/
def State.reactView (id : Nat) : (Nat × Word32 × Word32 × Memory) × Table Job × Nat × Bool × BeatNo :=
  (s.fenceCount, s.work.jobs, (s.run id).restarts, (s.run id).episodeRestarting, s.beat)

theorem State.modRun_addFault_reactView (x id : Nat) (w : List Word64) : (s.modRun x fun r => r.addFault w).reactView id = s.reactView id := by
  by_cases h : id = x
  · subst h
    have hfault (r : JobRun) : ((r.addFault w).restarts, (r.addFault w).episodeRestarting) = (r.restarts, r.episodeRestarting) :=
      keeps_ite (fun r : JobRun => (r.restarts, r.episodeRestarting)) rfl rfl
    obtain ⟨hrestarts, hepisode⟩ := Prod.mk.inj (hfault (s.run id))
    rw [State.reactView, State.run_modRun, hrestarts, hepisode]
    rfl
  · rw [State.reactView, State.run_modRun_other _ h]
    rfl

theorem State.appendLog_reactView (id : Nat) (w : List Word64) : (s.appendLog w).reactView id = s.reactView id := by
  have hadd (u : State) (l : List Nat) : (u.forAll l fun u id => u.modRun id fun r => r.addFault w).reactView id = u.reactView id :=
    State.forAll_keeps (fun u : State => u.reactView id) (fun u x => u.modRun_addFault_reactView x id w) l u
  exact (hadd _ _).trans (keeps_ite (fun u : State => u.reactView id) rfl rfl)

theorem FaultUnit.stick_counts (f : FaultUnit) (u k : Nat) :
    ((f.stick u k).toDevice, (f.stick u k).fencesJ, (f.stick u k).fencesW) = (f.toDevice, f.fencesJ, f.fencesW) := by
  unfold FaultUnit.stick
  extract_lets key g
  have hbit : (g.toDevice, g.fencesJ, g.fencesW) = (f.toDevice, f.fencesJ, f.fencesW) :=
    keeps_ite (fun f : FaultUnit => (f.toDevice, f.fencesJ, f.fencesW)) rfl (keeps_ite (fun f : FaultUnit => (f.toDevice, f.fencesJ, f.fencesW)) rfl rfl)
  exact keeps_ite (fun f : FaultUnit => (f.toDevice, f.fencesJ, f.fencesW)) hbit hbit

/-- The sticky bit of a record's source set. -/
def State.stuck (u k : Nat) : State := { s with faults := s.faults.stick u k }

theorem State.stuck_toDevice (u k : Nat) : (s.stuck u k).faults.toDevice = s.faults.toDevice := congrArg Prod.fst (s.faults.stick_counts u k)

theorem State.stuck_reactView (u k id : Nat) : (s.stuck u k).reactView id = s.reactView id := by
  obtain ⟨hd, hf⟩ := Prod.mk.inj (s.faults.stick_counts u k)
  obtain ⟨hj, hw⟩ := Prod.mk.inj hf
  simp only [State.reactView, State.fenceCount, State.stuck, hd, hj, hw] <;> rfl

theorem State.managementRecord_reactView (k o j a id : Nat) : (s.managementRecord k o j a).2.reactView id = s.reactView id :=
  ((s.stuck managementUnit k).appendLog_reactView id _).trans (s.stuck_reactView managementUnit k id)

theorem State.dueRetirement_reactView (p id : Nat) : (s.dueRetirement p).reactView id = s.reactView id :=
  keeps_ite (fun u : State => u.reactView id) rfl (s.managementRecord_reactView 0x93 opManagement 0 p id)

theorem State.blameGroup_reactView (p e b id : Nat) : (s.blameGroup p e b).reactView id = s.reactView id :=
  keeps_ite (fun u : State => u.reactView id) (State.dueRetirement_reactView _ p id) rfl

/-- The group of a record's unit counts it, and a restarting fault of its own blames it (R286, R288). -/
def State.blamed (w : List Word64) : State :=
  match unitGroup? (recUnit w) with
  | some p =>
    let t := if recWord w 1 / 2 ^ 56 % 2 = 1 then s.count (0x400 + p) 1 else s
    if kindClass (recKind w) == KindClass.restarting && kindScope (recKind w) == FenceScope.job && !memoryKind (recKind w)
    then t.blameGroup p (unitPart (recUnit w)) (recBeat w) else t
  | none => s

theorem State.blamed_reactView (w : List Word64) (id : Nat) : (s.blamed w).reactView id = s.reactView id := by
  unfold State.blamed
  split
  · extract_lets t
    have ht : t.reactView id = s.reactView id := keeps_ite (fun u : State => u.reactView id) rfl rfl
    exact keeps_ite (fun u : State => u.reactView id) ((t.blameGroup_reactView _ _ _ id).trans ht) ht
  · rfl

/-- A group is blamed for a job's fault alone: under another scope the collector's queue stays as it is. -/
theorem State.blamed_faults_of_scope {w : List Word64} (h : kindScope (recKind w) ≠ .job) : (s.blamed w).faults = s.faults := by
  unfold State.blamed
  split
  · rw [if_neg (by simp [h])]
    exact keeps_ite State.faults rfl rfl
  · rfl

/-- The fence of a record counted by its scope (R293). -/
def State.fenceCounted : FenceScope → State
  | .job => { s with faults := { s.faults with fencesJ := satInc s.faults.fencesJ } }
  | .all => { s with faults := { s.faults with fencesW := satInc s.faults.fencesW } }
  | .none => s

/-- A record counted at the collector and at its group, before the jobs react. -/
def State.noted (w : List Word64) : State := ((s.stuck (recUnit w) (recKind w)).fenceCounted (kindScope (recKind w))).blamed w

theorem State.deviceRecord_eq (w : List Word64) : s.deviceRecord w = (s.noted w).forAll (s.fencedBy (recKind w) (recJob w)) fun s id => s.reactJob id w := by
  unfold State.deviceRecord State.noted State.blamed State.fenceCounted State.stuck
  cases h : kindScope (recKind w) <;> simp only [h] <;> rfl

theorem State.deviceRecord_fenceCount (w : List Word64) : (s.deviceRecord w).fenceCount = (s.noted w).fenceCount := by
  rw [State.deviceRecord_eq]
  exact State.forAll_keeps State.fenceCount (fun u id => u.reactJob_fenceCount id w) _ _

/-! ### The job's reaction (R285, R298) -/

/-- A job's entry in the table and its run record. -/
def State.jobAndRun (id : Nat) : Option Job × JobRun := (s.job? id, s.run id)

theorem State.askIdle_jobAndRun (l : List Nat) (id : Nat) : (s.askIdle l).jobAndRun id = s.jobAndRun id :=
  State.forAll_keeps (fun u : State => u.jobAndRun id) (f := fun s p => (s.askBlock (2 * p)).askBlock (2 * p + 1)) (fun _ _ => rfl) l s

theorem State.sendControl_jobAndRun (k v b key plan id : Nat) : (s.sendControl k v b key plan).jobAndRun id = s.jobAndRun id := rfl

variable {s} {id : Nat} {j : Job} {r : JobRun}

theorem State.jobAndRun_modJob (h : s.jobAndRun id = (some j, r)) (f : Job → Job) : (s.modJob id f).jobAndRun id = (some (f j), r) := by
  obtain ⟨hj, hr⟩ := Prod.mk.inj h
  rw [State.jobAndRun, s.job_modJob id f j hj, State.run_modJob, hr]

theorem State.jobAndRun_modRun (h : s.jobAndRun id = (some j, r)) (f : JobRun → JobRun) : (s.modRun id f).jobAndRun id = (some j, f r) := by
  obtain ⟨hj, hr⟩ := Prod.mk.inj h
  rw [State.jobAndRun, State.run_modRun, hr]
  exact congrArg (·, f r) hj

/-- A record to the other members changes no job. -/
theorem State.jobAndRun_tell (h : s.jobAndRun id = (some j, r)) (o : Option Nat) (c : Prop) [Decidable c] (k b : Nat) :
    (match o with
      | some key => if c then s else s.sendControl k b s.beat.toNat key 0
      | none => s).jobAndRun id = (some j, r) := by
  cases o with
  | none => exact h
  | some key => exact keeps_ite (fun u : State => u.jobAndRun id) h h

/-- A running job with no episode open is fenced for a restart, which is counted. -/
theorem State.fenceRestart_first (h : s.jobAndRun id = (some j, r)) (hp : j.phase ≠ .fencedTerminate) (he : r.episodeRestarting = false)
    (hr : r.restarts < 16) (kind : Nat) (point : Option (List Nat)) : ∃ r', (s.fenceRestart id kind point).jobAndRun id =
      (some { j with phase := .fencedRestart }, r') ∧ r'.restarts = r.restarts + 1 := by
  obtain ⟨hj, hrun⟩ := Prod.mk.inj h
  have hcrowded : decide (16 ≤ r.restarts) = false := decide_eq_false (Nat.not_le.mpr hr)
  unfold State.fenceRestart
  simp only [hj, hrun, he, hp, hcrowded, if_false, Bool.false_eq_true, Bool.not_false]
  have hfenced := State.jobAndRun_modJob ((s.askIdle_jobAndRun j.groups id).trans h) fun j => { j with phase := .fencedRestart }
  exact ⟨_, State.jobAndRun_tell (State.jobAndRun_modRun hfenced _) _ _ _ _, rfl⟩

/-- A job that is fenced for termination keeps its place in the table. -/
theorem State.fenceTerminate_first (h : s.jobAndRun id = (some j, r)) (hp : j.phase ≠ .fencedTerminate) (kind : Nat) :
    ∃ r', (s.fenceTerminate id kind).jobAndRun id = (some { j with phase := .fencedTerminate }, r') := by
  obtain ⟨hj, hrun⟩ := Prod.mk.inj h
  unfold State.fenceTerminate
  simp only [hj, hp, if_false]
  have hfenced := State.jobAndRun_modJob ((s.askIdle_jobAndRun j.groups id).trans h) fun j => { j with phase := .fencedTerminate }
  split
  · rw [State.sendControl_jobAndRun]
    exact ⟨_, State.jobAndRun_modRun hfenced _⟩
  · exact ⟨_, State.jobAndRun_modRun hfenced _⟩

/-- A job whose outputs of the beat of a fire are withheld (R264). -/
theorem Job.withhold_earlier (j : Job) (c : Nat) : (j.withhold false c).withheld = true ∧ (j.withhold false c).phase = j.phase := ⟨rfl, rfl⟩

/-- A job's reaction begins: its outputs of the beat are withheld, and a restarting fault's group is avoided from now on. -/
def State.beginReaction (s : State) (id : Nat) (w : List Word64) : State :=
  let s := s.modJob id fun j => j.withhold (recBeat w == s.beat.toNat) (recCycle w)
  match unitGroup? (recUnit w) with
  | some p => if kindClass (recKind w) = .restarting then s.modRun id fun r => { r with excluded := insertNew r.excluded p } else s
  | none => s

theorem State.beginReaction_jobAndRun {w : List Word64} (h : s.jobAndRun id = (some j, r)) (hbeat : recBeat w < s.beat.toNat) :
    ∃ r', (s.beginReaction id w).jobAndRun id = (some (j.withhold false (recCycle w)), r') ∧ r'.restarts = r.restarts ∧
      r'.episodeRestarting = r.episodeRestarting := by
  have hearlier : (recBeat w == s.beat.toNat) = false := by simpa using hbeat.ne
  have hwithheld := State.jobAndRun_modJob h fun j => j.withhold false (recCycle w)
  unfold State.beginReaction
  rw [hearlier]
  split
  · split
    · exact ⟨_, State.jobAndRun_modRun hwithheld _, rfl, rfl⟩
    · exact ⟨_, hwithheld, rfl, rfl⟩
  · exact ⟨_, hwithheld, rfl, rfl⟩

/-- A restarting fault that is no suspect fences a running job for a restart (R282, R285). -/
theorem State.reactJob_restarting {w : List Word64} (h : s.jobAndRun id = (some j, r)) (hp : j.phase = .running)
    (hbeat : recBeat w < s.beat.toNat) (hc : kindClass (recKind w) = .restarting) (hs : recSuspect w = false)
    (he : r.episodeRestarting = false) (hr : r.restarts < 16) : ∃ j' r', (s.reactJob id w).jobAndRun id = (some j', r') ∧
      r'.restarts = r.restarts + 1 ∧ j'.phase = .fencedRestart ∧ j'.withheld = true := by
  obtain ⟨hj, -⟩ := Prod.mk.inj h
  have hheld : j.held = true := by rw [Job.held, hp]
  have hreact : ∃ point, s.reactJob id w = (s.beginReaction id w).fenceRestart id (recKind w) point := by
    unfold State.reactJob State.beginReaction
    simp only [hj, hheld, hc, hs, Bool.not_true, Bool.false_eq_true, if_false]
    exact ⟨_, rfl⟩
  obtain ⟨point, hreact⟩ := hreact
  obtain ⟨r₁, hstart, hcount, hepisode⟩ := State.beginReaction_jobAndRun h hbeat
  obtain ⟨r₂, hfenced, hcount₂⟩ := State.fenceRestart_first hstart (by rw [(j.withhold_earlier _).2, hp]; decide) (hepisode.trans he)
    (hcount ▸ hr) (recKind w) point
  exact ⟨_, r₂, hreact ▸ hfenced, hcount₂.trans (by rw [hcount]), rfl, rfl⟩

/-- A deterministic fault that is no refusal fences a running job for termination (R285, R298). -/
theorem State.reactJob_deterministic {w : List Word64} (h : s.jobAndRun id = (some j, r)) (hp : j.phase = .running)
    (hbeat : recBeat w < s.beat.toNat) (hc : kindClass (recKind w) = .deterministic) (hs : isRefusal (recKind w) = false) :
    ∃ j' r', (s.reactJob id w).jobAndRun id = (some j', r') ∧ j'.phase = .fencedTerminate ∧ j'.withheld = true := by
  obtain ⟨hj, -⟩ := Prod.mk.inj h
  have hheld : j.held = true := by rw [Job.held, hp]
  have hreact : s.reactJob id w = ((s.beginReaction id w).modRun id fun r => { r with refusal := none }).fenceTerminate id (recKind w) := by
    unfold State.reactJob State.beginReaction
    simp only [hj, hheld, hc, hs, Bool.not_true, Bool.false_eq_true, if_false] <;> rfl
  obtain ⟨r₁, hstart, -⟩ := State.beginReaction_jobAndRun h hbeat
  obtain ⟨r₂, hfenced⟩ := State.fenceTerminate_first (State.jobAndRun_modRun hstart fun r => { r with refusal := none })
    (by rw [(j.withhold_earlier _).2, hp]; decide) (recKind w)
  exact ⟨_, r₂, hreact ▸ hfenced, rfl, rfl⟩

/-- A record of job scope fences the job it names alone, where that one stands in the table (R202, R298). -/
theorem State.fencedBy_of_job {kind : Nat} (hs : kindScope kind = .job) (hj : s.job? id = some j) (hheld : j.held = true)
    (hjobs : s.work.jobs.rising) : s.fencedBy kind id = [id] := by
  have hmem : id ∈ s.heldJobs := List.mem_map.mpr ⟨(id, j), List.mem_filter.mpr ⟨Table.mem_of_find hj, hheld⟩, rfl⟩
  have hnodup : s.heldJobs.Nodup := (hjobs.sublist (List.filter_sublist.map _)).imp Nat.ne_of_lt
  rw [State.fencedBy, hs]
  show s.heldJobs.filter (· == id) = [id]
  rw [List.filter_beq, List.count_eq_one_of_mem hnodup hmem]
  rfl

end

/-! ### DEVICE_COLLECTOR_RECORD -/

section
variable {s : State} {w : List Word64} {rest : List (List Word64)}

/-- The next record has left the queue of the device collector. -/
def State.collectorNext (s : State) (rest : List (List Word64)) : State := { s with faults := { s.faults with toDevice := rest } }

theorem exec_deviceCollectorRecord (h : s.faults.toDevice = w :: rest) :
    exec .deviceCollectorRecord s = live s ((s.collectorNext rest).deviceRecord w) := by
  show execDeviceCollectorRecord s = _
  rw [execDeviceCollectorRecord, h]
  rfl

theorem State.noted_reactView (s : State) (w : List Word64) (id : Nat) : (s.noted w).reactView id =
    ((s.stuck (recUnit w) (recKind w)).fenceCounted (kindScope (recKind w))).reactView id :=
  State.blamed_reactView _ _ _

/-- What the collector has counted when the jobs react: a fence by the record's scope. -/
theorem State.noted_fenceCount (s : State) (w : List Word64) : (s.noted w).fenceCount =
    (s.faults.toDevice.length, if kindScope (recKind w) = .job then satInc s.faults.fencesJ else s.faults.fencesJ,
      if kindScope (recKind w) = .all then satInc s.faults.fencesW else s.faults.fencesW, s.mem) := by
  have hnoted : (s.noted w).fenceCount = _ := congrArg Prod.fst (s.noted_reactView w 0)
  have hstuck : (s.stuck (recUnit w) (recKind w)).fenceCount = s.fenceCount := congrArg Prod.fst (s.stuck_reactView _ _ 0)
  obtain ⟨hd, hstuck⟩ := Prod.mk.inj hstuck
  obtain ⟨hj, hstuck⟩ := Prod.mk.inj hstuck
  obtain ⟨hw, hm⟩ := Prod.mk.inj hstuck
  rw [hnoted]
  cases kindScope (recKind w) <;> simp [State.reactView, State.fenceCounted, State.fenceCount, hd, hj, hw, hm]

/-- Noting a record leaves the table, the job's run and the beat as they are. -/
theorem State.noted_jobs (s : State) (w : List Word64) (id : Nat) : (s.noted w).work.jobs = s.work.jobs ∧
    ((s.noted w).run id).restarts = (s.run id).restarts ∧ ((s.noted w).run id).episodeRestarting = (s.run id).episodeRestarting ∧
      (s.noted w).beat = s.beat := by
  have hcounted : (((s.stuck (recUnit w) (recKind w)).fenceCounted (kindScope (recKind w))).reactView id).2 =
      ((s.stuck (recUnit w) (recKind w)).reactView id).2 := by
    cases kindScope (recKind w) <;> rfl
  have hview : ((s.noted w).reactView id).2 = (s.reactView id).2 :=
    (congrArg Prod.snd (s.noted_reactView w id)).trans (hcounted.trans (congrArg Prod.snd (s.stuck_reactView _ _ id)))
  exact ⟨congrArg (·.1) hview, congrArg (·.2.1) hview, congrArg (·.2.2.1) hview, congrArg (·.2.2.2) hview⟩

/-- A record of job scope brings about the reaction of the job it names. -/
theorem State.deviceRecord_of_job {j : Job} (hs : kindScope (recKind w) = .job) (hj : s.job? (recJob w) = some j) (hp : j.phase = .running)
    (hjobs : s.work.jobs.rising) : s.deviceRecord w = (s.noted w).reactJob (recJob w) w := by
  rw [State.deviceRecord_eq, State.fencedBy_of_job hs hj (by rw [Job.held, hp]) hjobs]
  rfl

theorem State.noted_jobAndRun {id : Nat} {j : Job} (hj : s.job? id = some j) :
    (s.noted w).jobAndRun id = (some j, (s.noted w).run id) := by
  rw [State.jobAndRun, State.job?, (s.noted_jobs w id).1]
  exact congrArg (·, _) hj

end

/-- Settles O23: the collector counts the fence of a record's scope before the job it names reacts by the record's class. -/
theorem recordsFenceTheirJobs : Obligations.RecordsFenceTheirJobs := by
  intro s w rest j hd hinv hq kind id
  let u := s.collectorNext rest
  have hexec := exec_deviceCollectorRecord hq
  have hcount : (u.deviceRecord w).fenceCount = _ := (u.deviceRecord_fenceCount w).trans (u.noted_fenceCount w)
  obtain ⟨hd₁, hcount⟩ := Prod.mk.inj hcount
  obtain ⟨hj₁, hcount⟩ := Prod.mk.inj hcount
  obtain ⟨hw₁, hm₁⟩ := Prod.mk.inj hcount
  refine ⟨fun hs => ?_, fun hs => ?_, fun hs => ?_, fun hs hj hp hbeat => ?_⟩
  · have hscope : kindScope (recKind w) = .job := hs
    exact runs_of_exec_live hd hexec ⟨hd₁, hj₁.trans (if_pos hs), hw₁.trans (if_neg (by rw [hscope]; decide)), hm₁⟩
  · have hscope : kindScope (recKind w) = .all := hs
    exact runs_of_exec_live hd hexec ⟨hd₁, hw₁.trans (if_pos hs), hj₁.trans (if_neg (by rw [hscope]; decide)), hm₁⟩
  · have hscope : kindScope (recKind w) = .none := hs
    have hnone : u.deviceRecord w = u.noted w := by
      rw [State.deviceRecord_eq, State.fencedBy, hscope]
      rfl
    have hfaults : (u.noted w).faults = (u.stuck (recUnit w) (recKind w)).faults := by
      refine (State.blamed_faults_of_scope (s := (u.stuck (recUnit w) (recKind w)).fenceCounted _) (w := w) (by rw [hscope]; decide)).trans ?_
      rw [hscope]
      rfl
    refine runs_of_exec_live hd hexec ⟨?_, ?_, ?_, ?_, hm₁⟩
    · rw [hnone, hfaults, State.stuck_toDevice]
      rfl
    · exact hw₁.trans (if_neg (by rw [hscope]; decide))
    · exact hj₁.trans (if_neg (by rw [hscope]; decide))
    · rw [hnone]
      exact (u.noted_jobs w 0).1
  · have hrecord : u.deviceRecord w = (u.noted w).reactJob id w := State.deviceRecord_of_job hs hj hp hinv.jobs
    have hstart := u.noted_jobAndRun (w := w) (id := id) hj
    obtain ⟨-, hrestarts, hepisode, hbeat₁⟩ := u.noted_jobs w id
    have hbeat₂ : recBeat w < (u.noted w).beat.toNat := by rw [hbeat₁]; exact hbeat
    refine ⟨fun hc hsus he hr => ?_, fun hc href => ?_⟩
    · obtain ⟨j', r', hend, hcount, hphase, hwith⟩ := State.reactJob_restarting hstart hp hbeat₂ hc hsus (hepisode.trans he) (hrestarts ▸ hr)
      obtain ⟨hjob, hrun⟩ := Prod.mk.inj hend
      refine runs_of_exec_live hd (hexec.trans (congrArg (live s) hrecord)) ⟨?_, j', hjob, hphase, hwith⟩
      rw [hrun, hcount, hrestarts]
      rfl
    · obtain ⟨j', r', hend, hphase, hwith⟩ := State.reactJob_deterministic hstart hp hbeat₂ hc href
      exact runs_of_exec_live hd (hexec.trans (congrArg (live s) hrecord)) ⟨j', (Prod.mk.inj hend).1, hphase, hwith⟩

end Sys2Proof.Machine
end

section
/-!
PROOFS. The arithmetic clock's step (R411, R412, R415, R416, R419, R420): what a decision about it leaves of the power unit, what a record
leaves of the device, and what each command of the clock's makes of step, voltage and causes.
-/
namespace Sys2Proof.Machine

/-! ### What a record of management leaves alone (R293) -/

/-- The state but for what a logged record writes: faults, jobs' records, the host unit and the alert bits. -/
def State.besideRecord (s : State) : State :=
  { s with faults := State.reset.faults, work := State.reset.work, host := State.reset.host, pins := { s.pins with sbAlert := 0 } }

section
variable (s : State)

theorem State.modRun_besideRecord (id : Nat) (f : JobRun → JobRun) : (s.modRun id f).besideRecord = s.besideRecord := rfl

@[simp] theorem State.fire_besideRecord (fn i : Nat) : (s.fire fn i).besideRecord = s.besideRecord := rfl

@[simp] theorem State.appendLog_besideRecord (w : List Word64) : (s.appendLog w).besideRecord = s.besideRecord := by
  have hadd (u : State) (l : List Nat) : (u.forAll l fun u id => u.modRun id fun r => r.addFault w).besideRecord = u.besideRecord :=
    State.forAll_keeps State.besideRecord (fun u id => u.modRun_besideRecord id _) l u
  exact (hadd _ _).trans (keeps_ite State.besideRecord rfl rfl)

@[simp] theorem State.managementRecord_besideRecord (k o j a : Nat) : (s.managementRecord k o j a).2.besideRecord = s.besideRecord :=
  State.appendLog_besideRecord _ _

end

theorem State.power_of_besideRecord {s t : State} (h : t.besideRecord = s.besideRecord) : t.power = s.power := (congrArg State.power h :)

theorem State.mem_of_besideRecord {s t : State} (h : t.besideRecord = s.besideRecord) : t.mem = s.mem := (congrArg State.mem h :)

/-! ### What a decision leaves of the power unit (R415) -/

/-- The power unit but for the changes decided on and the voltage they wait for. -/
def State.undecided (s : State) : PowerUnit := { s.power with pending := none, later := none, awaitingVoltage := none, vddcRequest := 0 }

/-- The power unit but for decisions and what the causes permit. -/
def State.unpermitted (s : State) : PowerUnit := { s.undecided with permits := [] }

theorem State.unpermitted_of_undecided {s t : State} (h : t.undecided = s.undecided) : t.unpermitted = s.unpermitted :=
  congrArg (fun p : PowerUnit => { p with permits := [] }) h

section
variable (s : State)

/-- Changes decided on and the voltage they wait for, written at once. -/
theorem State.withDecision_undecided (p : Option (Nat × Nat)) (l a : Option Nat) (v : BitVec 10) :
    State.undecided { s with power := { s.power with pending := p, later := l, awaitingVoltage := a, vddcRequest := v } } = s.undecided := rfl

theorem State.withLink_undecided (l : LinkUnit) : State.undecided { s with link := l } = s.undecided := rfl

theorem State.announce_undecided (code : Nat) : (s.announce code).undecided = s.undecided := by
  unfold State.announce
  extract_lets p
  split
  · rfl
  · exact keeps_ite State.undecided rfl rfl

theorem State.decideStep_undecided (code : Nat) : (s.decideStep code).undecided = s.undecided := by
  have hdrop : s.dropStepUp.undecided = s.undecided := keeps_ite State.undecided rfl (s.withDecision_undecided _ _ _ _)
  unfold State.decideStep
  extract_lets d
  split
  · exact (State.announce_undecided _ _).trans hdrop
  · split
    · exact hdrop
    · split
      · rfl
      · exact s.withDecision_undecided _ _ _ _

theorem State.applyCauses_undecided : s.applyCauses.undecided = s.undecided := by
  unfold State.applyCauses
  extract_lets own u
  split
  · refine keeps_ite State.undecided rfl ?_
    exact (State.withLink_undecided _ _).trans ((State.withLink_undecided _ _).trans (s.withLink_undecided u))
  · exact s.decideStep_undecided own

/-- A cause moves its permitted step and decides; of the rest of the power unit it changes nothing. -/
theorem State.setPermit_unpermitted (c k : Nat) : (s.setPermit c k).unpermitted = s.unpermitted :=
  keeps_ite State.unpermitted rfl
    ((State.unpermitted_of_undecided (State.applyCauses_undecided { s with power := { s.power with permits := s.power.permits.put c k } })).trans rfl)

theorem State.setPermit_coolSince (c k : Nat) : (s.setPermit c k).power.coolSince = s.power.coolSince :=
  (congrArg PowerUnit.coolSince (s.setPermit_unpermitted c k) :)

theorem State.setPermit_pkgPower (c k : Nat) : (s.setPermit c k).power.pkgPower = s.power.pkgPower :=
  (congrArg PowerUnit.pkgPower (s.setPermit_unpermitted c k) :)

@[simp] theorem State.setPermit_mem (c k : Nat) : (s.setPermit c k).mem = s.mem := State.mem_of_stores (s.setPermit_stores c k)

/-! ### Switches (R415) -/

/-- The state once every compute die is at the new step, before that is recorded. -/
def State.atStep (code : Nat) : State :=
  { s with power := { s.power with
    stepCode := BitVec.ofNat 3 code, stepChanges := satInc s.power.stepChanges
    vddcRequest := if s.power.stepCode.toNat < code ∧ s.power.awaitingVoltage.isNone then s.voltageFor code else s.power.vddcRequest } }

theorem State.changeStep_besideRecord (code : Nat) : (s.changeStep code).besideRecord = (s.atStep code).besideRecord :=
  (State.fire_besideRecord _ 0 6).trans ((s.atStep code).managementRecord_besideRecord 0x80 opManagement 0 0)

/-- A switch counts, and the voltage follows a step down; the rest of it is a record and an event. -/
theorem State.changeStep_power (code : Nat) : (s.changeStep code).power = { s.power with
    stepCode := BitVec.ofNat 3 code, stepChanges := satInc s.power.stepChanges
    vddcRequest := if s.power.stepCode.toNat < code ∧ s.power.awaitingVoltage.isNone then s.voltageFor code else s.power.vddcRequest } :=
  State.power_of_besideRecord (s.changeStep_besideRecord code)

theorem State.changeStep_mem (code : Nat) : (s.changeStep code).mem = s.mem :=
  State.mem_of_besideRecord (t := s.changeStep code) (s := s.atStep code) (s.changeStep_besideRecord code)

theorem State.nextChange_of_none (h : s.power.later = none) : s.nextChange = s := by
  simp only [State.nextChange, h]

/-- The state in the switch cycle: no change is under way any more. -/
def State.atSwitch (c : Nat) : State :=
  let s := if s.beating && s.beat.toNat = beatOf c then s.reach (min (cycleOf c + 1) (beatCycles - 1)) else s
  { s with power := { s.power with pending := none } }

theorem State.atSwitch_power (c : Nat) : (s.atSwitch c).power = { s.power with pending := none } := by
  have hreach : (if s.beating && s.beat.toNat = beatOf c then s.reach (min (cycleOf c + 1) (beatCycles - 1)) else s).power = s.power :=
    keeps_ite State.power (by rw [State.reach_eq]) rfl
  exact congrArg (fun p : PowerUnit => { p with pending := none }) hreach

theorem State.atSwitch_mem (c : Nat) : (s.atSwitch c).mem = s.mem := keeps_ite State.mem (by rw [State.reach_eq]) rfl

theorem exec_stepSwitch {c code : Nat} (hp : s.power.pending = some (c, code)) (hl : s.power.later = none) (ht : s.rst.tripped = false)
    (hb : s.beating = false ∨ c / 65536 ≤ s.beat.toNat) : exec .stepSwitch s = live s ((s.atSwitch c).changeStep code) := by
  have hlater : ((s.atSwitch c).changeStep code).power.later = none := by
    rw [State.changeStep_power, State.atSwitch_power]
    exact hl
  have hdue : (s.rst.tripped || (s.beating && decide (s.beat.toNat < beatOf c))) = false := by
    have : beatOf c = c / 65536 := rfl
    rcases hb with hb | hb <;> simp [ht, hb, this]
  have hexec : exec .stepSwitch s = live s ((s.atSwitch c).changeStep code).nextChange := by
    show execStepSwitch s = _
    unfold execStepSwitch
    simp only [hp, hdue, Bool.false_eq_true, if_false] <;> rfl
  rw [hexec, State.nextChange_of_none _ hlater]

/-! ### AVSBus (R411) -/

theorem State.announce_of_none (h : s.power.pending = none) (code : Nat) :
    s.announce code = { s with power := { s.power with pending := some (s.now + 64, code) } } := by
  simp only [State.announce, h]

theorem exec_avsVoltageConfirm {mv : BitVec 10} {amps : BitVec 11} {code : Nat} (hr : 7 ≤ s.rst.released) (ht : s.rst.tripped = false)
    (hh : s.rst.halted = false) (hw : s.power.awaitingVoltage = some code) (ha : amps.toNat ≤ 1450) (hmv : mv = s.power.vddcRequest) :
    exec (.avsVoltageConfirm mv amps) s =
      live s (State.announce { s with power := { s.power with vddcMv := mv, vddcAmps := amps, awaitingVoltage := none } } code) := by
  subst hmv
  have hreached (x : Nat) : voltageReached x x = true := by simp [voltageReached]
  show execAvsVoltageConfirm _ amps s = _
  unfold execAvsVoltageConfirm State.overCurrent
  simp [Nat.not_lt.mpr hr, ht, hh, Nat.not_lt.mpr ha, hw, hreached]

theorem exec_stepUpAbandoned (h : s.power.awaitingVoltage ≠ none) :
    exec .stepUpAbandoned s = live s { s with power := { s.power with
      awaitingVoltage := none, stepUpAbandoned := satInc s.power.stepUpAbandoned, retryAt := s.beat.toNat + 1024
      vddcRequest := s.voltageFor s.power.stepCode.toNat } } := by
  obtain ⟨code, hcode⟩ := Option.ne_none_iff_exists'.mp h
  show execStepUpAbandoned s = _
  simp only [execStepUpAbandoned, hcode]

/-- A higher step is asked for once no retry is waited for any more. -/
theorem State.decideStep_of_lt {code : Nat} (h : code < s.power.decided) (hr : s.power.retryAt ≤ s.beat.toNat) :
    s.decideStep code = { s with power := { s.power with awaitingVoltage := some code, vddcRequest := s.voltageFor code } } := by
  simp [State.decideStep, Nat.lt_asymm h, Nat.ne_of_lt h, Nat.not_lt.mpr hr]

/-! ### CAPPED_EVALUATION (R420) -/

/-- Above the limit the cap is lowered one step. -/
theorem State.moveCap_of_lt {watts : Nat} (h : s.cfgNum 0x0122 < watts) :
    s.moveCap watts = State.setPermit { s with power := { s.power with belowSince := s.beat.toNat, capUnmet := s.power.permit 3 == 6 } } 3
      (min 6 (s.power.permit 3 + 1)) := if_pos h

/-- The package power of an evaluation kept. -/
def State.measured (v : BitVec 11) : State := { s with power := { s.power with pkgPower := v } }

theorem State.measured_cfgNum (v : BitVec 11) (x : Nat) : (s.measured v).cfgNum x = s.cfgNum x := rfl

theorem State.moveCap_measured (v : BitVec 11) {watts : Nat} (h : s.cfgNum 0x0122 < watts) :
    ((s.measured v).moveCap watts).power.permit 3 = min 6 (s.power.permit 3 + 1) ∧
      ((s.measured v).moveCap watts).power.pkgPower = v ∧ ((s.measured v).moveCap watts).mem = s.mem := by
  rw [State.moveCap_of_lt _ ((s.measured_cfgNum v _).trans_lt h)]
  exact ⟨State.permit_setPermit _ (by decide) _, State.setPermit_pkgPower _ _ _, State.setPermit_mem _ _ _⟩

theorem exec_cappedEvaluation {watts : BitVec 11} (hb : s.beating = true) (hc : s.mode.capped = true) :
    exec (.cappedEvaluation watts) s =
      live s ((s.measured (BitVec.ofNat 11 (min 2047 (watts.toNat + 506)))).moveCap (watts.toNat + 506)) := by
  show execCappedEvaluation watts s = _
  simp only [execCappedEvaluation, hb, hc, Bool.and_self, if_true, State.measured]

/-! ### HOST_STEP (R416) -/

theorem hostStep_field (old v : Word64) : ((accessWrite .full old v >>> 3).truncate 3 : BitVec 3).toNat = v.toNat / 8 % 8 := by
  have hfull : accessWrite .full old v = v := by simp [accessWrite, accessMask, accessValue]
  rw [hfull]
  simp [Nat.shiftRight_eq_div_pow]

/-! ### RAIL_RANGE (R412) -/

/-- The state after a rail's excursion: the reading kept, the rail counted, the fault raised and signalled. -/
def State.railLeft (rail : Fin 9) (mv : BitVec 12) : State :=
  let t := s.storeRail { rail := rail, mv := mv }
  (State.raise { t with power := { t.power with railExcursions := t.power.railExcursions.modify rail 0 satInc } }
    sensorsUnit 0x83 opManagement 0 0 s.now 0 false).fire 0 6

theorem exec_railRange {rail : Fin 9} {mv : BitVec 12} (hr : s.rst.released ≠ 0) (ht : s.rst.tripped = false)
    (hx : railExcursion mv.toNat (s.railNominal rail) = true) : exec (.railRange rail mv) s = live s (s.railLeft rail mv) := by
  show execRailRange rail mv s = _
  unfold execRailRange
  simp only [hr, ht, hx, decide_false, Bool.not_true, Bool.or_false, Bool.false_eq_true, if_false] <;> rfl

end

/-- Settles O45: a switch's record changes nothing of the power unit, and a decision that a moved cause brings about leaves every other
register of it as it is. -/
theorem clockFollowsItsCauses : Obligations.ClockFollowsItsCauses := by
  intro s mv amps watts v rail r hd p b
  refine ⟨fun c code hp hl ht hcode hb => ?_, fun code hr ht hh hw hp ha hmv => ?_, fun hw => ?_, fun hb h0 hle hlink hlt => ?_,
    fun hb h0 hle => ?_, fun hb hc hlt => ?_, fun hb h0 hle => ?_, fun ho => ?_, fun hr ht hx => ?_⟩
  · refine runs_of_exec_live hd (exec_stepSwitch s hp hl ht hb) ?_
    rw [State.changeStep_power, State.atSwitch_power, State.changeStep_mem, State.atSwitch_mem]
    exact ⟨(BitVec.toNat_ofNat _ _).trans (Nat.mod_eq_of_lt hcode), rfl, rfl, rfl⟩
  · have hexec := exec_avsVoltageConfirm s hr ht hh hw ha hmv
    rw [State.announce_of_none] at hexec
    · exact runs_of_exec_live hd hexec ⟨rfl, rfl, rfl, rfl, rfl⟩
    · exact hp
  · exact runs_of_exec_live hd (exec_stepUpAbandoned s hw) ⟨rfl, rfl, rfl, rfl, rfl⟩
  · let u : State := { s with power := { s.power with retryAt := 0 } }
    have htarget : u.targetStep = s.power.ownStep := if_neg (by simp [u, hlink])
    have hstep : u.decideStep u.targetStep = { u with power := { u.power with awaitingVoltage := some s.power.ownStep, vddcRequest := u.voltageFor s.power.ownStep } } := by
      rw [htarget]
      exact u.decideStep_of_lt hlt (Nat.zero_le _)
    refine runs_of_live_ite hd (t := u.decideStep u.targetStep) rfl (by simpa [hb] using ⟨h0, hle⟩) ?_
    rw [hstep]
    exact ⟨rfl, rfl, rfl⟩
  · refine runs_of_live_ite hd (t := State.setPermit { s with power := { s.power with coolSince := s.beat.toNat } } 0 (s.power.permit 0 - 1)) rfl (by simpa [hb, h0] using ⟨h0, hle⟩) ?_
    exact ⟨State.permit_setPermit _ (by decide) _, State.setPermit_coolSince _ _ _, State.setPermit_mem _ _ _⟩
  · obtain ⟨hpermit, hpower, hmem⟩ := s.moveCap_measured (BitVec.ofNat 11 (min 2047 (watts.toNat + 506))) hlt
    refine runs_of_exec_live hd (exec_cappedEvaluation s hb hc) ⟨hpermit, ?_, hmem⟩
    rw [hpower]
    exact (BitVec.toNat_ofNat _ _).trans (Nat.mod_eq_of_lt (by omega))
  · exact runs_of_live_ite hd (t := s.setPermit 4 0) rfl (by simpa [hb] using ⟨h0, hle⟩)
      ⟨State.permit_setPermit _ (by decide) _, State.setPermit_mem _ _ _⟩
  · let u : State := { s with power := { s.power with hostStep := (accessWrite .full ((s.power.hostStep.zeroExtend 64) <<< 3) v >>> 3).truncate 3 } }
    have hstep : u.applyCauses.power.hostStep = u.power.hostStep := (congrArg PowerUnit.hostStep u.applyCauses_undecided :)
    have hfield : u.power.hostStep.toNat = v.toNat / 8 % 8 := hostStep_field _ v
    refine runs_of_live_unless hd (t := u.applyCauses) rfl (by simp [ho]) ⟨?_, ?_, (congrArg State.mem u.applyCauses_besideClock :)⟩
    · rw [hstep, hfield]
    · rw [u.applyCauses_permit, ← hfield]
      rfl
  · refine runs_of_exec_live hd (exec_railRange s hr ht hx) ⟨?_, ⟨_, rfl, faultWord_kind ..⟩, rfl⟩
    exact Table.at_put_same _ _ _ _

end Sys2Proof.Machine
end

section
/-!
PROOFS. What records, reactions and the ledger leave alone (R293, R298, R443 to R448): device memory, fuses, clock, modes, pins and
the release order are no part of them.
-/
namespace Sys2Proof.Machine

/-! ### The ledger (R443 to R448) -/

/-- The state but for the ledger and its flash. -/
def State.besideLedger (s : State) : State := { s with ledger := State.reset.ledger, flash := State.reset.flash }

theorem State.eq_of_besideLedger {s t : State} (h : t.besideLedger = s.besideLedger) : t = { s with ledger := t.ledger, flash := t.flash } :=
  congrArg (fun u : State => { u with ledger := t.ledger, flash := t.flash }) h

section
variable (s : State)

theorem State.event_besideLedger (c : Nat) (b : List Byte) : (s.event c b).besideLedger = s.besideLedger :=
  keeps_ite State.besideLedger rfl rfl

theorem State.appendRecord_besideLedger (k : Nat) (b : List Byte) : (s.appendRecord k b).besideLedger = s.besideLedger := rfl

theorem State.keepDurable_besideLedger : s.keepDurable.besideLedger = s.besideLedger := by
  unfold State.keepDurable
  split
  · exact keeps_ite State.besideLedger (s.appendRecord_besideLedger 3 s.durableBody) rfl
  · rfl

theorem State.writeRecord_besideLedger (k : Nat) (b : List Byte) : (s.writeRecord k b).besideLedger = s.besideLedger :=
  (State.appendRecord_besideLedger _ k b).trans s.keepDurable_besideLedger

theorem State.tellLost_besideLedger : s.tellLost.besideLedger = s.besideLedger :=
  keeps_ite _ rfl (State.event_besideLedger _ _ _)

theorem State.withLedger_besideLedger (l : LedgerUnit) : State.besideLedger { s with ledger := l } = s.besideLedger := rfl

theorem State.writeEvent_besideLedger (e : LedgerEvent) (l : List LedgerEvent) : (s.writeEvent e l).besideLedger = s.besideLedger :=
  (State.tellLost_besideLedger _).trans ((State.withLedger_besideLedger _ _).trans (keeps_ite _ rfl (s.writeRecord_besideLedger 1 _)))

theorem State.flushLedger_besideLedger : s.flushLedger.besideLedger = s.besideLedger :=
  keeps_ite _ rfl ((State.withLedger_besideLedger _ _).trans (s.writeRecord_besideLedger 2 _))

theorem State.flushAll_besideLedger : s.flushAll.besideLedger = s.besideLedger :=
  (State.flushLedger_besideLedger _).trans (foldl_keeps State.besideLedger (fun u e => u.writeEvent_besideLedger e _) _ s)

theorem State.writeNow_besideLedger (c : Nat) (b : List Byte) : (s.writeNow c b).besideLedger = s.besideLedger :=
  keeps_ite _ (s.writeRecord_besideLedger 1 _) rfl

end

/-- The state but for what records, the jobs' reactions to them, events and the ledger write: faults, jobs, groups, links, the host unit,
the ledger and its flash, the alert bits and the blocks asked to go idle. -/
def State.besideUpkeep (s : State) : State :=
  { s with faults := State.reset.faults, work := State.reset.work, groups := State.reset.groups, units := State.reset.units
           link := State.reset.link, host := State.reset.host, ledger := State.reset.ledger, flash := State.reset.flash
           pins := { s.pins with sbAlert := 0 }, rst := { s.rst with idleAsked := [] } }

section
variable {s t : State}

theorem State.mem_of_besideUpkeep (h : t.besideUpkeep = s.besideUpkeep) : t.mem = s.mem := (congrArg State.mem h :)

theorem State.fuses_of_besideUpkeep (h : t.besideUpkeep = s.besideUpkeep) : t.fuses = s.fuses := (congrArg State.fuses h :)

theorem State.active_of_besideUpkeep (h : t.besideUpkeep = s.besideUpkeep) : t.pins.active = s.pins.active :=
  (congrArg (fun u : State => u.pins.active) h :)

theorem State.racing_of_besideUpkeep (h : t.besideUpkeep = s.besideUpkeep) : t.pins.racing = s.pins.racing :=
  (congrArg (fun u : State => u.pins.racing) h :)

theorem State.domains_of_besideUpkeep (h : t.besideUpkeep = s.besideUpkeep) : t.rst.domains = s.rst.domains :=
  (congrArg (fun u : State => u.rst.domains) h :)

theorem State.rst_of_besideUpkeep (h : t.besideUpkeep = s.besideUpkeep) : t.rst = { s.rst with idleAsked := t.rst.idleAsked } :=
  congrArg (fun u : State => { u.rst with idleAsked := t.rst.idleAsked }) h

theorem State.besideUpkeep_of_besideRecord (h : t.besideRecord = s.besideRecord) : t.besideUpkeep = s.besideUpkeep :=
  (congrArg State.besideUpkeep h :)

theorem State.besideUpkeep_of_besideLedger (h : t.besideLedger = s.besideLedger) : t.besideUpkeep = s.besideUpkeep :=
  (congrArg State.besideUpkeep h :)

end

section
variable (s : State)

/-! ### Records and reactions (R293, R298) -/

theorem State.withWork_besideUpkeep (w : WorkUnit) : State.besideUpkeep { s with work := w } = s.besideUpkeep := rfl

theorem State.withFaults_besideUpkeep (f : FaultUnit) : State.besideUpkeep { s with faults := f } = s.besideUpkeep := rfl

@[simp] theorem State.modRun_besideUpkeep (id : Nat) (f : JobRun → JobRun) : (s.modRun id f).besideUpkeep = s.besideUpkeep := rfl

@[simp] theorem State.modJob_besideUpkeep (id : Nat) (f : Job → Job) : (s.modJob id f).besideUpkeep = s.besideUpkeep := by
  unfold State.modJob
  split <;> rfl

@[simp] theorem State.modGroup_besideUpkeep (p : Nat) (f : Group → Group) : (s.modGroup p f).besideUpkeep = s.besideUpkeep := rfl

@[simp] theorem State.sendControl_besideUpkeep (k v b key plan : Nat) : (s.sendControl k v b key plan).besideUpkeep = s.besideUpkeep := rfl

@[simp] theorem State.fire_besideUpkeep (fn i : Nat) : (s.fire fn i).besideUpkeep = s.besideUpkeep := rfl

@[simp] theorem State.count_besideUpkeep (i n : Nat) : (s.count i n).besideUpkeep = s.besideUpkeep := rfl

@[simp] theorem State.event_besideUpkeep (c : Nat) (b : List Byte) : (s.event c b).besideUpkeep = s.besideUpkeep :=
  State.besideUpkeep_of_besideLedger (s.event_besideLedger c b)

@[simp] theorem State.flushAll_besideUpkeep : s.flushAll.besideUpkeep = s.besideUpkeep :=
  State.besideUpkeep_of_besideLedger s.flushAll_besideLedger

@[simp] theorem State.managementRecord_besideUpkeep (k o j a : Nat) : (s.managementRecord k o j a).2.besideUpkeep = s.besideUpkeep :=
  State.besideUpkeep_of_besideRecord (s.managementRecord_besideRecord k o j a)

@[simp] theorem State.portState_besideUpkeep (n : Nat) (x : BitVec 3) : (s.portState n x).besideUpkeep = s.besideUpkeep :=
  keeps_ite State.besideUpkeep rfl rfl

theorem State.askIdle_besideUpkeep (l : List Nat) : (s.askIdle l).besideUpkeep = s.besideUpkeep :=
  State.forAll_keeps State.besideUpkeep (f := fun s p => (s.askBlock (2 * p)).askBlock (2 * p + 1)) (fun _ _ => rfl) l s

theorem State.meetRestarting_besideUpkeep (id : Nat) : (s.meetRestarting id).besideUpkeep = s.besideUpkeep :=
  s.meetRestarting_keeps State.besideUpkeep
    (fun u id => u.suspectRefusals_keeps State.besideUpkeep (fun _ _ _ => rfl) (fun u _ _ _ => u.withFaults_besideUpkeep _) id) (fun _ _ => rfl) id

theorem State.fenceRestart_besideUpkeep (id kind : Nat) (point : Option (List Nat)) :
    (s.fenceRestart id kind point).besideUpkeep = s.besideUpkeep := by
  unfold State.fenceRestart
  split
  · rfl
  · refine keeps_ite _ (s.modJob_besideUpkeep id _) (keeps_ite _ (s.meetRestarting_besideUpkeep id) ?_)
    extract_lets crowded u v x
    have hx : x.besideUpkeep = s.besideUpkeep := (u.modJob_besideUpkeep id _).trans (s.askIdle_besideUpkeep _)
    split
    · exact keeps_ite _ hx hx
    · exact hx

theorem State.fenceTerminate_besideUpkeep (id kind : Nat) : (s.fenceTerminate id kind).besideUpkeep = s.besideUpkeep := by
  unfold State.fenceTerminate
  split
  · rfl
  · extract_lets u v x
    have hu : u.besideUpkeep = s.besideUpkeep := keeps_ite _ rfl (s.askIdle_besideUpkeep _)
    have hx : x.besideUpkeep = s.besideUpkeep := (u.modJob_besideUpkeep id _).trans hu
    split
    · exact keeps_ite _ hx hx
    · exact hx

theorem State.refuseJob_besideUpkeep (id kind : Nat) (point : List Nat) : (s.refuseJob id kind point).besideUpkeep = s.besideUpkeep := by
  unfold State.refuseJob
  split
  · rfl
  · exact keeps_ite _ (State.fenceTerminate_besideUpkeep _ _ _) (keeps_ite _ rfl (State.fenceTerminate_besideUpkeep _ _ _))

theorem State.reactJob_besideUpkeep (id : Nat) (w : List Word64) : (s.reactJob id w).besideUpkeep = s.besideUpkeep := by
  unfold State.reactJob
  split
  · rfl
  · refine keeps_ite _ rfl ?_
    extract_lets u v
    have hu : u.besideUpkeep = s.besideUpkeep := s.modJob_besideUpkeep id _
    have hv : v.besideUpkeep = s.besideUpkeep := by
      unfold v
      split
      · exact keeps_ite _ hu hu
      · exact hu
    split
    · exact keeps_ite _ ((State.fenceTerminate_besideUpkeep _ _ _).trans hv) ((State.fenceRestart_besideUpkeep _ _ _ _).trans hv)
    · exact keeps_ite _ ((State.refuseJob_besideUpkeep _ _ _ _).trans hv) ((State.fenceTerminate_besideUpkeep _ _ _).trans hv)
    · exact hv

theorem State.dueRetirement_besideUpkeep (p : Nat) : (s.dueRetirement p).besideUpkeep = s.besideUpkeep :=
  keeps_ite _ rfl ((State.modGroup_besideUpkeep _ p _).trans (s.managementRecord_besideUpkeep 0x93 opManagement 0 p))

theorem State.blameGroup_besideUpkeep (p e b : Nat) : (s.blameGroup p e b).besideUpkeep = s.besideUpkeep :=
  keeps_ite State.besideUpkeep (State.dueRetirement_besideUpkeep _ p) rfl

theorem State.noted_besideUpkeep (w : List Word64) : (s.noted w).besideUpkeep = s.besideUpkeep := by
  unfold State.noted
  generalize hu : (s.stuck (recUnit w) (recKind w)).fenceCounted (kindScope (recKind w)) = u
  have hcounted : u.besideUpkeep = s.besideUpkeep := by
    rw [← hu]
    cases kindScope (recKind w) <;> rfl
  refine Eq.trans ?_ hcounted
  unfold State.blamed
  split
  · have ht (p : Nat) : (if recWord w 1 / 2 ^ 56 % 2 = 1 then u.count (0x400 + p) 1 else u).besideUpkeep = u.besideUpkeep :=
      keeps_ite State.besideUpkeep rfl rfl
    exact keeps_ite State.besideUpkeep ((State.blameGroup_besideUpkeep _ _ _ _).trans (ht _)) (ht _)
  · rfl

theorem State.deviceRecord_besideUpkeep (w : List Word64) : (s.deviceRecord w).besideUpkeep = s.besideUpkeep := by
  rw [State.deviceRecord_eq]
  exact (State.forAll_keeps State.besideUpkeep (fun u id => u.reactJob_besideUpkeep id w) _ _).trans (s.noted_besideUpkeep w)

@[simp] theorem State.recordNow_besideUpkeep (u k o a : Nat) : (s.recordNow u k o a).besideUpkeep = s.besideUpkeep :=
  (State.besideUpkeep_of_besideRecord (State.appendLog_besideRecord _ _)).trans ((State.deviceRecord_besideUpkeep _ _).trans
    (State.forAll_keeps State.besideUpkeep (f := fun s id => s.modRun id fun r => { r with episode := true }) (fun _ _ => rfl) _ s))

end

end Sys2Proof.Machine
end

section
/-!
PROOFS. Reset sources and the trip (R412, R422, R424, R425, R430, R463): the state a reset leaves, and what the trip makes of the domains.
-/
namespace Sys2Proof.Machine

/-! ### What a decision about the clock leaves alone in a SOLO device (R415) -/

section
variable (s : State)

/-- The state but for the power unit. -/
def State.besidePower : State := { s with power := State.reset.power }

theorem State.eq_of_besidePower {s t : State} (h : t.besidePower = s.besidePower) : t = { s with power := t.power } :=
  congrArg (fun u : State => { u with power := t.power }) h

theorem State.withPower_besidePower (p : PowerUnit) : State.besidePower { s with power := p } = s.besidePower := rfl

theorem State.announce_besidePower (code : Nat) : (s.announce code).besidePower = s.besidePower := by
  unfold State.announce
  extract_lets p
  split
  · rfl
  · exact keeps_ite _ rfl rfl

theorem State.decideStep_besidePower (code : Nat) : (s.decideStep code).besidePower = s.besidePower := by
  have hdrop : s.dropStepUp.besidePower = s.besidePower := keeps_ite _ rfl rfl
  exact keeps_ite _ ((State.announce_besidePower _ _).trans hdrop) (keeps_ite _ hdrop (keeps_ite _ rfl rfl))

/-- A device that is not LINKED acts on its causes in the power unit alone. -/
theorem State.setPermit_besidePower (h : s.mode.linked = false) (c k : Nat) : (s.setPermit c k).besidePower = s.besidePower := by
  refine keeps_ite _ rfl ?_
  generalize hu : ({ s with power := { s.power with permits := s.power.permits.put c k } } : State) = u
  have hlinked : u.mode.linked = false := by rw [← hu]; exact h
  have hkept : u.besidePower = s.besidePower := by rw [← hu]; rfl
  have hsolo : u.applyCauses = u.decideStep u.power.ownStep := if_neg (by simp [hlinked])
  rw [hsolo]
  exact (u.decideStep_besidePower _).trans hkept

/-! ### The state a reset leaves (R425) -/

/-- What a reset makes of the device before an alarm that is still active raises cause 5 again. -/
def State.cleared (cause : BitVec 4) : State := { State.reset with
  pending := s.pending
  free := s.free
  fuses := s.fuses
  flash := s.flash
  host := { State.reset.host with hostRam := s.host.hostRam, pcieHeld := s.pins.active.getLsbD 1 }
  pins := { State.reset.pins with active := s.pins.active, racing := s.pins.racing }
  sec := { State.reset.sec with drbgPos := s.sec.drbgPos }
  rst := { State.reset.rst with rstCause := cause } }

theorem State.resetDevice_of_alarm (h : s.pins.active.getLsbD 3 = true) (cause : BitVec 4) :
    s.resetDevice cause = (s.cleared cause).setPermit 5 4 := if_pos h

theorem State.resetDevice_of_quiet (h : s.pins.active.getLsbD 3 = false) (cause : BitVec 4) : s.resetDevice cause = s.cleared cause :=
  if_neg (Bool.eq_false_iff.mp h)

theorem State.resetDevice_besidePower (cause : BitVec 4) : (s.resetDevice cause).besidePower = (s.cleared cause).besidePower := by
  cases h : s.pins.active.getLsbD 3
  · rw [s.resetDevice_of_quiet h]
  · rw [s.resetDevice_of_alarm h]
    exact State.setPermit_besidePower _ rfl 5 4

theorem State.resetDevice_eq (cause : BitVec 4) : s.resetDevice cause = { s.cleared cause with power := (s.resetDevice cause).power } :=
  State.eq_of_besidePower (s.resetDevice_besidePower cause)

theorem State.resetDevice_flash (cause : BitVec 4) : (s.resetDevice cause).flash = s.flash :=
  (congrArg State.flash (s.resetDevice_besidePower cause) :)

theorem State.resetDevice_pins (cause : BitVec 4) :
    (s.resetDevice cause).pins = { State.reset.pins with active := s.pins.active, racing := s.pins.racing } :=
  (congrArg State.pins (s.resetDevice_besidePower cause) :)

theorem State.asReset_resetDevice (cause : BitVec 4) : AsReset s (s.resetDevice cause) cause where
  rst := (congrArg State.rst (s.resetDevice_besidePower cause) :)
  fuses := (congrArg State.fuses (s.resetDevice_besidePower cause) :)
  hostRam := (congrArg (fun u : State => u.host.hostRam) (s.resetDevice_besidePower cause) :)
  active := (congrArg (fun p : PinUnit => p.active.extractLsb' 1 6) (s.resetDevice_pins cause) :)
  mem := (congrArg State.mem (s.resetDevice_besidePower cause) :)
  clusters := (congrArg State.clusters (s.resetDevice_besidePower cause) :)
  units := (congrArg State.units (s.resetDevice_besidePower cause) :)
  groups := (congrArg State.groups (s.resetDevice_besidePower cause) :)
  rings := (congrArg State.rings (s.resetDevice_besidePower cause) :)
  work := (congrArg State.work (s.resetDevice_besidePower cause) :)
  memSys := (congrArg State.memSys (s.resetDevice_besidePower cause) :)
  power := fun h => by
    rw [s.resetDevice_of_quiet h]
    rfl
  cool := fun h => by
    rw [s.resetDevice_of_alarm h]
    exact State.permit_setPermit _ (by decide) 4
  mode := (congrArg State.mode (s.resetDevice_besidePower cause) :)
  link := (congrArg State.link (s.resetDevice_besidePower cause) :)
  faults := (congrArg State.faults (s.resetDevice_besidePower cause) :)
  cfg := (congrArg State.cfg (s.resetDevice_besidePower cause) :)
  ledger := (congrArg State.ledger (s.resetDevice_besidePower cause) :)
  test := (congrArg State.test (s.resetDevice_besidePower cause) :)

end

/-- A reset that is entered in the ledger first, or whose pin has just become active, is one of the state before. -/
theorem AsReset.of_same {s u t : State} {cause : BitVec 4} (h : AsReset u t cause) (hfuses : u.fuses = s.fuses)
    (hram : u.host.hostRam = s.host.hostRam) (hactive : ∀ i, i ≠ 0 → u.pins.active.getLsbD i = s.pins.active.getLsbD i) :
    AsReset s t cause where
  __ := h
  fuses := h.fuses.trans hfuses
  hostRam := h.hostRam.trans hram
  active := h.active.trans (BitVec.eq_of_getLsbD_eq fun i hi => by simp [BitVec.getLsbD_extractLsb', hactive (1 + i) (by omega)])
  power := fun hq => h.power ((hactive 3 (by decide)).trans hq)
  cool := fun hq => h.cool ((hactive 3 (by decide)).trans hq)

section
variable (s : State)

/-- What is written in the ledger before a reset reaches neither fuses, pins nor host memory. -/
theorem State.asReset_of_writeNow (c : Nat) (b : List Byte) (cause : BitVec 4) :
    AsReset s ((s.writeNow c b).resetDevice cause) cause := by
  have hkept := s.writeNow_besideLedger c b
  exact (State.asReset_resetDevice _ cause).of_same (congrArg State.fuses hkept :) (congrArg (fun u : State => u.host.hostRam) hkept :)
    fun i _ => (congrArg (fun u : State => u.pins.active.getLsbD i) hkept :)

theorem State.writeNow_rst (c : Nat) (b : List Byte) : (s.writeNow c b).rst = s.rst := (congrArg State.rst (s.writeNow_besideLedger c b) :)

/-- While tripped no source but power-on and RESET_N resets the device (R422). -/
theorem State.resetSource_of_tripped (h : s.rst.tripped = true) (cause : BitVec 4) : s.resetSource cause = s := if_pos h

theorem State.resetSource_of_untripped (h : s.rst.tripped = false) (cause : BitVec 4) : s.resetSource cause = s.resetDevice cause :=
  if_neg (by simp [h])

/-! ### RESET_N (R422, R463) -/

/-- The pin's own level decides nothing about whether a trip holds it. -/
theorem State.resetHeld_setPin : (s.setPin 0 true).resetHeld = s.resetHeld := by
  have hbit : (s.setPin 0 true).pins.active.getLsbD 4 = s.pins.active.getLsbD 4 := s.setPin_other 0 true (by decide)
  unfold State.resetHeld
  rw [hbit]
  rfl

theorem exec_resetN_of_held (h : s.resetHeld = true) :
    exec .resetN s = .next { s.setPin 0 true with rst := { s.rst with heldReset := true } } :=
  congrArg Host.Outcome.next (if_pos (s.resetHeld_setPin.trans h))

theorem exec_resetN_of_free (h : s.resetHeld = false) : exec .resetN s = .next ((s.setPin 0 true).resetDevice 2) :=
  congrArg Host.Outcome.next (if_neg (by simp [s.resetHeld_setPin, h]))

/-! ### The keyed writes (R430) -/

theorem keyed_full {v : Word64} (h : v.toNat / 2 ^ 48 = 0xA5C3) : keyed v .full = true := by
  rw [keyed, h]
  rfl

theorem not_keyed {v : Word64} {w : AccessWidth} (h : v.toNat / 2 ^ 48 ≠ 0xA5C3 ∨ w ≠ .full) : keyed v w = false := by
  rcases h with h | h
  · rw [keyed, beq_eq_false_iff_ne.mpr h, Bool.and_false]
  · rw [keyed, beq_eq_false_iff_ne.mpr h, Bool.false_and]

/-! ### The trip (R422) -/

/-- The record, the event and the flush of a trip. -/
def State.tripWritten (sensor : Nat) : State :=
  let s := if 50 ≤ sensor then s.setPin 4 true else s
  let s := (s.recordNow sensorsUnit 0x81 opManagement 0).event 0x0C (stopBody 1 sensor (s.power.sensors.at sensor 0).toNat)
  if s.ledgerUp then s.flushAll else s

/-- The state of a trip once it is written. -/
def State.tripState (sensor : Nat) : State :=
  { s with rst := { s.rst with tripped := true, tripSensor := BitVec.ofNat 6 sensor, thermTripN := false, haltPending := false }
           pins := { s.pins with sbAlert := setBit s.pins.sbAlert 1 } }

theorem State.powerDown_tripState (sensor : Nat) :
    (s.powerDown.tripState sensor).rst.tripped = true ∧ (s.powerDown.tripState sensor).rst.tripSensor = BitVec.ofNat 6 sensor ∧
      (s.powerDown.tripState sensor).rst.thermTripN = false ∧ (s.powerDown.tripState sensor).mem = s.mem ∧
      (s.powerDown.tripState sensor).fuses = s.fuses ∧ (s.powerDown.tripState sensor).rst.domains = s.rst.domains &&& keptDomains ∧
      (s.powerDown.tripState sensor).pins.racing = s.pins.racing :=
  ⟨rfl, rfl, rfl, rfl, rfl, rfl, rfl⟩

theorem State.trip_of_untripped (h : s.rst.tripped = false) (sensor : Nat) :
    s.trip sensor = (s.tripWritten sensor).powerDown.tripState sensor := by
  simp only [State.trip, h, Bool.false_eq_true, if_false, State.tripWritten, State.tripState]

/-- A trip's writing moves THERM_TRIP_N alone of what upkeep leaves. -/
theorem State.tripWritten_besideUpkeep (sensor : Nat) :
    (s.tripWritten sensor).besideUpkeep = (if 50 ≤ sensor then s.setPin 4 true else s).besideUpkeep := by
  unfold State.tripWritten
  extract_lets u x
  have hx : x.besideUpkeep = u.besideUpkeep := (State.event_besideUpkeep _ _ _).trans (u.recordNow_besideUpkeep _ _ _ _)
  exact keeps_ite State.besideUpkeep (x.flushAll_besideUpkeep.trans hx) hx

theorem State.tripWritten_kept (sensor : Nat) :
    (s.tripWritten sensor).mem = s.mem ∧ (s.tripWritten sensor).fuses = s.fuses ∧ (s.tripWritten sensor).rst.domains = s.rst.domains ∧
      (s.tripWritten sensor).pins.racing = s.pins.racing := by
  have hkept := s.tripWritten_besideUpkeep sensor
  have hpin : ∀ u : State, u = s.setPin 4 true ∨ u = s → u.mem = s.mem ∧ u.fuses = s.fuses ∧ u.rst.domains = s.rst.domains ∧
      u.pins.racing = s.pins.racing := by
    rintro u (rfl | rfl) <;> exact ⟨rfl, rfl, rfl, rfl⟩
  obtain ⟨hmem, hfuses, hdomains, hracing⟩ := hpin (if 50 ≤ sensor then s.setPin 4 true else s) (ite_eq_or_eq ..)
  exact ⟨(State.mem_of_besideUpkeep hkept).trans hmem, (State.fuses_of_besideUpkeep hkept).trans hfuses,
    (State.domains_of_besideUpkeep hkept).trans hdomains, (State.racing_of_besideUpkeep hkept).trans hracing⟩

/-- The domains that stay on, bit by bit. -/
theorem getLsbD_keptDomains {d : Nat} (h : d < 190) : keptDomains.getLsbD d = [168, 186, 187, 188, 189].contains d := by
  have hbits : keptDomains = [168, 186, 187, 188, 189].foldl setBit 0 := by decide
  rw [hbits]
  simp only [List.foldl, getLsbD_setBit, h]
  simp [eq_comm, Bool.or_assoc]

end

/-- Settles O46: each source's answer is the reset state by its condition, and what is written first, the ledger's entry or the pin's
level, is nothing a reset keeps. -/
theorem resetsReturnTheDevice : Obligations.ResetsReturnTheDevice := by
  intro s v w sensor back
  have hreset (c : BitVec 4) : AsReset s (s.resetDevice c) c ∧ (s.resetDevice c).flash = s.flash := ⟨s.asReset_resetDevice c, s.resetDevice_flash c⟩
  refine ⟨⟨_, rfl, hreset 0⟩, fun ht => ?_, fun ht => ?_, fun hr => ?_, fun hh => ?_, fun hh => ?_, fun hh => ?_, fun hh => ?_,
    fun ho ht hk hv => ?_, fun h => ?_, fun hd ht => ?_, fun hd ht => ?_⟩
  · have hsource (c : BitVec 4) := s.resetSource_of_untripped ht c
    refine ⟨⟨_, congrArg Host.Outcome.next (hsource 1), hreset 1⟩, ⟨_, congrArg Host.Outcome.next (hsource 6), hreset 6⟩, ⟨_, congrArg Host.Outcome.next (hsource 7), hreset 7⟩,
      fun hr => ⟨(s.writeNow 0x0C (stopBody 2 3 0)).resetDevice 3, ?_, s.asReset_of_writeNow _ _ 3⟩⟩
    rw [← State.resetSource_of_untripped _ ((congrArg ResetUnit.tripped (s.writeNow_rst _ _)).trans ht)]
    exact congrArg Host.Outcome.next (if_neg (by simp [ht, Nat.not_lt.mpr hr]))
  · have hsource (c : BitVec 4) := s.resetSource_of_tripped ht c
    exact ⟨congrArg Host.Outcome.next (hsource 1), congrArg Host.Outcome.next (hsource 6), congrArg Host.Outcome.next (hsource 7), congrArg Host.Outcome.next (if_pos (by simp [ht]))⟩
  · exact congrArg Host.Outcome.next (if_pos (by simp [hr]))
  · refine ⟨_, exec_resetN_of_free s hh, (State.asReset_resetDevice _ 2).of_same rfl rfl fun i hi => s.setPin_other 0 true hi.symm, ?_⟩
    exact State.resetDevice_flash _ 2
  · exact ⟨_, exec_resetN_of_held s hh, rfl, rfl⟩
  · refine ⟨_, congrArg Host.Outcome.next (if_pos hh), ?_⟩
    have h := State.asReset_resetDevice (s.setPin 4 false) 2
    refine ⟨h.rst, h.mem, h.fuses, State.resetDevice_flash _ 2, ?_⟩
    rw [State.resetDevice_pins]
    exact s.setPin_same false (by decide)
  · exact congrArg Host.Outcome.next (if_neg (by simp [hh]))
  · refine ⟨(s.writeNow 0x0C (stopBody 2 4 0)).resetDevice 4, ?_, s.asReset_of_writeNow _ _ 4⟩
    rw [← State.resetSource_of_untripped _ ((congrArg ResetUnit.tripped (s.writeNow_rst _ _)).trans ht)]
    exact congrArg Host.Outcome.next (if_neg (by simp [ho, keyed_full hk, hv]))
  · refine congrArg Host.Outcome.next (if_pos ?_)
    rcases h with h | h | h
    · simp [not_keyed (.inl h)]
    · simp [not_keyed (.inr h)]
    · rw [h]
      simp
  · obtain ⟨hmem, hfuses, hdomains, -⟩ := s.tripWritten_kept sensor.toNat
    obtain ⟨htripped, hsensor, hpin, hmem', hfuses', hdomains', -⟩ := (s.tripWritten sensor.toNat).powerDown_tripState sensor.toNat
    refine runs_of_exec_live hd (congrArg (live s) (s.trip_of_untripped ht sensor.toNat))
      ⟨htripped, hsensor.trans (by simp), hpin, hmem'.trans hmem, hfuses'.trans hfuses, fun d hlt => ?_⟩
    rw [hdomains', BitVec.getLsbD_and, getLsbD_keptDomains hlt, hdomains]
  · exact (congrArg (live s) (if_pos ht)).trans (live_defined s s hd)

end Sys2Proof.Machine
end

section
/-!
PROOFS. The release order, host-ready and the orderly halt (R398, R399, R423, R427, R428): each release step switches domains on only, the
start-up image read always leaves an active image, and the halt ends the jobs that hold groups.
-/
namespace Sys2Proof.Machine

/-! ### The start-up image read (R398, R399) -/

section
variable (s : State)

/-- The release order and the DRBG's readiness: what reading the configuration leaves alone. -/
def State.releaseView : ResetUnit × Bool := (s.rst, s.sec.drbgOk)

theorem State.releaseView_of_besideLedger {s t : State} (h : t.besideLedger = s.besideLedger) : t.releaseView = s.releaseView :=
  (congrArg State.releaseView h :)

theorem State.releaseView_of_besideRecord {s t : State} (h : t.besideRecord = s.besideRecord) : t.releaseView = s.releaseView :=
  (congrArg State.releaseView h :)

theorem State.event_releaseView (c : Nat) (b : List Byte) : (s.event c b).releaseView = s.releaseView :=
  State.releaseView_of_besideLedger (s.event_besideLedger c b)

theorem State.withLedger_releaseView (l : LedgerUnit) : State.releaseView { s with ledger := l } = s.releaseView := rfl

theorem State.managementRecord_releaseView (k o j a : Nat) : (s.managementRecord k o j a).2.releaseView = s.releaseView :=
  State.releaseView_of_besideRecord (s.managementRecord_besideRecord k o j a)

theorem State.withCfg_releaseView (c : ConfigUnit) : State.releaseView { s with cfg := c } = s.releaseView := rfl

theorem State.changeOwner_releaseView (new : List Byte) : (s.changeOwner new).releaseView = s.releaseView :=
  keeps_ite State.releaseView rfl (State.event_releaseView _ _ _)

theorem State.startPolicy_releaseView (b : List Byte) : (s.startPolicy b).releaseView = s.releaseView := by
  unfold State.startPolicy
  split
  · exact s.changeOwner_releaseView _
  · exact s.managementRecord_releaseView _ _ _ _
  · exact keeps_ite _ rfl (s.managementRecord_releaseView _ _ _ _)
  · rfl

theorem State.burnVersion_releaseView (v : Nat) : (s.burnVersion v).releaseView = s.releaseView :=
  keeps_ite State.releaseView rfl (State.event_releaseView _ _ _)

theorem State.startImage_releaseView (i : Image) : (s.startImage i).releaseView = s.releaseView :=
  (State.withCfg_releaseView _ _).trans (keeps_ite State.releaseView (s.burnVersion_releaseView _) rfl)

/-- The image is chosen from the candidates: the release order stays where it is, and an image is active. -/
theorem State.startFrom_spec (l : List Nat) (s : State) :
    (State.startFrom l s).releaseView = s.releaseView ∧ (State.startFrom l s).cfg.active ≠ none := by
  induction l generalizing s with
  | nil => exact ⟨rfl, Option.some_ne_none _⟩
  | cons i rest ih =>
    unfold State.startFrom
    split
    · exact ih s
    · extract_lets im t
      have ht : t.releaseView = s.releaseView := s.startPolicy_releaseView _
      split
      · exact ⟨(ih t).1.trans ht, (ih t).2⟩
      · exact ⟨(t.startImage_releaseView im).trans ht, Option.some_ne_none _⟩

theorem State.readImages_spec : s.readImages.releaseView = s.releaseView ∧ s.readImages.cfg.active ≠ none := by
  unfold State.readImages
  extract_lets policy serial order c u v
  have hv : v.releaseView = s.releaseView :=
    (State.forAll_keeps State.releaseView (fun w i => w.managementRecord_releaseView _ _ _ i) _ u).trans (s.withCfg_releaseView _)
  obtain ⟨hkept, hactive⟩ := State.startFrom_spec order v
  exact ⟨hkept.trans hv, hactive⟩

theorem State.startUp_spec : s.startUp.releaseView = s.releaseView ∧ s.startUp.cfg.active ≠ none := by
  unfold State.startUp
  extract_lets before l u made start m
  have hkept : u.releaseView = s.releaseView := (State.readImages_spec _).1.trans (s.withLedger_releaseView _)
  have hactive : u.cfg.active ≠ none := (State.readImages_spec _).2
  exact ⟨(State.withLedger_releaseView _ _).trans ((State.withLedger_releaseView _ _).trans hkept), hactive⟩

/-! ### Reading the ledger, and training HBM (R251, R443 to R445) -/

theorem State.remapRow_rst (st pc row : Nat) : (s.remapRow st pc row).2.rst = s.rst :=
  keeps_ite (fun r : Nat × State => r.2.rst) rfl (keeps_ite (fun r : Nat × State => r.2.rst) rfl rfl)

theorem State.loadDurable_rst (e : List Byte) : (s.loadDurable e).rst = s.rst := by
  unfold State.loadDurable
  extract_lets st row sp pc add
  split <;> rfl

theorem State.loadMemoryEvent_rst (b : List Byte) : (s.loadMemoryEvent b).rst = s.rst :=
  keeps_ite State.rst (s.remapRow_rst _ _ _) rfl

theorem State.loadLedger_rst : s.loadLedger.rst = s.rst := by
  unfold State.loadLedger
  extract_lets all
  split
  · exact (congrArg State.rst (State.event_besideLedger _ _ _) :)
  · split
    · refine (foldl_keeps State.rst (fun u e => u.loadMemoryEvent_rst _) _ _).trans ?_
      exact foldl_keeps State.rst State.loadDurable_rst _ _
    · exact foldl_keeps State.rst (fun u e => u.loadMemoryEvent_rst _) _ _

theorem State.failLane_rst (st pc lane : Nat) : (s.failLane st pc lane).rst = s.rst := keeps_ite State.rst rfl rfl

theorem State.trainHbm_rst (l : List (Fin 8 × Fin 32 × Fin 32)) : (s.trainHbm l).rst = s.rst := by
  unfold State.trainHbm
  extract_lets bad u v m
  have hu : u.rst = s.rst := foldl_keeps State.rst (fun w x => w.failLane_rst _ _ _) l s
  exact (State.forAll_keeps State.rst (f := fun w st => w.modStack st fun k => { k with ready := !bad st }) (fun _ _ => rfl) _ u).trans hu

end

/-! ### Domains on (R427) -/

/-- From `s` to `t` the release order stands where it was, and no domain is switched off. -/
def State.PowersOn (s t : State) : Prop :=
  t.rst.released = s.rst.released ∧ t.rst.hostReady = s.rst.hostReady ∧ ∀ d, s.rst.domains.getLsbD d = true → t.rst.domains.getLsbD d = true

section
variable {s t u : State}

theorem State.PowersOn.of_rst (h : t.rst = s.rst) : s.PowersOn t := by
  rw [State.PowersOn, h]
  exact ⟨rfl, rfl, fun _ => id⟩

theorem State.PowersOn.trans (h : s.PowersOn t) (g : t.PowersOn u) : s.PowersOn u := by
  obtain ⟨hr, hh, hd⟩ := h
  obtain ⟨gr, gh, gd⟩ := g
  exact ⟨gr.trans hr, gh.trans hh, fun d hset => gd d (hd d hset)⟩

theorem getLsbD_foldl_setBit {w : Nat} (x : BitVec w) (l : List Nat) {d : Nat} (hd : d < w) :
    (l.foldl setBit x).getLsbD d = (x.getLsbD d || l.contains d) := by
  induction l generalizing x with
  | nil => simp
  | cons i l ih =>
    rw [List.foldl_cons, ih, getLsbD_setBit, List.contains_cons, decide_eq_true hd, Bool.true_and, Bool.or_assoc]
    congr 2
    exact Bool.beq_eq_decide_eq d i ▸ decide_eq_decide.mpr eq_comm

/-- The domains switched on are on. -/
theorem State.powerOn_domain (s : State) {l : List Nat} {d : Nat} (hd : d < 190) (h : d ∈ l) : (s.powerOn l).rst.domains.getLsbD d = true := by
  refine (getLsbD_foldl_setBit s.rst.domains l hd).trans ?_
  simp [h]

theorem State.powersOn_powerOn (s : State) (l : List Nat) : s.PowersOn (s.powerOn l) := by
  refine ⟨rfl, rfl, fun d hset => ?_⟩
  have hd : d < 190 := BitVec.lt_of_getLsbD hset
  exact (getLsbD_foldl_setBit s.rst.domains l hd).trans (by rw [hset, Bool.true_or])

theorem State.powersOn_forAll (s : State) {f : State → Nat → State} (h : ∀ (u : State) x, u.PowersOn (f u x)) (l : List Nat) : s.PowersOn (s.forAll l f) :=
  List.foldlRecOn l f (motive := s.PowersOn) (.of_rst rfl) fun _ hu x _ => hu.trans (h _ x)

theorem State.powersOn_releaseGroups (s : State) (failed : List (Fin 68)) : s.PowersOn (s.releaseGroups failed) := by
  unfold State.releaseGroups
  extract_lets u p v w
  have hu : s.PowersOn u := s.powersOn_powerOn _
  have hv : u.PowersOn v := .of_rst rfl
  have hw : v.PowersOn w := v.powersOn_forAll (fun x p => x.powersOn_powerOn _) _
  refine hu.trans (hv.trans (hw.trans (w.powersOn_forAll ?_ _)))
  exact fun x p => .of_rst rfl

theorem State.portState_rst (s : State) (n : Nat) (x : BitVec 3) : (s.portState n x).rst = s.rst := keeps_ite State.rst rfl rfl

theorem State.powersOn_releaseLinks (s : State) : s.PowersOn s.releaseLinks := by
  refine s.powersOn_forAll (fun u n => ?_) _
  extract_lets on v
  have hv : u.PowersOn v := .of_rst rfl
  split
  · exact hv.trans ((v.powersOn_powerOn _).trans (.of_rst (State.portState_rst _ _ _)))
  · split
    · exact hv.trans (v.powersOn_powerOn _)
    · exact hv

/-! ### RELEASE_STEP -/

/-- The step is counted before what it does. -/
def State.stepCounted (s : State) : State := { s with rst := { s.rst with released := s.rst.released + 1 } }

theorem exec_releaseStep (o : ReleaseObs) (ht : s.rst.tripped = false) (hr : s.rst.heldReset = false) (hh : s.rst.hostReady = false) :
    exec (.releaseStep o) s = live s (s.release o) :=
  congrArg (live s) (if_neg (by simp [ht, hr, hh]))

/-- The first step: the always-on domains, and the strap read. -/
def State.releaseFirst (s : State) (o : ReleaseObs) : State :=
  let t := (s.stepCounted.setPin 0 false).powerOn [186, 189]
  { t with rst := { t.rst with strap := BitVec.ofNat 4 (strapChoice (strapMedian o.strapCodes)) } }

/-- The fourth step: the configuration is read once the DRBG is ready. -/
def State.releaseFourth (s : State) : State :=
  let t := s.stepCounted.powerOn [185, 187]
  ({ t with sec := { t.sec with drbgOk := true } }).startUp

/-- What each of the eight steps makes of the counted state. -/
theorem State.release_eq (s : State) (o : ReleaseObs) (h : s.rst.released < 8) :
    s.rst.released = 0 ∧ s.release o = s.releaseFirst o ∨
    s.rst.released = 1 ∧ s.release o = (s.stepCounted.powerOn [188]).loadLedger ∨
    s.rst.released = 2 ∧ s.release o = s.stepCounted.powerOn [168] ∨
    s.rst.released = 3 ∧ s.release o = s.releaseFourth ∨
    s.rst.released = 4 ∧ s.release o = s.stepCounted.powerOn ((List.range 4).flatMap fun k => [0, 1, 2, 3, 6].map (140 + 7 * k + ·)) ∨
    s.rst.released = 5 ∧ s.release o =
      (s.stepCounted.powerOn ((List.range 4).flatMap fun k => [4, 5].map (140 + 7 * k + ·))).trainHbm o.failedLanes ∨
    s.rst.released = 6 ∧ s.release o = s.stepCounted.releaseGroups o.failedFills ∨
    s.rst.released = 7 ∧ s.release o = s.stepCounted.releaseLinks := by
  unfold State.release
  extract_lets r u
  split
  next hr => exact .inl ⟨hr, rfl⟩
  next hr => exact .inr (.inl ⟨hr, rfl⟩)
  next hr => exact .inr (.inr (.inl ⟨hr, rfl⟩))
  next hr => exact .inr (.inr (.inr (.inl ⟨hr, rfl⟩)))
  next hr => exact .inr (.inr (.inr (.inr (.inl ⟨hr, rfl⟩))))
  next hr => exact .inr (.inr (.inr (.inr (.inr (.inl ⟨hr, rfl⟩)))))
  next hr => exact .inr (.inr (.inr (.inr (.inr (.inr (.inl ⟨hr, rfl⟩))))))
  next hr => exact .inr (.inr (.inr (.inr (.inr (.inr (.inr ⟨hr, rfl⟩))))))
  next h0 h1 h2 h3 h4 h5 h6 h7 =>
    simp only [imp_false] at h0 h1 h2 h3 h4 h5 h6 h7
    omega

theorem State.powersOn_releaseFirst (s : State) (o : ReleaseObs) : s.stepCounted.PowersOn (s.releaseFirst o) := by
  have hpin : s.stepCounted.PowersOn (s.stepCounted.setPin 0 false) := .of_rst rfl
  obtain ⟨hr, hh, hd⟩ := hpin.trans (State.powersOn_powerOn _ [186, 189])
  exact ⟨hr, hh, hd⟩

theorem State.powersOn_releaseFourth (s : State) : s.stepCounted.PowersOn s.releaseFourth := by
  refine (State.powersOn_powerOn _ [185, 187]).trans (.of_rst ?_)
  exact (congrArg Prod.fst (State.startUp_spec _).1 :)

/-- A release step switches domains on only. -/
theorem State.powersOn_release (s : State) (o : ReleaseObs) (h : s.rst.released < 8) : s.stepCounted.PowersOn (s.release o) := by
  rcases s.release_eq o h with ⟨-, h⟩ | ⟨-, h⟩ | ⟨-, h⟩ | ⟨-, h⟩ | ⟨-, h⟩ | ⟨-, h⟩ | ⟨-, h⟩ | ⟨-, h⟩ <;> rw [h]
  · exact s.powersOn_releaseFirst o
  · exact (State.powersOn_powerOn _ _).trans (.of_rst (State.loadLedger_rst _))
  · exact State.powersOn_powerOn _ _
  · exact s.powersOn_releaseFourth
  · exact State.powersOn_powerOn _ _
  · exact (State.powersOn_powerOn _ _).trans (.of_rst (State.trainHbm_rst _ _))
  · exact State.powersOn_releaseGroups _ _
  · exact State.powersOn_releaseLinks _

theorem State.releaseFirst_spec (s : State) (o : ReleaseObs) : (s.releaseFirst o).rst.domains.getLsbD 186 = true ∧
    (s.releaseFirst o).rst.domains.getLsbD 189 = true ∧ (s.releaseFirst o).rst.strap.toNat = (15 - strapMedian o.strapCodes / 16) % 16 :=
  ⟨State.powerOn_domain _ (by decide) (l := [186, 189]) (by decide), State.powerOn_domain _ (by decide) (l := [186, 189]) (by decide),
    BitVec.toNat_ofNat _ _⟩

theorem State.releaseFourth_spec (s : State) : s.releaseFourth.sec.drbgOk = true ∧ s.releaseFourth.cfg.active ≠ none := by
  unfold State.releaseFourth
  extract_lets t x
  obtain ⟨hview, hactive⟩ := State.startUp_spec { t with sec := { x with drbgOk := true } }
  exact ⟨congrArg Prod.snd hview, hactive⟩

/-- What the first, third and fourth step are named for. -/
theorem State.release_steps (s : State) (o : ReleaseObs) (h : s.rst.released < 8) :
    (s.rst.released = 0 → (s.release o).rst.domains.getLsbD 186 = true ∧ (s.release o).rst.domains.getLsbD 189 = true ∧
      (s.release o).rst.strap.toNat = (15 - strapMedian o.strapCodes / 16) % 16) ∧
    (s.rst.released = 2 → (s.release o).rst.domains.getLsbD 168 = true) ∧
    (s.rst.released = 3 → (s.release o).sec.drbgOk = true ∧ (s.release o).cfg.active ≠ none) := by
  rcases s.release_eq o h with ⟨hr, h⟩ | ⟨hr, h⟩ | ⟨hr, h⟩ | ⟨hr, h⟩ | ⟨hr, h⟩ | ⟨hr, h⟩ | ⟨hr, h⟩ | ⟨hr, h⟩ <;>
    rw [h, hr] <;> refine ⟨fun hn => ?_, fun hn => ?_, fun hn => ?_⟩ <;> cases hn
  · exact s.releaseFirst_spec o
  · exact State.powerOn_domain _ (by decide) (l := [168]) (by decide)
  · exact s.releaseFourth_spec

/-! ### HOST_READY (R427, R431) -/

/-- What the registers' start and the axes leave alone. -/
def State.startView (s : State) : ResetUnit × BeatNo × BitVec 16 × Memory × Bool × PinUnit := (s.rst, s.beat, s.cycle, s.mem, s.mode.sealedTrust, s.pins)

theorem State.startView_of_besideClock (h : t.besideClock = s.besideClock) : t.startView = s.startView := (congrArg State.startView h :)

theorem State.startView_of_besideLedger (h : t.besideLedger = s.besideLedger) : t.startView = s.startView := (congrArg State.startView h :)

theorem State.setCapped_startView (s : State) (c : Bool) : (s.setCapped c).startView = s.startView := by
  unfold State.setCapped
  refine keeps_ite State.startView rfl ?_
  extract_lets old m p w u v
  have hu : u.startView = s.startView := (State.startView_of_besideLedger (State.event_besideLedger w _ _)).trans rfl
  have hv : v.startView = s.startView := keeps_ite State.startView hu ((State.startView_of_besideClock (u.setPermit_besideClock 3 0)).trans hu)
  exact keeps_ite State.startView hv hv

/-- The axes as the fuses, the image and the fields have them. -/
theorem State.startAxes_spec (s : State) : s.startAxes.rst = s.rst ∧ s.startAxes.beat = s.beat ∧ s.startAxes.cycle = s.cycle ∧
    s.startAxes.mem = s.mem ∧ s.startAxes.mode.sealedTrust = (!s.fuses.sealDisabled && s.cfg.policyOk) := by
  unfold State.startAxes
  extract_lets req m u
  have h := u.setCapped_startView req
  exact ⟨congrArg (·.1) h, congrArg (·.2.1) h, congrArg (·.2.2.1) h, congrArg (·.2.2.2.1) h, congrArg (·.2.2.2.2.1) h⟩

theorem State.trainHost_mem (s : State) : s.trainHost.mem = s.mem := rfl

theorem State.trainHost_startView (s : State) : s.trainHost.startView = s.startView := rfl

/-- The state at host-ready before the axes are set. -/
def State.readied (s : State) : State :=
  State.startFields { s with rst := { s.rst with hostReady := true, haltPending := s.pins.active.getLsbD 2 }, beat := 0, cycle := 0 }

/-- The state at host-ready but for the training of the host link. -/
def State.started (s : State) : State :=
  { s.readied.startAxes with rst := { s.readied.startAxes.rst with beatOut := beatOutWidth 0 } }

theorem exec_hostReady (ht : s.rst.tripped = false) (hr : s.rst.heldReset = false) (hh : s.rst.hostReady = false) (h : 8 ≤ s.rst.released) :
    exec .hostReady s = live s (if s.started.host.pcieHeld then s.started else s.started.trainHost) := by
  show execHostReady s = _
  unfold execHostReady
  rw [if_neg (by simp [ht, hr, hh, Nat.not_lt.mpr h])]
  rfl

theorem State.started_spec (s : State) : s.started.rst.hostReady = true ∧ s.started.beat = 0 ∧ s.started.cycle = 0 ∧
    s.started.rst.haltPending = s.pins.active.getLsbD 2 ∧ s.started.mem = s.mem ∧
    s.started.mode.sealedTrust = (!s.fuses.sealDisabled && s.cfg.policyOk) := by
  obtain ⟨hrst, hbeat, hcycle, hmem, hmode⟩ := s.readied.startAxes_spec
  exact ⟨(congrArg ResetUnit.hostReady hrst :), hbeat, hcycle, (congrArg ResetUnit.haltPending hrst :), hmem, hmode⟩

/-! ### The orderly halt (R423) -/

/-- The job stands in the table and still holds its groups, or has been ended by the halt. -/
def State.holdsJob (s : State) (id : Nat) : Prop := ∃ j, s.job? id = some j ∧ j.held = true

/-- The halt has ended the job as a cancelled one. -/
def State.haltedJob (s : State) (id : Nat) : Prop := ∃ j, s.job? id = some j ∧ j.phase = .fencedTerminate ∧ j.cancelled = true

theorem State.job?_endJob_other {id x : Nat} (h : id ≠ x) (f : Job → Job) : (s.endJob x f).job? id = s.job? id :=
  s.job?_modJob_other h _

theorem State.job?_endJob_same {id : Nat} {j : Job} (h : s.job? id = some j) (hheld : j.held = true) :
    (s.endJob id fun j => { j with cancelled := true }).haltedJob id := by
  refine ⟨_, s.job_modJob id _ j h, ?_, rfl⟩
  revert hheld
  cases hp : j.phase <;> simp [Job.held, hp]

/-- Every job that holds groups is ended once. -/
theorem State.haltedJob_forAll {l : List Nat} {id : Nat} (hl : l.Nodup) (hid : id ∈ l) (h : s.holdsJob id) :
    (s.forAll l fun s id => s.endJob id fun j => { j with cancelled := true }).haltedJob id := by
  have hother (P : Option Job → Prop) (u : State) (y : Nat) (hy : y ≠ id) (hu : P (u.job? id)) :
      P ((u.endJob y fun j => { j with cancelled := true }).job? id) := by
    rwa [State.job?_endJob_other hy.symm]
  refine foldl_decides (R := fun u : State => u.holdsJob id) (Q := fun u : State => u.haltedJob id) hl hid (fun u y hy hu => ?_) (fun u hu => ?_) (fun u y hy hu => ?_) h
  · exact hother (fun o => ∃ j, o = some j ∧ j.held = true) u y hy hu
  · obtain ⟨j, hj, hheld⟩ := hu
    exact State.job?_endJob_same hj hheld
  · exact hother (fun o => ∃ j, o = some j ∧ j.phase = .fencedTerminate ∧ j.cancelled = true) u y hy hu

/-- The halt has begun, its event written. -/
def State.haltBegun (s : State) : State := State.event { s with rst := { s.rst with haltStarted := true } } 0x0C (stopBody 0 0 0)

theorem State.haltBegun_besideLedger (s : State) :
    s.haltBegun.besideLedger = State.besideLedger { s with rst := { s.rst with haltStarted := true } } :=
  State.event_besideLedger _ _ _

theorem State.endJob_besideUpkeep (s : State) (id : Nat) (f : Job → Job) : (s.endJob id f).besideUpkeep = s.besideUpkeep :=
  s.modJob_besideUpkeep id _

theorem State.beginHalt_besideUpkeep (s : State) :
    s.beginHalt.besideUpkeep = State.besideUpkeep { s with rst := { s.rst with haltStarted := true } } := by
  have hjobs : s.beginHalt.besideUpkeep = s.haltBegun.besideUpkeep :=
    State.forAll_keeps State.besideUpkeep (fun u id => u.endJob_besideUpkeep id _) s.haltBegun.heldJobs s.haltBegun
  exact hjobs.trans (State.besideUpkeep_of_besideLedger s.haltBegun_besideLedger)

/-- At its beginning the halt ends every job that holds groups. -/
theorem State.beginHalt_haltedJob (hjobs : s.work.jobs.rising) {id : Nat} {j : Job} (hj : s.job? id = some j) (hheld : j.held = true) :
    s.beginHalt.haltedJob id := by
  have hwork : s.haltBegun.work = s.work := (congrArg State.work s.haltBegun_besideLedger :)
  have hids : s.haltBegun.heldJobs = s.heldJobs := by rw [State.heldJobs, hwork, State.heldJobs]
  have hmem : id ∈ s.heldJobs := List.mem_map.mpr ⟨(id, j), List.mem_filter.mpr ⟨Table.mem_of_find hj, hheld⟩, rfl⟩
  have hnodup : s.heldJobs.Nodup := (hjobs.sublist (List.filter_sublist.map _)).imp Nat.ne_of_lt
  have hj' : s.haltBegun.job? id = some j := (congrArg (fun w : WorkUnit => w.jobs.find id) hwork).trans hj
  exact State.haltedJob_forAll (l := s.haltBegun.heldJobs) (hids ▸ hnodup) (hids ▸ hmem) ⟨j, hj', hheld⟩

theorem exec_orderlyHalt_begin (hp : s.rst.haltPending = true) (ht : s.rst.tripped = false) (hh : s.rst.halted = false)
    (hs : s.rst.haltStarted = false) (hc : s.cycle = 0) : exec .orderlyHalt s = live s s.beginHalt :=
  congrArg (live s) ((if_neg (by simp [hp, ht, hh])).trans ((if_pos (by simp [hs])).trans (if_pos hc)))

theorem exec_orderlyHalt_end (hp : s.rst.haltPending = true) (ht : s.rst.tripped = false) (hh : s.rst.halted = false)
    (hs : s.rst.haltStarted = true) (hd : s.drained = true) : exec .orderlyHalt s = live s s.endHalt :=
  congrArg (live s) ((if_neg (by simp [hp, ht, hh])).trans ((if_neg (by simp [hs])).trans (if_pos hd)))

theorem exec_haltDrainLimit (hp : s.rst.haltPending = true) (ht : s.rst.tripped = false) (hh : s.rst.halted = false)
    (hs : s.rst.haltStarted = true) : exec .haltDrainLimit s = live s s.endHalt :=
  congrArg (live s) (if_pos (by simp [hp, ht, hh, hs]))

/-- The end of the halt, after the ledger's flush. -/
theorem State.endHalt_spec (s : State) : s.endHalt.rst.halted = true ∧ s.endHalt.rst.haltPending = false ∧ s.endHalt.mem = s.mem ∧
    s.endHalt.rst.domains = s.rst.domains &&& keptDomains := by
  have hflush := s.flushAll_besideLedger
  exact ⟨rfl, rfl, (congrArg State.mem hflush :), congrArg (· &&& keptDomains) (congrArg (fun u : State => u.rst.domains) hflush :)⟩

end

/-- Settles O47: a release step powers on only, by the step; the halt's jobs are ended one by one, each by its own place in the table; and
its end changes the domains after the flush. -/
theorem releaseAndOrderlyHalt : Obligations.ReleaseAndOrderlyHalt := by
  intro s o v hd r
  refine ⟨fun ht hr hh hlt => ?_, fun ht hr hh hle => ?_, fun hb => ?_, fun hb ho hk hv => ?_, fun hp ht hh hs hc hinv => ?_,
    fun hp ht hh hs hdr => ?_, fun hp ht hh hs => ?_⟩
  · obtain ⟨hcount, hready, hdomains⟩ := s.powersOn_release o hlt
    exact runs_of_exec_live hd (exec_releaseStep o ht hr hh) ⟨hcount, hready.trans hh, hdomains, s.release_steps o hlt⟩
  · obtain ⟨hready, hbeat, hcycle, hhalt, hmem, hmode⟩ := s.started_spec
    refine runs_of_exec_live hd (exec_hostReady ht hr hh hle) ?_
    have hview : (if s.started.host.pcieHeld then s.started else s.started.trainHost).startView = s.started.startView :=
      keeps_ite State.startView rfl s.started.trainHost_startView
    obtain ⟨grst, gview⟩ := Prod.mk.inj hview
    obtain ⟨gbeat, gview⟩ := Prod.mk.inj gview
    obtain ⟨gcycle, gview⟩ := Prod.mk.inj gview
    obtain ⟨gmem, gview⟩ := Prod.mk.inj gview
    obtain ⟨gmode, -⟩ := Prod.mk.inj gview
    exact ⟨(congrArg ResetUnit.hostReady grst).trans hready, gbeat.trans hbeat, gcycle.trans hcycle,
      (congrArg ResetUnit.haltPending grst).trans hhalt, gmem.trans hmem, gmode.trans hmode⟩
  · have hask : (s.setPin 2 true).askHalt = { s.setPin 2 true with rst := { s.rst with haltPending := true } } := if_pos hb
    exact runs_of_exec_live hd (congrArg (live s) hask) ⟨rfl, s.setPin_same true (by decide), rfl⟩
  · have hask : s.askHalt = { s with rst := { s.rst with haltPending := true } } := if_pos hb
    refine Eq.trans (congrArg (live s) ?_) (live_defined s _ hd)
    rw [if_neg (by simp [ho, keyed_full hk, hv]), hask]
  · have hkept := s.beginHalt_besideUpkeep
    have hrst := State.rst_of_besideUpkeep hkept
    have hmem : s.beginHalt.mem = s.mem := (congrArg State.mem hkept :)
    refine runs_of_exec_live (t := s.beginHalt) hd ?_ ⟨by rw [hrst], by rw [hrst]; exact hh, hmem,
      fun id j hj hheld => s.beginHalt_haltedJob hinv.jobs hj hheld⟩
    exact exec_orderlyHalt_begin hp ht hh hs hc
  · exact runs_of_exec_live hd (exec_orderlyHalt_end hp ht hh hs hdr) s.endHalt_spec
  · exact runs_of_exec_live hd (exec_haltDrainLimit hp ht hh hs) s.endHalt_spec

end Sys2Proof.Machine
end

section
/-!
PROOFS. The pins (R350, R421, R439, R453, R462, R463): the coolant alarm's record and cause, glitches, racing episodes and BEAT_IN.
-/
namespace Sys2Proof.Machine

section
variable (s : State)

/-! ### The coolant alarm (R421) -/

/-- The pin is active, and the sideband is alerted. -/
def State.alarmed : State :=
  let s := s.setPin 3 true
  { s with pins := { s.pins with sbAlert := setBit s.pins.sbAlert 2 } }

/-- An activation that is recorded and signalled, before cause 5 is raised. -/
def State.alarmNoted : State := ((s.alarmed.managementRecord 0x82 opManagement 0 0).2).fire 0 6

theorem State.coolAlarm_of_rising (h : s.pins.active.getLsbD 3 = false) : s.coolAlarm true = s.alarmNoted.setPermit 5 4 := by
  unfold State.coolAlarm
  rw [if_neg (by rw [h]; decide)]
  rfl

theorem State.coolAlarm_of_falling (h : s.pins.active.getLsbD 3 = true) : s.coolAlarm false = (s.setPin 3 false).setPermit 5 0 := by
  unfold State.coolAlarm
  rw [if_neg (by rw [h]; decide)]
  rfl

theorem State.coolAlarm_of_same {active : Bool} (h : s.pins.active.getLsbD 3 = active) : s.coolAlarm active = s := if_pos h

@[simp] theorem State.setPermit_pins (c k : Nat) : (s.setPermit c k).pins = s.pins := (congrArg State.pins (s.setPermit_besideClock c k) :)

/-- A record writes of the pins' registers the log's alert bit alone. -/
theorem State.appendLog_pins (w : List Word64) : (s.appendLog w).pins =
    if s.faults.logCount = 4096 then s.pins else { s.pins with sbAlert := setBit s.pins.sbAlert 3 } := by
  have hadd (u : State) (l : List Nat) : (u.forAll l fun u id => u.modRun id fun r => r.addFault w).pins = u.pins :=
    State.forAll_keeps State.pins (f := fun u id => u.modRun id fun r => r.addFault w) (fun _ _ => rfl) l u
  refine (hadd _ _).trans ?_
  split <;> rfl

theorem State.alarmNoted_pins : s.alarmNoted.pins.active = setBit s.pins.active 3 ∧ s.alarmNoted.pins.racing = s.pins.racing ∧
    s.alarmNoted.pins.sbAlert.getLsbD 2 = true := by
  have hbit : s.alarmed.pins.sbAlert.getLsbD 2 = true := getLsbD_setBit_same _ (by decide)
  rw [State.alarmNoted, State.fire_pins, State.managementRecord, State.appendLog_pins]
  split
  · exact ⟨rfl, rfl, hbit⟩
  · exact ⟨rfl, rfl, (getLsbD_setBit_other _ (by decide)).trans hbit⟩

theorem State.alarmNoted_mem : s.alarmNoted.mem = s.mem :=
  State.mem_of_besideRecord (s := s.alarmed) ((State.fire_besideRecord _ 0 6).trans (s.alarmed.managementRecord_besideRecord _ _ _ _))

/-- What an activation of the alarm brings about: cause 5 at 400 MHz, the pin, the alert. -/
theorem State.coolAlarm_rising_spec (h : s.pins.active.getLsbD 3 = false) :
    (s.coolAlarm true).pins.active = setBit s.pins.active 3 ∧ (s.coolAlarm true).power.permit 5 = 4 ∧
      (s.coolAlarm true).pins.sbAlert.getLsbD 2 = true ∧ (s.coolAlarm true).pins.racing = s.pins.racing ∧ (s.coolAlarm true).mem = s.mem := by
  obtain ⟨hactive, hracing, halert⟩ := s.alarmNoted_pins
  rw [s.coolAlarm_of_rising h, State.permit_setPermit _ (by decide), State.setPermit_pins, State.setPermit_mem]
  exact ⟨hactive, rfl, halert, hracing, s.alarmNoted_mem⟩

/-! ### BEAT_IN (R350) -/

/-- A lost pulse begins the group anew and is recorded. -/
theorem State.beatLost_besideLedger :
    s.beatLost.besideLedger = State.besideLedger { s with pins := { s.pins with beatInWidths := [] } } :=
  State.event_besideLedger _ _ _

theorem exec_beatIn (p : BeatPulse) (hb : s.beating = true) (hu : s.link.beatInUsed = true) :
    exec (.beatIn p) s = live s (match p with
      | .pulse w => s.beatPulse w
      | .lost => s.beatLost) :=
  congrArg (live s) (if_neg (by simp [hb, hu]))

/-- A pulse of 64 or 128 cycles joins the group. -/
theorem State.beatPulse_of_bit {w : Nat} (hw : w = 64 ∨ w = 128) (hl : s.pins.beatInWidths.length < 64) :
    s.beatPulse w = { s with cycle := BitVec.ofNat 16 (w + 65536 - s.cfgNum 0x0104)
                             pins := { s.pins with beatInWidths := s.pins.beatInWidths ++ [w] } } := by
  have hlen : ¬ 64 < (s.pins.beatInWidths ++ [w]).length := by simp; omega
  have hnot : w ≠ 192 := by omega
  have hbit : (decide (w = 64) || decide (w = 128)) = true := by simpa using hw
  unfold State.beatPulse
  simp only [hnot, hbit, hlen, if_false, if_true] <;> rfl

/-- The pulse of 192 cycles ends a complete group, which numbers the beat. -/
theorem State.beatPulse_of_group (h : groupOk (s.pins.beatInWidths ++ [192]) = true) :
    s.beatPulse 192 = { s with cycle := BitVec.ofNat 16 (192 + 65536 - s.cfgNum 0x0104)
                               beat := BitVec.ofNat 48 (groupNumber (s.pins.beatInWidths ++ [192]) + 63)
                               pins := { s.pins with beatInWidths := [] } } := by
  unfold State.beatPulse
  simp only [h, if_true] <;> rfl

/-! ### Racing episodes (R462) -/

/-- The levels and the racing episodes of the pins. -/
def State.levels : BitVec 7 × BitVec 7 := (s.pins.active, s.pins.racing)

theorem State.flr_pins (fn : Nat) : (s.flr fn).pins = s.pins := by
  unfold State.flr
  extract_lets ids f u areas v
  have hend (w : State) (id : Nat) (g h : Job → Job) : ((w.endJob id g).modJob id h).pins = w.pins :=
    (State.modJob_pins _ _ _).trans (w.modJob_pins _ _)
  exact State.forAll_keeps State.pins (fun w id => hend w id _ _) ids s

theorem State.flrAll_pins : s.flrAll.pins = s.pins := State.forAll_keeps State.pins State.flr_pins (List.range 17) s

/-- The host attachment that stops being held trains. -/
def State.unheld : State := if s.host.pcieHeld then ({ s with host := { s.host with pcieHeld := false } }).trainHost else s

theorem State.unheld_pins : s.unheld.pins = s.pins := by
  unfold State.unheld
  split <;> rfl

theorem State.pePerst_pins (active : Bool) : (s.pePerst active).pins = (s.setPin 1 active).pins := by
  cases active
  · exact (s.setPin 1 false).unheld_pins
  · simp only [State.pePerst, if_true]
    exact (s.setPin 1 true).flrAll_pins

/-- Bringing the host attachment back leaves device memory as it is. -/
theorem State.pePerst_false_mem : (s.pePerst false).mem = s.mem := by
  have hunheld (u : State) : u.unheld.mem = u.mem := by
    unfold State.unheld
    split
    · exact State.trainHost_mem _
    · rfl
  exact hunheld (s.setPin 1 false)

end

/-- The fourth transition of a racing episode is counted, and the episode is open. -/
def State.raced (s : State) (i : Nat) : State :=
  let s := s.countGlitch i
  { s with pins := { s.pins with racing := setBit s.pins.racing i } }

theorem exec_inputGlitch_racing {s : State} {p : Fin 7} (h : s.isRacing p = false) :
    exec (.inputGlitch p true) s = live s ((s.raced p).pinActive p) :=
  congrArg (live s) ((if_neg (by decide)).trans (if_neg (by rw [h]; decide)))

section
variable (s : State)

/-- The trip writes no other pin than THERM_TRIP_N. -/
theorem State.trip_racing (sensor : Nat) : (s.trip sensor).pins.racing = s.pins.racing := by
  cases h : s.rst.tripped
  · obtain ⟨-, -, -, -, -, -, hracing⟩ := (s.tripWritten sensor).powerDown_tripState sensor
    obtain ⟨-, -, -, hwritten⟩ := s.tripWritten_kept sensor
    rw [s.trip_of_untripped h, hracing, hwritten]
  · rw [State.trip, if_pos h]

theorem State.resetPin_levels : s.resetPin.levels = (s.setPin 0 true).levels :=
  keeps_ite State.levels rfl (congrArg (fun p : PinUnit => (p.active, p.racing)) (State.resetDevice_pins (s.setPin 0 true) 2) :)

theorem State.askHalt_pins : s.askHalt.pins = s.pins := keeps_ite State.pins rfl rfl

/-- What an input does leaves the racing episodes open; but for THERM_TRIP_N, which the trip drives, and BEAT_IN it stands active itself. -/
theorem State.pinActive_spec {i : Nat} (hi : i < 7) : (s.pinActive i).pins.racing = s.pins.racing ∧
    (i ≠ 4 → i ≠ 5 → (s.pinActive i).pins.active.getLsbD i = true) := by
  have hset (j : Nat) (hj : j < 7) : (s.setPin j true).pins.active.getLsbD j = true := s.setPin_same true hj
  have hlost (u : State) : u.beatLost.pins.racing = u.pins.racing := (congrArg (fun v : State => v.pins.racing) u.beatLost_besideLedger :)
  match i, hi with
  | 0, _ => 
    have h := s.resetPin_levels
    exact ⟨(congrArg Prod.snd h :), fun _ _ => (congrArg (fun l : BitVec 7 × BitVec 7 => l.1.getLsbD 0) h :).trans (hset 0 (by decide))⟩
  | 1, _ =>
    have h : (s.pePerst true).pins = (s.setPin 1 true).pins := s.pePerst_pins true
    exact ⟨(congrArg PinUnit.racing h :), fun _ _ => (congrArg (fun p : PinUnit => p.active.getLsbD 1) h :).trans (hset 1 (by decide))⟩
  | 2, _ =>
    have h : (s.setPin 2 true).askHalt.pins = (s.setPin 2 true).pins := State.askHalt_pins _
    exact ⟨(congrArg PinUnit.racing h :), fun _ _ => (congrArg (fun p : PinUnit => p.active.getLsbD 2) h :).trans (hset 2 (by decide))⟩
  | 3, _ =>
    show (s.coolAlarm true).pins.racing = s.pins.racing ∧ (_ → _ → (s.coolAlarm true).pins.active.getLsbD 3 = true)
    cases h : s.pins.active.getLsbD 3
    · obtain ⟨hactive, -, -, hracing, -⟩ := s.coolAlarm_rising_spec h
      exact ⟨hracing, fun _ _ => hactive ▸ getLsbD_setBit_same _ (by decide)⟩
    · rw [s.coolAlarm_of_same h]
      exact ⟨rfl, fun _ _ => h⟩
  | 4, _ => exact ⟨s.trip_racing 63, fun h => absurd rfl h⟩
  | 5, _ => exact ⟨keeps_ite (fun u : State => u.pins.racing) (hlost _) rfl, fun _ h => absurd rfl h⟩
  | 6, _ => exact ⟨rfl, fun _ _ => hset 6 (by decide)⟩

/-- The end of a racing episode brings the input back to inactive. -/
def State.pinInactive (i : Nat) : State :=
  match i with
  | 1 => s.pePerst false
  | 3 => s.coolAlarm false
  | _ => s.setPin i false

theorem exec_inputRacingEnd {p : Fin 7} (h : s.isRacing p = true) : exec (.inputRacingEnd p) s =
    live s (State.pinInactive { s with pins := { s.pins with racing := clearBit s.pins.racing p } } p) :=
  congrArg (live s) (if_neg (by rw [h]; decide))

theorem State.pinInactive_spec {i : Nat} (hi : i < 7) : (s.pinInactive i).pins.racing = s.pins.racing ∧
    (s.pinInactive i).pins.active.getLsbD i = false ∧ (s.pinInactive i).mem = s.mem := by
  have hclear (j : Nat) (hj : j < 7) : (s.setPin j false).pins.active.getLsbD j = false := s.setPin_same false hj
  unfold State.pinInactive
  split
  · rw [State.pePerst_pins]
    exact ⟨rfl, hclear 1 hi, s.pePerst_false_mem⟩
  · cases h : s.pins.active.getLsbD 3
    · rw [s.coolAlarm_of_same h]
      exact ⟨rfl, h, rfl⟩
    · rw [s.coolAlarm_of_falling h, State.setPermit_pins, State.setPermit_mem]
      exact ⟨rfl, hclear 3 hi, rfl⟩
  · exact ⟨rfl, hclear i hi, rfl⟩

end

/-- Settles O48: the alarm's cause by its two edges, a racing episode pin by pin, and BEAT_IN by the kind of pulse. -/
theorem pinsAct : Obligations.PinsAct := by
  intro s p wd hd a
  refine ⟨fun h3 => ?_, fun h3 hr => ?_, fun h3 => ?_, fun h3 hf hn => ?_, fun hf h3 => ?_, ⟨(s.countGlitch p).pins.glitches, ?_, ?_, fun q hq => ?_⟩,
    fun hr => ?_, fun hr => ?_, fun hr => ?_, fun hb hu => ⟨fun hw hl => ?_, fun hg => ?_, ?_⟩, ?_⟩
  · obtain ⟨hactive, hpermit, halert, -, hmem⟩ := s.coolAlarm_rising_spec h3
    exact runs_of_live_unless hd (t := s.coolAlarm true) rfl (by simp) ⟨hactive, hpermit, halert, hmem⟩
  · refine runs_of_live_unless hd (t := s.coolAlarm false) rfl (by simp [hr]) ?_
    rw [s.coolAlarm_of_falling h3, State.setPermit_pins, State.permit_setPermit _ (by decide), State.setPermit_mem]
    exact ⟨rfl, rfl, rfl⟩
  · exact (congrArg (live s) ((if_neg (by simp)).trans (s.coolAlarm_of_same h3))).trans (live_defined s s hd)
  · exact (congrArg (live s) (if_pos (by rw [show s.pins.active.getLsbD 3 = true from h3, hf, hn]; decide))).trans (live_defined s _ hd)
  · exact (congrArg (live s) (if_pos (by rw [hf, show s.pins.active.getLsbD 3 = false from h3]; decide))).trans (live_defined s _ hd)
  · exact live_defined s _ hd
  · exact Table.at_put_same _ _ _ _
  · exact Table.at_put_other _ _ _ _ _ hq
  · obtain ⟨hracing, hactive⟩ := (s.raced p).pinActive_spec p.isLt
    refine runs_of_exec_live hd (exec_inputGlitch_racing hr) ⟨?_, hactive⟩
    rw [hracing]
    exact getLsbD_setBit_same _ p.isLt
  · exact (congrArg (live s) ((if_neg (by decide)).trans (if_pos hr))).trans (live_defined s s hd)
  · obtain ⟨hracing, hactive, hmem⟩ := State.pinInactive_spec { s with pins := { s.pins with racing := clearBit s.pins.racing p } } p.isLt
    refine runs_of_exec_live hd (exec_inputRacingEnd s hr) ⟨?_, hactive, hmem⟩
    rw [hracing]
    exact getLsbD_clearBit_same _ _
  · refine runs_of_exec_live hd ((exec_beatIn s _ hb hu).trans (congrArg (live s) (s.beatPulse_of_bit hw hl))) ⟨rfl, rfl, rfl, rfl⟩
  · refine runs_of_exec_live hd ((exec_beatIn s _ hb hu).trans (congrArg (live s) (s.beatPulse_of_group hg))) ⟨rfl, rfl, rfl⟩
  · have hlost := s.beatLost_besideLedger
    exact runs_of_exec_live hd (exec_beatIn s .lost hb hu) ⟨(congrArg (fun u : State => u.pins.beatInWidths) hlost :),
      (congrArg State.beat hlost :), (congrArg State.cycle hlost :), (congrArg State.mem hlost :)⟩
  · exact runs_of_exec_live (t := (s.setPin 6 true).tapReset) hd rfl ⟨rfl, rfl, rfl⟩

end Sys2Proof.Machine
end

section
/-!
PROOFS. The link ports (R335 to R340, R356, R424): what each operation of one port makes of its registers, and what it leaves alone.
-/
namespace Sys2Proof.Machine

/-! ### One port's registers -/

section
variable (s : State) (n : Nat)

/-- The state but for the links and the host unit, which alone a port's change of state writes. -/
def State.besidePorts (s : State) : State := { s with link := State.reset.link, host := State.reset.host }

theorem State.mem_of_besidePorts {s t : State} (h : t.besidePorts = s.besidePorts) : t.mem = s.mem := (congrArg State.mem h :)

theorem State.work_of_besidePorts {s t : State} (h : t.besidePorts = s.besidePorts) : t.work = s.work := (congrArg State.work h :)

theorem State.faults_of_besidePorts {s t : State} (h : t.besidePorts = s.besidePorts) : t.faults = s.faults := (congrArg State.faults h :)

theorem State.rst_of_besidePorts {s t : State} (h : t.besidePorts = s.besidePorts) : t.rst = s.rst := (congrArg State.rst h :)

@[simp] theorem State.modPort_besidePorts (f : Port → Port) : (s.modPort n f).besidePorts = s.besidePorts := rfl

@[simp] theorem State.portState_besidePorts (x : BitVec 3) : (s.portState n x).besidePorts = s.besidePorts := keeps_ite _ rfl rfl

@[simp] theorem State.portDown_besidePorts (x : BitVec 3) : (s.portDown n x).besidePorts = s.besidePorts :=
  State.portState_besidePorts _ n x

theorem State.port_modPort_other {n m : Nat} (h : m ≠ n) (f : Port → Port) : (s.modPort n f).port m = s.port m :=
  Table.at_put_other _ _ _ _ _ h

/-- A port's state written leaves the rest of its registers. -/
theorem State.port_portState (x : BitVec 3) : (s.portState n x).port n = { s.port n with state := x } := by
  unfold State.portState
  split
  next h => rw [← h]
  next => exact Table.at_put_same _ _ _ _

theorem State.port_portState_other {n m : Nat} (h : m ≠ n) (x : BitVec 3) : (s.portState n x).port m = s.port m :=
  keeps_ite (fun u : State => u.port m) rfl (Table.at_put_other _ _ _ _ _ h)

/-- A port's registers once it carries nothing any more. -/
def Port.down (p : Port) (x : BitVec 3) : Port :=
  { p with peerValid := false, lanesActive := 0, spareLane := none, spareUsed := false, sparing := none, swapAt := none, nak := none
           peerNak := none, laneRequest := none, laneAck := false, replay := [], state := x }

@[simp] theorem State.port_portDown (x : BitVec 3) : (s.portDown n x).port n = (s.port n).down x := by
  rw [State.portDown, State.port_portState, State.port_modPort, Port.down]

theorem State.port_portDown_other {n m : Nat} (h : m ≠ n) (x : BitVec 3) : (s.portDown n x).port m = s.port m :=
  (State.port_portState_other _ h x).trans (s.port_modPort_other h _)

theorem State.train_of_enabled {s : State} {n : Nat} (he : (s.port n).enabled = true) (hr : s.rst.linkReference = true) :
    s.train n = s.portDown n 1 := if_pos (by simp [he, hr])

theorem State.train_besidePorts : (s.train n).besidePorts = s.besidePorts := keeps_ite _ (s.portDown_besidePorts n 1) rfl

theorem State.failPort_port (c : BitVec 3) : ((s.failPort n c).port n).state = 4 ∧ ((s.failPort n c).port n).failCause = c := by
  rw [State.failPort, State.port_portDown, State.port_modPort]
  exact ⟨rfl, rfl⟩

theorem State.failPort_work (c : BitVec 3) : (s.failPort n c).work = s.work :=
  State.work_of_besidePorts ((State.portDown_besidePorts _ n 4).trans (s.modPort_besidePorts n _))

/-- A port that retrains is down until its training ends; the retraining is counted. -/
theorem State.retrain_spec {s : State} {n : Nat} (he : (s.port n).enabled = true) (hr : s.rst.linkReference = true) :
    ((s.retrain n).port n).state = 1 ∧ ((s.retrain n).port n).retrains = satInc (s.port n).retrains ∧
      (s.retrain n).faults = s.faults ∧ (s.retrain n).mem = s.mem := by
  generalize hu : (s.modPort n fun p => { p with retrains := satInc p.retrains }).count (0x500 + n) 1 = u
  have hport : u.port n = { s.port n with retrains := satInc (s.port n).retrains } := by
    rw [← hu]
    exact Table.at_put_same _ _ _ _
  have hkept : (u.faults, u.mem, u.rst.linkReference) = (s.faults, s.mem, s.rst.linkReference) := by
    rw [← hu]
    rfl
  obtain ⟨hfaults, hkept⟩ := Prod.mk.inj hkept
  obtain ⟨hmem, hreference⟩ := Prod.mk.inj hkept
  have hretrain : s.retrain n = (u.portDown n 1).askBlock (169 + n) := by
    rw [← State.train_of_enabled (s := u) (by rw [hport]; exact he) (hreference.trans hr), ← hu]
    exact if_pos (by simp [he, hr])
  have hdown : (s.retrain n).port n = (u.port n).down 1 := by
    rw [hretrain]
    exact u.port_portDown n 1
  have hbeside := u.portDown_besidePorts n 1
  rw [hdown, hport, hretrain]
  exact ⟨rfl, rfl, (State.faults_of_besidePorts hbeside).trans hfaults, (State.mem_of_besidePorts hbeside).trans hmem⟩

theorem State.retrain_of_disabled {s : State} {n : Nat} (he : (s.port n).enabled = false) : s.retrain n = s := if_neg (by simp [he])

/-! ### Training (R339) -/

/-- The port is up with what the training found. -/
def State.trained (t : PortTraining) : State :=
  let lanes := t.lanes.map (·.val)
  (s.modPort n fun p => { p with
    failCause := 0, peerPosition := t.peerPosition, peerValid := true, lanesActive := (lanes.take 4).foldl setBit 0
    spareLane := lanes[4]?, spareUsed := false, latency := BitVec.ofNat 8 t.latency }).portState n 2

theorem State.trained_spec {t : PortTraining} (h : t.latency ≤ 88) : ((s.trained n t).port n).state = 2 ∧
    ((s.trained n t).port n).peerValid = true ∧ ((s.trained n t).port n).peerPosition = t.peerPosition ∧
      ((s.trained n t).port n).failCause = 0 ∧ ((s.trained n t).port n).latency.toNat = t.latency ∧
        (s.trained n t).mem = s.mem ∧ (s.trained n t).work = s.work := by
  have hbeside : (s.trained n t).besidePorts = s.besidePorts := (State.portState_besidePorts _ n 2).trans (s.modPort_besidePorts n _)
  have hlatency : (BitVec.ofNat 8 t.latency).toNat = t.latency := (BitVec.toNat_ofNat _ _).trans (Nat.mod_eq_of_lt (by omega))
  refine ⟨?_, ?_, ?_, ?_, ?_, State.mem_of_besidePorts hbeside, State.work_of_besidePorts hbeside⟩ <;>
    rw [State.trained, State.port_portState, State.port_modPort]
  exact hlatency

/-- The end of a training, by the cause that fails it. -/
theorem exec_portTraining {p : Fin 16} {t : PortTraining} (h1 : (s.port p).state = 1) (hi : s.rst.idleAsked.contains (169 + p.val) = false) :
    exec (.portTraining p t) s = live s (if t.lanes.length < 4 || !t.locked then s.failPort p 1
      else if !s.peerAdmitted t.peerDigest then s.failPort p 2
      else if 88 < t.latency then s.failPort p 3 else s.trained p t) :=
  congrArg (live s) (if_neg (by rw [h1, hi]; decide))

theorem exec_portTraining_elsewhere {p : Fin 16} {t : PortTraining} (hd : s.defined)
    (h : (s.port p).state ≠ 1 ∨ ¬ s.rst.idleAsked.contains (169 + p.val) = false) : exec (.portTraining p t) s = .next s := by
  refine (congrArg (live s) (if_pos ?_)).trans (live_defined s s hd)
  rcases h with h | h
  · rw [decide_eq_true h, Bool.true_or]
  · rw [Bool.eq_true_of_not_eq_false h, Bool.or_true]

/-! ### Sparing (R340) -/

theorem State.portState_spec (x : BitVec 3) (f : Port → Port) : ((s.modPort n f).portState n x).port n = { f (s.port n) with state := x } ∧
    ((s.modPort n f).portState n x).mem = s.mem := by
  rw [State.port_portState, State.port_modPort]
  exact ⟨rfl, State.mem_of_besidePorts ((State.portState_besidePorts _ n x).trans (s.modPort_besidePorts n f))⟩

/-- The failed lane is being spared. -/
def State.sparingLane (lane : Nat) : State := (s.modPort n fun p => { p with sparing := some lane, laneRequest := some lane }).portState n 3

theorem exec_spareRequest {p : Fin 16} {lane : Fin 5} {k : Nat} (h2 : (s.port p).state = 2) (hu : (s.port p).spareUsed = false)
    (hs : (s.port p).spareLane ≠ none) (hl : (s.port p).lanesActive.getLsbD lane = true) (hk : s.cfgNum 0x0106 < k) :
    exec (.spareRequest p lane k) s = live s (s.sparingLane p lane) := by
  show execSpareRequest p lane k s = _
  unfold execSpareRequest State.sparingLane
  simp only [h2, hu, hl, hk, Option.isSome_iff_ne_none.mpr hs, decide_true, Bool.not_false, Bool.and_true, if_true]

/-- The swap's beat is fixed by the first acknowledgement. -/
theorem exec_spareAcknowledge {p : Fin 16} (h3 : (s.port p).state = 3) (hs : (s.port p).swapAt = none) :
    exec (.spareAcknowledge p) s =
      live s ((s.modPort p fun p => { p with laneAck := true }).modPort p fun p => { p with swapAt := some (s.beat.toNat + 2) }) := by
  have hport := s.port_modPort p fun p => { p with laneAck := true }
  exact congrArg (live s) ((if_pos h3).trans (if_pos (by rw [hport, h3, hs]; rfl)))

/-- The spare has taken the lane's place. -/
def State.laneTaken (old new : Nat) : State :=
  s.modPort n fun p => { p with
    lanesActive := setBit (clearBit p.lanesActive old) new, spareLane := none, spareUsed := true, sparing := none, swapAt := none
    laneRequest := none, laneAck := false }

/-- The swap is counted and recorded. -/
def State.spareNoted (at_ : Nat) : State := (s.count (0x510 + n) 1).raise (portUnit n) 0x55 opLink 0 0 at_ 0 false

theorem State.spareNoted_spec (at_ : Nat) : (s.spareNoted n at_).port n = s.port n ∧ (s.spareNoted n at_).mem = s.mem ∧
    ∃ w, (s.spareNoted n at_).faults.wires = s.faults.wires ++ [w] ∧ w.word.toNat / 2 ^ 20 % 256 = 0x55 :=
  ⟨rfl, rfl, _, rfl, faultWord_kind ..⟩

theorem exec_laneSwap {p : Fin 16} {old new b : Nat} (hs : (s.port p).sparing = some old) (hn : (s.port p).spareLane = some new)
    (hb : (s.port p).swapAt = some b) (hle : b ≤ s.beat.toNat) : exec (.laneSwap p) s =
      live s (((s.laneTaken p old new).portState p 2).spareNoted p (s.laneTaken p old new).now) := by
  show execLaneSwap p s = _
  unfold execLaneSwap State.laneTaken State.spareNoted
  simp only [hs, hn, hb, Nat.not_lt.mpr hle, if_false]

/-- The registers after a swap. -/
theorem State.laneTaken_spec (old new : Nat) :
    (((s.laneTaken n old new).portState n 2).port n).state = 2 ∧
      (((s.laneTaken n old new).portState n 2).port n).lanesActive = setBit (clearBit (s.port n).lanesActive old) new ∧
        (((s.laneTaken n old new).portState n 2).port n).spareUsed = true ∧
          ((s.laneTaken n old new).portState n 2).besidePorts = s.besidePorts := by
  rw [State.port_portState, State.laneTaken, State.port_modPort]
  exact ⟨rfl, rfl, rfl, (State.portState_besidePorts _ n 2).trans (s.modPort_besidePorts n _)⟩

/-! ### The jobs on a port fault together (R338) -/

/-- Each job of a list gets one fault message, and nothing else changes. -/
theorem State.forAll_raise (l : List Nat) {f : State → Nat → State} (hf : ∀ u id, ∃ w, f u id = { u with faults := { u.faults with wires := u.faults.wires ++ [w] } }) :
    ∃ ws, ws.length = l.length ∧ s.forAll l f = { s with faults := { s.faults with wires := s.faults.wires ++ ws } } := by
  induction l generalizing s with
  | nil => exact ⟨[], rfl, by simp [State.forAll]⟩
  | cons id l ih =>
    obtain ⟨w, hw⟩ := hf s id
    obtain ⟨ws, hlen, hws⟩ := ih (f s id)
    refine ⟨w :: ws, congrArg (· + 1) hlen, hws.trans ?_⟩
    rw [hw]
    simp

/-- The faults of the jobs on a silent port. -/
def State.silent : State := s.forAll (s.jobsOnPort n) fun s id => s.raise (portUnit n) 0x51 opLink 0 0 s.now (BitVec.ofNat 16 id) false

theorem State.silent_spec : ∃ ws, ws.length = (s.jobsOnPort n).length ∧ s.silent n = { s with faults := { s.faults with wires := s.faults.wires ++ ws } } :=
  s.forAll_raise _ fun _ _ => ⟨_, rfl⟩

theorem exec_linkKeepalive {p : Fin 16} (h : (s.port p).isUp = true) : exec (.linkKeepalive p) s = live s ((s.silent p).retrain p) := by
  obtain ⟨ws, -, hsilent⟩ := s.silent_spec p
  have hup : ((s.silent p).port p).isUp = true := by
    rw [hsilent]
    exact h
  exact congrArg (live s) (if_pos hup)

/-! ### The link reference (R424) -/

theorem State.forAll_portDown_state (l : List Nat) {m : Nat} (h : m ∈ l) (x : BitVec 3) :
    ((s.forAll l fun s n => s.portDown n x).port m).state = x := by
  refine foldl_establishes (R := fun _ => True) (Q := fun u : State => (u.port m).state = x) h (fun _ _ _ => trivial) (fun u _ => ?_)
    (fun u y _ hy hu => ?_) trivial
  · rw [State.port_portDown, Port.down]
  · rw [State.port_portDown_other _ hy.symm]
    exact hu

/-- The link reference has been lost, before the ports go down. -/
def State.unreferenced : State := { s with rst := { s.rst with linkReference := false } }

theorem exec_linkReferenceLoss : exec .linkReferenceLoss s = live s (s.unreferenced.forAll (List.range 16) fun s n => s.portDown n 0) := rfl

theorem State.forAll_portDown_besidePorts (l : List Nat) (x : BitVec 3) : (s.forAll l fun s n => s.portDown n x).besidePorts = s.besidePorts :=
  State.forAll_keeps State.besidePorts (fun u n => u.portDown_besidePorts n x) l s

/-! ### Writes of ENABLE and RETRAIN (R356) -/

theorem accessWrite_full (old v : Word64) : accessWrite .full old v = v := by simp [accessWrite, accessMask, accessValue]

/-- The port is enabled and powered, and begins to train. -/
def State.enablePort : State := ((s.modPort n fun p => { p with enabled := true }).powerOn [169 + n]).train n

/-- The port's ENABLE is taken away with its power. -/
def State.portOff : State :=
  let s := s.modPort n fun p => { p with enabled := false }
  ({ s with rst := { s.rst with domains := clearBit s.rst.domains (169 + n) } }).unaskBlock (169 + n)

theorem State.portOff_spec : (s.portOff n).port n = { s.port n with enabled := false } ∧
    (s.portOff n).rst.domains.getLsbD (169 + n) = false ∧ (s.portOff n).mem = s.mem :=
  ⟨Table.at_put_same _ _ _ _, getLsbD_clearBit_same _ _, rfl⟩

/-- A full write of the port's register, by what it makes of ENABLE. -/
theorem State.writePort_full (v : Word64) : s.writePort n v .full =
    let t := if v.getLsbD 0 == (s.port n).enabled then s else if v.getLsbD 0 then s.enablePort n else (s.portDown n 0).portOff n
    if v.getLsbD 1 then t.retrain n else t := by
  simp only [State.writePort, accessWrite_full] <;> rfl

theorem State.enablePort_spec {n : Nat} (hn : n < 16) : ((s.enablePort n).port n).enabled = true ∧
    (s.enablePort n).rst.domains.getLsbD (169 + n) = true ∧ (s.rst.linkReference = true → ((s.enablePort n).port n).state = 1) ∧
      (s.enablePort n).mem = s.mem := by
  generalize hu : (s.modPort n fun p => { p with enabled := true }).powerOn [169 + n] = u
  have hport : (u.port n).enabled = true := by
    rw [← hu]
    exact congrArg Port.enabled (Table.at_put_same _ _ _ _ : _ = { s.port n with enabled := true })
  have hmem : u.mem = s.mem := by
    rw [← hu]
    rfl
  have hreference : u.rst.linkReference = s.rst.linkReference := by
    rw [← hu]
    rfl
  have hdomain : u.rst.domains.getLsbD (169 + n) = true := hu ▸ State.powerOn_domain _ (by omega) (List.mem_singleton.mpr rfl)
  have hbeside := u.train_besidePorts n
  rw [State.enablePort, hu]
  refine ⟨?_, (State.rst_of_besidePorts hbeside ▸ hdomain), fun hr => ?_, (State.mem_of_besidePorts hbeside).trans hmem⟩
  · exact keeps_ite (fun v : State => (v.port n).enabled) (by rw [State.port_portDown]; exact hport) hport
  · rw [State.train_of_enabled hport (hreference.trans hr), State.port_portDown]
    rfl

theorem State.portDown_portOff_spec : (((s.portDown n 0).portOff n).port n).enabled = false ∧ (((s.portDown n 0).portOff n).port n).state = 0 ∧
    ((s.portDown n 0).portOff n).rst.domains.getLsbD (169 + n) = false ∧ ((s.portDown n 0).portOff n).mem = s.mem := by
  obtain ⟨hport, hdomain, hmem⟩ := (s.portDown n 0).portOff_spec n
  rw [hport, State.port_portDown, hmem]
  exact ⟨rfl, rfl, hdomain, State.mem_of_besidePorts (s.portDown_besidePorts n 0)⟩

end

/-- Settles O51: every operation of a port writes that port's registers and, where its state changes, the event of the links. -/
theorem linkPortsTrainAndSpare : Obligations.LinkPortsTrainAndSpare := by
  intro s n tr lane k v hd p idle admitted
  have hadmitted : s.peerAdmitted tr.peerDigest = true ↔ admitted := by
    simp [State.peerAdmitted, admitted]
  have hfail (c : BitVec 3) := And.intro (s.failPort_port n c).1 (And.intro (s.failPort_port n c).2 (s.failPort_work n c))
  refine ⟨fun h1 hi hl hk ha hlat => ?_, fun h1 hi hl => ?_, fun h1 hi hl hk ha => ?_, fun h1 hi hl hk ha hlat => ?_, fun h => ?_,
    fun h2 hu hs hl hk => ?_, fun h3 hs => ?_, fun old new b h3 hs hn hb hle => ?_, fun hu he hr => ?_, ?_, fun ho i hi => ?_⟩
  · refine runs_of_exec_live hd ((exec_portTraining s h1 hi).trans (congrArg (live s) ?_)) (s.trained_spec n hlat)
    rw [if_neg (by simp [hk]; omega), if_neg (by simp [hadmitted.mpr ha]), if_neg (Nat.not_lt.mpr hlat)]
  · refine runs_of_exec_live hd ((exec_portTraining s h1 hi).trans (congrArg (live s) (if_pos ?_))) (hfail 1)
    rcases hl with hl | hl <;> simp [hl]
  · refine runs_of_exec_live hd ((exec_portTraining s h1 hi).trans (congrArg (live s) ?_)) (hfail 2)
    rw [if_neg (by simp [hk]; omega), if_pos (by simpa using mt hadmitted.mp ha)]
  · refine runs_of_exec_live hd ((exec_portTraining s h1 hi).trans (congrArg (live s) ?_)) (hfail 3)
    rw [if_neg (by simp [hk]; omega), if_neg (by simp [hadmitted.mpr ha]), if_pos hlat]
  · exact exec_portTraining_elsewhere s hd h
  · obtain ⟨hport, hmem⟩ := s.portState_spec n 3 fun p => { p with sparing := some lane.val, laneRequest := some lane.val }
    refine runs_of_exec_live hd (exec_spareRequest s h2 hu hs hl hk) ?_
    rw [State.sparingLane, hport, hmem]
    exact ⟨rfl, rfl, rfl, rfl⟩
  · refine runs_of_exec_live hd (exec_spareAcknowledge s h3 hs) ⟨?_, rfl⟩
    rw [State.port_modPort, State.port_modPort]
  · obtain ⟨hstate, hlanes, hspare, hbeside⟩ := s.laneTaken_spec n old new
    obtain ⟨hport, hmem, w, hwires, hkind⟩ := ((s.laneTaken n old new).portState n 2).spareNoted_spec n (s.laneTaken n old new).now
    refine runs_of_exec_live hd (exec_laneSwap s hs hn hb hle) ?_
    rw [hport, hmem, hwires, State.faults_of_besidePorts hbeside]
    exact ⟨hstate, hlanes, hspare, ⟨w, rfl, hkind⟩, State.mem_of_besidePorts hbeside⟩
  · obtain ⟨ws, hlen, hsilent⟩ := s.silent_spec n
    have hspec := State.retrain_spec (s := s.silent n) (n := n) (by rw [hsilent]; exact he) (by rw [hsilent]; exact hr)
    obtain ⟨hstate, hretrains, hfaults, hmem⟩ := hspec
    refine runs_of_exec_live hd (exec_linkKeepalive s hu) ⟨hstate, ?_, ?_, ?_⟩
    · rw [hretrains, hsilent]
      rfl
    · rw [hfaults, hsilent]
      exact List.length_append.trans (congrArg _ hlen)
    · rw [hmem, hsilent]
  · have hbeside := s.unreferenced.forAll_portDown_besidePorts (List.range 16) 0
    refine runs_of_exec_live hd (exec_linkReferenceLoss s) ⟨?_, fun m => State.forAll_portDown_state _ _ (List.mem_range.mpr m.isLt) 0,
      (State.mem_of_besidePorts hbeside).trans rfl, (State.work_of_besidePorts hbeside).trans rfl, (State.faults_of_besidePorts hbeside).trans rfl⟩
    rw [State.rst_of_besidePorts hbeside]
    rfl
  · have hexec : exec i s = live s (s.writePort n v .full) := by
      rcases List.mem_pair.mp hi with rfl | rfl <;> exact congrArg (live s) (if_pos ho)
    rw [State.writePort_full] at hexec
    refine ⟨fun he h0 h1 => ?_, fun he h0 => ?_, fun he hr h0 h1 => ?_⟩
    · refine runs_of_exec_live (t := s.enablePort n) hd (hexec.trans (congrArg (live s) ?_)) (s.enablePort_spec n.isLt)
      simp only [h0, h1, show (s.port n).enabled = false from he] <;> rfl
    · refine runs_of_exec_live (t := (s.portDown n 0).portOff n) hd (hexec.trans (congrArg (live s) ?_)) (s.portDown_portOff_spec n)
      have hoff := State.retrain_of_disabled (s.portDown_portOff_spec n).1
      simp only [h0, show (s.port n).enabled = true from he, show (false == true) = false from rfl, Bool.false_eq_true, if_false]
      rw [hoff, ite_self]
    · obtain ⟨hstate, hretrains, -, hmem⟩ := State.retrain_spec he hr
      refine runs_of_exec_live (t := s.retrain n) hd (hexec.trans (congrArg (live s) ?_)) ⟨hstate, hretrains, hmem⟩
      simp only [h0, h1, show (s.port n).enabled = true from he] <;> rfl

end Sys2Proof.Machine
end

section
/-!
PROOFS. The frames of the links (R337, R338, R344 to R347, R355): the plan's message of a slot, what a frame stores, and what is reported,
sent and sent again.
-/
namespace Sys2Proof.Machine

section
variable (s : State) (n : Nat)

/-! ### The plan's message of a slot (R344) -/

/-- The plans lie in the jobs' programs. -/
theorem State.messageAt_congr {s t : State} (h : t.work = s.work) (n slot : Nat) (receive : Bool) :
    t.messageAt n slot receive = s.messageAt n slot receive := by
  unfold State.messageAt State.jobsIn State.job? State.programOf
  rw [h]

theorem State.run_congr {s t : State} (h : t.work = s.work) (id : Nat) : t.run id = s.run id := congrArg (fun w : WorkUnit => w.runs.at id {}) h

theorem State.messageAddr_congr {s t : State} (h : t.clusters = s.clusters) (x : Planned) : t.messageAddr x = s.messageAddr x := by
  unfold State.messageAddr State.cluster
  rw [h]

/-! ### An intact frame (R337, R340, R346) -/

theorem State.acknowledge_besidePorts : (s.acknowledge n).besidePorts = s.besidePorts := keeps_ite _ rfl rfl

theorem State.corrected_modPort {f : Port → Port} (h : ∀ p, (f p).corrected = p.corrected) :
    ((s.modPort n f).port n).corrected = (s.port n).corrected := by
  rw [State.port_modPort, h]

theorem State.acknowledge_corrected : ((s.acknowledge n).port n).corrected = (s.port n).corrected :=
  keeps_ite (fun u : State => (u.port n).corrected) (s.corrected_modPort n (by intro; rfl)) rfl

theorem State.clusters_of_besidePorts {s t : State} (h : t.besidePorts = s.besidePorts) : t.clusters = s.clusters :=
  (congrArg State.clusters h :)

/-- The NAK and the lane control of a head reach the port's registers, its count of corrected symbols excepted. -/
theorem State.takeHead_spec (f : List Byte) : (s.takeHead n f).besidePorts = s.besidePorts ∧
    ((s.takeHead n f).port n).corrected = (s.port n).corrected := by
  unfold State.takeHead
  extract_lets nak ctl p u v
  have hu : u.besidePorts = s.besidePorts := keeps_ite _ rfl rfl
  have hucorrected : (u.port n).corrected = (s.port n).corrected :=
    keeps_ite (fun u : State => (u.port n).corrected) (s.corrected_modPort n (by intro; rfl)) rfl
  have hv : v.besidePorts = s.besidePorts := keeps_ite _ ((State.portState_besidePorts _ n 3).trans hu) hu
  have hvcorrected : (v.port n).corrected = (s.port n).corrected := by
    refine keeps_ite (fun u : State => (u.port n).corrected) (Eq.trans ?_ hucorrected) hucorrected
    rw [State.port_portState, State.port_modPort]
  exact ⟨keeps_ite _ ((v.acknowledge_besidePorts n).trans hv) hv,
    keeps_ite (fun u : State => (u.port n).corrected) ((v.acknowledge_corrected n).trans hvcorrected) hvcorrected⟩

/-- The symbols corrected in a frame are counted first. -/
def State.correctedBy (k : Nat) : State := s.modPort n fun p => { p with corrected := satAdd p.corrected k }

theorem exec_linkFrameReceive_intact {p : Fin 16} {f : List Byte} {k : Nat} (hb : s.beating = true) (hu : (s.port p).isUp = true)
    (hf : frameIntact f = true) (h1 : field f 0 1 = 1) :
    exec (.linkFrameReceive p f false k) s = live s (((s.correctedBy p k).takeHead p f).takeData p f) := by
  show execLinkFrameReceive p f false k s = _
  simp only [execLinkFrameReceive, hb, hu, hf, h1, Bool.not_true, Bool.or_self, Bool.false_eq_true, if_false, decide_true, Bool.true_or, if_true,
    State.correctedBy]

theorem exec_linkFrameReceive_uncorrectable {p : Fin 16} {f : List Byte} {k : Nat} (hb : s.beating = true) (hu : (s.port p).isUp = true) :
    exec (.linkFrameReceive p f true k) s = live s ((s.correctedBy p k).badFrame p (field f 2 2 % 4096)) := by
  show execLinkFrameReceive p f true k s = _
  simp only [execLinkFrameReceive, hb, hu, Bool.not_true, Bool.or_self, Bool.false_eq_true, if_false, Bool.true_or, if_true, State.correctedBy]

/-- A data frame of the plan stores its rows at the message's place, and touches neither links, faults nor clusters. -/
theorem State.takeData_of_planned {s : State} {n : Nat} {f : List Byte} {x : Planned} (h1 : field f 0 1 = 1)
    (hx : s.messageAt n (field f 2 2 % 4096) true = some x) (hid : field f 16 8 = x.msg.id) (hkey : field f 24 8 = x.key)
    (hslot : field f 11 1 + x.msg.slot = field f 2 2 % 4096) (hs : x.index ∉ (s.run x.id).spoiled) (hr : x.job.replays = false) :
    (s.takeData n f).mem = s.mem.store (s.messageAddr x + 2048 * field f 11 1) (slice f 64 2048) ∧ (s.takeData n f).link = s.link ∧
      (s.takeData n f).faults = s.faults ∧ (s.takeData n f).clusters = s.clusters := by
  have hright : (field f 16 8 == x.msg.id && field f 24 8 == x.key &&
      (if field f 0 1 = 2 then decide (field f 11 1 < x.msg.frames) else field f 11 1 + x.msg.slot == field f 2 2 % 4096)) = true := by
    simp [hid, hkey, h1, hslot]
  have hspoiled : (s.run x.id).spoiled.contains x.index = false := by simpa using hs
  generalize hu : s.receiveRows x (s.messageAddr x + 2048 * field f 11 1) (slice f 64 2048) = u
  have hdata : s.takeData n f = if x.msg.final then u else u.modRun x.id fun r => { r with windfall := insertNew r.windfall (field f 10 1, x.msg.beat) } := by
    unfold State.takeData
    simp only [hx, hright, hspoiled, hu, Bool.not_true, Bool.false_eq_true, if_false]
  have hview (v : State) (hv : v = u ∨ v = u.modRun x.id fun r => { r with windfall := insertNew r.windfall (field f 10 1, x.msg.beat) }) :
      v.mem = u.mem ∧ v.link = u.link ∧ v.faults = u.faults ∧ v.clusters = u.clusters := by
    rcases hv with rfl | rfl <;> exact ⟨rfl, rfl, rfl, rfl⟩
  obtain ⟨hmem, hlink, hfaults, hclusters⟩ := hview (s.takeData n f) (hdata ▸ ite_eq_or_eq ..)
  rw [hmem, hlink, hfaults, hclusters, ← hu, State.receiveRows, if_neg (by rw [hr]; decide)]
  exact ⟨rfl, rfl, rfl, rfl⟩

/-! ### An uncorrectable frame (R338, R347) -/

/-- The frame is counted, and its slot is known. -/
def State.badCounted : State := s.modPort n fun p => { p with framesBad := satInc p.framesBad }

theorem State.badFrame_of_unplanned {slot : Nat} (h : s.messageAt n slot true = none) : s.badFrame n slot = s.badCounted n := by
  unfold State.badFrame State.badCounted
  have hwork := State.messageAt_congr (s := s) (t := s.modPort n fun p => { p with framesBad := satInc p.framesBad }) rfl n slot true
  simp only [hwork, h]

/-- A message's first bad frame is reported to the sender. -/
def State.reported (slot : Nat) (x : Planned) : State :=
  ((s.badCounted n).modPort n fun p => { p with nak := some slot }).modRun x.id fun r => { r with badFrames := r.badFrames.put x.index 1 }

theorem State.reported_spec (slot : Nat) (x : Planned) : ((s.reported n slot x).port n).framesBad = satInc (s.port n).framesBad ∧
    ((s.reported n slot x).port n).nak = some slot ∧ ((s.reported n slot x).run x.id).badFrames.at x.index 0 = 1 ∧
      (s.reported n slot x).mem = s.mem ∧ (s.reported n slot x).faults = s.faults := by
  have hport : (s.reported n slot x).port n = { s.port n with framesBad := satInc (s.port n).framesBad, nak := some slot } := by
    refine (State.port_modPort (s.badCounted n) n fun p => { p with nak := some slot }).trans ?_
    rw [State.badCounted, State.port_modPort]
  have hrun : (s.reported n slot x).run x.id = { s.run x.id with badFrames := (s.run x.id).badFrames.put x.index 1 } :=
    Table.at_put_same _ _ _ _
  rw [hport, hrun]
  exact ⟨rfl, rfl, Table.at_put_same _ _ _ _, rfl, rfl⟩

theorem State.badFrame_of_first {slot : Nat} {x : Planned} (h : s.messageAt n slot true = some x) (hslot : slot ≠ x.msg.slot + x.msg.frames + 15)
    (hc : (s.run x.id).badFrames.at x.index 0 = 0) :
    s.badFrame n slot = s.reported n slot x := by
  unfold State.badFrame State.reported State.badCounted
  have hwork := State.messageAt_congr (s := s) (t := s.modPort n fun p => { p with framesBad := satInc p.framesBad }) rfl n slot true
  have hrun := State.run_congr (s := s) (t := s.modPort n fun p => { p with framesBad := satInc p.framesBad }) rfl x.id
  simp only [hwork, h, hrun, hc, beq_eq_false_iff_ne.mpr hslot, Bool.false_eq_true, if_false, ne_eq, not_true_eq_false]

/-! ### Sending (R345, R355) -/

/-- The signature of a message's frame, before it leaves. -/
def State.signPart (x : Planned) (f : Nat) : State := s.modRun x.id fun r => { r with
  linkSig := BitVec.ofNat 64 (crc64From r.linkSig.toNat (leBytes 8 (x.msg.offset + 2048 * f) ++ s.mem.fetch (s.messageAddr x + 2048 * f) 2048)) }

theorem State.sendPart_of_replay {x : Planned} (h : x.job.replays = true) (f : Nat) : s.sendPart n x f = s.signPart x f := if_pos h

theorem State.sendPart_of_new {x : Planned} (h : x.job.replays = false) (f : Nat) : s.sendPart n x f =
    (s.signPart x f).sendFrame n (x.msg.slot + f) ((s.signPart x f).frame n 1 (x.msg.slot + f) f x.msg.id x.key
      (s.mem.fetch (s.messageAddr x + 2048 * f) 2048)) := if_neg (by simp [h])

/-- The frame that leaves stands in the replay buffer. -/
theorem State.sendFrame_spec (slot : Nat) (f : List Byte) : (∃ e ∈ ((s.sendFrame n slot f).port n).replay, e.1 = slot ∧
    ((s.sendFrame n slot f).port n).sent = [e.2]) ∧ (s.sendFrame n slot f).mem = s.mem ∧ (s.sendFrame n slot f).faults = s.faults := by
  have hport : (s.sendFrame n slot f).port n = { s.port n with
      replay := ((s.port n).replay ++ [(slot, f)]).drop (((s.port n).replay ++ [(slot, f)]).length - 64), sent := [f], nak := none } :=
    s.port_modPort n _
  have hlast : (slot, f) ∈ ((s.port n).replay ++ [(slot, f)]).drop (((s.port n).replay ++ [(slot, f)]).length - 64) := by
    rw [List.drop_append_of_le_length (by simp)]
    exact List.mem_append_right _ (List.mem_singleton.mpr rfl)
  rw [hport]
  exact ⟨⟨(slot, f), hlast, rfl, rfl⟩, rfl, rfl⟩

/-- A new message's frame is the last to have left. -/
theorem State.sendPart_spec {x : Planned} (h : x.job.replays = false) (f : Nat) :
    (∃ e ∈ ((s.sendPart n x f).port n).replay, e.1 = x.msg.slot + f ∧ ((s.sendPart n x f).port n).sent = [e.2]) ∧
      (s.sendPart n x f).mem = s.mem ∧ (s.sendPart n x f).faults = s.faults := by
  rw [s.sendPart_of_new n h]
  exact (s.signPart x f).sendFrame_spec n _ _

/-- Signing and sending leave memory and faults alone. -/
theorem State.forAll_sendPart_kept (x : Planned) (l : List Nat) :
    (s.forAll l fun s f => s.sendPart n x f).mem = s.mem ∧ (s.forAll l fun s f => s.sendPart n x f).faults = s.faults := by
  have hstep (u : State) (f : Nat) : ((u.sendPart n x f).mem, (u.sendPart n x f).faults) = (u.mem, u.faults) :=
    keeps_ite (fun u : State => (u.mem, u.faults)) rfl rfl
  exact Prod.mk.inj (State.forAll_keeps (fun u : State => (u.mem, u.faults)) hstep l s)

/-- A replay only signs: nothing leaves. -/
theorem State.forAll_sendPart_replay {x : Planned} (h : x.job.replays = true) (l : List Nat) :
    (s.forAll l fun s f => s.sendPart n x f).link = s.link := by
  have hstep (u : State) (f : Nat) : (u.sendPart n x f).link = u.link := by
    rw [u.sendPart_of_replay n h]
    rfl
  exact State.forAll_keeps State.link hstep l s

theorem exec_linkMessageSend {p : Fin 16} {slot : BitVec 12} {x : Planned} (hb : s.beating = true) (hu : (s.port p).isUp = true)
    (hx : s.messageAt p slot.toNat false = some x) (hs : x.msg.slot = slot.toNat) :
    exec (.linkMessageSend p slot) s = live s (s.forAll (List.range x.msg.frames) fun s f => s.sendPart p x f) := by
  show execLinkMessageSend p slot s = _
  simp only [execLinkMessageSend, hb, hu, hx, hs, Bool.not_true, Bool.or_self, Bool.false_eq_true, if_false, ne_eq, not_true_eq_false]

/-! ### Sending again (R347) -/

/-- The slot's frame is taken from the buffer for its message's retransmission slot. -/
def State.again (x : Planned) : State :=
  (s.modRun x.id fun r => { r with badFrames := r.badFrames.put x.index 1 }).modPort n fun p =>
    { p with retransmits := satInc p.retransmits, peerNak := none }

theorem exec_linkRetransmit {p : Fin 16} {slot : BitVec 12} {x : Planned} {e : Nat × List Byte} (hb : s.beating = true)
    (hu : (s.port p).isUp = true) (hn : (s.port p).peerNak = some slot.toNat) (hx : s.messageAt p slot.toNat false = some x)
    (he : ((s.port p).replay.find? fun e => e.1 == slot.toNat) = some e) (hc : (s.run x.id).badFrames.at x.index 0 = 0) :
    exec (.linkRetransmit p slot) s = live s ((s.again p x).sendFrame p (x.msg.slot + x.msg.frames + 15)
      ((s.again p x).frame p 2 (x.msg.slot + x.msg.frames + 15) (field e.2 11 1) x.msg.id x.key (slice e.2 64 2048))) := by
  show execLinkRetransmit p slot s = _
  simp only [execLinkRetransmit, hb, hu, hn, hx, he, hc, Bool.not_true, Bool.or_self, Bool.false_eq_true, if_false, ne_eq, not_true_eq_false,
    decide_false, State.again]

theorem State.sendAgain_spec (x : Planned) (slot : Nat) (f : List Byte) :
    (((s.again n x).sendFrame n slot f).port n).retransmits = satInc (s.port n).retransmits ∧
      (((s.again n x).sendFrame n slot f).port n).peerNak = none ∧
        (((s.again n x).sendFrame n slot f).run x.id).badFrames.at x.index 0 = 1 ∧
          ((s.again n x).sendFrame n slot f).mem = s.mem ∧ ((s.again n x).sendFrame n slot f).faults = s.faults := by
  have hrun : ((s.again n x).sendFrame n slot f).run x.id = { s.run x.id with badFrames := (s.run x.id).badFrames.put x.index 1 } :=
    Table.at_put_same _ _ _ _
  rw [hrun, State.sendFrame, State.port_modPort, State.again, State.port_modPort]
  exact ⟨rfl, rfl, Table.at_put_same _ _ _ _, rfl, rfl⟩

end

/-- Settles O52: a frame is taken by its CRCs and the plan's message of its slot, which the port's own registers do not move. -/
theorem linkFramesCarryMessages : Obligations.LinkFramesCarryMessages := by
  intro s n slot fr k x hd hb hu fs i
  refine ⟨fun hf h1 hx hid hkey hslot hs hr => ?_, fun hx hslot hc => ?_, fun hx => ?_, fun hx hs hlt => ⟨fun hr => ?_, fun hr => ?_⟩,
    fun e hn hx he hc => ?_⟩
  · obtain ⟨hbeside, hcorrected⟩ := (s.correctedBy n k).takeHead_spec n fr
    have hcounted : (s.correctedBy n k).besidePorts = s.besidePorts := s.modPort_besidePorts n _
    generalize hu' : (s.correctedBy n k).takeHead n fr = u at hbeside hcorrected
    have hbeside := hbeside.trans hcounted
    have hwork := State.work_of_besidePorts hbeside
    have hx' := (State.messageAt_congr hwork n fs true).trans hx
    have hs' : x.index ∉ (u.run x.id).spoiled := (State.run_congr hwork x.id).symm ▸ hs
    obtain ⟨hmem, hlink, hfaults, hclusters⟩ := State.takeData_of_planned h1 hx' hid hkey hslot hs' hr
    refine runs_of_exec_live hd (exec_linkFrameReceive_intact s hb hu hf h1) ?_
    rw [hu', hmem, hfaults, hclusters, State.messageAddr_congr (State.clusters_of_besidePorts hbeside), State.mem_of_besidePorts hbeside]
    refine ⟨rfl, ?_, State.faults_of_besidePorts hbeside, State.clusters_of_besidePorts hbeside⟩
    have hport : ((u.takeData n fr).port n).corrected = (u.port n).corrected := congrArg (fun l : LinkUnit => (l.ports.at n {}).corrected) hlink
    rw [hport, hcorrected, State.correctedBy, State.port_modPort]
  · have hcounted := State.messageAt_congr (s := s) (t := s.correctedBy n k) rfl n fs true
    have hbad := (s.correctedBy n k).badFrame_of_first n (hcounted.trans hx) hslot hc
    obtain ⟨hbad', hnak, hcount, hmem, hfaults⟩ := (s.correctedBy n k).reported_spec n fs x
    refine runs_of_exec_live hd ((exec_linkFrameReceive_uncorrectable s hb hu).trans (congrArg (live s) hbad)) ⟨?_, hnak, hcount, hmem, hfaults⟩
    rw [hbad', State.correctedBy, State.port_modPort]
  · have hcounted := State.messageAt_congr (s := s) (t := s.correctedBy n k) rfl n fs true
    have hbad := (s.correctedBy n k).badFrame_of_unplanned n (hcounted.trans hx)
    refine runs_of_exec_live hd ((exec_linkFrameReceive_uncorrectable s hb hu).trans (congrArg (live s) hbad)) ⟨?_, rfl⟩
    rw [State.badCounted, State.port_modPort, State.correctedBy, State.port_modPort]
  · obtain ⟨hmem, hfaults⟩ := s.forAll_sendPart_kept n x (List.range x.msg.frames)
    refine runs_of_exec_live hd (exec_linkMessageSend s hb hu hx hs) ⟨hmem, hfaults, ?_⟩
    obtain ⟨m, hm⟩ := Nat.exists_eq_add_one.mpr hlt
    rw [hm, List.range_succ, State.forAll, List.foldl_append]
    exact ((List.range m).foldl (fun s f => s.sendPart n x f) s).sendPart_spec n hr m |>.1
  · obtain ⟨hmem, hfaults⟩ := s.forAll_sendPart_kept n x (List.range x.msg.frames)
    exact runs_of_exec_live hd (exec_linkMessageSend s hb hu hx hs) ⟨hmem, s.forAll_sendPart_replay n hr _, hfaults⟩
  · exact runs_of_exec_live hd (exec_linkRetransmit s hb hu hn hx he hc) (s.sendAgain_spec n x _ _)

end Sys2Proof.Machine
end

section
/-!
PROOFS. The beat domain (R341 to R343, R351 to R355): markers, control records taken once, the domain's step and the start of a LINKED job.
-/
namespace Sys2Proof.Machine

section
variable (s : State)

/-! ### Records that wait to go out (R352) -/

theorem LinkUnit.mem_queue_self (l : LinkUnit) (r : List Nat) : r ∈ (l.queue r).outgoing := by
  unfold LinkUnit.queue
  extract_lets urgent
  show r ∈ (if urgent r then l.outgoing.takeWhile urgent ++ [r] ++ l.outgoing.dropWhile urgent else l.outgoing ++ [r])
  split <;> simp

theorem LinkUnit.mem_queue_of_mem (l : LinkUnit) (r : List Nat) {x : List Nat} (h : x ∈ l.outgoing) : x ∈ (l.queue r).outgoing := by
  unfold LinkUnit.queue
  extract_lets urgent
  show x ∈ (if urgent r then l.outgoing.takeWhile urgent ++ [r] ++ l.outgoing.dropWhile urgent else l.outgoing ++ [r])
  split
  · rw [← List.takeWhile_append_dropWhile (p := urgent) (l := l.outgoing), List.mem_append] at h
    rw [List.append_assoc, List.mem_append, List.mem_append]
    exact h.imp_right .inr
  · exact List.mem_append_left _ h

/-- From `s` to `t` no record that waits or has been taken is lost, and device memory stays. -/
structure State.Carries (s t : State) : Prop where
  outgoing : ∀ x ∈ s.link.outgoing, x ∈ t.link.outgoing
  seen : t.link.seen = s.link.seen
  readies : t.link.readies = s.link.readies
  mem : t.mem = s.mem

variable {s} {t u : State}

theorem State.Carries.trans (h : s.Carries t) (g : t.Carries u) : s.Carries u :=
  ⟨fun x hx => g.outgoing x (h.outgoing x hx), g.seen.trans h.seen, g.readies.trans h.readies, g.mem.trans h.mem⟩

theorem State.Carries.of_link (h : t.link = s.link) (hm : t.mem = s.mem) : s.Carries t :=
  ⟨fun x hx => h ▸ hx, by rw [h], by rw [h], hm⟩

theorem State.carries_refl (s : State) : s.Carries s := .of_link rfl rfl

theorem State.carries_modJob (s : State) (id : Nat) (f : Job → Job) : s.Carries (s.modJob id f) :=
  .of_link (State.modJob_link ..) (State.modJob_mem ..)

theorem State.carries_askIdle (s : State) (l : List Nat) : s.Carries (s.askIdle l) := by
  have hlink : (s.askIdle l).link = s.link :=
    State.forAll_keeps State.link (f := fun s p => (s.askBlock (2 * p)).askBlock (2 * p + 1)) (fun _ _ => rfl) l s
  exact .of_link hlink (State.mem_of_besideUpkeep (s.askIdle_besideUpkeep l))

theorem State.carries_sendControl (s : State) (k v b key plan : Nat) : s.Carries (s.sendControl k v b key plan) :=
  ⟨fun _ hx => s.link.mem_queue_of_mem _ hx, rfl, rfl, rfl⟩

theorem State.carries_fenceTerminate (s : State) (id kind : Nat) : s.Carries (s.fenceTerminate id kind) := by
  unfold State.fenceTerminate
  split
  · exact s.carries_refl
  · extract_lets u v x
    have hu : s.Carries u := by
      unfold u
      split
      · exact s.carries_refl
      · exact s.carries_askIdle _
    have hx : s.Carries x := (hu.trans (u.carries_modJob id _)).trans (.of_link rfl rfl)
    split
    · split
      · exact hx
      · exact hx.trans (x.carries_sendControl _ _ _ _ _)
    · exact hx

/-! ### Taking a record (R352) -/

/-- The origin of a record is a member now. -/
def State.memberSeen (s : State) (r : ControlRecord) : State :=
  { s with link := { s.link with membersNow := setBit s.link.membersNow r.origin.toNat } }

/-- The first copy of a record is kept and forwarded. -/
def State.recordTaken (s : State) (kind : Nat) (r : ControlRecord) : State :=
  let s := s.memberSeen r
  let s := { s with link := { s.link with seen := s.link.seen ++ [recordName r kind ++ [s.beat.toNat]] } }
  if r.hops = 15 then s
  else { s with link := s.link.queue [kind, r.origin.toNat, r.hops.toNat + 1, r.value.toNat, r.beat.toNat, r.key.toNat, r.plan.toNat] }

variable {kind : Nat} {r : ControlRecord} {f : State → State}

theorem State.takeRecord_own (h : r.origin = s.link.position) : s.takeRecord kind r f = s := if_pos (by simp [h])

theorem State.takeRecord_seen (hb : s.beating = true) (hl : s.mode.linked = true) (ho : r.origin ≠ s.link.position)
    (h : (s.link.seen.any fun x => x.take 6 == recordName r kind) = true) : s.takeRecord kind r f = s.memberSeen r :=
  (if_neg (by simp [hb, hl, ho])).trans (if_pos h)

theorem State.takeRecord_new (hb : s.beating = true) (hl : s.mode.linked = true) (ho : r.origin ≠ s.link.position)
    (h : ¬ (s.link.seen.any fun x => x.take 6 == recordName r kind) = true) : s.takeRecord kind r f = f (s.recordTaken kind r) :=
  (if_neg (by simp [hb, hl, ho])).trans (if_neg h)

theorem recordName_take (r : ControlRecord) (kind b : Nat) : ((recordName r kind ++ [b]).take 6 == recordName r kind) = true := by
  simp [recordName]

/-- The record waits to go on, and is known. -/
theorem State.recordTaken_spec (s : State) (kind : Nat) (r : ControlRecord) :
    (r.hops.toNat < 15 → [kind, r.origin.toNat, r.hops.toNat + 1, r.value.toNat, r.beat.toNat, r.key.toNat, r.plan.toNat] ∈
      (s.recordTaken kind r).link.outgoing) ∧
    ((s.recordTaken kind r).link.seen.any fun x => x.take 6 == recordName r kind) = true ∧
    s.recordTaken kind r = { s with link := (s.recordTaken kind r).link } := by
  have hknown (l : List (List Nat)) (b : Nat) : ((l ++ [recordName r kind ++ [b]]).any fun x => x.take 6 == recordName r kind) = true := by
    rw [List.any_append, List.any_cons, recordName_take, Bool.true_or, Bool.or_true]
  unfold State.recordTaken
  extract_lets u v
  split
  next h => exact ⟨fun hlt => absurd hlt (by rw [h]; decide), hknown _ _, rfl⟩
  next h => exact ⟨fun _ => LinkUnit.mem_queue_self _ _, hknown _ _, rfl⟩

/-- What the obligation asks of every record that is taken: it goes on, it is known, and memory stays. -/
theorem State.sent_of_carries (h : (s.recordTaken kind r).Carries t) :
    (r.hops.toNat < 15 → [kind, r.origin.toNat, r.hops.toNat + 1, r.value.toNat, r.beat.toNat, r.key.toNat, r.plan.toNat] ∈ t.link.outgoing) ∧
    (t.link.seen.any fun x => x.take 6 == recordName r kind) = true ∧ t.mem = s.mem := by
  obtain ⟨hout, hknown, heq⟩ := s.recordTaken_spec kind r
  refine ⟨fun hlt => h.outgoing _ (hout hlt), h.seen.symm ▸ hknown, h.mem.trans ?_⟩
  rw [heq]

/-! ### The job of a key (R344) -/

theorem State.jobByKey_congr (h : t.work = s.work) (key : Nat) : t.jobByKey key = s.jobByKey key := by
  unfold State.jobByKey State.heldJobs State.job? State.programOf
  rw [h]

theorem State.job_of_jobByKey {key id : Nat} {j : Job} {p : LinkPlan} (h : s.jobByKey key = some (id, j, p)) : s.job? id = some j := by
  obtain ⟨i, -, hi⟩ := List.exists_of_findSome?_eq_some h
  split at hi
  · cases hi
  next j' hj' =>
    split at hi
    · split at hi
      · obtain ⟨rfl, rfl, rfl⟩ := Option.some.inj hi
        exact hj'
      · cases hi
    · cases hi

theorem State.recordTaken_work (s : State) (kind : Nat) (r : ControlRecord) : (s.recordTaken kind r).work = s.work := by
  rw [(s.recordTaken_spec kind r).2.2]

/-- The effect of a record that names a held job's key, on that job. -/
theorem State.onLinked_recordTaken {id : Nat} {j : Job} {p : LinkPlan} (h : s.jobByKey r.key.toNat = some (id, j, p))
    (g : State → Nat → Job → LinkPlan → State) : (s.recordTaken kind r).onLinked r g = g (s.recordTaken kind r) id j p := by
  have hkey : (s.recordTaken kind r).jobByKey r.key.toNat = some (id, j, p) :=
    (State.jobByKey_congr (s.recordTaken_work kind r) _).trans h
  simp only [State.onLinked, hkey]

/-! ### CLEAR, FAIL and RESTART (R351, R354) -/

theorem State.settle_eq (s : State) (id pos b : Nat) : ∃ f, s.settle id pos b = s.modRun id f ∨ s.settle id pos b = s := by
  unfold State.settle
  split
  · exact ⟨fun x => x, .inr rfl⟩
  · exact ⟨_, .inl rfl⟩

/-- A settled CLEAR is waited for no longer. -/
def State.cleared? (s : State) (id : Nat) (r : ControlRecord) : State :=
  (s.settle id r.origin.toNat r.beat.toNat).modRun id fun x => { x with windfall := x.windfall.filter fun w => w != (r.origin.toNat, r.beat.toNat) }

theorem State.cleared?_spec (s : State) (id : Nat) (r : ControlRecord) : s.Carries (s.cleared? id r) ∧
    (r.origin.toNat, r.beat.toNat) ∉ ((s.cleared? id r).run id).windfall ∧ (s.cleared? id r).work.jobs = s.work.jobs := by
  have hwindfall : (r.origin.toNat, r.beat.toNat) ∉ ((s.cleared? id r).run id).windfall := by
    rw [State.cleared?, State.run_modRun]
    simp
  obtain ⟨f, h | h⟩ := s.settle_eq id r.origin.toNat r.beat.toNat
  · refine ⟨?_, hwindfall, ?_⟩ <;> rw [State.cleared?, h]
    · exact .of_link rfl rfl
    · rfl
  · refine ⟨?_, hwindfall, ?_⟩ <;> rw [State.cleared?, h]
    · exact .of_link rfl rfl
    · rfl

/-- The job's outputs are withheld, and the failure is recorded. -/
def State.provisional (s : State) (id : Nat) : State :=
  ((s.modRun id fun x => { x with provisionalFailed := true }).modJob id fun j => j.withhold false 0).windfallFailed id

theorem State.windfallFailed_spec (s : State) (id : Nat) : s.Carries (s.windfallFailed id) ∧ (s.windfallFailed id).work = s.work ∧
    ∃ w, (s.windfallFailed id).faults.wires = s.faults.wires ++ [w] ∧ w.word.toNat / 2 ^ 20 % 256 = 0x53 :=
  ⟨.of_link rfl rfl, rfl, _, rfl, faultWord_kind ..⟩

theorem State.provisional_spec (s : State) (id : Nat) : s.Carries (s.provisional id) ∧ ((s.provisional id).run id).provisionalFailed = true ∧
    ∃ w, (s.provisional id).faults.wires = s.faults.wires ++ [w] ∧ w.word.toNat / 2 ^ 20 % 256 = 0x53 := by
  generalize hu : (s.modRun id fun x => { x with provisionalFailed := true }) = u
  have hcarried : s.Carries u := hu ▸ .of_link rfl rfl
  have hrun : (u.run id).provisionalFailed = true := by
    rw [← hu, State.run_modRun]
  have hfaults : u.faults = s.faults := hu ▸ rfl
  obtain ⟨hlast, hwork, w, hwires, hkind⟩ := (u.modJob id fun j => j.withhold false 0).windfallFailed_spec id
  rw [State.provisional, hu, State.run_congr hwork, State.run_modJob, hwires, State.modJob_faults, hfaults]
  exact ⟨(hcarried.trans (u.carries_modJob id _)).trans hlast, hrun, w, rfl, hkind⟩

/-! ### TERMINATE (R355) -/

/-- A job already fenced for termination is not told about again. -/
theorem State.fenceTerminate_of_fenced {id : Nat} {j : Job} (hj : s.job? id = some j) (hp : j.phase = .fencedTerminate) (kind : Nat) :
    s.fenceTerminate id kind = (s.modJob id fun j => { j with phase := .fencedTerminate }).modRun id fun r =>
      { r with fencedAt := (s.modJob id fun j => { j with phase := .fencedTerminate }).now, kind := if r.kind = 0 then kind else r.kind, episodeRestarting := false } := by
  unfold State.fenceTerminate
  simp only [hj, hp, if_true]
  split <;> rfl

/-- The job is ended here as at the origin. -/
def State.ended (s : State) (id kind : Nat) (j : Job) : State :=
  ((s.askIdle j.groups).modJob id fun j => { j.withhold false 0 with phase := .fencedTerminate }).fenceTerminate id kind

theorem State.ended_spec {id : Nat} {j : Job} (hj : s.job? id = some j) (kind : Nat) : s.Carries (s.ended id kind j) ∧
    ∃ j', (s.ended id kind j).job? id = some j' ∧ j'.phase = .fencedTerminate := by
  have hidle : (s.askIdle j.groups).job? id = some j := (congrArg Prod.fst (s.askIdle_jobAndRun j.groups id)).trans hj
  have hmod := (s.askIdle j.groups).job_modJob id (fun j => { j.withhold false 0 with phase := .fencedTerminate }) j hidle
  refine ⟨((s.carries_askIdle _).trans (State.carries_modJob _ id _)).trans (State.carries_fenceTerminate _ id kind), ?_⟩
  rw [State.ended, State.fenceTerminate_of_fenced hmod rfl]
  exact ⟨_, State.job_modJob _ id _ _ hmod, rfl⟩

theorem State.takeTerminate_recordTaken {id : Nat} {j : Job} {p : LinkPlan} (h : s.jobByKey r.key.toNat = some (id, j, p))
    (hr : isRefusal r.value.toNat = false) :
    State.takeTerminate r (s.recordTaken kind r) = (s.recordTaken kind r).ended id r.value.toNat j := by
  rw [State.takeTerminate, State.onLinked_recordTaken h]
  exact if_neg (by simp [hr])

/-! ### READY and STEP (R343, R353) -/

/-- A READY is kept. -/
def State.readyKept (s : State) (r : ControlRecord) : State :=
  { s with link := { s.link with readies := insertNew s.link.readies [r.key.toNat, r.value.toNat, r.origin.toNat, r.plan.toNat] } }

theorem mem_insertNew_self {α : Type} [DecidableEq α] (l : List α) (x : α) : x ∈ insertNew l x := mem_insertNew.mpr (.inl rfl)

/-- The job of a READY that is kept ends, learns beat g or goes on waiting: the records stay. -/
theorem State.takeReady_carries (s : State) (r : ControlRecord) : (s.readyKept r).Carries (State.takeReady r s) := by
  unfold State.takeReady
  extract_lets x l u
  have hu : u = s.readyKept r := rfl
  rw [hu]
  unfold State.onLinked
  split
  · dsimp only
    split
    · exact State.carries_fenceTerminate _ _ _
    · split
      · exact .of_link rfl rfl
      · exact State.carries_refl _
  · exact State.carries_refl _

theorem State.carries_takeReady (s : State) (r : ControlRecord) :
    (∀ x ∈ s.link.outgoing, x ∈ (State.takeReady r s).link.outgoing) ∧ (State.takeReady r s).link.seen = s.link.seen ∧
      (State.takeReady r s).mem = s.mem ∧ [r.key.toNat, r.value.toNat, r.origin.toNat, r.plan.toNat] ∈ (State.takeReady r s).link.readies := by
  have h := s.takeReady_carries r
  exact ⟨h.outgoing, h.seen, h.mem, h.readies.symm ▸ mem_insertNew_self _ _⟩

/-! ### The domain's step (R343) -/

/-- The step of the domain taken from the records due. -/
def State.stepTaken (s : State) (b code : Nat) : State := { s with
  link := { s.link with stepDue := s.link.stepDue.filter fun d => decide (b < d.1), domainStep := BitVec.ofNat 3 code }
  power := { s.power with permits := s.power.permits.put 8 code, vddcRequest := s.voltageFor code } }

theorem exec_domainStepChange (hb : s.beating = true) (hl : s.mode.linked = true) {b code : Nat}
    (h : (s.link.stepDue.find? fun d => decide (d.1 ≤ s.beat.toNat)) = some (b, code)) : exec .domainStepChange s =
      live s (if code = s.power.stepCode.toNat then s.stepTaken b code else (s.stepTaken b code).changeStep code) := by
  refine congrArg (live s) ((if_pos (by simp [hb, hl])).trans ?_)
  simp only [State.domainStep, h, State.stepTaken]

theorem State.changeStep_link (s : State) (code : Nat) : (s.changeStep code).link = s.link :=
  (congrArg State.link (s.changeStep_besideRecord code) :)

/-! ### The start of a LINKED job (R353) -/

theorem State.forAll_startCore_kept (s : State) (l : List Nat) :
    (s.forAll l State.startCore).work = s.work ∧ (s.forAll l State.startCore).mem = s.mem :=
  ⟨State.forAll_keeps State.work (f := State.startCore) (fun _ _ => rfl) l s, State.forAll_keeps State.mem (f := State.startCore) (fun _ _ => rfl) l s⟩

theorem State.captureAt_kept (s : State) (id : Nat) : (s.captureAt id).work.jobs = s.work.jobs ∧ (s.captureAt id).mem = s.mem := by
  unfold State.captureAt
  split
  · exact ⟨rfl, rfl⟩
  · split <;> exact ⟨rfl, rfl⟩

theorem State.firstIssue_spec {id : Nat} {j : Job} (hj : s.job? id = some j) :
    (∃ j', (s.firstIssue id j).job? id = some j' ∧ j'.phase = .running) ∧ (s.firstIssue id j).mem = s.mem := by
  unfold State.firstIssue
  extract_lets u v w
  obtain ⟨hwork, hmem⟩ := s.forAll_startCore_kept (j.groups.flatMap groupClusters)
  have hu : u.job? id = some j := (congrArg (fun w : WorkUnit => w.jobs.find id) hwork).trans hj
  have hv : v.job? id = some _ := u.job_modJob id _ j hu
  obtain ⟨hjobs, hcaptured⟩ := w.captureAt_kept id
  refine ⟨⟨_, (congrArg (fun l : Table Job => l.find id) hjobs).trans hv, rfl⟩, ?_⟩
  exact hcaptured.trans ((State.modJob_mem ..).trans hmem)

/-- The READYs of the start are taken from the list. -/
def State.readiesTaken (s : State) (id : Nat) (p : LinkPlan) : State := { s with
  link := { s.link with readies := s.link.readies.filter fun x => x.getD 0 0 != p.key || x.getD 1 0 != (s.run id).restartNo % 256 } }

theorem exec_linkedJobStart {job : BitVec 16} {j : Job} {p : LinkPlan} (hb : s.beating = true) (hj : s.job? job.toNat = some j)
    (hp : (s.programOf j).link = some p) (hm : j.phase = .mapped) (hc : s.planClash p = false) (ha : s.allReady job.toNat p = true)
    (hg : (s.run job.toNat).linkStart.getD j.mapBeat < s.beat.toNat) :
    exec (.linkedJobStart job) s = live s ((s.readiesTaken job.toNat p).firstIssue job.toNat j) := by
  show execLinkedJobStart job s = _
  simp only [execLinkedJobStart, State.linkedStart, hb, hj, hp, hm, hc, ha, hg, Bool.not_true, Bool.false_eq_true, if_false, if_true, State.readiesTaken]

/-! ### Markers (R341, R342) -/

/-- An intact marker within two cycles: one more beat in a row. -/
def State.markerTaken (s : State) (err : Int) : State :=
  { s with link := { s.link with alignErr := alignByte err, alignRun := s.link.alignRun + 1 } }

theorem State.follower_of_linked (hl : s.mode.linked = true) (hp : s.link.position ≠ 0) : s.follower = true := by
  rw [State.follower, hl, Bool.true_and]
  exact bne_iff_ne.mpr hp

theorem exec_beatMarker_small {b : BeatNo} {err : Int} (hb : s.beating = true) (hl : s.mode.linked = true) (hp : s.link.position ≠ 0)
    (hu : (s.port s.link.upstream.toNat).isUp = true) (hlo : -2 ≤ err) (hhi : err ≤ 2) : exec (.beatMarker true b err) s =
      live s (if s.link.aligned = false ∧ s.link.alignRun = 0 then { s.markerTaken err with beat := b } else s.markerTaken err) := by
  have hfar : decide (err < -4 ∨ 4 < err) = false := by simp; omega
  have hsmall : decide (-2 ≤ err ∧ err ≤ 2) = true := by simp [hlo, hhi]
  show execBeatMarker true b err s = _
  simp only [execBeatMarker, hb, State.follower_of_linked hl hp, hu, hfar, hsmall, Bool.not_true, Bool.or_self, Bool.false_eq_true, if_false,
    Bool.and_self, if_true, State.markerTaken]
  congr 1
  simp

/-- The alignment is lost, and the loss is recorded. -/
def State.alignLost (s : State) : State :=
  State.raise { s with link := { s.link with aligned := false, alignRun := 0, alignLosses := satInc s.link.alignLosses } }
    (portUnit s.link.upstream.toNat) 0x54 opLink 0 0 s.now 0 false

theorem exec_beatMarker_none {b : BeatNo} {err : Int} (hb : s.beating = true) (hl : s.mode.linked = true) (hp : s.link.position ≠ 0) :
    exec (.beatMarker false b err) s = live s s.alignLost := by
  show execBeatMarker false b err s = _
  simp only [execBeatMarker, hb, State.follower_of_linked hl hp, Bool.not_true, Bool.or_self, Bool.false_eq_true, if_false,
    Bool.false_and, Bool.not_false, Bool.true_or, if_true] <;> rfl

end

/-- Settles O53: a record that is new is known and forwarded before its effect, and no effect takes back a record. -/
theorem linkRecordsActOnce : Obligations.LinkRecordsActOnce := by
  intro s r b err job hd hb hl l new sent
  refine ⟨fun hp hu hlo hhi => ?_, fun hp => ?_, fun hp ha => ?_, fun i hi => ⟨fun ho => ?_, fun ho hn => ?_⟩,
    fun id j p hkey => ⟨fun hn => ?_, fun hn => ?_, fun hn => ?_, fun hn hr => ?_⟩, fun hn => ?_, fun hn => ?_,
    fun e code hdue hcode => ?_, fun j p hj hp hm hc ha hg => ?_⟩
  · refine runs_of_exec_live hd (exec_beatMarker_small hb hl hp hu hlo hhi) ?_
    split
    next h => exact ⟨rfl, rfl, rfl, rfl⟩
    next h => exact ⟨rfl, rfl, rfl, rfl⟩
  · exact runs_of_exec_live hd (exec_beatMarker_none hb hl hp) ⟨rfl, rfl, rfl, ⟨_, rfl, faultWord_kind ..⟩⟩
  · refine Eq.trans (congrArg (live s) (if_pos ?_)) (live_defined s _ hd)
    simpa [hb, State.follower_of_linked hl hp] using ha
  · have hown (kind : Nat) (f : State → State) : live s (s.takeRecord kind r f) = .next s := by
      rw [State.takeRecord_own ho]
      exact live_defined s s hd
    fin_cases hi <;> exact hown _ _
  · have hseen (kind : Nat) (f : State → State) (h : ¬ new kind) : live s (s.takeRecord kind r f) = live s (s.memberSeen r) := by
      rw [State.takeRecord_seen hb hl ho (by simpa [new, ho] using h)]
    have hexec : exec i.2 s = live s (s.memberSeen r) := by
      fin_cases hi <;> exact hseen _ _ hn
    exact runs_of_exec_live hd hexec ⟨rfl, rfl⟩
  · obtain ⟨hcarried, hwindfall, hjobs⟩ := (s.recordTaken 1 r).cleared?_spec id r
    have hexec : exec (.clear r) s = live s ((s.recordTaken 1 r).cleared? id r) := by
      refine congrArg (live s) ((State.takeRecord_new hb hl hn.1 hn.2).trans ?_)
      exact State.onLinked_recordTaken hkey _
    refine runs_of_exec_live hd hexec ⟨State.sent_of_carries hcarried, hwindfall, hjobs.trans ?_⟩
    rw [s.recordTaken_work]
  · obtain ⟨hcarried, hfailed, w, hwires, hkind⟩ := (s.recordTaken 2 r).provisional_spec id
    have hexec : exec (.fail r) s = live s ((s.recordTaken 2 r).provisional id) := by
      refine congrArg (live s) ((State.takeRecord_new hb hl hn.1 hn.2).trans ?_)
      exact State.onLinked_recordTaken hkey _
    refine runs_of_exec_live hd hexec ⟨State.sent_of_carries hcarried, hfailed, w, hwires.trans ?_, hkind⟩
    rw [(s.recordTaken_spec 2 r).2.2]
  · obtain ⟨hcarried, hwork, w, hwires, hkind⟩ := (s.recordTaken 4 r).windfallFailed_spec id
    have hexec : exec (.restart r) s = live s ((s.recordTaken 4 r).windfallFailed id) := by
      refine congrArg (live s) ((State.takeRecord_new hb hl hn.1 hn.2).trans ?_)
      exact State.onLinked_recordTaken hkey _
    refine runs_of_exec_live hd hexec ⟨State.sent_of_carries hcarried, hwork.trans (s.recordTaken_work 4 r), w, hwires.trans ?_, hkind⟩
    rw [(s.recordTaken_spec 4 r).2.2]
  · have hj := (congrArg (fun w : WorkUnit => w.jobs.find id) (s.recordTaken_work 5 r)).trans (State.job_of_jobByKey hkey)
    obtain ⟨hcarried, hended⟩ := State.ended_spec (s := s.recordTaken 5 r) hj r.value.toNat
    have hexec : exec (.terminate r) s = live s ((s.recordTaken 5 r).ended id r.value.toNat j) :=
      congrArg (live s) ((State.takeRecord_new hb hl hn.1 hn.2).trans (State.takeTerminate_recordTaken hkey hr))
    exact runs_of_exec_live hd hexec ⟨State.sent_of_carries hcarried, hended⟩
  · obtain ⟨hout, hseen, hmem, hready⟩ := (s.recordTaken 3 r).carries_takeReady r
    obtain ⟨hsent, hknown, heq⟩ := s.recordTaken_spec 3 r
    refine runs_of_exec_live hd (congrArg (live s) (State.takeRecord_new hb hl hn.1 hn.2))
      ⟨⟨fun hlt => hout _ (hsent hlt), hseen.symm ▸ hknown, hmem.trans ?_⟩, hready⟩
    rw [heq]
  · obtain ⟨hsent, hknown, heq⟩ := s.recordTaken_spec 6 r
    refine runs_of_exec_live hd (congrArg (live s) (State.takeRecord_new hb hl hn.1 hn.2))
      ⟨⟨hsent, hknown, ?_⟩, Table.at_put_same _ _ _ _, List.mem_append_right _ (List.mem_singleton.mpr rfl), ?_⟩
    · show (s.recordTaken 6 r).mem = _
      rw [heq]
    · show (s.recordTaken 6 r).power = _
      rw [heq]
  · refine runs_of_exec_live hd (exec_domainStepChange hb hl hdue) ?_
    have hbits : (BitVec.ofNat 3 code).toNat = code := (BitVec.toNat_ofNat _ _).trans (Nat.mod_eq_of_lt hcode)
    split
    next h => exact ⟨h.symm, hbits, rfl⟩
    next h =>
      rw [State.changeStep_power, State.changeStep_link, State.changeStep_mem]
      exact ⟨hbits, hbits, rfl⟩
  · obtain ⟨hrunning, hmem⟩ := State.firstIssue_spec (s := s.readiesTaken job.toNat p) hj
    exact runs_of_exec_live hd (exec_linkedJobStart hb hj hp hm hc ha hg) ⟨hrunning, hmem⟩

end Sys2Proof.Machine
end

section
/-!
PROOFS. The mailbox (R358, R365 to R370, R378): one command at a time, its answer and its one response.
-/
namespace Sys2Proof.Machine

/-! ### A command that is taken (R367) -/

/-- The state a command code leaves before its answer is decided. -/
def State.taking (s : State) (code : Nat) : State := { s with sec := { s.sec with cmd := BitVec.ofNat 8 code, busy := true } }

/-- The state that holds a decided answer until it is posted. -/
def MailAnswer.pend (a : MailAnswer) : State := { a.2.2 with sec := { a.2.2.sec with nextResult := a.1, nextResponse := a.2.1 } }

/-- What the host sees of the mailbox, and the command it runs. -/
def SecurityUnit.window (x : SecurityUnit) : Bool × BitVec 8 × BitVec 8 × List Byte × Word32 :=
  (x.busy, x.cmd, x.result, x.response, x.done)

section
variable (s : State) {code : Nat} {fields : List (Nat × Nat)} {f : State → MailAnswer}

theorem State.mailbox_of_busy (h : s.sec.busy = true) :
    s.mailbox code fields f = { s with sec := { s.sec with refused := satInc s.sec.refused } } :=
  if_pos h

theorem State.mailbox_of_wellFormed (hb : s.sec.busy = false) (hr : s.requestOk fields = true) :
    s.mailbox code fields f = (f (s.taking code)).pend := by
  have ht : (s.taking code).requestOk fields = true := hr
  unfold State.mailbox
  rw [if_neg (by rw [hb]; decide)]
  show MailAnswer.pend (if (s.taking code).requestOk fields then _ else _) = _
  rw [if_pos ht]
  rfl

theorem State.mailbox_of_malformed (hb : s.sec.busy = false) (hr : s.requestOk fields = false) :
    s.mailbox code fields f = (MailAnswer.fail (s.taking code) 0x01).pend := by
  have ht : ¬ (s.taking code).requestOk fields = true := by rw [show (s.taking code).requestOk fields = false from hr]; decide
  unfold State.mailbox
  rw [if_neg (by rw [hb]; decide)]
  show MailAnswer.pend (if (s.taking code).requestOk fields then _ else _) = _
  rw [if_neg ht]
  rfl

/-- The request with an operation code of the Quince engine in its first byte (R368, R373). -/
def State.asking (s : State) (op : Byte) : State :=
  { s with sec := { s.sec with request := cellPut zeroByte s.sec.request 0 op } }

/-- A Quince row that finds the mailbox busy writes nothing into the request. -/
theorem State.quinceRow_of_busy (op : Byte) (ho : s.hostOpen = true) (hb : s.sec.busy = true) :
    quinceRow s op = live s { s with sec := { s.sec with refused := satInc s.sec.refused } } := by
  unfold quinceRow
  rw [if_neg (by rw [ho]; decide), if_pos hb, s.mailbox_of_busy hb]

theorem State.quinceRow_of_idle (op : Byte) (ho : s.hostOpen = true) (hb : s.sec.busy = false) :
    quinceRow s op = live s ((s.asking op).mailbox 9 quinceFields State.mailQuince) := by
  unfold quinceRow
  rw [if_neg (by rw [ho]; decide), if_neg (by rw [hb]; decide)]
  rfl

/-- An answer that left the window alone pends. -/
theorem mailTaken_pend {a : MailAnswer} (hc : code < 256) (h : a.2.2.sec.window = (s.taking code).sec.window) :
    MailTaken s a.pend code a.1 a.2.1 := by
  simp only [SecurityUnit.window, Prod.mk.injEq] at h
  obtain ⟨hbusy, hcmd, hres, hresp, hdone⟩ := h
  exact { busy := hbusy, cmd := (congrArg BitVec.toNat hcmd).trans (by rw [State.taking, BitVec.toNat_ofNat]; omega)
          result := rfl, response := rfl, shown := ⟨hres, hresp, hdone⟩ }

variable {s} {i : Instr} {P : State → Prop}

theorem runs_of_mailbox_wellFormed (hd : s.defined) (hi : exec i s = mailboxRow s code fields f) (ho : s.hostOpen = true)
    (hb : s.sec.busy = false) (hr : s.requestOk fields = true) (hP : P (f (s.taking code)).pend) : Runs i s P :=
  runs_of_live_ite hd hi ho (by rwa [s.mailbox_of_wellFormed hb hr])

theorem runs_of_mailbox_malformed (hd : s.defined) (hi : exec i s = mailboxRow s code fields f) (ho : s.hostOpen = true)
    (hb : s.sec.busy = false) (hr : s.requestOk fields = false) (hP : P (MailAnswer.fail (s.taking code) 0x01).pend) : Runs i s P :=
  runs_of_live_ite hd hi ho (by rwa [s.mailbox_of_malformed hb hr])

theorem exec_mailbox_of_busy (hd : s.defined) (hi : exec i s = mailboxRow s code fields f) (ho : s.hostOpen = true)
    (hb : s.sec.busy = true) : exec i s = .next { s with sec := { s.sec with refused := satInc s.sec.refused } } := by
  rw [hi, mailboxRow, if_pos ho, s.mailbox_of_busy hb, live_defined _ _ hd]

theorem exec_quince_of_busy {op : Byte} (hd : s.defined) (hi : exec i s = quinceRow s op) (ho : s.hostOpen = true)
    (hb : s.sec.busy = true) : exec i s = .next { s with sec := { s.sec with refused := satInc s.sec.refused } } := by
  rw [hi, s.quinceRow_of_busy op ho hb, live_defined _ _ hd]

/-- The rows of the mailbox that a busy mailbox refuses (R367). -/
theorem exec_of_busy (hd : s.defined) (ho : s.hostOpen = true) (hb : s.sec.busy = true) :
    ∀ i ∈ [Instr.identity, .ownerState, .loadCurve, .importOffer, .importShare, .eraseShare, .attest, .partialDecrypt, .pointCheck,
      .scalarMultiplication, .ecdsaVerify, .modularExponentiation],
    exec i s = .next { s with sec := { s.sec with refused := satInc s.sec.refused } } := by
  have row {i code fields f} (hi : exec i s = mailboxRow s code fields f) := exec_mailbox_of_busy hd hi ho hb
  have engine {i op} (hi : exec i s = quinceRow s op) := exec_quince_of_busy hd hi ho hb
  simp only [List.forall_mem_cons, List.not_mem_nil, false_imp_iff, implies_true, and_true]
  exact ⟨row rfl, row rfl, row rfl, row rfl, row rfl, row rfl, row rfl, row rfl, engine rfl, engine rfl, engine rfl, engine rfl⟩

end

/-! ### ERASE_SHARE (R378) -/

theorem State.eraseShare_sec (s : State) : s.eraseShare.sec = { s.sec with share := none, pdTable := [] } := by
  unfold State.eraseShare
  extract_lets unit t
  split
  · exact t.event_sec _ _
  · rfl

theorem State.eraseShare_mem (s : State) : s.eraseShare.mem = s.mem := by rw [State.eraseShare_eq]

/-! ### OWNER_STATE (R368) -/

section
variable (s : State)

/-- The bytes of OWNER_STATE's answer. -/
def State.ownerBytes : List Byte := s.mailOwnerState.2.1

theorem State.ownerBytes_take : s.ownerBytes.take 3 = [s.fuses.ownerEpoch.zeroExtend 8, s.fuses.securityVersion.zeroExtend 8,
    if s.fuses.sealDisabled then 1 else 0] := by
  have hseal : BitVec.ofNat 8 s.fuses.sealDisabled.toNat = if s.fuses.sealDisabled then 1 else 0 := by
    cases s.fuses.sealDisabled <;> rfl
  simp [State.ownerBytes, State.mailOwnerState, leBytes, hseal]

theorem State.ownerBytes_drop : s.ownerBytes.drop 8 = s.ownerDigest := rfl

end

/-! ### The response (R367) -/

/-- The mailbox's registers once its response is posted. -/
def SecurityUnit.posted (x : SecurityUnit) : SecurityUnit :=
  { x with busy := false, result := BitVec.ofNat 8 x.nextResult, response := x.nextResponse
           respLen := BitVec.ofNat 16 x.nextResponse.length, done := satInc x.done, nextResult := 0, nextResponse := [] }

section
variable (s : State)

theorem State.postResponse_sec : s.postResponse.sec = s.sec.posted := rfl

theorem State.postResponse_mem : s.postResponse.mem = s.mem := rfl

theorem State.postResponse_fires : (s.postResponse.func 0).evPending.getLsbD 9 = true := by
  unfold State.postResponse
  extract_lets free unit host u
  show ((u.modFunc 0 _).func 0).evPending.getLsbD 9 = true
  rw [State.func_modFunc]
  exact getLsbD_setBit_same _ (by decide)

theorem State.postResponse_unlocks : ∀ l ∈ s.postResponse.host.locks, l.1 ≠ .mailbox := by
  intro l hl
  have hmem : l ∈ s.host.locks.filter fun l => l.1 != .mailbox := hl
  simpa using (List.mem_filter.mp hmem).2

end

/-! ### The DRBG's health (R366) -/

/-- The state a health failure leaves. -/
def State.drbgStopped (s : State) : State :=
  let n := s.sec.drbgFailures + 1
  ({ s with sec := { s.sec with drbgOk := false, drbgFailures := n, drbgLocked := s.sec.drbgLocked || decide (3 ≤ n) } }).event 0x0A [1]

theorem State.drbgStopped_spec (s : State) : s.drbgStopped.sec.drbgOk = false ∧
    s.drbgStopped.sec.drbgFailures = s.sec.drbgFailures + 1 ∧
    s.drbgStopped.sec.drbgLocked = (s.sec.drbgLocked || decide (2 ≤ s.sec.drbgFailures)) ∧ s.drbgStopped.mem = s.mem := by
  have hthird : decide (3 ≤ s.sec.drbgFailures + 1) = decide (2 ≤ s.sec.drbgFailures) := decide_eq_decide.mpr (by omega)
  rw [State.drbgStopped, State.event_eq, ← hthird]
  exact ⟨rfl, rfl, rfl, rfl⟩

/-- Settles O54: a busy mailbox counts the command; an idle one takes it with the answer its request earns; the response clears
BUSY, shows the answer, drops the mailbox's locks and fires event 9. -/
theorem mailboxTakesOneCommand : Obligations.MailboxTakesOneCommand := by
  unfold Obligations.MailboxTakesOneCommand
  intro s hd
  refine ⟨fun ho hb => exec_of_busy hd ho hb, fun ho hb hr => ⟨?_, ?_, ?_⟩, fun ho hb hr => ⟨?_, ?_, ?_⟩, fun hb => ?_, fun hb => ?_,
    fun hr => ?_, fun hr => ?_⟩
  · exact runs_of_mailbox_wellFormed hd rfl ho hb hr ⟨mailTaken_pend s (by decide) rfl, rfl, rfl⟩
  · exact runs_of_mailbox_wellFormed hd rfl ho hb hr ⟨mailTaken_pend s (by decide) rfl, rfl, s.ownerBytes_take, s.ownerBytes_drop⟩
  · refine runs_of_mailbox_wellFormed hd rfl ho hb hr ⟨mailTaken_pend s (by decide) ?_, ?_, ?_, State.eraseShare_mem _⟩
    · exact (congrArg SecurityUnit.window (s.taking 6).eraseShare_sec :)
    · exact (congrArg SecurityUnit.share (s.taking 6).eraseShare_sec :)
    · exact (congrArg SecurityUnit.pdTable (s.taking 6).eraseShare_sec :)
  · exact runs_of_mailbox_malformed hd rfl ho hb hr (mailTaken_pend s (by decide) rfl)
  · exact runs_of_mailbox_malformed hd rfl ho hb hr (mailTaken_pend s (by decide) rfl)
  · exact runs_of_mailbox_malformed hd rfl ho hb hr ⟨mailTaken_pend s (by decide) rfl, rfl⟩
  · exact runs_of_live_ite hd rfl hb ⟨rfl, rfl, rfl, rfl, s.postResponse_fires, s.postResponse_unlocks, rfl⟩
  · show execMailboxResponse s = _
    rw [execMailboxResponse, if_neg (by rw [hb]; decide), live_defined _ _ hd]
  · exact runs_of_live_unless hd rfl (Nat.not_lt.mpr hr) s.drbgStopped_spec
  · show execDrbgReseed s = _
    rw [execDrbgReseed, if_pos hr, live_defined _ _ hd]

end Sys2Proof.Machine
end

section
/-!
PROOFS. The Quince engine and LOAD_CURVE (R372 to R374): sizes, slot and values in their order.
-/
namespace Sys2Proof.Machine

/-! ### Modular powers -/

/-- Square and multiply: with fuel for every bit of `n`, the product of the accumulator and the power. -/
theorem powModAux_eq (q : Nat) : ∀ (fuel x n acc : Nat), n < 2 ^ fuel → acc < q → powModAux q fuel x n acc = acc * x ^ n % q
  | 0, x, n, acc, hn, hacc => by
    obtain rfl : n = 0 := by omega
    rw [powModAux, pow_zero, mul_one, Nat.mod_eq_of_lt hacc]
  | fuel + 1, x, n, acc, hn, hacc => by
    rw [powModAux]
    split
    next h0 => rw [h0, pow_zero, mul_one, Nat.mod_eq_of_lt hacc]
    next h0 =>
      have hhalf : n / 2 < 2 ^ fuel := by rw [Nat.pow_succ] at hn; omega
      have hx : x ^ n = (x * x) ^ (n / 2) * x ^ (n % 2) := by
        rw [← pow_two, ← pow_mul, ← pow_add, Nat.div_add_mod]
      have hsq : (x * x % q) ^ (n / 2) ≡ (x * x) ^ (n / 2) [MOD q] := (Nat.mod_modEq _ _).pow _
      rcases Nat.mod_two_eq_zero_or_one n with h2 | h2
      · rw [if_neg (by omega), powModAux_eq q fuel _ _ _ hhalf hacc, hx, h2, pow_zero, mul_one]
        exact hsq.mul_left acc
      · rw [if_pos h2, powModAux_eq q fuel _ _ _ hhalf (Nat.mod_lt _ (by omega)), hx, h2, pow_one, mul_comm _ x, ← mul_assoc, mul_comm x]
        exact (Nat.mod_modEq (acc * x) q).mul hsq |>.trans (by rw [mul_right_comm])

/-- `powMod` is the power modulo `q`. -/
theorem powMod_eq {q : Nat} (x n : Nat) (hq : q ≠ 0) : powMod q x n = x ^ n % q := by
  unfold powMod
  split
  next h1 =>
    obtain rfl : q = 1 := by omega
    rw [Nat.mod_one]
  next h1 =>
    rw [powModAux_eq q _ _ _ _ (Nat.lt_log2_self) (Nat.mod_lt _ (by omega))]
    exact ((Nat.mod_modEq 1 q).mul ((Nat.mod_modEq x q).pow n)).trans (by rw [one_mul])

/-! ### The request of a Quince row (R368, R373) -/

/-- Writing a cell adds no other cell. -/
theorem mem_cellPut {d : Nat → Byte} {l : List Host.Cell} {a : Nat} {b : Byte} {c : Host.Cell} (h : c ∈ cellPut d l a b) :
    c ∈ l ∨ c = (a, b) := by
  induction l with
  | nil =>
    unfold cellPut at h
    split at h <;> simp_all
  | cons e l ih =>
    unfold cellPut at h
    split at h
    · split at h <;> simp_all
      tauto
    · split at h
      · split at h <;> simp_all
        tauto
      · rcases List.mem_cons.mp h with rfl | h
        · exact .inl (List.mem_cons_self ..)
        · exact (ih h).imp_left (List.mem_cons_of_mem _)

/-- A byte that is not the default is found at the address it was put at, whatever the list. -/
theorem cellAt_put_listed {d : Nat → Byte} {a : Nat} {b : Byte} (h : b ≠ d a) (l : List Host.Cell) :
    cellAt d (cellPut d l a b) a = b := by
  induction l with
  | nil => simp [cellPut, h, cellAt]
  | cons e l ih =>
    unfold cellPut
    rw [if_neg h, if_neg h]
    split
    · simp [cellAt]
    · split
      · simp [cellAt]
      · next hne => simp [cellAt, Ne.symm hne, ih]

section
variable (s : State) (op : Byte)

theorem State.asking_requestOk (h : s.requestOk quinceFields = true) : (s.asking op).requestOk quinceFields = true := by
  unfold State.requestOk at h ⊢
  rw [List.all_eq_true] at h ⊢
  intro c hc
  rcases mem_cellPut hc with hc | rfl
  · exact h c hc
  · rfl

theorem State.asking_request_first (h : op ≠ 0) : (s.asking op).request 0 1 = op.toNat := by
  have hat : cellAt zeroByte (s.asking op).sec.request 0 = op := cellAt_put_listed h _
  simp [State.request, hat, leNat]

theorem State.asking_request_other {off : Nat} (h : 0 < off) (n : Nat) : (s.asking op).request off n = s.request off n := by
  unfold State.request
  congr 1
  refine List.map_congr_left fun i _ => ?_
  exact cellAt_put_other _ _ _ _ _ (by omega)

end

/-! ### The values (R374) -/

section
variable {c : Curve} {x y k : Nat}

theorem Curve.inRange_of_lt (hx : x < c.p) (hy : y < c.p) : c.inRange x y = true := by simp [Curve.inRange, hx, hy]

theorem Curve.not_inRange (h : c.p ≤ x ∨ c.p ≤ y) : c.inRange x y = false := by
  simp only [Curve.inRange, Bool.and_eq_false_iff, decide_eq_false_iff_not, not_lt]
  exact h

theorem Curve.holds_iff : c.holds x y = true ↔ y * y % c.p = (x * x * x + c.a * x + c.b) % c.p ∧ (x ≠ 0 ∨ y ≠ 0) := by
  simp [Curve.holds, onCurve]

theorem Curve.pointCheck_of_outside (h : c.p ≤ x ∨ c.p ≤ y) : c.pointCheck x y = (0x22, []) := by
  simp [Curve.pointCheck, Curve.not_inRange h]

theorem Curve.pointCheck_of_not_holds (hx : x < c.p) (hy : y < c.p) (h : c.holds x y = false) : c.pointCheck x y = (0x23, []) := by
  simp [Curve.pointCheck, Curve.inRange_of_lt hx hy, h]

theorem Curve.pointCheck_of_holds (hx : x < c.p) (hy : y < c.p) (h : c.holds x y = true) : c.pointCheck x y = (0, []) := by
  simp [Curve.pointCheck, Curve.inRange_of_lt hx hy, h]

theorem Curve.scalarMul_of_large (h : c.n ≤ k) : c.scalarMul k x y = (0x22, []) := by
  simp [Curve.scalarMul, h]

theorem Curve.scalarMul_of_not_holds (hx : x < c.p) (hy : y < c.p) (hk : k < c.n) (h : c.holds x y = false) :
    c.scalarMul k x y = (0x23, []) := by
  simp [Curve.scalarMul, Curve.inRange_of_lt hx hy, Nat.not_le.mpr hk, h]

theorem Curve.scalarMul_of_holds (hx : x < c.p) (hy : y < c.p) (hk : k < c.n) (h : c.holds x y = true) {u v : Nat}
    (hm : pointMul c.p c.a k (some (x, y)) = some (u, v)) : c.scalarMul k x y = (0, leBytes c.len u ++ leBytes c.len v) := by
  simp [Curve.scalarMul, Curve.inRange_of_lt hx hy, Nat.not_le.mpr hk, h, hm]

theorem Curve.ecdsa_of_outside {e r t : Nat} (h : r = 0 ∨ c.n ≤ r ∨ t = 0 ∨ c.n ≤ t) : c.ecdsa e r t x y = (0x22, []) := by
  rw [Curve.ecdsa, if_pos]
  simp only [Bool.or_eq_true, decide_eq_true_eq]
  tauto

theorem Curve.ecdsa_of_not_holds {e r t : Nat} (hx : x < c.p) (hy : y < c.p) (hr : 0 < r) (hrn : r < c.n) (ht : 0 < t) (htn : t < c.n)
    (h : c.holds x y = false) : c.ecdsa e r t x y = (0x23, []) := by
  simp [Curve.ecdsa, Curve.inRange_of_lt hx hy, hr.ne', Nat.not_le.mpr hrn, ht.ne', Nat.not_le.mpr htn, h]

theorem modexpOp_of_length {b : List Byte} (hlen : b.length = 3 * k + 4) (hlow : 128 ≤ k) (hhigh : k ≤ 512)
    (hbits : 1024 ≤ bitLength (leNat (b.take k))) : modexpOp b =
      some (modexp (leNat (b.take k)) (leNat (slice b k 4)) (leNat (slice b (k + 4) k)) (leNat (slice b (2 * k + 4) k))) := by
  have hk : (b.length - 4) / 3 = k := by omega
  unfold modexpOp
  dsimp only
  rw [hk]
  exact if_pos (by simp [hlen, hlow, hhigh, hbits])

theorem modexp_of_outside {m e base want : Nat} (h : m % 2 = 0 ∨ m ≤ base) : modexp m e base want = (0x22, []) := by
  rw [modexp, if_pos]
  simpa using h

theorem modexp_of_inside {m e base want : Nat} (hm : m % 2 = 1) (hbase : base < m) :
    modexp m e base want = (if base ^ e % m = want then 0 else 0x25, []) := by
  rw [modexp, if_neg (by simp; omega), powMod_eq _ _ (by omega)]

end

/-! ### A row of the engine (R373) -/

/-- A Quince request with its operands in an intake area of the PF. -/
structure State.QuinceAsked (s : State) : Prop where
  live : s.defined
  open_ : s.hostOpen = true
  idle : s.sec.busy = false
  bytes : s.request 16 4 ≠ 0
  intake : s.inIntake 0 (s.request 8 8) (s.request 16 4) = true
  fields : s.requestOk quinceFields = true
  slot : s.request 1 1 ≤ 3

/-- The operand bytes of a request (R367). -/
def State.operands (s : State) : List Byte := s.mem.fetch (s.request 8 8) (s.request 16 4)

/-- The state with a curve in a slot. -/
def State.withCurve (s : State) (slot : Nat) (c : Curve) : State := { s with sec := { s.sec with curves := s.sec.curves.put slot c } }

/-- The state whose mailbox has locked the operands of a request. -/
def State.holding (s : State) : State := s.lock .mailbox (s.request 8 8) (s.request 16 4)

theorem State.lock_sec (s : State) (o : LockOwner) (a n : Nat) : (s.lock o a n).sec = s.sec := by
  unfold State.lock
  split <;> rfl

theorem State.holding_window (s : State) : s.holding.sec.window = s.sec.window := congrArg _ (s.lock_sec _ _ _)

theorem State.holding_mem (s : State) : s.holding.mem = s.mem := State.lock_mem _ _ _ _

theorem State.withCurve_window (s : State) (slot : Nat) (c : Curve) : (s.withCurve slot c).sec.window = s.sec.window := rfl

theorem State.withCurve_mem (s : State) (slot : Nat) (c : Curve) : (s.withCurve slot c).mem = s.mem := rfl

theorem State.holdingCurve_window (s : State) (slot : Nat) (c : Curve) : (s.holding.withCurve slot c).sec.window = s.sec.window :=
  (s.holding.withCurve_window slot c).trans s.holding_window

theorem State.holdingCurve_mem (s : State) (slot : Nat) (c : Curve) : (s.holding.withCurve slot c).mem = s.mem :=
  (s.holding.withCurve_mem slot c).trans s.holding_mem

theorem MailAnswer.pend_mem (a : MailAnswer) : a.pend.mem = a.2.2.mem := rfl

section
variable {s u : State} {op : Byte}

theorem State.bulkIn_of_intake {a n : Nat} (hn : n ≠ 0) (hin : s.inIntake 0 a n = true) :
    s.bulkIn a n = some (s.mem.fetch a n, s.lock .mailbox a n) := by
  rw [State.bulkIn, if_pos (by simp [hn, hin])]

theorem State.mailQuince_of_curve {c : Curve} (hn : s.request 16 4 ≠ 0) (hin : s.inIntake 0 (s.request 8 8) (s.request 16 4) = true)
    (hslot : s.request 1 1 ≤ 3) (hop : 1 ≤ s.request 0 1 ∧ s.request 0 1 ≤ 3) (hc : s.sec.curves.find (s.request 1 1) = some c)
    {r : Nat × List Byte} (hr : quinceOp (s.request 0 1) c s.operands = some r) : s.mailQuince = (r.1, r.2, s.holding) := by
  have hsize : ¬ (decide (s.request 0 1 = 0) || decide (4 < s.request 0 1) || decide (3 < s.request 1 1)) = true := by simp; omega
  unfold State.mailQuince
  dsimp only
  rw [if_neg hsize, State.bulkIn_of_intake hn hin]
  dsimp only
  rw [if_neg (by omega), State.lock_sec, hc]
  dsimp only
  rw [show quinceOp _ c (s.mem.fetch _ _) = some r from hr]
  rfl

theorem State.mailQuince_of_no_curve (hn : s.request 16 4 ≠ 0) (hin : s.inIntake 0 (s.request 8 8) (s.request 16 4) = true)
    (hslot : s.request 1 1 ≤ 3) (hop : 1 ≤ s.request 0 1 ∧ s.request 0 1 ≤ 3) (hc : s.sec.curves.find (s.request 1 1) = none) :
    s.mailQuince = (0x21, [], s.holding) := by
  have hsize : ¬ (decide (s.request 0 1 = 0) || decide (4 < s.request 0 1) || decide (3 < s.request 1 1)) = true := by simp; omega
  unfold State.mailQuince
  dsimp only
  rw [if_neg hsize, State.bulkIn_of_intake hn hin]
  dsimp only
  rw [if_neg (by omega), State.lock_sec, hc]
  rfl

theorem State.mailQuince_of_modexp (hn : s.request 16 4 ≠ 0) (hin : s.inIntake 0 (s.request 8 8) (s.request 16 4) = true)
    (hslot : s.request 1 1 ≤ 3) (hop : s.request 0 1 = 4) {r : Nat × List Byte} (hr : modexpOp s.operands = some r) :
    s.mailQuince = (r.1, r.2, s.holding) := by
  have hsize : ¬ (decide (s.request 0 1 = 0) || decide (4 < s.request 0 1) || decide (3 < s.request 1 1)) = true := by simp; omega
  unfold State.mailQuince
  dsimp only
  rw [if_neg hsize, State.bulkIn_of_intake hn hin]
  dsimp only
  rw [if_pos hop, show modexpOp (s.mem.fetch _ _) = some r from hr]
  rfl

end

section
variable {s : State} {i : Instr} {op : Byte}

/-- The state a Quince row of operation `op` decides on. -/
def State.engaged (s : State) (op : Byte) : State := (s.asking op).taking 9

theorem runs_of_quince (h : s.QuinceAsked) (hi : exec i s = quinceRow s op) {a : Nat × List Byte}
    (ha : (s.engaged op).mailQuince = (a.1, a.2, (s.engaged op).holding)) :
    Runs i s fun t => MailTaken s t 9 a.1 a.2 ∧ t.mem = s.mem := by
  refine runs_of_exec_live h.live (hi.trans (s.quinceRow_of_idle op h.open_ h.idle)) ?_
  rw [State.mailbox_of_wellFormed (s.asking op) h.idle (s.asking_requestOk op h.fields), show (s.asking op).taking 9 = s.engaged op from rfl, ha]
  refine ⟨mailTaken_pend (a := (a.1, a.2, (s.engaged op).holding)) s (by decide) (s.engaged op).holding_window, ?_⟩
  rw [MailAnswer.pend_mem, State.holding_mem]
  rfl

theorem State.engaged_op (hop : op ≠ 0) : (s.engaged op).request 0 1 = op.toNat := s.asking_request_first op hop

theorem State.engaged_request {off : Nat} (h : 0 < off) (n : Nat) : (s.engaged op).request off n = s.request off n :=
  s.asking_request_other op h n

theorem State.engaged_operands : (s.engaged op).operands = s.operands := by
  unfold State.operands
  rw [State.engaged_request (by decide), State.engaged_request (by decide)]
  rfl

/-- The checks of a row before its values hold on the state the row decides on. -/
theorem State.QuinceAsked.engaged (h : s.QuinceAsked) : (s.engaged op).request 16 4 ≠ 0 ∧
    (s.engaged op).inIntake 0 ((s.engaged op).request 8 8) ((s.engaged op).request 16 4) = true ∧ (s.engaged op).request 1 1 ≤ 3 := by
  rw [State.engaged_request (by decide), State.engaged_request (by decide), State.engaged_request (by decide)]
  exact ⟨h.bytes, h.intake, h.slot⟩

/-- An operation of a loaded curve answers what it makes of its operands. -/
theorem runs_of_curve (h : s.QuinceAsked) (hi : exec i s = quinceRow s op) (hop : 1 ≤ op.toNat ∧ op.toNat ≤ 3) {c : Curve}
    (hc : s.sec.curves.find (s.request 1 1) = some c) {a : Nat × List Byte} (ha : quinceOp op.toNat c s.operands = some a) :
    Runs i s fun t => MailTaken s t 9 a.1 a.2 ∧ t.mem = s.mem := by
  obtain ⟨hn, hin, hslot⟩ := h.engaged (op := op)
  have hfirst : (s.engaged op).request 0 1 = op.toNat := State.engaged_op (by rintro rfl; exact absurd hop.1 (by decide))
  refine runs_of_quince h hi (State.mailQuince_of_curve (c := c) hn hin hslot (hfirst ▸ hop) ?_ ?_)
  · rw [State.engaged_request (by decide)]
    exact hc
  · rw [hfirst, State.engaged_operands, ha]

/-- A curve slot that holds none answers NO_CURVE. -/
theorem runs_of_no_curve (h : s.QuinceAsked) (hi : exec i s = quinceRow s op) (hop : 1 ≤ op.toNat ∧ op.toNat ≤ 3)
    (hc : s.sec.curves.find (s.request 1 1) = none) : Runs i s fun t => MailTaken s t 9 0x21 [] ∧ t.mem = s.mem := by
  obtain ⟨hn, hin, hslot⟩ := h.engaged (op := op)
  have hfirst : (s.engaged op).request 0 1 = op.toNat := State.engaged_op (by rintro rfl; exact absurd hop.1 (by decide))
  refine runs_of_quince (a := (0x21, [])) h hi (State.mailQuince_of_no_curve hn hin hslot (hfirst ▸ hop) ?_)
  rw [State.engaged_request (by decide)]
  exact hc

/-- Operand `i` of a curve's operation: fields of the curve's length, little-endian (R7). -/
def Curve.operand (c : Curve) (b : List Byte) (i : Nat) : Nat := leNat (slice b (i * c.len) c.len)

theorem quinceOp_one {c : Curve} {b : List Byte} (h : b.length = 2 * c.len) :
    quinceOp 1 c b = some (c.pointCheck (c.operand b 0) (c.operand b 1)) := if_pos h

theorem quinceOp_two {c : Curve} {b : List Byte} (h : b.length = 3 * c.len) :
    quinceOp 2 c b = some (c.scalarMul (c.operand b 0) (c.operand b 1) (c.operand b 2)) := if_pos h

theorem quinceOp_three {c : Curve} {b : List Byte} (h : b.length = 5 * c.len) :
    quinceOp 3 c b = some (c.ecdsa (c.operand b 0) (c.operand b 1) (c.operand b 2) (c.operand b 3) (c.operand b 4)) := if_pos h

section
variable (h : s.QuinceAsked) {c : Curve} (hc : s.sec.curves.find (s.request 1 1) = some c) {a : Nat × List Byte}
include h hc

theorem runs_of_pointCheck (hlen : s.operands.length = 2 * c.len)
    (ha : c.pointCheck (c.operand s.operands 0) (c.operand s.operands 1) = a) :
    Runs .pointCheck s fun t => MailTaken s t 9 a.1 a.2 ∧ t.mem = s.mem :=
  runs_of_curve (op := 1) h rfl (by decide) hc (ha ▸ quinceOp_one hlen)

theorem runs_of_scalarMul (hlen : s.operands.length = 3 * c.len)
    (ha : c.scalarMul (c.operand s.operands 0) (c.operand s.operands 1) (c.operand s.operands 2) = a) :
    Runs .scalarMultiplication s fun t => MailTaken s t 9 a.1 a.2 ∧ t.mem = s.mem :=
  runs_of_curve (op := 2) h rfl (by decide) hc (ha ▸ quinceOp_two hlen)

theorem runs_of_ecdsa (hlen : s.operands.length = 5 * c.len)
    (ha : c.ecdsa (c.operand s.operands 0) (c.operand s.operands 1) (c.operand s.operands 2) (c.operand s.operands 3)
      (c.operand s.operands 4) = a) :
    Runs .ecdsaVerify s fun t => MailTaken s t 9 a.1 a.2 ∧ t.mem = s.mem :=
  runs_of_curve (op := 3) h rfl (by decide) hc (ha ▸ quinceOp_three hlen)

end

theorem runs_of_modexp (h : s.QuinceAsked) {a : Nat × List Byte} (ha : modexpOp s.operands = some a) :
    Runs .modularExponentiation s fun t => MailTaken s t 9 a.1 a.2 ∧ t.mem = s.mem := by
  obtain ⟨hn, hin, hslot⟩ := h.engaged (op := 4)
  refine runs_of_quince h rfl (State.mailQuince_of_modexp hn hin hslot (State.engaged_op (by decide)) ?_)
  rw [State.engaged_operands, ha]

theorem Runs.imp {P Q : State → Prop} (h : Runs i s P) (hPQ : ∀ t, P t → Q t) : Runs i s Q :=
  let ⟨t, hexec, ht⟩ := h
  ⟨t, hexec, hPQ t ht⟩

end

/-! ### LOAD_CURVE (R372) -/

section
variable {s : State}

/-- LOAD_CURVE's answer once its sizes have passed. -/
theorem State.mailLoadCurve_of_sizes (hslot : s.request 0 1 ≤ 3) (hsession : s.sec.session = none) (hn : s.request 16 4 ≠ 0)
    (hin : s.inIntake 0 (s.request 8 8) (s.request 16 4) = true) (hlow : 24 ≤ field s.operands 0 1) (hhigh : field s.operands 0 1 ≤ 66)
    (hlen : s.request 16 4 = 6 * field s.operands 0 1 + 9) (hzero : allZero (slice s.operands 1 7) = true) :
    s.mailLoadCurve = if (curveOf s.operands).ok then (0, (curveOf s.operands).digest, s.holding.withCurve (s.request 0 1) (curveOf s.operands))
      else (0x20, [], s.holding) := by
  have hidle : ¬ (decide (3 < s.request 0 1) || s.sec.session.any fun x => x.slot == s.request 0 1) = true := by
    simp [hsession]; omega
  have hsizes : ¬ (decide (field s.operands 0 1 < 24) || decide (66 < field s.operands 0 1) ||
      decide (s.request 16 4 ≠ 8 + 6 * field s.operands 0 1 + 1) || !allZero (slice s.operands 1 7)) = true := by
    simp [hzero]; omega
  unfold State.mailLoadCurve
  dsimp only
  rw [if_neg hidle, State.bulkIn_of_intake hn hin]
  dsimp only
  exact if_neg hsizes

theorem runs_of_loadCurve (hd : s.defined) (ho : s.hostOpen = true) (hb : s.sec.busy = false)
    (hr : s.requestOk [(0, 1), (8, 8), (16, 4)] = true) {r : Nat} {resp : List Byte} {t : State}
    (ha : (s.taking 3).mailLoadCurve = (r, resp, t)) (hw : t.sec.window = (s.taking 3).sec.window) (hm : t.mem = s.mem)
    {P : SecurityUnit → Prop} (hP : P { t.sec with nextResult := r, nextResponse := resp }) :
    Runs .loadCurve s fun t => MailTaken s t 3 r resp ∧ t.mem = s.mem ∧ P t.sec := by
  refine runs_of_mailbox_wellFormed hd rfl ho hb hr ?_
  rw [ha]
  exact ⟨mailTaken_pend (a := (r, resp, t)) s (by decide) hw, hm, hP⟩

end

/-- Settles O55: LOAD_CURVE and the engine's operations answer by their sizes, then their slot, then their values in the order of
R374; a modular exponentiation compares the power. -/
theorem quinceChecksInOrder : Obligations.QuinceChecksInOrder := by
  unfold Obligations.QuinceChecksInOrder
  intro s c hd ho hb a n b w on gives hn hin
  have given {i : Instr} {r : Nat} {resp : List Byte} (h : Runs i s fun t => MailTaken s t 9 r resp ∧ t.mem = s.mem) :
      gives i 9 r := h.imp fun t ⟨hm, hmem⟩ => ⟨hm.busy, hm.cmd, hm.result, hmem⟩
  refine ⟨fun hr hslot hsession hlow hhigh hlen hzero => ?_, fun hr hslot => ?_⟩
  · have ha := State.mailLoadCurve_of_sizes (s := s.taking 3) hslot hsession hn hin hlow hhigh hlen hzero
    refine ⟨fun hok => ?_, fun hok => ?_⟩
    · exact runs_of_loadCurve hd ho hb hr (ha.trans (if_pos hok)) (State.holdingCurve_window _ _ _) (State.holdingCurve_mem _ _ _)
        (P := fun x => x.curves.find (s.request 0 1) = some (curveOf b)) (Table.find_put_same _ _ _)
    · exact runs_of_loadCurve hd ho hb hr (ha.trans (if_neg (Bool.eq_false_iff.mp hok))) (s.taking 3).holding_window (s.taking 3).holding_mem
        (P := fun x => x.curves = s.sec.curves) (congrArg SecurityUnit.curves ((s.taking 3).lock_sec _ _ _) :)
  · have hq : s.QuinceAsked := ⟨hd, ho, hb, hn, hin, hr, hslot⟩
    refine ⟨fun hc => ?_, fun hc => ⟨fun hlen hb' => ?_, fun hlen hb' => ?_, fun hlen hb' hx hy => ?_⟩, fun k hlen hb' hk hk' hbits => ?_⟩
    · exact ⟨given (runs_of_no_curve (op := 1) hq rfl (by decide) hc), given (runs_of_no_curve (op := 2) hq rfl (by decide) hc),
        given (runs_of_no_curve (op := 3) hq rfl (by decide) hc)⟩
    · have row {a} := runs_of_pointCheck hq hc (a := a) (hb'.trans hlen)
      refine ⟨fun hout => ?_, fun hx hy hon => ?_, fun hx hy hon => ?_⟩
      · exact given (row (Curve.pointCheck_of_outside hout))
      · exact given (row (Curve.pointCheck_of_not_holds hx hy (Bool.eq_false_iff.mpr (mt Curve.holds_iff.mp hon))))
      · exact given (row (Curve.pointCheck_of_holds hx hy (Curve.holds_iff.mpr hon)))
    · have row {a} := runs_of_scalarMul hq hc (a := a) (hb'.trans hlen)
      refine ⟨fun hout => ?_, fun hx hy hk hon => ?_, fun hx hy hk hon x y hxy => ?_⟩
      · exact given (row (Curve.scalarMul_of_large hout))
      · exact given (row (Curve.scalarMul_of_not_holds hx hy hk (Bool.eq_false_iff.mpr (mt Curve.holds_iff.mp hon))))
      · exact row (Curve.scalarMul_of_holds hx hy hk (Curve.holds_iff.mpr hon) hxy)
    · have row {a} := runs_of_ecdsa hq hc (a := a) (hb'.trans hlen)
      refine ⟨fun hout => ?_, fun hr hrn ht htn hon => ?_⟩
      · exact given (row (Curve.ecdsa_of_outside hout))
      · exact given (row (Curve.ecdsa_of_not_holds hx hy hr hrn ht htn (Bool.eq_false_iff.mpr (mt Curve.holds_iff.mp hon))))
    · have row {a} (ha : modexp _ _ _ _ = a) :=
        runs_of_modexp hq (a := a) ((modexpOp_of_length (hb'.trans hlen) hk hk' hbits).trans (congrArg some ha))
      exact ⟨fun hout => given (row (modexp_of_outside hout)), fun hm hbase => given (row (modexp_of_inside hm hbase))⟩

end Sys2Proof.Machine
end

section
/-!
PROOFS. Images (R402 to R406): staging into the inactive slot, the adoption's pieces, its switch and its ends.
-/
namespace Sys2Proof.Machine

section
variable (s : State)

/-! ### What the adoption's own work leaves alone -/

/-- The configuration and device memory. -/
def State.imaged : ConfigUnit × Memory := (s.cfg, s.mem)

theorem State.imaged_of_besideUpkeep {s t : State} (h : t.besideUpkeep = s.besideUpkeep) : t.imaged = s.imaged :=
  (congrArg State.imaged h :)

theorem State.event_imaged (c : Nat) (b : List Byte) : (s.event c b).imaged = s.imaged :=
  State.imaged_of_besideUpkeep (s.event_besideUpkeep c b)

theorem State.managementRecord_imaged (k o j a : Nat) : (s.managementRecord k o j a).2.imaged = s.imaged :=
  State.imaged_of_besideUpkeep (s.managementRecord_besideUpkeep k o j a)

theorem State.setPermit_imaged (c k : Nat) : (s.setPermit c k).imaged = s.imaged := (congrArg State.imaged (s.setPermit_besideClock c k) :)

theorem State.portDown_imaged (n : Nat) (x : BitVec 3) : (s.portDown n x).imaged = s.imaged :=
  (congrArg State.imaged (s.portDown_besidePorts n x) :)

theorem State.train_imaged (n : Nat) : (s.train n).imaged = s.imaged := (congrArg State.imaged (s.train_besidePorts n) :)

theorem State.retrain_imaged (n : Nat) : (s.retrain n).imaged = s.imaged :=
  keeps_ite State.imaged (State.train_imaged _ n) rfl

theorem State.writePort_imaged (n : Nat) (v : Word64) (w : AccessWidth) : (s.writePort n v w).imaged = s.imaged := by
  unfold State.writePort
  extract_lets old x down unit t
  have ht : t.imaged = s.imaged :=
    keeps_ite State.imaged rfl (keeps_ite State.imaged (State.train_imaged _ n) (s.portDown_imaged n 0))
  exact (keeps_ite State.imaged (t.retrain_imaged n) rfl).trans ht

theorem State.applyRegisters_imaged : s.applyRegisters.imaged = s.imaged := by
  unfold State.applyRegisters
  extract_lets
  refine (State.forAll_keeps State.imaged (fun u n => ?_) _ _).trans rfl
  exact keeps_ite State.imaged rfl (u.writePort_imaged n _ _)

/-! ### Staging (R402) -/

theorem cellAt_writeN_outside {x : Nat} : ∀ (bs : List Byte) (cells : List Host.Cell) (a : Nat), (x < a ∨ a + bs.length ≤ x) →
    cellAt erasedByte (Flash.writeN cells a bs) x = cellAt erasedByte cells x
  | [], _, _, _ => rfl
  | b :: bs, cells, a, h => by
    rw [List.length_cons] at h
    exact (cellAt_writeN_outside bs _ (a + 1) (by omega)).trans (cellAt_put_other _ _ _ _ _ (by omega))

theorem cellAt_eraseSlot (cells : List Host.Cell) (i x : Nat) : cellAt erasedByte (eraseSlot cells i) x =
    if inRange (slotBase i) (slotSize i) x then 0xFF else cellAt erasedByte cells x :=
  cellAt_filter _ _ _ _

/-- The state in which an image is being staged. -/
def State.stageBegun : State :=
  let i := s.inactiveSlot
  let cells := Flash.writeN (eraseSlot s.flash.cells i) (slotBase i) ((s.mem.fetch s.cfg.stageAddr.toNat s.cfg.stageLen.toNat).take (slotSize i))
  ({ s with flash := { cells := cells }, cfg := { s.cfg with stageState := 1, stageResult := 0, staged := none } }).showSlot i 1

theorem State.stageBegun_spec : s.stageBegun.cfg.stageState = 1 ∧ s.stageBegun.mem = s.mem ∧
    ∀ x, inRange (slotBase s.inactiveSlot) (slotSize s.inactiveSlot) x = false →
      cellAt erasedByte s.stageBegun.flash.cells x = cellAt erasedByte s.flash.cells x := by
  refine ⟨?_, rfl, fun x hx => ?_⟩
  · unfold State.stageBegun State.showSlot
    dsimp only
    split <;> rfl
  · have hout : x < slotBase s.inactiveSlot ∨ slotBase s.inactiveSlot + slotSize s.inactiveSlot ≤ x := by
      simpa only [inRange, Bool.and_eq_false_iff, decide_eq_false_iff_not, not_le, not_lt] using hx
    calc cellAt erasedByte s.stageBegun.flash.cells x = cellAt erasedByte (eraseSlot s.flash.cells s.inactiveSlot) x :=
          cellAt_writeN_outside _ _ _ (by rw [List.length_take]; omega)
      _ = cellAt erasedByte s.flash.cells x := by rw [cellAt_eraseSlot, if_neg (by rw [hx]; decide)]

theorem State.stageGo_of_ready (h1 : s.cfg.stageState ≠ 1) (h2 : s.cfg.stageState ≠ 2) (hm : s.mode.adopting = false)
    (hn : s.cfg.stageLen.toNat ≠ 0) (hin : s.inIntake 0 s.cfg.stageAddr.toNat s.cfg.stageLen.toNat = true) :
    s.stageGo = s.stageBegun.lock .staging s.cfg.stageAddr.toNat s.cfg.stageLen.toNat := by
  unfold State.stageGo
  dsimp only
  have hidle : ¬ (decide (s.cfg.stageState = 1) || decide (s.cfg.stageState = 2) || s.mode.adopting) = true := by
    rw [decide_eq_false h1, decide_eq_false h2, hm]
    decide
  rw [if_neg hidle, if_neg (by simp [hn, hin])]
  rfl

theorem State.stageGo_of_busy (h : s.cfg.stageState = 1 ∨ s.mode.adopting = true) : s.stageGo = s.refuseGo :=
  if_pos (by rcases h with h | h <;> simp [h])

/-- The configuration, the flash and device memory. -/
def State.staged : ConfigUnit × Flash × Memory := (s.cfg, s.flash, s.mem)

theorem State.event_staged (c : Nat) (b : List Byte) : (s.event c b).staged = s.staged := by
  rw [State.event_eq]
  rfl

theorem State.endStaging_staged (r : Nat) (i : Option Image) : (s.endStaging r i).staged =
    ({ s.cfg with stageState := if r = 0 then 3 else 4, stageResult := BitVec.ofNat 8 r, staged := i }, s.flash, s.mem) := by
  unfold State.endStaging
  extract_lets unit t
  exact keeps_ite State.staged (t.event_staged _ _) rfl

theorem State.showSlot_staged (i : Nat) (x : BitVec 2) : (s.showSlot i x).flash = s.flash ∧ (s.showSlot i x).mem = s.mem := ⟨rfl, rfl⟩

variable {s} in
/-- What staging's end shows of its result. -/
theorem State.endStaging_spec {u t : State} {r : Nat} {i : Option Image} (ht : t = u.endStaging r i) (hf : u.flash = s.flash) (hm : u.mem = s.mem)
    (hi : i ≠ none ↔ r = 0) : t.cfg.stageState = (if r = 0 then 3 else 4) ∧ t.cfg.stageResult = BitVec.ofNat 8 r ∧
      (t.cfg.staged ≠ none ↔ r = 0) ∧ t.flash = s.flash ∧ t.mem = s.mem := by
  have h := u.endStaging_staged r i
  rw [← ht] at h
  obtain ⟨hcfg, hrest⟩ := Prod.mk.inj h
  obtain ⟨hflash, hmem⟩ := Prod.mk.inj hrest
  rw [hcfg, hflash, hmem]
  exact ⟨rfl, rfl, hi, hf, hm⟩

theorem State.stageComplete_true :
    let r := s.stageVerdict (s.flash.readN (slotBase s.inactiveSlot) s.cfg.stageLen.toNat)
    (s.stageComplete true).cfg.stageState = (if r = 0 then 3 else 4) ∧ (s.stageComplete true).cfg.stageResult = BitVec.ofNat 8 r ∧
      ((s.stageComplete true).cfg.staged ≠ none ↔ r = 0) ∧ (s.stageComplete true).flash = s.flash ∧ (s.stageComplete true).mem = s.mem := by
  intro r
  have hi : (if r = 0 then some (s.parseImage (s.flash.readN (slotBase s.inactiveSlot) s.cfg.stageLen.toNat)) else none) ≠ none ↔ r = 0 := by
    split <;> simp [*]
  exact State.endStaging_spec (u := s.showSlot s.inactiveSlot (s.slotState s.inactiveSlot)) rfl rfl rfl hi

theorem State.stageComplete_false : (s.stageComplete false).cfg.stageState = 4 ∧ (s.stageComplete false).cfg.stageResult = 7 ∧
    (s.stageComplete false).mem = s.mem ∧ ∀ x, inRange (slotBase s.inactiveSlot) (slotSize s.inactiveSlot) x = true →
      cellAt erasedByte (s.stageComplete false).flash.cells x = 0xFF := by
  let u := State.showSlot { s with flash := { cells := eraseSlot s.flash.cells s.inactiveSlot } } s.inactiveSlot 0
  obtain ⟨hstate, hresult, -, hflash, hmem⟩ :=
    State.endStaging_spec (s := u) (u := u) (t := s.stageComplete false) (r := 0x07) (i := none) rfl rfl rfl (by decide)
  refine ⟨hstate, hresult, hmem, fun x hx => ?_⟩
  have hcells : (s.stageComplete false).flash.cells = eraseSlot s.flash.cells s.inactiveSlot := congrArg Flash.cells hflash
  rw [hcells, cellAt_eraseSlot, if_pos hx]

/-! ### ADOPT_GO (R403) -/

theorem State.adoptGo_of_none (h : s.cfg.staged = none) :
    s.adoptGo = State.refuseGo { s with cfg := { s.cfg with adoptResult := 0x10 } } := by
  unfold State.adoptGo
  rw [h]

/-- The state in which an adoption has begun. -/
def State.adoptBegun : State := { s with
  mode := { s.mode with adopting := true }
  cfg := { s.cfg with
    adoptPiece := 1, adoptState := 1, adoptResult := 0, groupsTabled := [], switchBeat := none, revert := false, oldFields := []
    retrainNext := 0, recalStart := 0 } }

theorem State.adoptGo_of_ready {i : Image} (h : s.cfg.staged = some i) (h3 : s.cfg.stageState = 3) (hm : s.mode.adopting = false)
    (ho : i.ownerChange = false) (hc : s.deadChange i = false) : s.adoptGo = s.adoptBegun.modeEvent 4 0 1 := by
  unfold State.adoptGo
  rw [h]
  dsimp only
  rw [if_neg (by rw [hm]; decide), if_neg (by simp [h3]), if_neg (by simp [ho, hc])]
  rfl

/-! ### The pieces (R404, R405) -/

/-- The configuration after an abort. -/
def ConfigUnit.aborted (c : ConfigUnit) (r : Nat) : ConfigUnit :=
  { c with adoptPiece := 0, adoptState := 3, adoptResult := BitVec.ofNat 8 r, switchBeat := none, revert := true }

/-- The adoption ends without its image, by `body`'s event. -/
def State.endAborted (r : Nat) (body : List Byte) : State :=
  let t := { s with cfg := s.cfg.aborted r, memSys := { s.memSys with migrating := none } }
  ((t.event 0x09 body).count 0x004 1).setPermit 7 0

theorem State.endAborted_imaged (r : Nat) (body : List Byte) : (s.endAborted r body).imaged = (s.cfg.aborted r, s.mem) := by
  unfold State.endAborted
  extract_lets memory t
  exact (State.setPermit_imaged _ _ _).trans (t.event_imaged _ _)

theorem State.abortAdoption_imaged (r : Nat) : (s.abortAdoption r).imaged = (s.cfg.aborted r, s.mem) := by
  have hu : (s.managementRecord 0x92 opManagement 0 0).2.imaged = s.imaged := s.managementRecord_imaged _ _ _ _
  unfold State.abortAdoption
  extract_lets serial u
  change u.imaged = s.imaged at hu
  have hcfg : u.cfg = s.cfg := congrArg Prod.fst hu
  have hmem : u.mem = s.mem := congrArg Prod.snd hu
  rw [← hcfg, ← hmem]
  exact u.endAborted_imaged r _

/-- The piece, the state of the adoption and device memory. -/
def State.pieceView : BitVec 4 × BitVec 4 × Memory := (s.cfg.adoptPiece, s.cfg.adoptState, s.mem)

theorem State.pieceView_of_imaged {s t : State} (h : t.imaged = s.imaged) : t.pieceView = s.pieceView :=
  (congrArg (fun x : ConfigUnit × Memory => (x.1.adoptPiece, x.1.adoptState, x.2)) h :)

theorem State.burnVersion_pieceView (v : Nat) : (s.burnVersion v).pieceView = s.pieceView :=
  keeps_ite State.pieceView rfl (State.pieceView_of_imaged (State.event_imaged _ _ _))

theorem State.beginRetrain_pieceView (i : Image) : (s.beginRetrain i).pieceView = s.pieceView :=
  keeps_ite State.pieceView rfl ((State.pieceView_of_imaged (State.setPermit_imaged _ _ _) : State.pieceView (State.setPermit _ _ _) = _).trans rfl)

theorem State.retrainLanes_pieceView (i : Image) : (s.retrainLanes i).pieceView = s.pieceView := by
  unfold State.retrainLanes
  dsimp only
  refine keeps_ite State.pieceView rfl ?_
  refine (State.forAll_keeps State.pieceView (fun u n => ?_) _ _).trans rfl
  exact keeps_ite State.pieceView rfl rfl

/-- A piece after the check and before the last keeps the adoption going. -/
theorem State.startPiece_spec (i : Image) {n : Nat} (h2 : 2 ≤ n) (h6 : n ≤ 6) :
    (s.startPiece i n).pieceView = (BitVec.ofNat 4 n, s.cfg.adoptState, s.mem) := by
  obtain rfl | rfl | rfl | rfl | rfl : n = 2 ∨ n = 3 ∨ n = 4 ∨ n = 5 ∨ n = 6 := by omega
  · have hmem := congrArg (·.2.2) (State.burnVersion_pieceView { s with cfg := { s.cfg with adoptPiece := 2 } } (i.num 0x0001))
    exact congrArg (fun m => (2, s.cfg.adoptState, m)) hmem
  · rfl
  · rfl
  · exact State.beginRetrain_pieceView _ _
  · exact (State.retrainLanes_pieceView _ _).trans (State.pieceView_of_imaged (State.setPermit_imaged _ _ _))

/-- The last piece leaves the image active. -/
theorem State.finishAdoption_spec (i : Image) : (s.finishAdoption i).cfg.adoptState = 2 ∧ (s.finishAdoption i).cfg.adoptPiece = 0 ∧
    (s.finishAdoption i).cfg.active = some i ∧ (s.finishAdoption i).cfg.staged = none ∧ (s.finishAdoption i).cfg.appliedDigest = i.digest ∧
    (s.finishAdoption i).mem = s.mem := by
  unfold State.finishAdoption
  extract_lets a b unit t
  have h : (((t.event 0x09 (adoptEvent 1 i.serial.toNat 0)).count 0x003 1).fire 0 7).imaged = t.imaged := t.event_imaged _ _
  generalize State.fire _ 0 7 = u at h ⊢
  obtain ⟨hcfg, hmem⟩ := Prod.mk.inj h
  rw [hcfg, hmem]
  exact ⟨rfl, rfl, rfl, rfl, rfl, rfl⟩

theorem State.nextPiece_of_ended {i : Image} (h : s.cfg.staged = some i) (h1 : s.cfg.adoptState = 1) (he : s.pieceEnded = true)
    (hroom : s.cfg.adoptPiece = 1 → s.ledger.room 2 = true) : s.nextPiece true = s.startPiece i (s.cfg.adoptPiece.toNat + 1) := by
  have hready : ¬ (!s.pieceEnded || (s.cfg.adoptPiece == 1 && !s.ledger.room 2)) = true := by
    simp only [he, Bool.not_true, Bool.false_or, Bool.and_eq_true, beq_iff_eq, Bool.not_eq_true', not_and, Bool.not_eq_false]
    exact hroom
  unfold State.nextPiece
  rw [h]
  dsimp only
  rw [if_neg (not_not_intro h1), if_neg (by decide), if_neg hready]

theorem State.nextPiece_of_failed {i : Image} (h : s.cfg.staged = some i) (h1 : s.cfg.adoptState = 1) :
    s.nextPiece false = s.abortAdoption 0x15 := by
  unfold State.nextPiece
  rw [h]
  dsimp only
  rw [if_neg (not_not_intro h1), if_pos (by decide)]

/-- At the switch the bank turns, and the fields before it are kept for an abort. -/
theorem State.switchOver_spec (i : Image) : (s.switchOver i).cfg.bank = !s.cfg.bank ∧ (s.switchOver i).cfg.switchBeat = none ∧
    (s.switchOver i).cfg.oldFields = s.cfg.fields ∧ (s.switchOver i).mem = s.mem := by
  have h := (s.putFields i.fields switchFields).applyRegisters_imaged
  have hbank : (s.putFields i.fields switchFields).applyRegisters.cfg.bank = s.cfg.bank := (congrArg (·.1.bank) h :)
  refine ⟨?_, rfl, rfl, (congrArg Prod.snd h :)⟩
  rw [← hbank]
  rfl

theorem State.applyTable_of_next {i : Image} {p : Nat} (h : s.cfg.staged = some i) (h1 : s.cfg.adoptState = 1) (h3 : s.cfg.adoptPiece = 3)
    (hn : s.nextTable (s.tableGroups.filter fun q => !s.cfg.groupsTabled.contains q) = some p) (hf : s.tableFree p = true) :
    s.applyTable p = State.writeTable { s with cfg := { s.cfg with groupsTabled := insertSorted s.cfg.groupsTabled p } } p i.serial := by
  unfold State.applyTable
  rw [if_pos (by rw [h1, h3]; rfl), h]
  dsimp only
  rw [if_pos (by rw [hn, hf]; simp)]

/-- The table of a group is written with the image's serial, and the group counts as served. -/
theorem State.writeTable_spec (p : Nat) (serial : Word64) :
    let t := State.writeTable { s with cfg := { s.cfg with groupsTabled := insertSorted s.cfg.groupsTabled p } } p serial
    (t.unit p).tableSerial = serial ∧ (t.unit p).heldBeat = some s.beat.toNat ∧ p ∈ t.cfg.groupsTabled ∧ t.mem = s.mem := by
  intro t
  have hunit : t.unit p = { s.unit p with heldBeat := some s.beat.toNat, tableSerial := serial } := State.unit_modUnit _ _ _
  rw [hunit]
  exact ⟨rfl, rfl, mem_insertSorted.mpr (.inl rfl), rfl⟩

variable {s} (h1 : s.cfg.adoptState = 1) (h5 : s.cfg.adoptPiece = 5) (hlt : s.cfg.retrainNext < 256)
include h1 h5 hlt

theorem State.retrain_underWay : ¬ (decide (s.cfg.adoptState ≠ 1) || decide (s.cfg.adoptPiece ≠ 5) || decide (256 ≤ s.cfg.retrainNext)) = true := by
  simp [h1, h5]
  omega

theorem exec_pseudoChannelRetrain : exec (.pseudoChannelRetrain true) s = live s { s with
    cfg := { s.cfg with retrainNext := s.cfg.retrainNext + 1 }
    memSys := { s.memSys with migrating := if s.cfg.retrainNext + 1 < 256 then some (s.cfg.retrainNext + 1) else none } } := by
  show execPseudoChannelRetrain true s = _
  rw [execPseudoChannelRetrain, if_neg (State.retrain_underWay h1 h5 hlt), if_neg (by decide)]

theorem exec_pseudoChannelRetrain_failed : exec (.pseudoChannelRetrain false) s = live s (s.abortAdoption 0x15) := by
  show execPseudoChannelRetrain false s = _
  rw [execPseudoChannelRetrain, if_neg (State.retrain_underWay h1 h5 hlt), if_pos (by decide)]

end

/-- Settles O57: staging touches the inactive slot alone and judges what it reads back; the adoption's pieces follow one another until
the image is active; an abort, a timeout and a failed piece leave their result. -/
theorem imagesAreStagedAndAdopted : Obligations.ImagesAreStagedAndAdopted := by
  unfold Obligations.ImagesAreStagedAndAdopted
  intro s i p hd ho c a n slot aborted
  have hopen (w : AccessWidth) (hw : w = .full) : ¬ (!s.hostOpen || w != .full) = true := by rw [ho, hw]; decide
  have ended {r : Nat} : aborted (s.abortAdoption r) (BitVec.ofNat 8 r) := by
    obtain ⟨hcfg, hmem⟩ := Prod.mk.inj (s.abortAdoption_imaged r)
    refine ⟨?_, ?_, ?_, ?_, hmem⟩ <;> rw [hcfg] <;> rfl
  refine ⟨fun h1 h2 hm hn hin => ?_, fun hbusy => ?_, fun h1 => ⟨?_, ?_⟩, fun hnone => ?_, fun hi h3 hm hoc hdc => ?_, fun hb hi h1 => ⟨?_, ?_, ?_, ?_, ?_⟩,
    fun h1 h5 hlt => ⟨?_, ?_⟩, fun h1 => ⟨?_, ?_⟩, fun h1 => ⟨?_, ?_⟩⟩
  · obtain ⟨hstate, hmem, hcells⟩ := s.stageBegun_spec
    refine runs_of_live_unless hd rfl (hopen _ rfl) ?_
    rw [s.stageGo_of_ready h1 h2 hm hn hin]
    have hkept : (s.stageBegun.lock .staging a n).staged = s.stageBegun.staged := by rw [State.lock_eq]; rfl
    obtain ⟨hcfg, hrest⟩ := Prod.mk.inj hkept
    obtain ⟨hflash, hmem'⟩ := Prod.mk.inj hrest
    refine ⟨?_, State.mem_lock _ hn _ _, hmem'.trans hmem, fun x hx => ?_⟩
    · rw [hcfg]
      exact hstate
    · rw [hflash]
      exact hcells x hx
  · show execStageGo .full s = _
    rw [execStageGo, if_neg (hopen _ rfl), s.stageGo_of_busy hbusy, live_defined _ _ hd]
    rfl
  · exact runs_of_live_ite hd rfl h1 s.stageComplete_true
  · exact runs_of_live_ite hd rfl h1 s.stageComplete_false
  · refine runs_of_live_unless hd rfl (hopen _ rfl) ?_
    rw [s.adoptGo_of_none hnone]
    exact ⟨rfl, rfl, rfl, rfl⟩
  · refine runs_of_live_unless hd rfl (hopen _ rfl) ?_
    rw [s.adoptGo_of_ready hi h3 hm hoc hdc, State.modeEvent, State.event_eq]
    exact ⟨rfl, rfl, rfl, rfl, rfl⟩
  · intro q hq hq1 hq5 he hroom
    refine runs_of_live_ite hd rfl hb ?_
    rw [s.nextPiece_of_ended hi h1 he fun _ => hroom, show s.cfg.adoptPiece.toNat = q from hq]
    have hview := s.startPiece_spec i (n := q + 1) (by omega) (by omega)
    obtain ⟨hpiece, hrest⟩ := Prod.mk.inj hview
    obtain ⟨hstate, hmem⟩ := Prod.mk.inj hrest
    refine ⟨?_, hstate.trans h1, hmem⟩
    rw [hpiece, BitVec.toNat_ofNat]
    omega
  · intro h6
    have h6' : s.cfg.adoptPiece = 6 := h6
    refine runs_of_live_ite hd rfl hb ?_
    rw [s.nextPiece_of_ended hi h1 (by rw [State.pieceEnded, h6']; rfl) (fun h => absurd (h6'.symm.trans h) (by decide)), h6']
    exact State.finishAdoption_spec _ i
  · refine runs_of_live_ite hd rfl hb ?_
    rw [s.nextPiece_of_failed hi h1]
    exact ended
  · intro b hsb hle
    refine runs_of_exec_live hd (t := s.switchOver i) ?_ (s.switchOver_spec i)
    show execAdoptSwitch s = _
    rw [execAdoptSwitch, show s.cfg.staged = some i from hi, show s.cfg.switchBeat = some b from hsb]
    dsimp only
    rw [if_pos (by rw [hb, show s.cfg.adoptState = 1 from h1]; simpa using hle)]
  · intro h3 hnext hfree
    refine runs_of_live_ite hd rfl hb ?_
    rw [s.applyTable_of_next hi h1 h3 hnext hfree]
    exact s.writeTable_spec p.val i.serial
  · refine runs_of_exec_live hd (exec_pseudoChannelRetrain h1 h5 hlt) ⟨rfl, ?_, rfl⟩
    exact if_congr (show s.cfg.retrainNext + 1 < 256 ↔ s.cfg.retrainNext < 255 by omega) rfl rfl
  · exact runs_of_exec_live hd (exec_pseudoChannelRetrain_failed h1 h5 hlt) ended
  · refine runs_of_live_ite hd rfl ?_ ended
    rw [ho, show s.cfg.adoptState = 1 from h1]
    decide
  · exact runs_of_live_ite hd rfl h1 ended
  · show execAdoptAbort .full s = _
    have hidle : ¬ (s.hostOpen && AccessWidth.full == .full && s.cfg.adoptState == 1) = true := by
      simp only [Bool.and_eq_true, beq_iff_eq, not_and]
      exact fun _ => h1
    rw [execAdoptAbort, if_neg hidle, live_defined _ _ hd]
  · show execAdoptTimeout s = _
    rw [execAdoptTimeout, if_neg h1, live_defined _ _ hd]

end Sys2Proof.Machine
end

section
/-!
PROOFS. FACTORY, the mode register and fault injection (R304, R433, R434, R438, R439).
-/
namespace Sys2Proof.Machine

section
variable (s : State)

/-! ### Authorization and entry (R433, R434) -/

/-- The state after the TAP took FACTORY_AUTH. -/
def State.authTapped : State :=
  let s := s.setPin 6 false
  { s with test := { s.test with tapInstr := 0x10 } }

variable {s} in
theorem exec_factoryAuth {rec : List Byte} (hr : 4 ≤ s.rst.released) (hf : s.mode.factory = false) : exec (.factoryAuth rec) s = live s
    (if s.factoryOk rec then { s.authTapped with mode := { s.mode with factoryPending := true } }
      else { s.authTapped with mode := { s.mode with authRefused := satInc s.mode.authRefused } }) := by
  have hmay : ¬ (decide (s.rst.released < 4) || s.mode.factory) = true := by simp [hf]; omega
  exact congrArg (live s) (if_neg hmay)

/-- FACTORY_ENTRY before the boundary: session and share are gone. -/
def State.unshared : State := { s.eraseShare with sec := { s.eraseShare.sec with session := none, pdDone := 0 } }

theorem State.unshared_spec : s.unshared.sec.share = none ∧ s.unshared.sec.session = none ∧ s.unshared.mem = s.mem ∧ s.unshared.mode = s.mode ∧
    s.unshared.cycle = s.cycle := by
  have hshare : s.unshared.sec.share = none := congrArg SecurityUnit.share s.eraseShare_sec
  refine ⟨hshare, rfl, s.eraseShare_mem, ?_, ?_⟩ <;> rw [State.unshared, State.eraseShare_eq]

/-- The axis changes at the boundary. -/
def State.factoryBegun : State :=
  (State.count { s with mode := { s.mode with factory := true, factoryPending := false, factoryBeat := s.beat } } 0x007 1).event 0x08
    ([5, 0, 1, s.mode.sealedTrust.toNat].map (BitVec.ofNat 8))

theorem State.factoryBegun_spec : s.factoryBegun.sec = s.sec ∧ s.factoryBegun.mem = s.mem ∧ s.factoryBegun.mode.factory = true ∧
    s.factoryBegun.mode.factoryPending = false := by
  rw [State.factoryBegun, State.event_eq]
  exact ⟨rfl, rfl, rfl, rfl⟩

theorem State.enterFactory_eq : s.enterFactory = if s.unshared.cycle = 0 then s.unshared.factoryBegun else s.unshared := rfl

theorem State.enterFactory_spec : s.enterFactory.sec.share = none ∧ s.enterFactory.sec.session = none ∧ s.enterFactory.mem = s.mem ∧
    (s.cycle = 0 → s.enterFactory.mode.factory = true ∧ s.enterFactory.mode.factoryPending = false) ∧
    (s.cycle ≠ 0 → s.enterFactory.mode = s.mode) := by
  obtain ⟨hshare, hsession, hmem, hmode, hcycle⟩ := s.unshared_spec
  rw [State.enterFactory_eq, hcycle]
  by_cases h0 : s.cycle = 0
  · obtain ⟨hsec, hmem', hfactory, hpending⟩ := s.unshared.factoryBegun_spec
    rw [if_pos h0, hsec, hmem']
    exact ⟨hshare, hsession, hmem, fun _ => ⟨hfactory, hpending⟩, fun h => absurd h0 h⟩
  · rw [if_neg h0]
    exact ⟨hshare, hsession, hmem, fun h => absurd h h0, fun _ => hmode⟩

/-! ### The mode register (R438, R439) -/

theorem State.writeMode_full (v : Word64) :
    s.writeMode v .full = { s with mode := { s.mode with twinAllNext := v.getLsbD 0, powerReq := v.getLsbD 1 } } := by
  unfold State.writeMode
  rw [accessWrite_full]

/-! ### Injection (R304) -/

/-- The test unit after a full write of the injection register. -/
def TestUnit.armed (t : TestUnit) (v : Word64) : TestUnit :=
  { t with injMode := BitVec.ofNat 2 (v.toNat / 2), injUnit := BitVec.ofNat 20 (v.toNat / 8), injKind := BitVec.ofNat 8 (v.toNat / 2 ^ 23)
           injArm := t.injArm || v.getLsbD 0 }

theorem exec_injectionArm {s : State} {v : Word64} (ho : s.hostOpen = true) (hf : s.mode.factory = true) :
    exec (.injectionArm v .full) s = live s { s with test := s.test.armed v } := by
  show execInjectionArm v .full s = _
  unfold execInjectionArm
  rw [if_neg (by rw [ho, hf]; decide)]
  dsimp only
  rw [accessWrite_full]
  rfl

theorem TestUnit.armed_spec (t : TestUnit) (v : Word64) : (t.armed v).injMode.toNat = v.toNat / 2 % 4 ∧
    (t.armed v).injUnit.toNat = v.toNat / 8 % 2 ^ 20 ∧ (t.armed v).injKind.toNat = v.toNat / 2 ^ 23 % 256 ∧
    (t.armed v).injArm = (t.injArm || v.getLsbD 0) :=
  ⟨BitVec.toNat_ofNat _ _, BitVec.toNat_ofNat _ _, BitVec.toNat_ofNat _ _, rfl⟩

theorem faultWord_unit (unit kind op tag : Nat) : (faultWord unit kind op tag).toNat % 2 ^ 20 = unit % 2 ^ 20 := by
  rw [faultWord, BitVec.toNat_ofNat]
  omega

theorem State.injectedWire_unit (kind : Nat) : (s.injectedWire kind).word.toNat % 2 ^ 20 = s.test.injUnit.toNat :=
  (faultWord_unit _ _ _ _).trans (Nat.mod_eq_of_lt s.test.injUnit.isLt)

theorem exec_injectionFire {s : State} (hf : s.mode.factory = true) (ha : s.test.injArm = true) (hb : s.beating = true)
    (hc : s.cycle.toNat < 59392) (hm : s.test.injMode.toNat < 2) : exec .injectionFire s = live s { s with
      test := { s.test with injArm := false, injFired := satInc s.test.injFired }
      faults := { s.faults with wires := s.faults.wires ++ [s.injectedWire (checkerKind s.test.injUnit.toNat)] } } := by
  have h2 : s.test.injMode ≠ 2 := by rintro h; rw [h] at hm; exact absurd hm (by decide)
  have h3 : s.test.injMode ≠ 3 := by rintro h; rw [h] at hm; exact absurd hm (by decide)
  have hfires : ¬ (!s.mode.factory || !s.test.injArm || !s.beating || decide (windowEnd ≤ s.cycle.toNat) || decide (s.test.injMode = 3)) = true := by
    rw [hf, ha, hb, decide_eq_false h3, decide_eq_false (show ¬ windowEnd ≤ s.cycle.toNat from Nat.not_le.mpr hc)]
    decide
  show execInjectionFire s = _
  unfold execInjectionFire
  dsimp only
  rw [if_neg hfires, if_neg h2]

end

/-- Settles O58: an authorization that checks is pending, one that does not is counted; entry erases the share and turns the axis at cycle
0; an injection is armed in FACTORY and fires one message of its unit. -/
theorem factoryAndInjection : Obligations.FactoryAndInjection := by
  unfold Obligations.FactoryAndInjection
  intro s rec v w hd
  refine ⟨fun hr hf hok => ?_, fun hr hf hok => ?_, fun hb hp hm => ?_, fun ho => ?_, fun ho hf => ?_, fun hf => ?_, fun hf ha hb hc hm => ?_, fun ha => ?_⟩
  · refine runs_of_exec_live hd ((exec_factoryAuth hr hf).trans (by rw [if_pos hok])) ⟨rfl, rfl⟩
  · refine runs_of_exec_live hd ((exec_factoryAuth hr hf).trans (by rw [if_neg (by rw [hok]; decide)])) ⟨rfl, rfl⟩
  · exact runs_of_live_ite hd rfl (by rw [hb, hp, hm]; decide) s.enterFactory_spec
  · simp only [List.forall_mem_cons, List.not_mem_nil, false_imp_iff, implies_true, and_true]
    refine ⟨?_, ?_⟩
    · show execPowerReq v .full s = _
      rw [execPowerReq, if_pos ho, s.writeMode_full, live_defined _ _ hd]
    · show execTwinAll v .full s = _
      rw [execTwinAll, if_pos ho, s.writeMode_full, live_defined _ _ hd]
  · exact runs_of_exec_live hd (exec_injectionArm ho hf) ⟨rfl, s.test.armed_spec v⟩
  · show execInjectionArm v w s = _
    rw [execInjectionArm, if_pos (by rw [hf]; simp), live_defined _ _ hd]
  · exact runs_of_exec_live hd (exec_injectionFire hf ha hb hc hm) ⟨rfl, ⟨_, rfl, rfl, s.injectedWire_unit _⟩, rfl⟩
  · show execInjectionFire s = _
    rw [execInjectionFire, live_defined _ _ hd]
    dsimp only
    rw [if_pos (by rw [ha]; simp)]

end Sys2Proof.Machine
end

section
/-!
PROOFS. The life ledger (R443 to R450): its ring, events, snapshots, durable copies and window.
-/
namespace Sys2Proof.Machine

/-! ### A record in the flash (R443) -/

theorem length_ledgerRecord (kind seq resets beat : Nat) (body : List Byte) : (ledgerRecord kind seq resets beat body).length = 32 + body.length := by
  simp [ledgerRecord]
  omega

/-- The head of a record: format, version and kind. -/
theorem ledgerRecord_head (kind seq resets beat : Nat) (body : List Byte) :
    ∃ tail, ledgerRecord kind seq resets beat body = [0x15, 1, BitVec.ofNat 8 kind] ++ tail := ⟨_, rfl⟩

/-- A byte that was programmed stands in the flash. -/
theorem cellAt_writeN_inside : ∀ (bs tail : List Byte) (cells : List Host.Cell) (a i : Nat) (hi : i < bs.length), bs[i] ≠ 0xFF →
    cellAt erasedByte (Flash.writeN cells a (bs ++ tail)) (a + i) = bs[i]
  | b :: bs, tail, cells, a, 0, _, hb =>
    (cellAt_writeN_outside (bs ++ tail) _ (a + 1) (.inl (Nat.lt_succ_self a))).trans (cellAt_put_listed hb _)
  | b :: bs, tail, cells, a, i + 1, hi, hb => by
    have h := cellAt_writeN_inside bs tail (cellPut erasedByte cells a b) (a + 1) i (Nat.lt_of_succ_lt_succ hi) hb
    rw [Nat.add_right_comm] at h
    exact h

section
variable (s : State)

/-- The next record of the ring. -/
def State.nextRecord (kind : Nat) (body : List Byte) : List Byte :=
  ledgerRecord kind (s.ledger.sequence.toNat + 1) s.ledger.resetCount.toNat (if s.rst.hostReady then s.beat.toNat else 0) body

theorem State.appendRecord_flash (kind : Nat) (body : List Byte) : (s.appendRecord kind body).flash.cells =
    Flash.writeN (eraseFor s.flash.cells (s.ledger.place (s.nextRecord kind body).length) (s.nextRecord kind body).length)
      (ringBase + s.ledger.place (s.nextRecord kind body).length) (s.nextRecord kind body) := by
  simp only [State.appendRecord, State.nextRecord]

/-- The cells of the flash after a record was written. -/
theorem State.appendRecord_cells (kind : Nat) (body : List Byte) : ∃ cells tail, (s.appendRecord kind body).flash.cells =
    Flash.writeN cells (ringBase + s.ledger.place (32 + body.length)) ([0x15, 1, BitVec.ofNat 8 kind] ++ tail) := by
  obtain ⟨tail, htail⟩ := ledgerRecord_head kind (s.ledger.sequence.toNat + 1) s.ledger.resetCount.toNat
    (if s.rst.hostReady then s.beat.toNat else 0) body
  have hrecord : s.nextRecord kind body = [0x15, 1, BitVec.ofNat 8 kind] ++ tail := htail
  have hlength : (s.nextRecord kind body).length = 32 + body.length := length_ledgerRecord _ _ _ _ _
  refine ⟨eraseFor s.flash.cells (s.ledger.place (32 + body.length)) (32 + body.length), tail, ?_⟩
  rw [State.appendRecord_flash, hlength, hrecord]

theorem State.appendRecord_head (kind : Nat) (body : List Byte) (hk : BitVec.ofNat 8 kind ≠ (0xFF : Byte)) :
    (s.appendRecord kind body).flash.readN (ringBase + s.ledger.place (32 + body.length)) 3 = [0x15, 1, BitVec.ofNat 8 kind] := by
  obtain ⟨cells, tail, hcells⟩ := s.appendRecord_cells kind body
  generalize ringBase + s.ledger.place (32 + body.length) = a at hcells ⊢
  have hat (i : Nat) (hi : i < 3) (hb : [0x15, 1, BitVec.ofNat 8 kind][i] ≠ (0xFF : Byte)) :=
    hcells ▸ cellAt_writeN_inside [0x15, 1, BitVec.ofNat 8 kind] tail cells a i hi hb
  show [cellAt erasedByte _ (a + 0), cellAt erasedByte _ (a + 1), cellAt erasedByte _ (a + 2)] = _
  rw [hat 0 (by decide) (show (0x15 : Byte) ≠ 0xFF by decide), hat 1 (by decide) (show (1 : Byte) ≠ 0xFF by decide), hat 2 (by decide) hk]
  rfl

/-! ### What writing leaves of the ledger -/

/-- What the ledger shows of its events, failure, requests and snapshots. -/
def LedgerUnit.standing (l : LedgerUnit) : List LedgerEvent × Bool × Nat × Bool × BitVec 32 := (l.events, l.failed, l.lostPending, l.flushAsked, l.flushes)

theorem State.writeDurable_standing : s.writeDurable.ledger.standing = s.ledger.standing := rfl

theorem State.keepDurable_standing : s.keepDurable.ledger.standing = s.ledger.standing := by
  unfold State.keepDurable
  split
  · exact keeps_ite (fun u : State => u.ledger.standing) s.writeDurable_standing rfl
  · rfl

theorem State.writeRecord_standing (kind : Nat) (body : List Byte) : (s.writeRecord kind body).ledger.standing = s.ledger.standing :=
  (rfl : (s.keepDurable.appendRecord kind body).ledger.standing = s.keepDurable.ledger.standing).trans s.keepDurable_standing

/-! ### Events (R445, R446) -/

/-- The body of an event's record. -/
def LedgerEvent.recordBody (e : LedgerEvent) : List Byte := leBytes 1 e.code ++ leBytes 3 0 ++ e.body

theorem LedgerEvent.length_recordBody (e : LedgerEvent) : 32 + e.recordBody.length = 36 + e.body.length := by
  simp [LedgerEvent.recordBody]
  omega

theorem State.tellLost_of_none (h : s.ledger.lostPending = 0) : s.tellLost = s := if_pos (by rw [h]; rfl)

theorem State.writeEvent_eq (e : LedgerEvent) (rest : List LedgerEvent) (hf : s.ledger.failed = false) (hl : s.ledger.lostPending = 0) :
    s.writeEvent e rest = { s.writeRecord 1 e.recordBody with ledger := { (s.writeRecord 1 e.recordBody).ledger with events := rest } } := by
  have hlost : (s.writeRecord 1 e.recordBody).ledger.lostPending = 0 :=
    (congrArg (·.2.2.1) (s.writeRecord_standing 1 e.recordBody) :).trans hl
  unfold State.writeEvent
  rw [if_neg (by rw [hf]; decide)]
  exact State.tellLost_of_none _ hlost

theorem State.writeEvent_spec (e : LedgerEvent) (rest : List LedgerEvent) (hf : s.ledger.failed = false) (hl : s.ledger.lostPending = 0) :
    (s.writeEvent e rest).ledger.events = rest ∧ (s.writeEvent e rest).mem = s.mem ∧ (s.writeEvent e rest).fuses = s.fuses ∧
      (s.writeEvent e rest).flash.readN (ringBase + s.keepDurable.ledger.place (36 + e.body.length)) 3 = [0x15, 1, 1] := by
  have hkept : (s.writeRecord 1 e.recordBody).besideUpkeep = s.besideUpkeep :=
    State.besideUpkeep_of_besideLedger (s.writeRecord_besideLedger 1 e.recordBody)
  rw [s.writeEvent_eq e rest hf hl]
  refine ⟨rfl, State.mem_of_besideUpkeep hkept, State.fuses_of_besideUpkeep hkept, ?_⟩
  rw [← e.length_recordBody]
  exact s.keepDurable.appendRecord_head 1 e.recordBody (by decide)

/-! ### A sector that takes no write (R445) -/

theorem LedgerUnit.skipSector_spec (l : LedgerUnit) : l.skipSector.writeErrors = satInc l.writeErrors ∧ l.skipSector.events = l.events ∧
    l.skipSector.badSectors.toNat = min 128 (l.badSectors.toNat + 1) :=
  ⟨rfl, rfl, (BitVec.toNat_ofNat _ _).trans (Nat.mod_eq_of_lt (by omega))⟩

/-! ### Snapshots and durable copies (R444, R448) -/

/-- The seconds that a snapshot at the end of its period counts (R447, R448). -/
def State.minuteCounted : State := if s.ledger.flushAsked then s else s.count 0x000 60

theorem State.minuteCounted_spec : s.minuteCounted.ledger.standing = s.ledger.standing ∧ s.minuteCounted.mem = s.mem := by
  unfold State.minuteCounted
  split <;> exact ⟨rfl, rfl⟩

theorem State.flushLedger_spec (h : s.ledger.failed = false) : s.flushLedger.ledger.flushAsked = false ∧ s.flushLedger.ledger.flushBusy = false ∧
    s.flushLedger.ledger.flushes = satInc s.ledger.flushes ∧ s.flushLedger.mem = s.mem ∧ s.flushLedger.ledger.events = s.ledger.events := by
  have hkept := s.writeRecord_standing 2 s.snapshotBody
  have hmem : (s.writeRecord 2 s.snapshotBody).mem = s.mem :=
    State.mem_of_besideUpkeep (State.besideUpkeep_of_besideLedger (s.writeRecord_besideLedger 2 s.snapshotBody))
  unfold State.flushLedger
  rw [if_neg (by rw [h]; decide)]
  generalize s.writeRecord 2 s.snapshotBody = u at hkept hmem
  have hflushes : u.ledger.flushes = s.ledger.flushes := (congrArg (·.2.2.2.2) hkept :)
  refine ⟨rfl, rfl, congrArg satInc hflushes, hmem, (congrArg (·.1) hkept :)⟩

theorem State.writeDurable_spec : s.writeDurable.ledger.durableAsked = false ∧ s.writeDurable.mem = s.mem ∧ s.writeDurable.memSys = s.memSys ∧
    s.writeDurable.flash.readN (ringBase + s.ledger.place (32 + s.durableBody.length)) 3 = [0x15, 1, 3] :=
  ⟨rfl, rfl, rfl, s.appendRecord_head 3 s.durableBody (by decide)⟩

/-! ### The window (R450) -/

/-- The offset register keeps bits 22 to 12. -/
theorem toNat_windowOffset (v : Word64) : ((v.truncate 23 : BitVec 23) &&& (0x7FF000 : BitVec 23)).toNat = v.toNat % 2 ^ 23 / 4096 * 4096 := by
  have hmask : ((v.truncate 23 : BitVec 23) &&& (0x7FF000 : BitVec 23)) = ((v.truncate 23 : BitVec 23) >>> 12) <<< 12 := by
    refine BitVec.eq_of_getLsbD_eq fun i hi => ?_
    have hbit : ∀ j : Fin 23, (0x7FF000 : BitVec 23).getLsbD j = decide (12 ≤ j.val) := by decide
    rw [BitVec.getLsbD_and, hbit ⟨i, hi⟩, BitVec.getLsbD_shiftLeft, BitVec.getLsbD_ushiftRight]
    by_cases h12 : 12 ≤ i
    · simp [h12, hi]
    · simp [h12]
  rw [hmask, BitVec.toNat_shiftLeft, BitVec.toNat_ushiftRight, BitVec.truncate, BitVec.toNat_setWidth, Nat.shiftLeft_eq, Nat.shiftRight_eq_div_pow]
  omega

theorem exec_windowOffset {s : State} {v : Word64} (ho : s.hostOpen = true) : exec (.windowOffset v .full) s = live s { s with
    ledger := { s.ledger with windowOffset := v.truncate 23 &&& 0x7FF000, windowReady := false, window := [] } } := by
  show execWindowOffset v .full s = _
  unfold execWindowOffset
  rw [if_neg (by rw [ho]; decide), accessWrite_full]

end

/-- Settles O59: a record's head stands at the ring's place once its event or copy is written; a sector that takes no write is skipped and
counted; a snapshot serves the request; the window holds the 4 KiB at its offset. -/
theorem ledgerWritesRecords : Obligations.LedgerWritesRecords := by
  unfold Obligations.LedgerWritesRecords
  intro s e rest v hd l skipped
  have skips {i : Instr} (hi : exec i s = live s { s with ledger := s.ledger.skipSector }) : Runs i s skipped := by
    obtain ⟨herrors, hevents, hbad⟩ := s.ledger.skipSector_spec
    exact runs_of_exec_live hd hi ⟨herrors, hevents, hbad, rfl⟩
  have up (hr : 2 ≤ s.rst.released) : ¬ (!s.ledgerUp) = true := by simp [State.ledgerUp, hr]
  have copies (hr : 2 ≤ s.rst.released) (ha : s.ledger.durableAsked = true) (hf : s.ledger.failed = false) :
      ¬ (!s.ledgerUp || !s.ledger.durableAsked || s.ledger.failed) = true := by simp [State.ledgerUp, hr, ha, hf]
  refine ⟨fun hr he hf hl => ?_, fun hr he hf => skips ?_, fun he => ?_, fun hr hf => ?_, fun hr hf => skips ?_, fun ho hf => ?_,
    fun hr ha hf => ⟨?_, skips ?_⟩, fun ha => ?_, fun ho => ?_, fun ho hw => ?_⟩
  · refine runs_of_exec_live hd (t := s.writeEvent e rest) ?_ ?_
    · show execLedgerEventWrite true s = _
      rw [execLedgerEventWrite, show s.ledger.events = e :: rest from he]
      dsimp only
      rw [if_neg (up hr), if_pos (by rfl)]
    · obtain ⟨hevents, hmem, hfuses, hhead⟩ := s.writeEvent_spec e rest hf hl
      exact ⟨hevents, hmem, hfuses, fun _ => hhead⟩
  · show execLedgerEventWrite false s = _
    rw [execLedgerEventWrite, show s.ledger.events = e :: rest from he]
    dsimp only
    rw [if_neg (up hr), if_neg (by rw [show s.ledger.failed = false from hf]; decide)]
  · show execLedgerEventWrite true s = _
    rw [execLedgerEventWrite, show s.ledger.events = [] from he, live_defined _ _ hd]
  · obtain ⟨hkept, hmem'⟩ := s.minuteCounted_spec
    obtain ⟨hasked, hbusy, hflushes, hmem, hevents⟩ := s.minuteCounted.flushLedger_spec ((congrArg (·.2.1) hkept :).trans hf)
    refine runs_of_exec_live hd (t := s.minuteCounted.flushLedger) ?_ ⟨hasked, hbusy, hflushes.trans (congrArg (fun x => satInc x.2.2.2.2) hkept :), hmem.trans hmem',
      hevents.trans (congrArg (·.1) hkept :)⟩
    show execLedgerSnapshot true s = _
    rw [execLedgerSnapshot, if_neg (up hr), if_neg (by simp)]
    rfl
  · show execLedgerSnapshot false s = _
    rw [execLedgerSnapshot, if_neg (up hr), if_pos (by rw [show s.ledger.failed = false from hf]; rfl)]
  · show execFlushNow .full s = _
    rw [execFlushNow, if_neg (by rw [ho, show s.ledger.failed = false from hf]; decide), live_defined _ _ hd]
  · obtain ⟨hasked, hmem, hstacks, hhead⟩ := s.writeDurable_spec
    refine runs_of_exec_live hd (t := s.writeDurable) ?_ ⟨hasked, hmem, hstacks, fun _ => hhead⟩
    exact congrArg (live s) ((if_neg (copies hr ha hf)).trans (if_pos rfl))
  · exact congrArg (live s) ((if_neg (copies hr ha hf)).trans (if_neg Bool.false_ne_true))
  · show execDurableCopy true s = _
    rw [execDurableCopy, if_pos (by rw [show s.ledger.durableAsked = false from ha]; simp), live_defined _ _ hd]
  · refine runs_of_exec_live hd (exec_windowOffset ho) ⟨toNat_windowOffset v, rfl, rfl⟩
  · refine runs_of_live_unless hd rfl (by rw [ho, show s.ledger.windowReady = false from hw]; decide) ⟨rfl, ?_, rfl⟩
    rw [show (0x2000000 : Nat) = ringBase from rfl]

end Sys2Proof.Machine
end

section
/-!
PROOFS. Observation selections (R451, R452), the test access port (R424, R453, R454) and the sideband (R463, R466).
-/
namespace Sys2Proof.Machine

section
variable {s : State}

/-! ### Selections (R451, R452) -/

theorem selected_full (old : BitVec 16) (v : Word64) : selected .full old v = v.truncate 16 := congrArg _ (accessWrite_full _ _)

theorem selected_code (old : BitVec 16) (v : Word64) : (selected .full old v).toNat % 256 = v.toNat % 256 := by
  rw [selected_full, BitVec.truncate, BitVec.toNat_setWidth]
  omega

/-- The digital selections that the device's state permits (R435, R451). -/
theorem State.permits_obsClass (code : Nat) : s.permits (obsClass code) = true ↔ code < 4 ∨
    (0x10 ≤ code ∧ code < 0x16 ∧ s.mode.sealedTrust = false) ∨
    (0x20 ≤ code ∧ code < 0x22 ∧ s.mode.sealedTrust = false ∧ s.mode.factory = true) := by
  unfold obsClass
  split
  · simp [State.permits, *]
  · split
    next h => 
      simp only [inRange, Bool.and_eq_true, decide_eq_true_eq] at h
      simp only [State.permits, Bool.not_eq_true']
      constructor
      · exact fun ht => .inr (.inl ⟨h.1, by omega, ht⟩)
      · rintro (h' | ⟨-, -, ht⟩ | ⟨h', -⟩)
        · omega
        · exact ht
        · omega
    next h =>
      simp only [inRange, Bool.and_eq_true, decide_eq_true_eq] at h
      split
      next h' =>
        simp only [inRange, Bool.and_eq_true, decide_eq_true_eq] at h'
        simp only [State.permits, Bool.and_eq_true, Bool.not_eq_true']
        constructor
        · exact fun ⟨hf, ht⟩ => .inr (.inr ⟨h'.1, by omega, ht, hf⟩)
        · rintro (h | ⟨-, h, -⟩ | ⟨-, -, ht, hf⟩)
          · omega
          · omega
          · exact ⟨hf, ht⟩
      next h' =>
        simp only [inRange, Bool.and_eq_true, decide_eq_true_eq] at h'
        simp only [State.permits, Bool.false_eq_true, false_iff]
        rintro (h | ⟨_, _, -⟩ | ⟨_, _, -⟩) <;> omega

/-- The analog selections that the device's state permits. -/
theorem State.permits_anaClass (code : Nat) : s.permits (anaClass code) = true ↔ code = 0 ∨ (code < 4 ∧ s.mode.sealedTrust = false) := by
  unfold anaClass
  split
  · simp [State.permits, *]
  next h0 =>
    split
    · simp [State.permits, *]
    · simp [State.permits, *]

theorem exec_obsSel (pin : Fin 4) {v : Word64} (ho : s.hostOpen = true) : exec (.obsSel pin v .full) s = live s
    (if s.permits (obsClass (v.toNat % 256)) then { s with test := { s.test with obsSel := s.test.obsSel.put pin (v.truncate 16) } }
      else s.refuseSelection) := by
  show execObsSel pin v .full s = _
  unfold execObsSel
  rw [if_neg (by rw [ho]; decide)]
  dsimp only
  rw [selected_code, selected_full]

theorem exec_anaSel {v : Word64} (ho : s.hostOpen = true) : exec (.anaSel v .full) s = live s
    (if s.permits (anaClass (v.toNat % 256)) then { s with test := { s.test with anaSel := v.truncate 16 } } else s.refuseSelection) := by
  show execAnaSel v .full s = _
  unfold execAnaSel
  rw [if_neg (by rw [ho]; decide)]
  dsimp only
  rw [selected_code, selected_full]

/-! ### The test access port (R453) -/

theorem State.tap_spec (s : State) (c : Byte) : (s.tap c).test = { s.test with tapInstr := c } ∧
    s.tap c = { s with pins := (s.tap c).pins, test := (s.tap c).test } := ⟨rfl, rfl⟩

theorem State.refuseJtag_spec (s : State) : s.refuseJtag.test = { s.test with tapInstr := 0xFF, jtagRefused := satInc s.test.jtagRefused } ∧
    s.refuseJtag = { s with pins := s.refuseJtag.pins, test := s.refuseJtag.test } := ⟨rfl, rfl⟩

theorem State.boundaryOpen_iff (s : State) : s.boundaryOpen = true ↔ s.pins.active.getLsbD 0 = true ∨ s.rst.halted = true ∨ s.rst.tripped = true := by
  simp only [State.boundaryOpen, Bool.or_eq_true, or_assoc]

theorem State.captureBalls_tdo (s : State) (n : Nat) : (s.captureBalls n).test.tdo.length = n := by
  simp [State.captureBalls]

/-- DEBUG_RESET where it is refused. -/
theorem exec_debugReset_refused (hd : s.defined) (ht : s.mode.sealedTrust = true) (hf : s.mode.factory = false) :
    exec (.debugReset true) s = .next { s.tap 0x11 with test := { (s.tap 0x11).test with jtagRefused := satInc s.test.jtagRefused } } := by
  have hd' : s.rst.scanDumped = false := hd
  have hrefused : ¬ (!(s.tap 0x11).mode.sealedTrust || (s.tap 0x11).mode.factory) = true := by
    show ¬ (!s.mode.sealedTrust || s.mode.factory) = true
    rw [ht, hf]
    decide
  show execDebugReset true s = _
  unfold execDebugReset
  rw [if_neg (by rw [hd']; decide)]
  exact congrArg Host.Outcome.next ((if_neg (by decide)).trans (if_neg hrefused))

theorem exec_debugReset_false (hd : s.defined) : exec (.debugReset false) s = .next (s.tap 0x11) := by
  have hd' : s.rst.scanDumped = false := hd
  show execDebugReset false s = _
  unfold execDebugReset
  rw [if_neg (by rw [hd']; decide)]
  exact congrArg Host.Outcome.next (if_pos (by decide))

theorem exec_debugReset_true (hd : s.defined) (h : s.mode.sealedTrust = false ∨ s.mode.factory = true) (ht : s.rst.tripped = false) :
    exec (.debugReset true) s = .next (((s.tap 0x11).writeNow 0x0C (stopBody 2 5 0)).resetDevice 5) := by
  have hd' : s.rst.scanDumped = false := hd
  have hopen : (!(s.tap 0x11).mode.sealedTrust || (s.tap 0x11).mode.factory) = true := by
    show (!s.mode.sealedTrust || s.mode.factory) = true
    rcases h with h | h <;> simp [h]
  have ht' : ((s.tap 0x11).writeNow 0x0C (stopBody 2 5 0)).rst.tripped = false :=
    (congrArg ResetUnit.tripped (State.writeNow_rst _ _ _)).trans ht
  rw [← State.resetSource_of_untripped _ ht']
  show execDebugReset true s = _
  unfold execDebugReset
  rw [if_neg (by rw [hd']; decide)]
  exact congrArg Host.Outcome.next ((if_neg (by decide)).trans (if_pos hopen))

/-- A bit of the pins' levels but RESET_N's is the same after a reset. -/
theorem AsReset.active_bit {t : State} {cause : BitVec 4} (h : AsReset s t cause) {i : Nat} (hi : i ≠ 0) :
    s.pins.active.getLsbD i = t.pins.active.getLsbD i := by
  have hbit := congrArg (fun x : BitVec 6 => x.getLsbD (i - 1)) h.active
  simp only [BitVec.getLsbD_extractLsb', show 1 + (i - 1) = i by omega] at hbit
  by_cases h6 : i - 1 < 6
  · simpa [h6] using hbit.symm
  · rw [BitVec.getLsbD_of_ge _ _ (by omega), BitVec.getLsbD_of_ge _ _ (by omega)]

/-- A reset through the TAP is one of the state with the pins it leaves. -/
theorem State.asReset_of_tap (s : State) (c : Byte) (k : Nat) (b : List Byte) (cause : BitVec 4) :
    AsReset { s with pins := (((s.tap c).writeNow k b).resetDevice cause).pins } (((s.tap c).writeNow k b).resetDevice cause) cause :=
  have h := (s.tap c).asReset_of_writeNow k b cause
  h.of_same rfl rfl fun _ hi => h.active_bit hi

/-! ### The sideband (R466) -/

theorem State.sideband_of_released (h : 0 < s.rst.released) (x : Nat) :
    s.sideband x = { s with pins := { s.pins with sbAnswer := BitVec.ofNat 16 x } } := if_neg (by omega)

theorem State.statusByte_bits (s : State) : 
    (BitVec.ofNat 16 s.statusByte).getLsbD 0 = s.rst.hostReady ∧ (BitVec.ofNat 16 s.statusByte).getLsbD 1 = s.rst.halted ∧
    (BitVec.ofNat 16 s.statusByte).getLsbD 2 = s.rst.tripped ∧ (BitVec.ofNat 16 s.statusByte).getLsbD 3 = (!s.faults.faultN) ∧
    (BitVec.ofNat 16 s.statusByte).getLsbD 4 = s.mode.capped ∧ (BitVec.ofNat 16 s.statusByte).getLsbD 5 = s.mode.sealedTrust := by
  unfold State.statusByte
  generalize s.rst.hostReady = a, s.rst.halted = b, s.rst.tripped = c, s.faults.faultN = d, s.mode.capped = e, s.mode.sealedTrust = f
  revert a b c d e f
  decide

end

/-- Settles O60: selections obey their class; the TAP's instructions answer or act as BYPASS; DEBUG_RESET resets where it may; SCAN_DUMP
needs its state; the sideband answers its registers. -/
theorem observationTestAndSideband : Obligations.ObservationTestAndSideband := by
  unfold Obligations.ObservationTestAndSideband
  intro s pin v bits b hd code digital analog open_ refused tapOnly bypassed answers
  have acts {i : Instr} {t : State} {g : Bool} {P : State → Prop} (hi : exec i s = live s (if g then t else s.refuseJtag)) (hg : g = true)
      (ht : P t) : Runs i s P := runs_of_exec_live hd (hi.trans (by rw [if_pos hg])) ht
  have taps {i : Instr} {c : Byte} {g : Bool} (hi : exec i s = live s (if g then s.tap c else s.refuseJtag)) (hg : g = true) : tapOnly i c :=
    acts hi hg (s.tap_spec c)
  have refuses {i : Instr} {t : State} {g : Bool} (hi : exec i s = live s (if g then t else s.refuseJtag)) (hg : ¬ g = true) : bypassed i :=
    runs_of_exec_live hd (hi.trans (by rw [if_neg hg])) s.refuseJtag_spec
  have shows {i : Instr} {x : Nat} (hi : exec i s = live s (s.sideband x)) : answers i (BitVec.ofNat 16 x) := fun h => by
    rw [hi, live_defined _ _ hd, State.sideband_of_released h]
  refine ⟨fun ho hdig => ?_, fun ho hdig => ?_, fun ho hana => ?_, fun ho hana => ?_, fun hopen => ⟨?_, ?_, ?_⟩, fun hopen => ⟨?_, ?_, ?_⟩, ?_, ?_, ?_, ?_,
    fun h ht => ?_, fun ht hf => ?_, fun hf ht hh => ?_, fun h => ?_, shows rfl, shows rfl, shows rfl, shows rfl, fun h => ?_, fun h => ?_, ?_⟩
  · refine runs_of_exec_live hd ((exec_obsSel pin ho).trans (by rw [if_pos (State.permits_obsClass _ |>.mpr hdig)])) ⟨?_, rfl⟩
    exact Table.at_put_same _ _ _ _
  · rw [exec_obsSel pin ho, if_neg (mt (State.permits_obsClass _).mp hdig), live_defined _ _ hd]
    rfl
  · rw [exec_anaSel ho, if_pos ((State.permits_anaClass _).mpr hana), live_defined _ _ hd]
  · rw [exec_anaSel ho, if_neg (mt (State.permits_anaClass _).mp hana), live_defined _ _ hd]
    rfl
  · exact taps rfl (s.boundaryOpen_iff.mpr hopen)
  · exact taps rfl (s.boundaryOpen_iff.mpr hopen)
  · exact acts (t := (s.tap 0x00).captureBalls s.test.boundary.length) rfl (s.boundaryOpen_iff.mpr hopen) ⟨rfl, State.captureBalls_tdo _ _, rfl⟩
  · exact refuses rfl (mt s.boundaryOpen_iff.mp hopen)
  · exact refuses rfl (mt s.boundaryOpen_iff.mp hopen)
  · exact refuses rfl (mt s.boundaryOpen_iff.mp hopen)
  · exact runs_of_exec_live hd rfl ⟨rfl, rfl, State.captureBalls_tdo _ _, rfl⟩
  · exact runs_of_exec_live hd rfl ⟨rfl, rfl, rfl⟩
  · exact runs_of_exec_live hd rfl ⟨rfl, rfl⟩
  · exact ⟨_, exec_debugReset_false hd, s.tap_spec 0x11⟩
  · exact ⟨_, exec_debugReset_true hd h ht, s.asReset_of_tap _ _ _ 5⟩
  · exact ⟨_, exec_debugReset_refused hd ht hf, rfl, rfl⟩
  · exact acts (g := s.mode.factory && !s.mode.sealedTrust && s.rst.halted) rfl (by rw [hf, ht, hh]; decide) rfl
  · refine refuses (g := s.mode.factory && !s.mode.sealedTrust && s.rst.halted) rfl ?_
    rcases h with h | h | h <;> simp [h]
  · refine runs_of_exec_live hd (t := s.sideband s.statusByte) rfl ?_
    rw [State.sideband_of_released h]
    exact ⟨rfl, rfl, s.statusByte_bits⟩
  · show execAlert s = _
    rw [execAlert, if_neg (by omega), State.sideband_of_released h, live_defined _ _ hd]
  · show execSmbusTimeout s = _
    rw [execSmbusTimeout, live_defined _ _ hd]

end Sys2Proof.Machine
end

section
/-!
PROOFS. The coolant alarm's hold on the clock (R421): each operation of the model keeps cause 5 at or below 400 MHz while the pin is
active. An operation that writes neither the pins nor the power unit keeps it at once (`State.CoolHeld.beside`); the lemmas below say so of
those that choose between states or run through lists, and of the few that move the pin or a cause.
-/
namespace Sys2Proof.Machine

section
variable {s t : State}

/-! ### What cause 5 permits (R416) -/

theorem le_foldl_max {l : List Nat} {x : Nat} (hx : x ∈ l) (a : Nat) : x ≤ l.foldl max a := by
  have hmono : ∀ (l : List Nat) (a : Nat), a ≤ l.foldl max a := fun l => by
    induction l with
    | nil => exact fun a => le_rfl
    | cons y l ih => exact fun a => (le_max_left a y).trans (ih _)
  induction l generalizing a with
  | nil => cases hx
  | cons y l ih =>
    rcases List.mem_cons.mp hx with rfl | hx
    · exact (le_max_right a x).trans (hmono l _)
    · exact ih hx _

/-- The own step is at least what each of the first eight causes permits. -/
theorem PowerUnit.permit_le_ownStep (p : PowerUnit) {c : Nat} (hc : c < 8) : p.permit c ≤ p.ownStep :=
  le_foldl_max (List.mem_map_of_mem (List.mem_range.mpr hc)) 0

theorem PowerUnit.permit_five (p : PowerUnit) : p.permit 5 = p.permits.at 5 0 := if_neg (by decide)

/-- Cause 5 alone decides whether the alarm is held. -/
theorem State.coolHeld_iff : s.CoolHeld ↔ (s.pins.active.getLsbD 3 = true → 4 ≤ s.power.permits.at 5 0) := by
  rw [← PowerUnit.permit_five]
  exact ⟨fun h ha => (h ha).1, fun h ha => ⟨h ha, (h ha).trans (s.power.permit_le_ownStep (by decide))⟩⟩

theorem State.coolHeld_of_inactive (h : s.pins.active.getLsbD 3 = false) : s.CoolHeld :=
  State.coolHeld_iff.mpr fun ha => absurd (ha.symm.trans h) (by decide)

/-- The alarm is held where neither its pin nor the causes have changed. -/
theorem State.CoolHeld.of_same (h : s.CoolHeld) (hp : t.power.permits = s.power.permits) (ha : t.pins.active = s.pins.active) : t.CoolHeld := by
  rw [State.coolHeld_iff] at h ⊢
  rwa [hp, ha]

/-- What records, the jobs' reactions to them, events and the ledger write leaves the alarm held. -/
theorem State.CoolHeld.of_besideUpkeep (h : s.CoolHeld) (hkept : t.besideUpkeep = s.besideUpkeep) : t.CoolHeld :=
  h.of_same (congrArg (fun u : State => u.power.permits) hkept :) (State.active_of_besideUpkeep hkept)

/-- An engine's work leaves the alarm held. -/
theorem State.CoolHeld.of_besideEngines (h : s.CoolHeld) (hkept : t.besideEngines = s.besideEngines) : t.CoolHeld :=
  h.of_same (congrArg (fun u : State => u.power.permits) hkept :) (congrArg (fun u : State => u.pins.active) hkept :)

/-- An engine's work, which occupies engines at most, leaves the alarm held. -/
theorem State.CoolHeld.of_occupied (h : s.CoolHeld) (hview : s.issueView.Occupied t.issueView) : t.CoolHeld :=
  h.of_besideEngines hview.rest

/-- A state written field by field, but for the power unit and the pins. -/
theorem State.CoolHeld.beside {pe : List Instr} {b : BeatNo} {c : BitVec 16} {f : Nat} {m : Memory} {g : Table Group} {u : Table GroupUnits}
    {cl : Table Cluster} {r : Table Ring} {w : WorkUnit} {ho : HostUnit} {fa : FaultUnit} {ms : MemorySystem} {fu : Fuses} {rs : ResetUnit}
    {mo : ModeUnit} {li : LinkUnit} {se : SecurityUnit} {cf : ConfigUnit} {fl : Flash} {le : LedgerUnit} {te : TestUnit} (h : s.CoolHeld) :
    State.CoolHeld ⟨pe, b, c, f, m, g, u, cl, r, w, ho, fa, ms, fu, s.power, rs, mo, s.pins, li, se, cf, fl, le, te⟩ :=
  h

/-- A state written field by field, with cause 5 and the alarm's pin as they were. -/
theorem State.CoolHeld.besideCause {pe : List Instr} {b : BeatNo} {c : BitVec 16} {f : Nat} {m : Memory} {g : Table Group} {u : Table GroupUnits}
    {cl : Table Cluster} {r : Table Ring} {w : WorkUnit} {ho : HostUnit} {fa : FaultUnit} {ms : MemorySystem} {fu : Fuses} {po : PowerUnit}
    {rs : ResetUnit} {mo : ModeUnit} {pi : PinUnit} {li : LinkUnit} {se : SecurityUnit} {cf : ConfigUnit} {fl : Flash} {le : LedgerUnit}
    {te : TestUnit} (h : s.CoolHeld) (hp : po.permits.at 5 0 = s.power.permits.at 5 0) (ha : pi.active.getLsbD 3 = s.pins.active.getLsbD 3) :
    State.CoolHeld ⟨pe, b, c, f, m, g, u, cl, r, w, ho, fa, ms, fu, po, rs, mo, pi, li, se, cf, fl, le, te⟩ := by
  rw [State.coolHeld_iff] at h ⊢
  rwa [hp, ha]

theorem cool_ite {c : Prop} [Decidable c] (hs : s.CoolHeld) (ht : t.CoolHeld) : State.CoolHeld (if c then s else t) := by
  split <;> assumption

theorem cool_ite_snd {α : Type} {c : Prop} [Decidable c] {a b : α × State} (ha : a.2.CoolHeld) (hb : b.2.CoolHeld) :
    State.CoolHeld (if c then a else b).2 := by
  split <;> assumption

theorem State.CoolHeld.when {c : Prop} [Decidable c] (h : s.CoolHeld) (ht : s.CoolHeld → t.CoolHeld) : State.CoolHeld (if c then t else s) :=
  cool_ite (ht h) h
theorem State.CoolHeld.unless {c : Prop} [Decidable c] (h : s.CoolHeld) (ht : s.CoolHeld → t.CoolHeld) : State.CoolHeld (if c then s else t) :=
  cool_ite h (ht h)

theorem cool_foldl {α : Type} {f : State → α → State} {l : List α} (h : s.CoolHeld) (hf : ∀ s x, s.CoolHeld → (f s x).CoolHeld) :
    (l.foldl f s).CoolHeld :=
  List.foldlRecOn l f h fun s h x _ => hf s x h

theorem cool_forAll {f : State → Nat → State} {l : List Nat} (h : s.CoolHeld) (hf : ∀ s x, s.CoolHeld → (f s x).CoolHeld) :
    (s.forAll l f).CoolHeld :=
  cool_foldl h hf

theorem cool_of_snd {α : Type} {p : α × State} {a : α} (e : p = (a, t)) (h : p.2.CoolHeld) : t.CoolHeld := by
  rw [e] at h
  exact h

/-- The next state an answer gives, if it gives one, holds the alarm. -/
def CoolOut (o : Out) : Prop := ∀ t, o = .next t → t.CoolHeld

theorem coolOut_next (h : t.CoolHeld) : CoolOut (.next t) := by
  rintro u ⟨⟩
  exact h

theorem coolOut_ite {c : Prop} [Decidable c] {a b : Out} (ha : CoolOut a) (hb : CoolOut b) : CoolOut (if c then a else b) := by
  split <;> assumption

theorem coolOut_live (h : t.CoolHeld) : CoolOut (live s t) :=
  coolOut_ite (fun _ h => nomatch h) (coolOut_next h)

/-! ### Causes and pins (R415, R416, R421, R463) -/

/-- Deciding on a step moves no cause and no pin. -/
theorem State.CoolHeld.announce {code} (h : s.CoolHeld) : (s.announce code).CoolHeld := by
  unfold State.announce
  extract_lets
  split
  · exact h.besideCause rfl rfl
  · exact cool_ite (h.besideCause rfl rfl) (h.besideCause rfl rfl)

theorem State.CoolHeld.dropStepUp (h : s.CoolHeld) : s.dropStepUp.CoolHeld :=
  h.unless (·.besideCause rfl rfl)
theorem State.CoolHeld.decideStep {code} (h : s.CoolHeld) : (s.decideStep code).CoolHeld :=
  cool_ite h.dropStepUp.announce (cool_ite h.dropStepUp (h.unless (·.besideCause rfl rfl)))
theorem State.CoolHeld.applyCauses (h : s.CoolHeld) : s.applyCauses.CoolHeld :=
  cool_ite (h.unless (·.besideCause rfl rfl)) h.decideStep

/-- Another cause leaves cause 5 as it is. -/
theorem State.CoolHeld.setPermit {cause code} (h : s.CoolHeld) (hc : 5 ≠ cause) : (s.setPermit cause code).CoolHeld :=
  h.unless fun h => (h.besideCause (Table.at_put_other _ _ _ _ _ hc) rfl).applyCauses

/-- Cause 5 at 400 MHz or below holds the alarm, whatever the pin is at. -/
theorem State.coolHeld_setPermit {code : Nat} (h : 4 ≤ code) : (s.setPermit 5 code).CoolHeld :=
  State.coolHeld_iff.mpr fun _ => h.trans_eq (s.permit_setPermit (c := 5) (by decide) code).symm

/-- Another pin leaves the alarm's as it is. -/
theorem State.CoolHeld.setPin {i : Nat} {active : Bool} (h : s.CoolHeld) (hi : 3 ≠ i) : (s.setPin i active).CoolHeld := by
  exact h.besideCause rfl (s.setPin_other i active hi.symm)

/-- An active pin raises cause 5, and one that is not asks nothing of it (R421). -/
theorem State.CoolHeld.coolAlarm {active : Bool} (h : s.CoolHeld) : (s.coolAlarm active).CoolHeld := by
  by_cases hpin : s.pins.active.getLsbD 3 = active
  · rwa [s.coolAlarm_of_same hpin]
  cases active with
  | true =>
    rw [s.coolAlarm_of_rising (by simpa using hpin)]
    exact State.coolHeld_setPermit le_rfl
  | false =>
    rw [s.coolAlarm_of_falling (by simpa using hpin)]
    refine State.coolHeld_of_inactive ?_
    rw [State.setPermit_pins]
    exact s.setPin_same false (by decide)

/-- After a reset an alarm that is still active goes on holding cause 5 (R421). -/
theorem State.coolHeld_resetDevice (cause : BitVec 4) : (s.resetDevice cause).CoolHeld := by
  unfold State.resetDevice
  extract_lets
  split
  · exact State.coolHeld_setPermit le_rfl
  · next h => exact State.coolHeld_of_inactive (by simpa using h)

/-! ### Units, free values, events, completions and receipts -/

theorem State.CoolHeld.reach {c} (h : s.CoolHeld) : (s.reach c).CoolHeld :=
  h.when (·.beside)
theorem State.CoolHeld.reachAbs {t} (h : s.CoolHeld) : (s.reachAbs t).CoolHeld :=
  h.when (·.reach)
theorem State.CoolHeld.modJob {id f} (h : s.CoolHeld) : (s.modJob id f).CoolHeld :=
  h.of_besideUpkeep (s.modJob_besideUpkeep id f)
theorem State.CoolHeld.event {code body} (h : s.CoolHeld) : (s.event code body).CoolHeld :=
  cool_ite h.beside h.beside
theorem State.CoolHeld.backlog {fn b} (h : s.CoolHeld) : (s.backlog fn b).CoolHeld :=
  h.beside.when (·.beside)
theorem State.CoolHeld.complete {fn ty status tag body receipt job} (h : s.CoolHeld) :
    (s.complete fn ty status tag body receipt job).CoolHeld :=
  cool_ite h.beside h.backlog
theorem State.CoolHeld.receiptItem {fn kind content job} (h : s.CoolHeld) : (s.receiptItem fn kind content job).CoolHeld :=
  cool_ite h.beside (h.beside.when (·.beside))

theorem State.CoolHeld.eraseShare (h : s.CoolHeld) : s.eraseShare.CoolHeld := by
  rw [State.eraseShare_eq]
  exact h.beside

theorem State.CoolHeld.portState {n st} (h : s.CoolHeld) : (s.portState n st).CoolHeld :=
  h.unless (·.beside)

/-! ### Faults and their reactions (R285 to R300) -/

theorem State.CoolHeld.modCollector {i f} (h : s.CoolHeld) : (s.modCollector i f).CoolHeld := by
  unfold State.modCollector
  split
  · exact h.beside
  · exact h.beside

theorem State.CoolHeld.meetRestarting {id} (h : s.CoolHeld) : (s.meetRestarting id).CoolHeld :=
  h.of_besideUpkeep (s.meetRestarting_besideUpkeep id)
theorem State.CoolHeld.beginEpisodes {ids} (h : s.CoolHeld) : (s.beginEpisodes ids).CoolHeld :=
  cool_forAll h fun _ _ h => h.beside

theorem State.CoolHeld.collect {w} (h : s.CoolHeld) : (s.collect w).CoolHeld := by
  unfold State.collect
  extract_lets
  split
  · exact h
  · exact cool_ite h.modCollector (cool_ite (h.modCollector.when (·.meetRestarting)) h.modCollector.beside.beginEpisodes)

theorem State.CoolHeld.appendLog {w} (h : s.CoolHeld) : (s.appendLog w).CoolHeld :=
  h.of_besideUpkeep (State.besideUpkeep_of_besideRecord (s.appendLog_besideRecord w))
theorem State.CoolHeld.drainOne {i} (h : s.CoolHeld) : (s.drainOne i).CoolHeld :=
  h.when (·.modCollector.appendLog)
theorem State.CoolHeld.drain (h : s.CoolHeld) : s.drain.CoolHeld :=
  cool_forAll (cool_forAll h fun _ _ h => h.drainOne) fun _ _ h => h.drainOne
theorem State.CoolHeld.managementRecord {kind op job addr} (h : s.CoolHeld) : State.CoolHeld (s.managementRecord kind op job addr).2 :=
  h.of_besideUpkeep (s.managementRecord_besideUpkeep kind op job addr)
theorem State.CoolHeld.dueRetirement {p} (h : s.CoolHeld) : (s.dueRetirement p).CoolHeld :=
  h.of_besideUpkeep (s.dueRetirement_besideUpkeep p)
theorem State.CoolHeld.askIdle {groups} (h : s.CoolHeld) : (s.askIdle groups).CoolHeld :=
  h.of_besideUpkeep (s.askIdle_besideUpkeep groups)
theorem State.CoolHeld.fenceRestart {id kind point} (h : s.CoolHeld) : (s.fenceRestart id kind point).CoolHeld :=
  h.of_besideUpkeep (s.fenceRestart_besideUpkeep id kind point)
theorem State.CoolHeld.fenceTerminate {id kind} (h : s.CoolHeld) : (s.fenceTerminate id kind).CoolHeld :=
  h.of_besideUpkeep (s.fenceTerminate_besideUpkeep id kind)
theorem State.CoolHeld.deviceRecord {w} (h : s.CoolHeld) : (s.deviceRecord w).CoolHeld :=
  h.of_besideUpkeep (s.deviceRecord_besideUpkeep w)
theorem State.CoolHeld.deliverNotice {content fns} (h : s.CoolHeld) : (s.deliverNotice content fns).CoolHeld :=
  (cool_forAll h fun _ _ h => h.receiptItem).unless (·.beside)
theorem State.CoolHeld.issueNotice {body fns} (h : s.CoolHeld) : (s.issueNotice body fns).CoolHeld :=
  cool_ite h.beside.deliverNotice h.beside
theorem State.CoolHeld.recall {kind fam visit groups first last trigger confirmed} (h : s.CoolHeld) :
    (s.recall kind fam visit groups first last trigger confirmed).CoolHeld :=
  (cool_forAll h.beside fun _ _ h => h.when (·.beside)).beside.event.issueNotice
theorem State.CoolHeld.divergeRestart {id kind groups} (h : s.CoolHeld) : (s.divergeRestart id kind groups).CoolHeld :=
  h.modJob.beside.fenceRestart

/-! ### The arithmetic clock (R411, R415, R416) -/

theorem State.CoolHeld.fire {fn src} (h : s.CoolHeld) : (s.fire fn src).CoolHeld :=
  h.beside

theorem State.CoolHeld.setCapped {capped} (h : s.CoolHeld) : (s.setCapped capped).CoolHeld := by
  unfold State.setCapped
  extract_lets _ _ _ moved
  have hmoved : moved.CoolHeld := h.besideCause rfl rfl
  exact h.unless fun _ => (hmoved.event.unless (·.setPermit (by decide))).unless (·.fire)

/-! ### The host's entries, locks and writes (R312 to R319) -/

theorem State.CoolHeld.completeControl {e status num job out} (h : s.CoolHeld) : (s.completeControl e status num job out).CoolHeld :=
  h.complete

theorem State.CoolHeld.onControl {sub f} (h : s.CoolHeld) (hf : ∀ s e, s.CoolHeld → State.CoolHeld (f s e)) : (s.onControl sub f).CoolHeld := by
  unfold State.onControl
  split
  · exact hf _ _ h.beside
  · exact h

theorem State.CoolHeld.refuseEntry {e st} (h : s.CoolHeld) : (s.refuseEntry e st).CoolHeld :=
  h.complete
theorem State.CoolHeld.makeVisible {e} (h : s.CoolHeld) : (s.makeVisible e).CoolHeld :=
  cool_ite h.refuseEntry (cool_ite h.refuseEntry h.beside)

theorem State.CoolHeld.visibility {es bl} (h : s.CoolHeld) : State.CoolHeld (visibility es bl s) := by
  induction es generalizing bl s with
  | nil => exact h
  | cons e es ih => exact cool_ite (ih h.beside) (ih h.makeVisible)

theorem State.CoolHeld.creditRise {fn before} (h : s.CoolHeld) : (s.creditRise fn before).CoolHeld :=
  h.when (·.beside)
theorem State.CoolHeld.entriesVisible (h : s.CoolHeld) : s.entriesVisible.CoolHeld :=
  cool_forAll h.beside.visibility fun _ _ h => h.creditRise
theorem State.CoolHeld.hostWrite {fn a data} (h : s.CoolHeld) : State.CoolHeld (s.hostWrite fn a data).2 := by
  rw [State.hostWrite_eq]
  exact h.beside
theorem State.CoolHeld.lock {o a n} (h : s.CoolHeld) : (s.lock o a n).CoolHeld :=
  h.unless (·.beside)

/-! ### A job's run (R30, R280, R313, R351) -/

theorem State.CoolHeld.captureAt {id} (h : s.CoolHeld) : (s.captureAt id).CoolHeld := by
  unfold State.captureAt
  split
  · exact h
  · exact h.when (·.beside)

theorem State.CoolHeld.releaseJob {id ended} (h : s.CoolHeld) : (s.releaseJob id ended).CoolHeld := by
  unfold State.releaseJob
  split
  · exact h
  · exact (h.beside.modJob.when (·.beside)).beside

theorem State.CoolHeld.settle {id pos beat} (h : s.CoolHeld) : (s.settle id pos beat).CoolHeld := by
  unfold State.settle
  split
  · exact h
  · exact h.beside

theorem State.CoolHeld.sendToken {id j clear} (h : s.CoolHeld) : (s.sendToken id j clear).CoolHeld := by
  unfold State.sendToken
  split
  · exact h
  · exact cool_ite h.beside.settle h.beside

theorem State.CoolHeld.endJob {id f} (h : s.CoolHeld) : (s.endJob id f).CoolHeld :=
  h.modJob.beside

end

end Sys2Proof.Machine
end

section
/-!
PROOFS. The coolant alarm's hold on the clock (R421): the host's entries, jobs, key sets and events.
-/
namespace Sys2Proof.Machine

section
variable {s t : State}

/-! ### Key sets (R67 to R78) -/

theorem execRegisterKeyset_cool (h : s.CoolHeld) : CoolOut (execRegisterKeyset s) := by
  refine coolOut_live (h.unless fun h => h.onControl fun _ _ h => cool_ite h.completeControl (cool_ite h.completeControl ?_))
  split
  · exact h.completeControl
  · exact h.beside.lock.lock

theorem State.CoolHeld.endRegistration {r status slot} (h : s.CoolHeld) : (s.endRegistration r status slot).CoolHeld :=
  h.beside.complete

theorem execKeysetCommit_cool (h : s.CoolHeld) : CoolOut (execKeysetCommit s) := by
  refine coolOut_live ?_
  split
  · exact h
  · split
    · exact h.endRegistration
    · exact h.endRegistration
    · exact h.beside.endRegistration.event

theorem State.CoolHeld.removeKeySet {slot k} (h : s.CoolHeld) : (s.removeKeySet slot k).CoolHeld :=
  ((h.when (·.eraseShare)).beside).beside.event

theorem execRemoveKeyset_cool (h : s.CoolHeld) : CoolOut (execRemoveKeyset s) := by
  refine coolOut_live (h.onControl fun _ _ h => ?_)
  extract_lets
  split
  · exact h.completeControl
  · exact cool_ite h.completeControl h.removeKeySet.completeControl

/-! ### Areas, transfers, removal and encoding (R312 to R323) -/

theorem execSubmissionWrite_cool {fn offset data tlps onStream} (h : s.CoolHeld) :
    CoolOut (execSubmissionWrite fn offset data tlps onStream s) :=
  coolOut_live (h.unless fun h => cool_ite h.beside (cool_ite h.beside h.beside))

theorem execDeleteArea_cool (h : s.CoolHeld) : CoolOut (execDeleteArea s) := by
  refine coolOut_live (h.onControl fun _ _ h => ?_)
  extract_lets
  split
  · exact h.completeControl
  · exact cool_ite h.completeControl (cool_ite h.completeControl h.beside.completeControl)

theorem execTransfer_cool (h : s.CoolHeld) : CoolOut (execTransfer s) := by
  refine coolOut_live ?_
  split
  · exact h
  · exact cool_ite h.beside.complete h.beside

theorem State.CoolHeld.moveTransfer {t} (h : s.CoolHeld) : State.CoolHeld (s.moveTransfer t).2.2.2 := by
  unfold State.moveTransfer
  split
  · exact (State.CoolHeld.when h.beside (·.beside)).unless (·.beside)
  · exact h.hostWrite.when (·.beside)

theorem State.CoolHeld.partTransfer {t} (h : s.CoolHeld) : State.CoolHeld (s.partTransfer t).2 :=
  h.beside.when (·.beside)

theorem execTransferComplete_cool {fn hostOk} (h : s.CoolHeld) : CoolOut (execTransferComplete fn hostOk s) := by
  refine coolOut_live ?_
  split
  · exact h
  · exact h.unless fun h => cool_ite h.beside.partTransfer.complete h.beside.moveTransfer.complete

theorem execCancelJob_cool (h : s.CoolHeld) : CoolOut (execCancelJob s) := by
  refine coolOut_live (h.onControl fun _ _ h => ?_)
  extract_lets
  split
  · exact h.completeControl
  · exact cool_ite h.completeControl (cool_ite h.completeControl h.endJob.completeControl)

theorem execMarker_cool (h : s.CoolHeld) : CoolOut (execMarker s) := by
  refine coolOut_live ?_
  split
  · exact h
  · exact h.beside.completeControl

theorem execRemoveProgram_cool (h : s.CoolHeld) : CoolOut (execRemoveProgram s) := by
  refine coolOut_live (h.onControl fun _ _ h => ?_)
  extract_lets
  split
  · exact h.completeControl
  · exact cool_ite h.completeControl h.beside.completeControl

theorem State.CoolHeld.finishEncode {e} (h : s.CoolHeld) : (s.finishEncode e).CoolHeld := by
  unfold State.finishEncode
  extract_lets _ _ _ _ _ _ s₁
  have h₁ : s₁.CoolHeld := h.beside
  split
  · exact h₁.completeControl
  · split
    · exact h₁.completeControl
    · exact cool_ite h₁.completeControl (State.CoolHeld.completeControl h₁.beside)

theorem execEncodeComplete_cool (h : s.CoolHeld) : CoolOut (execEncodeComplete s) := by
  refine coolOut_live ?_
  split
  · exact h
  · exact h.finishEncode

theorem State.CoolHeld.drainCompletions {fn n} (h : s.CoolHeld) : State.CoolHeld (drainCompletions fn n s) := by
  induction n generalizing s with
  | zero => exact h
  | succ n ih =>
    unfold Machine.drainCompletions
    split
    · exact h
    · exact cool_ite (ih h.beside) h

theorem State.CoolHeld.drainReceipts {fn n} (h : s.CoolHeld) : State.CoolHeld (drainReceipts fn n s) := by
  induction n generalizing s with
  | zero => exact h
  | succ n ih =>
    unfold Machine.drainReceipts
    split
    · exact h
    · exact cool_ite (ih h.beside) h

theorem State.CoolHeld.drainNotices {fn n} (h : s.CoolHeld) : State.CoolHeld (drainNotices fn n s) := by
  induction n generalizing s with
  | zero => exact h
  | succ n ih =>
    unfold Machine.drainNotices
    split
    · exact h
    · exact cool_ite (ih h.beside.receiptItem) h

theorem State.CoolHeld.signWaiting (h : s.CoolHeld) : s.signWaiting.CoolHeld :=
  h.when fun h => cool_foldl h.beside fun _ _ h => h.issueNotice
theorem State.CoolHeld.drainBacklog {fn} (h : s.CoolHeld) : (s.drainBacklog fn).CoolHeld :=
  h.signWaiting.drainCompletions.drainReceipts.drainNotices

/-! ### Setting up the groups of a job (R206, R207) -/

theorem State.CoolHeld.setRings {p k image} (h : s.CoolHeld) : (s.setRings p k image).CoolHeld :=
  cool_forAll h fun _ _ h => cool_ite h.beside h.beside
theorem State.CoolHeld.setCluster {p params l k} (h : s.CoolHeld) : (s.setCluster p params l k).CoolHeld :=
  h.beside.setRings
theorem State.CoolHeld.setGroup {id p params set l q} (h : s.CoolHeld) : (s.setGroup id p params set l q).CoolHeld :=
  cool_forAll h.beside fun _ _ h => h.setCluster
theorem State.CoolHeld.setGroups {id p params a b} (h : s.CoolHeld) : (s.setGroups id p params a b).CoolHeld :=
  cool_foldl (cool_foldl h fun _ _ h => h.setGroup) fun _ _ h => h.setGroup
theorem State.CoolHeld.checkDescriptors {id p a} (h : s.CoolHeld) : (s.checkDescriptors id p a).CoolHeld :=
  h.unless (·.beside)

/-! ### A job's life (R204 to R211) -/

theorem execJobEntry_cool (h : s.CoolHeld) : CoolOut (execJobEntry s) := by
  refine coolOut_live ?_
  split
  · exact h
  · have hd {e} : (s.dropEntry e).CoolHeld := h.beside
    exact cool_ite hd.complete (cool_ite hd.complete (cool_ite hd.complete (cool_ite hd.complete
      hd.beside)))

theorem State.CoolHeld.refuseMapping {id j st} (h : s.CoolHeld) : (s.refuseMapping id j st).CoolHeld :=
  h.beside.complete
theorem State.CoolHeld.lockJob {id p params} (h : s.CoolHeld) : (s.lockJob id p params).CoolHeld :=
  cool_foldl h fun _ _ h => h.lock

theorem State.CoolHeld.mapJob {id j slot p b a c} (h : s.CoolHeld) : (s.mapJob id j slot p b a c).CoolHeld := by
  unfold State.mapJob
  extract_lets _ s₁ s₂ s₃ _ _ s₄ _ s₅
  have h₅ : s₅.CoolHeld := h.setGroups.checkDescriptors.lockJob.beside
  split
  · exact h₅.beside
  · exact h₅

theorem State.CoolHeld.grantKey {id ksid len d} (h : s.CoolHeld) (e : grantKey id ksid len d s = some t) : t.CoolHeld := by
  unfold Machine.grantKey at e
  split at e
  · exact Option.some.inj e ▸ h.beside
  · extract_lets at e
    split at e
    · exact Option.some.inj e ▸ h.beside
    · cases e

theorem State.CoolHeld.grantKeys {id p} (h : s.CoolHeld) (e : s.grantKeys id p = some t) : t.CoolHeld := by
  refine List.foldlRecOn (motive := fun o => ∀ t, o = some t → t.CoolHeld) _ _ (fun t e => Option.some.inj e ▸ h) ?_ t e
  intro o ih d _ t e
  split at e
  · cases e
  · have h₁ := ih _ rfl
    split at e
    · exact h₁.grantKey e
    · exact Option.some.inj e ▸ h₁

theorem State.CoolHeld.tryMap {id j} (h : s.CoolHeld) : (s.tryMap id j).CoolHeld := by
  unfold State.tryMap
  extract_lets
  refine cool_ite h.refuseMapping ?_
  split
  · exact h
  · refine h.unless fun _ => ?_
    split
    · exact h
    · split
      · exact h
      · next hg => exact (h.grantKeys hg).mapJob

theorem execJobMapping_cool {job} (h : s.CoolHeld) : CoolOut (execJobMapping job s) := by
  refine coolOut_live (h.unless fun h => ?_)
  split
  · exact h.when (·.tryMap)
  · exact h

theorem State.CoolHeld.firstIssue {id j} (h : s.CoolHeld) : (s.firstIssue id j).CoolHeld :=
  (cool_forAll h fun _ _ h => h.beside).modJob.beside.captureAt

theorem execJobFirstIssue_cool {job} (h : s.CoolHeld) : CoolOut (execJobFirstIssue job s) := by
  refine coolOut_live (h.unless fun h => ?_)
  split
  · exact h.when (·.firstIssue)
  · exact h

theorem State.CoolHeld.freeGroups {j} (h : s.CoolHeld) : (s.freeGroups j).CoolHeld :=
  cool_forAll h fun _ _ h => cool_forAll h.beside fun _ _ h => h.beside

theorem State.CoolHeld.restoreJob {places cp} (h : s.CoolHeld) : (s.restoreJob places cp).CoolHeld := by
  refine cool_foldl h fun _ _ h => cool_forAll h.beside fun _ _ h => ?_
  split
  · exact h.beside
  · exact h

theorem State.CoolHeld.restartJob {id j} (h : s.CoolHeld) : (s.restartJob id j).CoolHeld := by
  unfold State.restartJob
  extract_lets _ _ t₀ cp
  have h₀ : State.CoolHeld t₀ := h.freeGroups
  split
  · exact h
  · extract_lets _ _ _ t₂ t₃ t₄ t₅
    have h₂ : State.CoolHeld t₂ := h₀.setGroups.checkDescriptors.beside
    have h₃ : State.CoolHeld t₃ := by
      unfold t₃ cp
      split
      · exact h₂.restoreJob
      · exact h₂
    have h₅ : State.CoolHeld t₅ := h₃.beside
    split
    · exact h₅.beside
    · exact h₅

theorem State.CoolHeld.badCopy {id} (h : s.CoolHeld) : (s.badCopy id).CoolHeld :=
  cool_ite h.beside.fenceTerminate h.beside

theorem execJobRestart_cool {job} (h : s.CoolHeld) : CoolOut (execJobRestart job s) := by
  refine coolOut_live (h.unless fun h => ?_)
  split
  · exact h.when fun h => cool_ite h.badCopy h.restartJob
  · exact h

theorem execJobDeadline_cool {job} (h : s.CoolHeld) : CoolOut (execJobDeadline job s) := by
  refine coolOut_live ?_
  split
  · exact h.when (·.endJob)
  · exact h

theorem State.CoolHeld.markResident {j p} (h : s.CoolHeld) : (s.markResident j p).CoolHeld :=
  cool_forAll h fun _ _ h => h.beside
theorem State.CoolHeld.logReceipt {r serial fn} (h : s.CoolHeld) : (s.logReceipt r serial fn).CoolHeld :=
  cool_foldl h fun _ _ h => h.beside
theorem State.CoolHeld.releaseAll {id j} (h : s.CoolHeld) : (s.releaseAll id j).CoolHeld :=
  h.beside.freeGroups.beside

theorem State.CoolHeld.finishJob {id j} (h : s.CoolHeld) : (s.finishJob id j).CoolHeld := by
  unfold State.finishJob
  extract_lets
  split
  next hs =>
    have h₁ := cool_of_snd hs (by split; exacts [h.beside, h])
    exact ((h₁.when (·.markResident)).releaseAll.when (·.logReceipt.beside)).unless (·.complete)

theorem execJobCompletion_cool {job} (h : s.CoolHeld) : CoolOut (execJobCompletion job s) := by
  refine coolOut_live ?_
  split
  · exact h
  · refine cool_ite h.finishJob ?_
    split
    · exact h.beside.unless (·.complete)
    · exact h

theorem execExtentDigestDone_cool {job} (h : s.CoolHeld) : CoolOut (execExtentDigestDone job s) := by
  refine coolOut_live ?_
  split
  · exact h
  · exact cool_ite h.beside h.beside.receiptItem

/-! ### The host port and its events (R307 to R334) -/

theorem execBar2Read_cool {fn offset length onStream} (h : s.CoolHeld) : CoolOut (execBar2Read fn offset length onStream s) := by
  refine coolOut_live (h.unless fun h => ?_)
  extract_lets
  split
  exact (h.beside.when (·.beside)).unless (·.beside)

theorem execConfigRequest_cool {fn a} (h : s.CoolHeld) : CoolOut (execConfigRequest fn a s) := by
  refine coolOut_live (h.unless fun h => cool_ite h.beside ?_)
  split
  · exact h.beside
  · exact h.beside

theorem State.CoolHeld.flr {fn} (h : s.CoolHeld) : (s.flr fn).CoolHeld :=
  (cool_forAll h fun _ _ h => h.endJob.modJob).beside
theorem State.CoolHeld.flrAll (h : s.CoolHeld) : s.flrAll.CoolHeld :=
  cool_forAll h fun _ _ h => h.flr

theorem State.CoolHeld.pePerst {active} (h : s.CoolHeld) : (s.pePerst active).CoolHeld := by
  unfold State.pePerst
  extract_lets s₁ s₂
  have h₂ : s₂.CoolHeld := (h.setPin (by decide)).flrAll
  clear_value s₂
  exact cool_ite h₂.beside ((h.setPin (by decide)).when (·.beside))

theorem State.CoolHeld.message {fn v} (h : s.CoolHeld) : (s.message fn v).CoolHeld :=
  cool_ite h.beside (h.beside)
theorem State.CoolHeld.releaseMessage {fn v} (h : s.CoolHeld) : (s.releaseMessage fn v).CoolHeld :=
  h.when (·.beside.message)
theorem State.CoolHeld.take {fn src} (h : s.CoolHeld) : (s.take fn src).CoolHeld :=
  h.when (·.beside.message)
theorem State.CoolHeld.completeSource {fn src} (h : s.CoolHeld) : (s.completeSource fn src).CoolHeld :=
  cool_ite h.beside h.beside.take
theorem execEvSet_cool {fn v w} (h : s.CoolHeld) : CoolOut (execEvSet fn v w s) :=
  coolOut_live (h.unless fun h => cool_forAll h fun _ _ h => h.beside)
theorem execEvComplete_cool {fn v w} (h : s.CoolHeld) : CoolOut (execEvComplete fn v w s) :=
  coolOut_live (h.unless fun h => cool_forAll h fun _ _ h => h.completeSource)
theorem execEvMaskWrite_cool {fn v w} (h : s.CoolHeld) : CoolOut (execEvMaskWrite fn v w s) :=
  coolOut_live (h.unless fun h => cool_forAll h.beside fun _ _ h => h.take)
theorem execStickyClear_cool {reg v w} (h : s.CoolHeld) : CoolOut (execStickyClear reg v w s) :=
  coolOut_live (h.unless (·.beside))
theorem execLogTailWrite_cool {v} (h : s.CoolHeld) : CoolOut (execLogTailWrite v s) :=
  coolOut_live (h.unless fun h => h.when (·.beside))
theorem State.CoolHeld.returnD0 {fn} (h : s.CoolHeld) : (s.returnD0 fn).CoolHeld :=
  (cool_forAll h.beside fun _ _ h => h.releaseMessage).drainBacklog

end

end Sys2Proof.Machine
end

section
/-!
PROOFS. The coolant alarm's hold on the clock (R421): the issue port, the engines, the transfers and the timetable of a beat.
-/
namespace Sys2Proof.Machine

section
variable {s t : State}

/-! ### The issue port (R170 to R173, R231) -/

theorem State.CoolHeld.item {k words cost op f} (h : s.CoolHeld) (hf : ∀ s, s.CoolHeld → State.CoolHeld (f s)) :
    (s.item k words cost op f).CoolHeld :=
  cool_ite h (cool_ite h.beside (hf _ h))

theorem State.CoolHeld.command {k c sh engine own run bar} (h : s.CoolHeld)
    (hr : ∀ (u : State) (x : Ctx) (t : Nat), u.issueView.Occupied (run u x t).issueView) : (s.command k c sh engine own run bar).CoolHeld := by
  refine h.item fun s h => ?_
  extract_lets t
  split
  · exact h
  · split
    · exact h.beside
    · exact h.beside
    · exact h.beside
    · refine cool_ite ?_ h.beside
      split
      · exact h.beside
      · exact State.CoolHeld.of_occupied h.beside (hr _ _ _)

theorem State.CoolHeld.clustersCommand {ks p c sh engines own run bar} (h : s.CoolHeld)
    (hr : ∀ (u : State) (x : Ctx) (t : Nat) (l : List Nat) (code : Nat), u.issueView.Occupied (run u x t l code).issueView) :
    (s.clustersCommand ks p c sh engines own run bar).CoolHeld := by
  unfold State.clustersCommand
  refine h.item fun s h => ?_
  extract_lets t issuing passed next
  have hpassed : passed.CoolHeld := cool_foldl h fun _ _ h => h.beside
  have hnext : next.CoolHeld := cool_foldl hpassed fun _ _ h => h.beside
  split
  · exact h
  · refine cool_ite h.beside ?_
    split
    · exact hpassed.beside
    · split
      · exact hpassed.beside
      · split
        · exact hpassed.beside
        · exact cool_ite (hnext.of_occupied (hr _ _ _ _ _)) (State.CoolHeld.of_occupied hnext.beside (hr _ _ _ _ _))

theorem State.CoolHeld.groupCommand {p c sh engines own run} (h : s.CoolHeld)
    (hr : ∀ (u : State) (x : Ctx) (t : Nat) (l : List Nat) (code : Nat), u.issueView.Occupied (run u x t l code).issueView) :
    (s.groupCommand p c sh engines own run).CoolHeld :=
  h.clustersCommand hr

/-- Whatever clusters it runs for, RME.COMBINE at most occupies store paths longer (R130, R134). -/
theorem State.occupied_combineRun (s : State) (c : CmdWord) (x : Ctx) (t : Nat) (ks : List Nat) (pre : Nat) :
    s.issueView.Occupied (s.combineRun c x t ks pre).issueView := by
  have hview : (s.combineRun c x t ks pre).issueView =
      (ks.map (· / 32)).foldl (fun v p => v.occupy (32 * p) 9 (t + cmdCount c * x.combineCycles)) s.issueView := by
    dsimp only [State.combineRun]
    rw [issueView_foldl (g := fun v p => v.occupy (32 * p) 9 (t + cmdCount c * x.combineCycles))]
    · congr 1
      simp only [↓State.closeOutputs_issueView, ↓State.combinePop_issueView, ↓State.combinePushes_issueView,
        ↓State.operandRange_issueView, ↓State.writeChecks_issueView, ↓State.combineReads_issueView, ↓State.useFeedsOf_issueView,
        ↓apply_ite State.issueView, ↓State.violate_issueView, ↓State.groupFault_issueView, ↓State.consumeLoaded_issueView, ↓ite_self]
    · intro u p
      simp only [↓State.occupy_issueView, ↓apply_ite State.issueView, ↓State.takeSlots_issueView, ↓ite_self]
  rw [hview]
  exact IssueView.occupied_foldl (fun v p => v.occupied_occupy ..) _ _

theorem State.occupied_switchRun (s : State) (c : CmdWord) (x : Ctx) (t : Nat) (ks : List Nat) (pre : Nat) (modsw : Bool) :
    s.issueView.Occupied (s.switchRun c x t ks pre modsw).issueView := by
  rw [s.switchRun_issueView]
  exact IssueView.occupied_foldl (fun v k => v.occupied_occupy_two ..) ks _

theorem State.occupied_refRunRun (s : State) (k : Nat) (c : CmdWord) (x : Ctx) (t : Nat) :
    s.issueView.Occupied (s.refRunRun k c x t).issueView := by
  rw [s.refRunRun_issueView]
  exact IssueView.occupied_foldl (fun v g => v.occupied_holdGroup g _) _ _

/-- A fused command's members run one after the other, and at most occupy engines longer (R186). -/
theorem State.CoolHeld.fuse {k c cs} (h : s.CoolHeld) : (s.fuse k c cs).CoolHeld := by
  unfold State.fuse
  extract_lets
  refine h.item fun s h => ?_
  split
  · exact h
  next x hx =>
    extract_lets _ _ ms ks _ _ refused passed issued _ next _ ran
    have hrefused : refused.CoolHeld := cool_foldl h fun _ _ h => h.beside
    have hpassed : passed.CoolHeld := cool_foldl hrefused fun _ _ h => h.beside
    refine cool_ite h.beside ?_
    split
    · exact hpassed.beside
    · have hissued : issued.CoolHeld := cool_foldl hpassed fun _ _ h => h.beside
      have hnext : next.CoolHeld := hissued.unless (·.beside)
      have hran : ran.CoolHeld := by
        refine (hnext.of_occupied (.of_eq (next.clearHandover_issueView ks))).of_occupied (State.occupied_foldl (fun u e he => ?_) _)
        obtain ⟨d, -, hd⟩ := List.mem_filterMap.mp (List.of_mem_zip he).1
        obtain ⟨m, hm, heq⟩ := Option.map_eq_some_iff.mp hd
        exact u.occupied_runMember x ks _ (heq ▸ memberOf_occupies hm) _ _
      exact hran.of_occupied (.of_eq (ran.extendVerdict_issueView ks cs))

theorem State.CoolHeld.poisonOut {k r first n code} (h : s.CoolHeld) : (s.poisonOut k r first n code).CoolHeld := by
  unfold State.poisonOut
  exact (cool_foldl h fun _ _ h1 => h1.beside).beside

/-! ### Slots, grants and landings (R220 to R231) -/

theorem State.CoolHeld.poisonEngine {k engine code by_} (h : s.CoolHeld) : (s.poisonEngine k engine code by_).CoolHeld := by
  unfold State.poisonEngine
  extract_lets
  split
  · exact (cool_foldl (cool_foldl h fun _ _ h => h.poisonOut) fun _ _ h => h.when (·.beside)).when fun h =>
      (cool_foldl h fun _ _ h => h.beside).beside
  · exact (cool_foldl (cool_foldl h fun _ _ h => h.poisonOut) fun _ _ h => h.when (·.beside)).when (·.beside)

theorem State.CoolHeld.claimAt {k r n t stamp} (h : s.CoolHeld) : (s.claimAt k r n t stamp).CoolHeld := by
  dsimp only [State.claimAt]
  refine State.CoolHeld.beside ?_
  split
  · exact h.beside.poisonEngine
  · exact h

theorem State.CoolHeld.bufferStore {k x t at_} (h : s.CoolHeld) : (s.bufferStore k x t at_).CoolHeld := by
  unfold State.bufferStore
  extract_lets
  split
  · exact (h.when (·.beside)).unless fun h => cool_foldl h fun _ _ h => h.beside
  · exact h

theorem State.CoolHeld.grantStore {k x tr t} (h : s.CoolHeld) : State.CoolHeld (s.grantStore k x tr t).2 := by
  unfold State.grantStore
  extract_lets _ sign
  have hsign {s rows} (h : s.CoolHeld) : State.CoolHeld (sign s rows) := h.beside
  exact cool_ite_snd (hsign h) (hsign (h.unless (·.beside)).beside)

theorem State.CoolHeld.grantLoad {k x tr t} (h : s.CoolHeld) : State.CoolHeld (s.grantLoad k x tr t).2 :=
  (h.unless (·.beside)).when (·.beside)

theorem State.CoolHeld.grant {k x tr t} (h : s.CoolHeld) : (s.grant k x tr t).CoolHeld := by
  unfold State.grant
  extract_lets
  split
  next s₁ e₁ =>
  have h₁ : s₁.CoolHeld := cool_of_snd e₁ (cool_ite_snd h.grantStore h.grantLoad)
  exact (cool_ite (h₁.when (·.bufferStore)) h₁.claimAt.beside).beside

theorem State.CoolHeld.grantPiece {e f t} (h : s.CoolHeld) : (s.grantPiece e f t).CoolHeld := by
  refine State.CoolHeld.beside (State.CoolHeld.when ?_ (·.beside))
  split
  · exact h.beside.poisonEngine
  · exact h

/-- A targeted row of a relay claims its place in a ring. -/
theorem State.CoolHeld.claimRow {k r n t stamp f} (h : s.CoolHeld) : ((s.claimAt k r n t stamp).modRing k r f).CoolHeld :=
  h.claimAt.beside

theorem State.CoolHeld.injectRow {p i r} (h : s.CoolHeld) : (s.injectRow p i r).CoolHeld :=
  cool_ite (State.CoolHeld.beside (cool_foldl h fun _ _ h => h.claimRow)) h.beside

theorem State.CoolHeld.injectGo {t n} (h : s.CoolHeld) : State.CoolHeld (State.inject.go t n s) := by
  induction n generalizing s with
  | zero => exact h
  | succ n ih =>
    unfold State.inject.go
    split
    · exact ih h.injectRow
    · exact h

theorem State.CoolHeld.inject {t} (h : s.CoolHeld) : (s.inject t).CoolHeld :=
  h.injectGo

theorem State.CoolHeld.serve {p b t} (h : s.CoolHeld) : (s.serve p b t).CoolHeld := by
  dsimp only [State.serve]
  refine State.CoolHeld.beside ?_
  split
  · refine cool_foldl h fun _ _ h => ?_
    split
    · exact h.grant
    · exact h
  · split
    · exact h.grantPiece
    · exact h

theorem execTransferGrant_cool {g src cycle} (h : s.CoolHeld) : CoolOut (execTransferGrant g src cycle s) := by
  refine coolOut_live (h.when fun h => ?_)
  extract_lets
  split
  · exact h.inject
  · exact h.inject.serve

theorem State.CoolHeld.landRows {k r first stamp rows marks m0} (h : s.CoolHeld) : (s.landRows k r first stamp rows marks m0).CoolHeld := by
  dsimp only [State.landRows]
  exact (cool_foldl h fun _ _ h => h.beside).beside

theorem State.CoolHeld.landHead {k x t tag} (h : s.CoolHeld) : (s.landHead k x t tag).CoolHeld :=
  (h.when (·.beside)).beside
theorem State.CoolHeld.gbSettle {p x} (h : s.CoolHeld) : (s.gbSettle p x).CoolHeld :=
  h.unless fun h => (cool_foldl h fun _ _ h => h.beside).beside

theorem State.CoolHeld.landStore {k x t} (h : s.CoolHeld) : (s.landStore k x t).CoolHeld :=
  h.unless fun h => cool_ite h.gbSettle.beside h.beside
theorem State.CoolHeld.landTransfer {k x t tag} (h : s.CoolHeld) : (s.landTransfer k x t tag).CoolHeld :=
  cool_ite h.landStore (cool_ite h.landHead (h.when (·.beside)).landRows)

theorem execTransferStamp_cool {k tag} (h : s.CoolHeld) : CoolOut (execTransferStamp k tag s) := by
  refine coolOut_live ?_
  split
  · exact h
  · refine h.unless fun h => State.CoolHeld.beside ?_
    split
    · exact h.reachAbs.inject.when fun h => h.landTransfer.when (·.beside)
    · exact h.reachAbs.inject

theorem State.CoolHeld.overrun {k tag kind src} (h : s.CoolHeld) : (s.overrun k tag kind src).CoolHeld := by
  unfold State.overrun
  split
  · exact h
  · exact h.unless fun h => (cool_foldl h fun _ _ h => h.beside).beside.when (·.beside)

/-! ### The timetable of a beat (R24, R264) -/

theorem State.CoolHeld.axes (h : s.CoolHeld) : s.axes.CoolHeld :=
  (h.besideCause (by rfl) (by rfl)).setCapped

theorem State.CoolHeld.boundaryJob {ended id} (h : s.CoolHeld) : (s.boundaryJob ended id).CoolHeld := by
  unfold State.boundaryJob
  split
  · exact h
  · exact cool_ite h.releaseJob.sendToken (cool_ite h.sendToken.modJob (h.when (·.sendToken.modJob)))

theorem State.CoolHeld.liftDieCaps (h : s.CoolHeld) : s.liftDieCaps.CoolHeld :=
  h.when fun h => h.beside.unless (·.setPermit (by decide))
theorem State.CoolHeld.overrunAt {k} (h : s.CoolHeld) : (s.overrunAt k).CoolHeld :=
  (cool_forAll (h.when (·.beside)) fun _ _ h => h.beside).when (·.beside)
theorem execProgramWindowEnd_cool (h : s.CoolHeld) : CoolOut (execProgramWindowEnd s) :=
  coolOut_live (h.unless fun h => cool_forAll (cool_forAll h.reach.inject fun _ _ h => h.overrunAt) fun _ _ h =>
    h.gbSettle.beside)

theorem State.CoolHeld.abortJob {id j} (h : s.CoolHeld) : (s.abortJob id j).CoolHeld := by
  dsimp only [State.abortJob]
  refine State.CoolHeld.beside (.beside (cool_forAll (cool_forAll (cool_foldl (cool_forAll h ?_) ?_) ?_) ?_))
  · exact fun _ _ h => cool_forAll h fun _ _ h => h.unless fun h => (h.when (·.beside)).beside
  · exact fun _ _ h => h.beside
  · exact fun _ _ h => h.beside
  · exact fun _ _ h => h.beside

theorem execAbortFill_cool {job} (h : s.CoolHeld) : CoolOut (execAbortFill job s) := by
  refine coolOut_live ?_
  split
  · exact h
  · exact h.when fun h => (h.when (·.reach)).abortJob

theorem State.CoolHeld.conserve {j} (h : s.CoolHeld) : (s.conserve j).CoolHeld := by
  refine cool_forAll h fun _ _ h => ?_
  extract_lets u
  have hu : u.CoolHeld := cool_forAll h fun _ _ h => h.unless (·.beside)
  exact hu.unless (·.beside)

theorem State.CoolHeld.divergeTerminate {id kind} (h : s.CoolHeld) : (s.divergeTerminate id kind).CoolHeld :=
  h.modJob.beside.fenceTerminate
theorem State.CoolHeld.twinCompare {id j} (h : s.CoolHeld) : (s.twinCompare id j).CoolHeld :=
  h.unless fun h => (cool_foldl h fun _ _ h => h.managementRecord).divergeRestart

theorem State.CoolHeld.replayCompare {id j sig} (h : s.CoolHeld) : (s.replayCompare id j sig).CoolHeld := by
  unfold State.replayCompare
  extract_lets
  split
  · refine h.unless fun h => ?_
    split
    next s₁ e₁ =>
    have h₁ : s₁.CoolHeld := cool_of_snd e₁ h.managementRecord
    exact (cool_forAll h₁.divergeTerminate fun _ _ h => h.beside).recall
  · exact h

theorem State.CoolHeld.signatures {id} (h : s.CoolHeld) : (s.signatures id).CoolHeld := by
  unfold State.signatures
  split
  · exact h
  · exact ((cool_forAll h fun _ _ h => h.beside).when (·.twinCompare)).replayCompare.beside

theorem execReconciliation_cool (h : s.CoolHeld) : CoolOut (execReconciliation s) := by
  refine coolOut_live (h.unless fun h => cool_forAll (cool_forAll h.reach fun _ _ h => ?_).drain fun _ _ h => h.signatures)
  split
  · exact h.conserve
  · exact h

theorem execWindfallTimeout_cool {job} (h : s.CoolHeld) : CoolOut (execWindfallTimeout job s) := by
  refine coolOut_live ?_
  split
  · exact h
  · exact h.when (·.beside.modJob)

theorem State.CoolHeld.decideRelease {id} (h : s.CoolHeld) : (s.decideRelease id).CoolHeld := by
  unfold State.decideRelease
  split
  · exact h
  · exact h.modJob.beside

theorem execReleaseDecision_cool (h : s.CoolHeld) : CoolOut (execReleaseDecision s) :=
  coolOut_live (h.unless fun h => (cool_forAll (cool_forAll h.reach fun _ _ h => h.decideRelease) fun _ _ h =>
    h.modJob.beside).drain)

theorem execCheckpointCopy_cool {job} (h : s.CoolHeld) : CoolOut (execCheckpointCopy job s) := by
  refine coolOut_live ?_
  split
  · exact h
  · exact h.beside

/-! ### The service slice (R266) -/

theorem execTerrierInjection_cool {u fires arrives} (h : s.CoolHeld) : CoolOut (execTerrierInjection u fires arrives s) := by
  refine coolOut_live (h.unless fun h => ?_)
  split
  · exact h.when (·.beside)
  · exact h.beside

theorem State.CoolHeld.deadChecker {p} (h : s.CoolHeld) : (s.deadChecker p).CoolHeld :=
  h.beside.recall
theorem State.CoolHeld.terrierFault {p kind op} (h : s.CoolHeld) : State.CoolHeld (s.terrierFault p kind op).2 :=
  h.beside
theorem State.CoolHeld.mismatch {p q} (h : s.CoolHeld) : (s.mismatch p q).CoolHeld :=
  (h.terrierFault.unless (·.terrierFault)).recall
theorem State.CoolHeld.deadDie {k} (h : s.CoolHeld) : (s.deadDie k).CoolHeld :=
  h.beside.recall.event

theorem State.CoolHeld.groupVerdict {p agree q fired} (h : s.CoolHeld) : (s.groupVerdict p agree q fired).CoolHeld := by
  unfold State.groupVerdict
  extract_lets
  split
  · exact (h.when (·.deadChecker)).beside
  · exact cool_ite (h.when (·.deadChecker)).mismatch ((h.when (·.deadChecker)).when (·.beside))

theorem execTerrierVerdict_cool {u own peer peerGroup firedUnit} (h : s.CoolHeld) :
    CoolOut (execTerrierVerdict u own peer peerGroup firedUnit s) := by
  refine coolOut_live (h.unless fun h => ?_)
  split
  · exact h.when (·.groupVerdict)
  · split
    · exact cool_ite h.beside h.deadDie
    · exact h

theorem State.CoolHeld.scrubFind {f} (h : s.CoolHeld) : (s.scrubFind f).CoolHeld :=
  h.unless fun h => cool_ite (h.when (·.beside)) (h.unless fun h => (cool_ite h.beside h.beside).beside)
theorem execServiceScrub_cool {finds} (h : s.CoolHeld) : CoolOut (execServiceScrub finds s) :=
  coolOut_live (h.unless fun h => cool_forAll (cool_foldl h.reach fun _ _ h => h.scrubFind) fun _ _ h => h.beside)
theorem State.CoolHeld.pendingVerdict {p} (h : s.CoolHeld) : (s.pendingVerdict p).CoolHeld :=
  cool_ite h.beside (cool_ite h.beside h.managementRecord.beside)
theorem State.CoolHeld.minority {p} (h : s.CoolHeld) : (s.minority p).CoolHeld :=
  (h.managementRecord.beside.unless (·.divergeRestart)).recall
theorem State.CoolHeld.noMajority {model} (h : s.CoolHeld) : (s.noMajority model).CoolHeld :=
  (cool_forAll (cool_forAll h.managementRecord fun _ _ h => h.divergeTerminate) fun _ _ h => h.beside).recall
theorem State.CoolHeld.modelVerdict {model ps} (h : s.CoolHeld) : (s.modelVerdict model ps).CoolHeld :=
  cool_ite (cool_forAll (cool_forAll (cool_forAll h fun _ _ h => h.beside) fun _ _ h => h.beside) fun _ _ h => h.minority)
    ((cool_forAll h fun _ _ h => h.beside).unless (·.noMajority))
theorem execRetrieverVerdict_cool (h : s.CoolHeld) : CoolOut (execRetrieverVerdict s) :=
  coolOut_live (h.unless fun h => cool_foldl (cool_forAll h.reach fun _ _ h => h.pendingVerdict) fun _ _ h => h.modelVerdict)
theorem State.CoolHeld.storeRail {r} (h : s.CoolHeld) : (s.storeRail r).CoolHeld :=
  h.besideCause rfl rfl
theorem State.CoolHeld.histograms (h : s.CoolHeld) : s.histograms.CoolHeld :=
  cool_forAll (cool_forAll (cool_forAll h fun _ _ h => h.beside) fun _ _ h => h.beside).beside fun _ _ h => h.unless (·.beside)

theorem State.CoolHeld.storeTemp {r} (h : s.CoolHeld) : (s.storeTemp r).CoolHeld :=
  h.unless fun h => cool_ite (h.besideCause rfl rfl) (State.CoolHeld.when (h.besideCause rfl rfl) (·.beside))

theorem State.CoolHeld.junction (h : s.CoolHeld) : s.junction.CoolHeld := by
  unfold State.junction
  split
  exact State.CoolHeld.unless (h.besideCause rfl rfl) (·.setPermit (by decide))

theorem execLedgerSampling_cool {temps rails} (h : s.CoolHeld) : CoolOut (execLedgerSampling temps rails s) :=
  coolOut_live (h.unless fun h => (cool_foldl (cool_foldl h.reach fun _ _ h => h.storeTemp) fun _ _ h => h.storeRail).histograms.junction)

end

end Sys2Proof.Machine
end

section
/-!
PROOFS. The coolant alarm's hold on the clock (R421): memory, ledger, power, resets, links, images, pins and blocks.
-/
namespace Sys2Proof.Machine

section
variable {s t : State}

/-! ### The memory system (R250 to R258) -/

theorem State.CoolHeld.writeBack {a again} (h : s.CoolHeld) : (s.writeBack a again).CoolHeld :=
  (cool_ite h.beside h.beside).when (·.beside)
theorem execLineWriteback_cool {addr secondReadCorrects} (h : s.CoolHeld) :
    CoolOut (execLineWriteback addr secondReadCorrects s) :=
  coolOut_live (h.when (·.writeBack))

theorem State.CoolHeld.remapRow {st pc row} (h : s.CoolHeld) : State.CoolHeld (s.remapRow st pc row).2 := by
  refine cool_ite_snd ?_ (cool_ite_snd ?_ ?_)
  · dsimp only; exact h.beside
  · dsimp only; exact h.beside
  · exact h.beside

theorem State.CoolHeld.patrolFind {f} (h : s.CoolHeld) : (s.patrolFind f).CoolHeld :=
  h.unless fun h => cool_ite h.beside.beside (h.unless (·.beside))

theorem State.CoolHeld.repairEntry {e x} (h : s.CoolHeld) : (s.repairEntry e x).CoolHeld := by
  unfold State.repairEntry
  split
  · exact h
  · split
    · exact h
    · exact h.when fun h => h.beside

theorem execKcExtentRepair_cool {extent} (h : s.CoolHeld) : CoolOut (execKcExtentRepair extent s) := by
  refine coolOut_live (h.unless fun h => ?_)
  split
  · exact h
  · exact h.repairEntry.beside

theorem State.CoolHeld.coupleDies (h : s.CoolHeld) : s.coupleDies.CoolHeld :=
  h.setPermit (by decide)
theorem State.CoolHeld.stackReading {n t} (h : s.CoolHeld) : (s.stackReading n t).CoolHeld :=
  cool_ite (h.beside.setPermit (by decide)).coupleDies (cool_ite h.beside.coupleDies h.coupleDies)
theorem State.CoolHeld.dieReading {n t} (h : s.CoolHeld) : (s.dieReading n t).CoolHeld :=
  h.when (·.beside.coupleDies)
theorem execStackTemperatureTrigger_cool {sensor temp} (h : s.CoolHeld) :
    CoolOut (execStackTemperatureTrigger sensor temp s) :=
  coolOut_live (h.unless fun h => cool_ite h.storeTemp.stackReading (h.storeTemp.when (·.dieReading)))
theorem State.CoolHeld.liftStackCap (h : s.CoolHeld) : s.liftStackCap.CoolHeld :=
  h.when fun h => ((cool_forAll h fun _ _ h => h.when (·.beside)).setPermit (by decide)).coupleDies
theorem State.CoolHeld.restoreMemoryClock {i} (h : s.CoolHeld) : (s.restoreMemoryClock i).CoolHeld :=
  h.when (·.beside)

/-! ### The life ledger (R443 to R450) -/

theorem State.CoolHeld.keepDurable (h : s.CoolHeld) : s.keepDurable.CoolHeld := by
  unfold State.keepDurable
  split
  · exact h.when (·.beside)
  · exact h

theorem State.CoolHeld.writeRecord {kind body} (h : s.CoolHeld) : (s.writeRecord kind body).CoolHeld :=
  h.keepDurable.beside
theorem State.CoolHeld.tellLost (h : s.CoolHeld) : s.tellLost.CoolHeld :=
  h.unless (·.beside.event)
theorem State.CoolHeld.writeEvent {e rest} (h : s.CoolHeld) : (s.writeEvent e rest).CoolHeld :=
  (h.unless (·.writeRecord)).beside.tellLost

theorem execLedgerEventWrite_cool {flashOk} (h : s.CoolHeld) : CoolOut (execLedgerEventWrite flashOk s) := by
  refine coolOut_live ?_
  split
  · exact h
  · exact h.unless fun h => cool_ite h.writeEvent h.beside

theorem State.CoolHeld.flushLedger (h : s.CoolHeld) : s.flushLedger.CoolHeld :=
  h.unless (·.writeRecord.beside)
theorem State.CoolHeld.flushAll (h : s.CoolHeld) : s.flushAll.CoolHeld :=
  (cool_foldl h fun _ _ h => h.writeEvent).flushLedger
theorem execFlushNow_cool {w} (h : s.CoolHeld) : CoolOut (execFlushNow w s) :=
  coolOut_live (h.unless (·.beside))
theorem execWindowOffset_cool {v w} (h : s.CoolHeld) : CoolOut (execWindowOffset v w s) :=
  coolOut_live (h.unless (·.beside))

theorem State.CoolHeld.loadDurable {e} (h : s.CoolHeld) : (s.loadDurable e).CoolHeld := by
  unfold State.loadDurable
  extract_lets
  split
  · exact h.beside
  · exact h.beside
  · exact h.beside
  · exact h

theorem State.CoolHeld.loadMemoryEvent {b} (h : s.CoolHeld) : (s.loadMemoryEvent b).CoolHeld :=
  h.when (·.remapRow)

theorem State.CoolHeld.loadLedger (h : s.CoolHeld) : s.loadLedger.CoolHeld := by
  unfold State.loadLedger
  extract_lets
  split
  · exact h.beside.event
  · refine cool_foldl ?_ fun _ _ h => h.loadMemoryEvent
    split
    · exact cool_foldl h.beside fun _ _ h => h.loadDurable
    · exact h.beside

/-! ### Voltage, power and current (R411 to R420) -/

theorem State.CoolHeld.changeStep {code} (h : s.CoolHeld) : (s.changeStep code).CoolHeld := by
  refine h.of_same ?_ ?_
  · rw [State.changeStep_power]
  · exact (congrArg (fun u : State => u.pins.active) (s.changeStep_besideRecord code) :)

theorem State.CoolHeld.nextChange (h : s.CoolHeld) : s.nextChange.CoolHeld := by
  unfold State.nextChange
  split
  · exact h
  · exact State.CoolHeld.unless (h.besideCause rfl rfl) (·.announce)

theorem execStepSwitch_cool (h : s.CoolHeld) : CoolOut (execStepSwitch s) := by
  refine coolOut_live ?_
  split
  · exact h
  · exact h.unless fun h => (State.CoolHeld.besideCause (h.when (·.reach)) (by rfl) (by rfl)).changeStep.nextChange

theorem State.CoolHeld.overCurrent {amps} (h : s.CoolHeld) : (s.overCurrent amps).CoolHeld :=
  h.when fun h => (h.besideCause (by rfl) (by rfl)).setPermit (by decide)

theorem execAvsVoltageConfirm_cool {mv amps} (h : s.CoolHeld) : CoolOut (execAvsVoltageConfirm mv amps s) := by
  refine coolOut_live (h.unless fun h => ?_)
  extract_lets
  split
  · exact (h.besideCause (by rfl) (by rfl)).overCurrent.when fun h => (h.besideCause (by rfl) (by rfl)).announce
  · exact (h.besideCause (by rfl) (by rfl)).overCurrent

theorem execStepUpAbandoned_cool (h : s.CoolHeld) : CoolOut (execStepUpAbandoned s) := by
  refine coolOut_live ?_
  split
  · exact h
  · exact h.besideCause rfl rfl

theorem State.CoolHeld.moveCap {watts} (h : s.CoolHeld) : (s.moveCap watts).CoolHeld :=
  cool_ite ((h.besideCause (by rfl) (by rfl)).setPermit (by decide)) (cool_ite (h.besideCause rfl rfl)
    (State.CoolHeld.when (h.besideCause rfl rfl) fun h => (h.besideCause (by rfl) (by rfl)).setPermit (by decide)))
theorem execHostStep_cool {v w} (h : s.CoolHeld) : CoolOut (execHostStep v w s) :=
  coolOut_live (h.unless fun h => (h.besideCause (by rfl) (by rfl)).applyCauses)

/-! ### Reset, start-up and halt (R422 to R428) -/

theorem State.CoolHeld.resetSource {cause} (h : s.CoolHeld) : (s.resetSource cause).CoolHeld :=
  h.unless fun _ => s.coolHeld_resetDevice _
theorem State.CoolHeld.writeNow {code body} (h : s.CoolHeld) : (s.writeNow code body).CoolHeld :=
  h.when (·.writeRecord)
theorem State.CoolHeld.resetPin (h : s.CoolHeld) : s.resetPin.CoolHeld :=
  cool_ite (State.CoolHeld.beside (h.setPin (i := 0) (by decide))) (State.coolHeld_resetDevice _)
theorem execSwReset_cool {v w} (h : s.CoolHeld) : CoolOut (execSwReset v w s) :=
  coolOut_next (h.unless (·.writeNow.resetSource))
/-- Powering all but the kept domains down moves no cause and no pin. -/
theorem State.CoolHeld.tripState {sensor} (h : s.CoolHeld) : (s.powerDown.tripState sensor).CoolHeld :=
  h.of_same rfl rfl
theorem State.CoolHeld.trip {sensor} (h : s.CoolHeld) : (s.trip sensor).CoolHeld := by
  have hpin : State.CoolHeld (if 50 ≤ sensor then s.setPin 4 true else s) := h.when (·.setPin (by decide))
  have hwritten : (s.tripWritten sensor).CoolHeld := hpin.of_besideUpkeep (s.tripWritten_besideUpkeep sensor)
  cases ht : s.rst.tripped with
  | true => rwa [State.trip, if_pos ht]
  | false =>
    rw [s.trip_of_untripped ht]
    exact hwritten.tripState

theorem State.CoolHeld.changeOwner {d} (h : s.CoolHeld) : (s.changeOwner d).CoolHeld :=
  h.unless fun h => h.beside.event

theorem State.CoolHeld.startPolicy {b} (h : s.CoolHeld) : (s.startPolicy b).CoolHeld := by
  unfold State.startPolicy
  split
  · exact h.changeOwner
  · exact h.managementRecord
  · exact h.unless (·.managementRecord)
  · exact h

theorem State.CoolHeld.burnVersion {v} (h : s.CoolHeld) : (s.burnVersion v).CoolHeld :=
  h.unless fun h => h.beside.event

theorem State.CoolHeld.startImage {i} (h : s.CoolHeld) : (s.startImage i).CoolHeld :=
  State.CoolHeld.beside (h.when (·.burnVersion))

theorem State.CoolHeld.startFrom {slots} (h : s.CoolHeld) : State.CoolHeld (State.startFrom slots s) := by
  induction slots generalizing s with
  | nil => exact h.beside
  | cons i rest ih =>
    unfold State.startFrom
    split
    · exact ih h
    · exact cool_ite (ih h.startPolicy) h.startPolicy.startImage.beside

theorem State.CoolHeld.readImages (h : s.CoolHeld) : s.readImages.CoolHeld :=
  (cool_forAll h.beside fun _ _ h => h.managementRecord).startFrom
theorem State.CoolHeld.startUp (h : s.CoolHeld) : s.startUp.CoolHeld :=
  h.beside.readImages.beside
theorem State.CoolHeld.failLane {st pc lane} (h : s.CoolHeld) : (s.failLane st pc lane).CoolHeld :=
  cool_ite h.beside h.beside
theorem State.CoolHeld.trainHbm {lanes} (h : s.CoolHeld) : (s.trainHbm lanes).CoolHeld :=
  (cool_forAll (cool_foldl h fun _ _ h => h.failLane) fun _ _ h => h.beside).beside
theorem State.CoolHeld.releaseGroups {failed} (h : s.CoolHeld) : (s.releaseGroups failed).CoolHeld :=
  cool_forAll (cool_forAll h.beside fun _ _ h => h.beside) fun _ _ h => h.beside
theorem State.CoolHeld.releaseLinks (h : s.CoolHeld) : s.releaseLinks.CoolHeld :=
  cool_forAll h fun _ _ h => cool_ite h.beside.portState (h.beside.when (·.beside))

theorem State.CoolHeld.release {o} (h : s.CoolHeld) : (s.release o).CoolHeld := by
  unfold State.release
  extract_lets
  split
  · exact State.CoolHeld.beside (h.beside.setPin (i := 0) (by decide))
  · exact h.beside.loadLedger
  · exact h.beside
  · exact h.beside.startUp
  · exact h.beside
  · exact h.beside.trainHbm
  · exact h.beside.releaseGroups
  · exact h.beside.releaseLinks
  · exact h

theorem State.CoolHeld.startFields (h : s.CoolHeld) : s.startFields.CoolHeld :=
  h.beside
theorem State.CoolHeld.startAxes (h : s.CoolHeld) : s.startAxes.CoolHeld :=
  h.beside.setCapped
theorem State.CoolHeld.askHalt (h : s.CoolHeld) : s.askHalt.CoolHeld :=
  h.when (·.beside)
theorem execHalt_cool {v w} (h : s.CoolHeld) : CoolOut (execHalt v w s) :=
  coolOut_live (h.unless (·.askHalt))
theorem State.CoolHeld.beginHalt (h : s.CoolHeld) : s.beginHalt.CoolHeld :=
  cool_forAll h.beside.event fun _ _ h => h.endJob
theorem State.CoolHeld.endHalt (h : s.CoolHeld) : s.endHalt.CoolHeld :=
  h.flushAll.beside

/-! ### Links (R335 to R356) -/

theorem State.CoolHeld.portDown {n st} (h : s.CoolHeld) : (s.portDown n st).CoolHeld :=
  h.beside.portState
theorem State.CoolHeld.train {n} (h : s.CoolHeld) : (s.train n).CoolHeld :=
  h.when (·.portDown)
theorem State.CoolHeld.retrain {n} (h : s.CoolHeld) : (s.retrain n).CoolHeld :=
  h.when (·.beside.train.beside)
theorem State.CoolHeld.failPort {n cause} (h : s.CoolHeld) : (s.failPort n cause).CoolHeld :=
  h.beside.portDown
theorem execPortTraining_cool {port t} (h : s.CoolHeld) : CoolOut (execPortTraining port t s) :=
  coolOut_live (h.unless fun h => cool_ite h.failPort (cool_ite h.failPort (cool_ite h.failPort h.beside.portState)))
theorem State.CoolHeld.acknowledge {n} (h : s.CoolHeld) : (s.acknowledge n).CoolHeld :=
  h.when (·.beside)

theorem execLaneSwap_cool {port} (h : s.CoolHeld) : CoolOut (execLaneSwap port s) := by
  refine coolOut_live ?_
  extract_lets
  split
  · exact h.unless (·.beside.portState.beside)
  · exact h

theorem State.CoolHeld.writePort {n v w} (h : s.CoolHeld) : (s.writePort n v w).CoolHeld :=
  (h.unless fun h => cool_ite h.beside.train h.portDown.beside).when (·.retrain)
theorem State.CoolHeld.sendPart {n x f} (h : s.CoolHeld) : (s.sendPart n x f).CoolHeld :=
  h.beside.unless (·.beside)

theorem execLinkMessageSend_cool {port slot} (h : s.CoolHeld) : CoolOut (execLinkMessageSend port slot s) := by
  refine coolOut_live (h.unless fun h => ?_)
  split
  · exact h
  · exact h.unless fun h => cool_forAll h fun _ _ h => h.sendPart

theorem execLinkRetransmit_cool {port slot} (h : s.CoolHeld) : CoolOut (execLinkRetransmit port slot s) := by
  refine coolOut_live (h.unless fun h => ?_)
  split
  · exact h.unless (·.beside)
  · exact h

theorem State.CoolHeld.receiveRows {x a data} (h : s.CoolHeld) : (s.receiveRows x a data).CoolHeld :=
  h.unless fun h => h.beside
theorem State.CoolHeld.spoil {n x kind} (h : s.CoolHeld) : (s.spoil n x kind).CoolHeld :=
  h.unless (·.beside.receiveRows.beside)

theorem State.CoolHeld.badFrame {n slot} (h : s.CoolHeld) : (s.badFrame n slot).CoolHeld := by
  unfold State.badFrame
  extract_lets
  split
  · exact h.beside
  · exact cool_ite (h.beside.unless (·.spoil)) (cool_ite h.beside.spoil h.beside)

theorem State.CoolHeld.takeData {n f} (h : s.CoolHeld) : (s.takeData n f).CoolHeld := by
  unfold State.takeData
  extract_lets
  split
  · exact h
  · exact cool_ite h.spoil (h.unless fun h => h.receiveRows.unless (·.beside))

theorem State.CoolHeld.takeHead {n f} (h : s.CoolHeld) : (s.takeHead n f).CoolHeld :=
  ((h.when (·.beside)).when (·.beside.portState)).when (·.acknowledge)
theorem execLinkFrameReceive_cool {port frame uncorrectable corrected} (h : s.CoolHeld) :
    CoolOut (execLinkFrameReceive port frame uncorrectable corrected s) :=
  coolOut_live (h.unless fun h => cool_ite h.beside.badFrame (h.beside.takeHead.when (·.takeData)))
theorem execBeatMarker_cool {intact beat error} (h : s.CoolHeld) : CoolOut (execBeatMarker intact beat error s) :=
  coolOut_live (h.unless fun h => cool_ite (h.when (·.beside)).beside.beside ((h.when (·.beside)).beside.when (·.beside)))
theorem State.CoolHeld.takeRecord {kind r f} (h : s.CoolHeld) (hf : ∀ s, s.CoolHeld → State.CoolHeld (f s)) : (s.takeRecord kind r f).CoolHeld :=
  h.unless fun h => h.beside.unless fun h => hf _ (h.beside.unless (·.beside))

theorem State.CoolHeld.onLinked {r f} (h : s.CoolHeld) (hf : ∀ s id j l, s.CoolHeld → State.CoolHeld (f s id j l)) : (s.onLinked r f).CoolHeld := by
  unfold State.onLinked
  split
  · exact hf _ _ _ _ h
  · exact h

theorem State.CoolHeld.takeClear {r} (h : s.CoolHeld) : State.CoolHeld (State.takeClear r s) :=
  h.onLinked fun _ _ _ _ h => h.settle.beside
theorem State.CoolHeld.takeFail {r} (h : s.CoolHeld) : State.CoolHeld (State.takeFail r s) :=
  h.onLinked fun _ _ _ _ h => h.beside.modJob.beside
theorem State.CoolHeld.takeRestart {r} (h : s.CoolHeld) : State.CoolHeld (State.takeRestart r s) :=
  h.onLinked fun _ _ _ _ h => h.beside
theorem State.CoolHeld.takeTerminate {r} (h : s.CoolHeld) : State.CoolHeld (State.takeTerminate r s) :=
  h.onLinked fun _ _ _ _ h => cool_ite h.beside h.askIdle.modJob.fenceTerminate

theorem State.CoolHeld.takeReady {r} (h : s.CoolHeld) : State.CoolHeld (State.takeReady r s) := by
  unfold State.takeReady
  exact h.beside.onLinked (fun _ _ _ _ h1 => cool_ite h1.fenceTerminate (h1.when (·.beside)))

theorem State.CoolHeld.linkedStart {id j l} (h : s.CoolHeld) : (s.linkedStart id j l).CoolHeld :=
  cool_ite h.fenceTerminate (h.unless fun h => h.when (·.beside.firstIssue))

theorem execLinkedJobStart_cool {job} (h : s.CoolHeld) : CoolOut (execLinkedJobStart job s) := by
  refine coolOut_live (h.unless fun h => ?_)
  split
  · exact h
  · split
    · exact h
    · exact h.when (·.linkedStart)

/-! ### Staging and adoption (R402 to R406) -/

theorem State.CoolHeld.endStaging {result i} (h : s.CoolHeld) : (s.endStaging result i).CoolHeld :=
  (h.beside.when (·.event)).beside
theorem State.CoolHeld.stageGo (h : s.CoolHeld) : s.stageGo.CoolHeld :=
  cool_ite h.beside (cool_ite h.endStaging
    h.beside.lock)
theorem State.CoolHeld.stageComplete {flashOk} (h : s.CoolHeld) : (s.stageComplete flashOk).CoolHeld :=
  cool_ite h.beside.endStaging h.beside.endStaging
theorem State.CoolHeld.modeEvent {axis old new} (h : s.CoolHeld) : (s.modeEvent axis old new).CoolHeld :=
  h.event

theorem State.CoolHeld.adoptGo (h : s.CoolHeld) : s.adoptGo.CoolHeld := by
  unfold State.adoptGo
  split
  · exact h.beside
  · exact cool_ite h.beside (cool_ite h.beside.beside (cool_ite h.beside.managementRecord h.beside.modeEvent))

theorem State.CoolHeld.applyRegisters (h : s.CoolHeld) : s.applyRegisters.CoolHeld :=
  cool_forAll h.beside fun _ _ h => h.unless (·.writePort)
theorem State.CoolHeld.switchOver {i} (h : s.CoolHeld) : (s.switchOver i).CoolHeld :=
  h.beside.applyRegisters.beside

theorem execAdoptSwitch_cool (h : s.CoolHeld) : CoolOut (execAdoptSwitch s) := by
  refine coolOut_live ?_
  split
  · exact h.when (·.switchOver)
  · exact h

theorem State.CoolHeld.abortAdoption {result} (h : s.CoolHeld) : (s.abortAdoption result).CoolHeld :=
  h.managementRecord.beside.event.beside.setPermit (by decide)
theorem State.CoolHeld.turnAdoption (h : s.CoolHeld) : s.turnAdoption.CoolHeld :=
  cool_ite (h.beside.unless (·.beside.applyRegisters.beside)) (h.when (·.beside.modeEvent))

theorem State.CoolHeld.applyTable {p} (h : s.CoolHeld) : (s.applyTable p).CoolHeld := by
  refine cool_ite ?_ (h.when (·.beside))
  extract_lets
  split
  · exact h.when (·.beside)
  · exact h

theorem State.CoolHeld.beginRetrain {i} (h : s.CoolHeld) : (s.beginRetrain i).CoolHeld :=
  cool_ite h.beside (h.beside.setPermit (by decide))
theorem State.CoolHeld.retrainLanes {i} (h : s.CoolHeld) : (s.retrainLanes i).CoolHeld :=
  h.unless fun h => cool_forAll h.beside fun _ _ h => h.when (·.beside)
theorem State.CoolHeld.finishAdoption {i} (h : s.CoolHeld) : (s.finishAdoption i).CoolHeld :=
  h.beside.event.beside

theorem State.CoolHeld.startPiece {i n} (h : s.CoolHeld) : (s.startPiece i n).CoolHeld := by
  unfold State.startPiece
  extract_lets
  split
  · exact h.beside.burnVersion.beside
  · exact h.beside
  · exact h.beside.beginRetrain
  · exact (h.beside.setPermit (by decide)).retrainLanes
  · exact h.beside.finishAdoption
  · exact h.beside

theorem State.CoolHeld.nextPiece {ok} (h : s.CoolHeld) : (s.nextPiece ok).CoolHeld := by
  unfold State.nextPiece
  split
  · exact h
  · exact h.unless fun h => cool_ite h.abortAdoption (h.unless (·.startPiece))

/-! ### Pins (R350, R421, R462) -/

theorem State.CoolHeld.beatLost (h : s.CoolHeld) : s.beatLost.CoolHeld :=
  (h.besideCause (by rfl) (by rfl)).event
theorem State.CoolHeld.beatPulse {width} (h : s.CoolHeld) : (s.beatPulse width).CoolHeld :=
  cool_ite (cool_ite h.beside (h.beside.when (·.beatLost))).beside (cool_ite h.beside h.beside.beatLost)

theorem execBeatIn_cool {p} (h : s.CoolHeld) : CoolOut (execBeatIn p s) := by
  refine coolOut_live (h.unless fun h => ?_)
  split
  · exact h.beatPulse
  · exact h.beatLost

theorem State.CoolHeld.pinActive {i} (h : s.CoolHeld) : (s.pinActive i).CoolHeld := by
  unfold State.pinActive
  split
  · exact h.resetPin
  · exact h.pePerst
  · exact (h.setPin (by decide)).askHalt
  · exact h.coolAlarm
  · exact h.trip
  · exact (h.setPin (by decide)).when (·.beatLost)
  · exact State.CoolHeld.beside (h.setPin (i := 6) (by decide))

theorem State.CoolHeld.pinInactive {i} (h : s.CoolHeld) : (s.pinInactive i).CoolHeld := by
  unfold State.pinInactive
  split
  · exact h.pePerst
  · exact h.coolAlarm
  · next hother => exact h.setPin (fun h3 => hother h3.symm)

theorem execInputRacingEnd_cool {pin} (h : s.CoolHeld) : CoolOut (execInputRacingEnd pin s) := by
  cases hr : s.isRacing pin with
  | false =>
    rw [show execInputRacingEnd pin s = live s s from congrArg (live s) (if_pos (by rw [hr]; rfl))]
    exact coolOut_live h
  | true =>
    rw [show execInputRacingEnd pin s = _ from exec_inputRacingEnd s hr]
    exact coolOut_live (State.CoolHeld.pinInactive h.beside)

/-! ### Blocks and groups replaced (R407, R429) -/

theorem State.CoolHeld.fillClusters {p} (h : s.CoolHeld) : (s.fillClusters p).CoolHeld :=
  cool_forAll h fun _ _ h => h.beside
theorem State.CoolHeld.fillGroupBlock {p} (h : s.CoolHeld) : (s.fillGroupBlock p).CoolHeld :=
  h.beside
theorem State.CoolHeld.blockReset {d} (h : s.CoolHeld) : (s.blockReset d).CoolHeld :=
  cool_ite (cool_ite h.fillClusters h.beside) (h.when (·.portState))
theorem State.CoolHeld.escalate {d} (h : s.CoolHeld) : (s.escalate d).CoolHeld :=
  cool_ite h.beside.fillClusters.fillGroupBlock (cool_ite h.beside h.beside.blockReset)

theorem State.CoolHeld.substitute {p} (h : s.CoolHeld) : (s.substitute p).CoolHeld := by
  unfold State.substitute
  extract_lets _ pick
  clear_value pick
  split
  · exact h.when (·.beside)
  · exact h

theorem State.CoolHeld.retireExhausted {p due} (h : s.CoolHeld) : (s.retireExhausted p due).CoolHeld :=
  h.managementRecord.when (·.beside)

/-! ### The beat boundary (R24) -/

theorem execBeatBoundary_cool (h : s.CoolHeld) : CoolOut (execBeatBoundary s) :=
  coolOut_live (h.unless fun h => cool_forAll (cool_forAll h.beside.axes.liftDieCaps.beside.turnAdoption
    fun _ _ h => h.boundaryJob).beside.entriesVisible fun _ _ h => h.captureAt)

/-! ### Relay chain and exchange (R187, R228 to R230) -/

theorem execRelayRowLanding_cool {g} (h : s.CoolHeld) : CoolOut (execRelayRowLanding g s) := by
  refine coolOut_live ?_
  extract_lets s₁
  have h₁ : s₁.CoolHeld := by
    unfold s₁
    split
    · exact h.inject
    · exact h
  split
  · exact h₁
  · exact h₁.unless fun h => h.reachAbs.beside.when fun h => cool_foldl h fun _ _ h => h.landRows

theorem execSheepdogVerdict_cool {k} (h : s.CoolHeld) : CoolOut (execSheepdogVerdict k s) := by
  refine coolOut_live ?_
  split
  · exact h
  · exact h.beside

end

end Sys2Proof.Machine
end

section
/-!
PROOFS. The coolant alarm's hold on the clock (R421): the mailbox, observation and registers, and every step of the machine.
-/
namespace Sys2Proof.Machine

section
variable {s t : State}

/-! ### The mailbox (R367 to R383) -/

theorem cool_answer_ite {c : Prop} [Decidable c] {a b : MailAnswer} (ha : State.CoolHeld a.2.2) (hb : State.CoolHeld b.2.2) :
    State.CoolHeld (if c then a else b).2.2 := by
  split <;> assumption

/-- A command's answer, kept until it is posted, moves no cause and no pin. -/
theorem State.CoolHeld.pend {a : MailAnswer} (h : a.2.2.CoolHeld) : a.pend.CoolHeld :=
  h.of_same rfl rfl

theorem State.CoolHeld.mailbox {code fields f} (h : s.CoolHeld) (hf : ∀ s, s.CoolHeld → State.CoolHeld (f s).2.2) :
    (s.mailbox code fields f).CoolHeld := by
  have htaking : (s.taking code).CoolHeld := h.of_same rfl rfl
  cases hb : s.sec.busy with
  | true =>
    rw [s.mailbox_of_busy hb]
    exact h.beside
  | false =>
    cases hr : s.requestOk fields with
    | true =>
      rw [s.mailbox_of_wellFormed hb hr]
      exact (hf _ htaking).pend
    | false =>
      rw [s.mailbox_of_malformed hb hr]
      exact State.CoolHeld.pend htaking

theorem State.CoolHeld.bulkIn {a n b} (h : s.CoolHeld) (e : s.bulkIn a n = some (b, t)) : t.CoolHeld := by
  unfold State.bulkIn at e
  split at e
  · cases e
    exact h.lock
  · cases e

theorem mailboxRow_cool {code fields f} (h : s.CoolHeld) (hf : ∀ s, s.CoolHeld → State.CoolHeld (f s).2.2) :
    CoolOut (mailboxRow s code fields f) :=
  coolOut_live (h.when (·.mailbox hf))

theorem State.CoolHeld.mailLoadCurve (h : s.CoolHeld) : s.mailLoadCurve.2.2.CoolHeld := by
  unfold State.mailLoadCurve
  extract_lets
  refine cool_answer_ite h ?_
  split
  · exact h.beside
  · next hb =>
    have h₁ := h.bulkIn hb
    exact cool_answer_ite h₁.beside (cool_answer_ite h₁.beside h₁.beside)

theorem State.CoolHeld.mailQuince (h : s.CoolHeld) : s.mailQuince.2.2.CoolHeld := by
  unfold State.mailQuince
  extract_lets
  refine cool_answer_ite h ?_
  split
  · exact h.beside
  · next s₁ hb =>
    have h₁ : s₁.CoolHeld := h.bulkIn hb
    extract_lets done
    have hdone (r) : State.CoolHeld (done r).2.2 := by
      unfold done
      split
      · exact h₁.beside
      · exact h₁
    refine cool_answer_ite (hdone _) ?_
    split
    · exact h₁.beside
    · exact hdone _

theorem quinceRow_cool {op} (h : s.CoolHeld) : CoolOut (quinceRow s op) :=
  coolOut_live (h.unless fun h => (h.unless (·.beside)).mailbox fun _ h => h.mailQuince)

theorem State.CoolHeld.mailImportOffer (h : s.CoolHeld) : s.mailImportOffer.2.2.CoolHeld := by
  refine cool_answer_ite h.beside (cool_answer_ite h.beside (cool_answer_ite h.beside ?_))
  split
  · exact h.beside
  · split
    · exact h.beside
    · exact cool_answer_ite h.beside h.beside

theorem State.CoolHeld.storeShare {b k ws} (h : s.CoolHeld) : State.CoolHeld (s.storeShare b k ws).2.2 :=
  h.beside.event

theorem State.CoolHeld.importInto {x b} (h : s.CoolHeld) : State.CoolHeld (s.importInto x b).2.2 := by
  unfold State.importInto
  split
  · refine cool_answer_ite h.beside (cool_answer_ite h.beside ?_)
    split
    · exact h.beside
    · exact h.storeShare
  · exact h.beside

theorem State.CoolHeld.mailImportShare (h : s.CoolHeld) : s.mailImportShare.2.2.CoolHeld := by
  refine cool_answer_ite h.beside ?_
  split
  · exact h.beside
  · extract_lets
    rename State => s₁
    have h₁ : s₁.CoolHeld := h.beside
    split
    · exact h₁.beside
    · next hb => exact (h₁.bulkIn hb).importInto

theorem State.CoolHeld.mailEraseShare (h : s.CoolHeld) : s.mailEraseShare.2.2.CoolHeld :=
  h.eraseShare

theorem State.CoolHeld.mailAttest (h : s.CoolHeld) : s.mailAttest.2.2.CoolHeld := by
  unfold State.mailAttest
  split
  · exact h.beside
  · next s₁ hb =>
    have h₁ : s₁.CoolHeld := h.bulkIn hb
    exact cool_answer_ite h₁.beside (cool_answer_ite h₁.beside (cool_answer_ite h₁.beside (cool_answer_ite h₁.beside
      (cool_answer_ite h₁ (cool_answer_ite h₁.beside h₁.beside)))))

theorem State.CoolHeld.disableSeal (h : s.CoolHeld) : s.disableSeal.CoolHeld :=
  State.CoolHeld.beside (State.CoolHeld.eraseShare (State.CoolHeld.event h.beside))

theorem State.CoolHeld.mailSealDisable (h : s.CoolHeld) : s.mailSealDisable.2.2.CoolHeld := by
  unfold State.mailSealDisable
  split
  · exact h.beside
  · next s₁ hb =>
    have h₁ : s₁.CoolHeld := h.bulkIn hb
    exact cool_answer_ite h₁.beside (cool_answer_ite h₁.beside (cool_answer_ite h₁.beside (cool_answer_ite h₁.beside h₁.disableSeal)))

theorem State.CoolHeld.decryptTo {sh obj key out} (h : s.CoolHeld) : State.CoolHeld (s.decryptTo sh obj key out).2.2 :=
  h.of_same rfl rfl

theorem State.CoolHeld.mailPartialDecrypt (h : s.CoolHeld) : s.mailPartialDecrypt.2.2.CoolHeld := by
  refine cool_answer_ite h ?_
  split
  · exact h
  · exact cool_answer_ite h (cool_answer_ite h (cool_answer_ite h (cool_answer_ite h h.decryptTo)))

theorem State.CoolHeld.mailboxGo {code} (h : s.CoolHeld) : (s.mailboxGo code).CoolHeld := by
  unfold State.mailboxGo
  split
  · exact h.mailbox fun _ h => h.beside
  · exact h.mailbox fun _ h => h.beside
  · exact h.mailbox fun _ h => h.mailLoadCurve
  · exact h.mailbox fun _ h => h.mailImportOffer
  · exact h.mailbox fun _ h => h.mailImportShare
  · exact h.mailbox fun _ h => h.mailEraseShare
  · exact h.mailbox fun _ h => h.mailAttest
  · exact h.mailbox fun _ h => h.mailPartialDecrypt
  · exact h.mailbox fun _ h => h.mailQuince
  · exact h.when (·.mailbox fun _ h => h.mailSealDisable)
  · exact h.mailbox fun _ h => h.beside

/-! ### Factory, modes and injection (R433, R438, R304) -/

theorem State.CoolHeld.enterFactory (h : s.CoolHeld) : s.enterFactory.CoolHeld :=
  h.eraseShare.beside.when (·.beside.event)
theorem execPowerReq_cool {v w} (h : s.CoolHeld) : CoolOut (execPowerReq v w s) :=
  coolOut_live (h.when (·.beside))
theorem execInjectionArm_cool {v w} (h : s.CoolHeld) : CoolOut (execInjectionArm v w s) :=
  coolOut_live (h.unless (·.beside))

/-! ### The path of a fault (R289 to R293) -/

theorem State.CoolHeld.markAndPoison {m k part code by_} (h : s.CoolHeld) :
    State.CoolHeld (({ s with mem := m } : State).poisonEngine k part code by_) :=
  State.CoolHeld.poisonEngine h.beside

theorem State.CoolHeld.noteUnitFault {w} (h : s.CoolHeld) : (s.noteUnitFault w).CoolHeld :=
  cool_ite h.beside (cool_ite h.beside (h.unless fun h => cool_ite h.markAndPoison (h.when (·.poisonEngine))))

theorem execFaultMessage_cool {wire} (h : s.CoolHeld) : CoolOut (execFaultMessage wire s) := by
  refine coolOut_live ?_
  split
  · exact h.noteUnitFault.collect
  · split
    · exact h
    · exact h.beside.collect

theorem execDeviceCollectorRecord_cool (h : s.CoolHeld) : CoolOut (execDeviceCollectorRecord s) := by
  refine coolOut_live ?_
  split
  · exact h
  · exact h.beside.deviceRecord

/-! ### Refreshes and repeats that were held back (R163, R226) -/

theorem execRefreshResume_cool {g} (h : s.CoolHeld) : CoolOut (execRefreshResume g s) := by
  refine coolOut_live ?_
  split
  · exact h.when fun h => cool_ite (h.of_occupied (.of_eq (s.refreshFinish_issueView ..))) h.beside
  · exact h

theorem State.CoolHeld.repeatDesc {k r t t0 word x} (h : s.CoolHeld) : (s.repeatDesc k r t t0 word x).CoolHeld :=
  h.of_occupied (.of_eq (s.repeatDesc_issueView ..))

theorem execShadowRepeat_cool {k ring} (h : s.CoolHeld) : CoolOut (execShadowRepeat k ring s) := by
  refine coolOut_live ?_
  split
  · exact h.when fun h => State.CoolHeld.repeatDesc h.beside
  · exact h

/-! ### The transform engine (R114 to R122) -/

theorem execTeChecksumVerdict_cool {g disturb} (h : s.CoolHeld) : CoolOut (execTeChecksumVerdict g disturb s) := by
  refine coolOut_live ?_
  split
  · exact h
  · exact h.unless fun h => h.reachAbs.beside.unless fun h => cool_foldl h.beside fun _ _ h => h.poisonOut

/-! ### Observation and test access (R451 to R466) -/

theorem execObsSel_cool {pin v w} (h : s.CoolHeld) : CoolOut (execObsSel pin v w s) :=
  coolOut_live (h.unless fun h => cool_ite h.beside h.beside)
theorem execAnaSel_cool {v w} (h : s.CoolHeld) : CoolOut (execAnaSel v w s) :=
  coolOut_live (h.unless fun h => cool_ite h.beside h.beside)
theorem State.CoolHeld.tap {code} (h : s.CoolHeld) : (s.tap code).CoolHeld :=
  State.CoolHeld.beside (h.setPin (i := 6) (by decide))
theorem State.CoolHeld.refuseJtag (h : s.CoolHeld) : s.refuseJtag.CoolHeld :=
  State.CoolHeld.beside h.tap
theorem State.CoolHeld.sideband {x} (h : s.CoolHeld) : (s.sideband x).CoolHeld :=
  h.unless (·.besideCause rfl rfl)

/-! ### Steps of a domain and retired groups (R343, R407) -/

theorem State.CoolHeld.domainStep (h : s.CoolHeld) : s.domainStep.CoolHeld := by
  unfold State.domainStep
  split
  · exact h
  · extract_lets _ _ u
    have hu : u.CoolHeld := h.besideCause (Table.at_put_other _ _ _ _ _ (by decide)) rfl
    exact hu.unless (·.changeStep)

theorem State.CoolHeld.retire {p} (h : s.CoolHeld) : (s.retire p).CoolHeld := by
  unfold State.retire
  extract_lets _ _ _ s₂ _ _ _ s₃
  have h₂ : s₂.CoolHeld := cool_forAll (State.CoolHeld.beside h) fun _ _ h => h.beside
  have h₃ : s₃.CoolHeld := h₂.beside
  clear_value s₃
  exact h₃.event.when (·.substitute)

/-! ### Register writes (R310) -/

theorem State.CoolHeld.writeQuota {f v w} (h : s.CoolHeld) : (s.writeQuota f v w).CoolHeld := by
  unfold State.writeQuota
  exact h.when (·.beside)

theorem State.CoolHeld.writeAllotLen {f v w} (h : s.CoolHeld) : (s.writeAllotLen f v w).CoolHeld :=
  h.when (·.beside)

theorem State.CoolHeld.writeQueueBlock {fn o v w} (h : s.CoolHeld) : (s.writeQueueBlock fn o v w).CoolHeld := by
  refine cool_ite h.beside (h.unless fun h => cool_ite (h.when (·.beside)) (h.when fun h => ?_))
  extract_lets
  split
  · exact h.writeQuota
  · exact h.unless (·.beside)
  · exact h.unless (·.writeAllotLen)
  · exact h

theorem State.CoolHeld.writeMsix {fn i v w} (h : s.CoolHeld) : (s.writeMsix fn i v w).CoolHeld :=
  h.beside.unless (·.beside.releaseMessage)
theorem State.CoolHeld.writeVector {fn k v w} (h : s.CoolHeld) : (s.writeVector fn k v w).CoolHeld :=
  h.unless (·.beside)
theorem State.CoolHeld.writeStaging {v w} (h : s.CoolHeld) : (s.writeStaging v w).CoolHeld :=
  h.unless fun h => ((h.when (·.stageGo)).when (·.adoptGo)).when (·.abortAdoption)
theorem State.CoolHeld.writeMailbox {o v w} (h : s.CoolHeld) : (s.writeMailbox o v w).CoolHeld :=
  cool_ite (h.beside.when (·.mailboxGo)) (h.when (·.beside))
/-- The selection registers of the power block move no cause. -/
theorem PowerUnit.select_permits (p : PowerUnit) (o : Nat) (v : Word64) (w : AccessWidth) : (p.select o v w).permits = p.permits := by
  unfold PowerUnit.select
  split <;> rfl

theorem State.CoolHeld.writeSelect {o v w} (h : s.CoolHeld) : State.CoolHeld { s with power := s.power.select o v w } :=
  h.of_same (s.power.select_permits o v w) rfl

theorem State.CoolHeld.writeOwn {fn o v w} (h : s.CoolHeld) : (s.writeOwn fn o v w).CoolHeld :=
  cool_ite h.beside (cool_ite h.writeQueueBlock (cool_ite h.beside (cool_ite h.writeVector (cool_ite h.writeMsix
    (h.unless fun h => cool_ite h.beside (cool_ite h.writeSelect (cool_ite h.writeStaging (cool_ite h.beside
    (cool_ite h.beside (cool_ite h.writeMailbox (cool_ite (h.when (·.writePort)) (h.when (·.beside)))))))))))))

theorem rowWrite_cool {fn o v w out} (h : s.CoolHeld) (e : rowWrite fn o v w s = some out) : CoolOut out := by
  unfold rowWrite at e
  extract_lets at e
  split at e
  · exact Option.some.inj e ▸ execEvMaskWrite_cool h
  split at e
  · exact Option.some.inj e ▸ execEvSet_cool h
  split at e
  · exact Option.some.inj e ▸ execEvComplete_cool h
  split at e
  · cases e
  split at e <;> cases e
  · exact execStickyClear_cool h
  · exact execStickyClear_cool h
  · exact execStickyClear_cool h
  · exact coolOut_ite (coolOut_live h) (execLogTailWrite_cool h)
  · exact execHostStep_cool h
  · exact coolOut_ite (execSwReset_cool h) (execHalt_cool h)
  · exact execPowerReq_cool h
  · exact coolOut_ite (execFlushNow_cool h) (coolOut_live h)
  · exact execWindowOffset_cool h
  · exact execObsSel_cool h
  · exact execObsSel_cool h
  · exact execObsSel_cool h
  · exact execObsSel_cool h
  · exact execAnaSel_cool h
  · exact execInjectionArm_cool h

theorem execRegisterWrite_cool {fn offset v w} (h : s.CoolHeld) : CoolOut (execRegisterWrite fn offset v w s) := by
  unfold execRegisterWrite
  extract_lets
  split
  · next e => exact rowWrite_cool h e
  · exact coolOut_live (h.unless (·.writeOwn))

/-! ### Scalar instructions (R174) -/

theorem State.CoolHeld.scalarWrite {k sd major v} (h : s.CoolHeld) : (s.scalarWrite k sd major v).CoolHeld :=
  h.item fun _ h => h.beside
theorem State.CoolHeld.scalarOp {k sd sa sb major f} (h : s.CoolHeld) : (s.scalarOp k sd sa sb major f).CoolHeld :=
  h.scalarWrite

theorem execRdfeat_cool {k sd idx} (h : s.CoolHeld) : CoolOut (execRdfeat k sd idx s) := by
  refine coolOut_live (h.item fun _ h => ?_)
  split
  · exact h.beside
  · exact h.beside

theorem execRdstat_cool {k sd idx} (h : s.CoolHeld) : CoolOut (execRdstat k sd idx s) := by
  refine coolOut_live (h.item fun _ h => ?_)
  split
  · exact h.beside
  · exact h.beside

theorem execLoop_cool {k lc src forward count} (h : s.CoolHeld) : CoolOut (execLoop k lc src forward count s) :=
  coolOut_live (h.item fun _ h => cool_ite h.beside (cool_ite h.beside h.beside))
theorem execWaitc_cool {k c} (h : s.CoolHeld) : CoolOut (execWaitc k c s) :=
  coolOut_live (h.unless fun h => cool_ite h.beside (cool_ite h.beside (cool_ite h.beside h.beside)))

/-! ### The program queue (R193 to R198) -/

theorem State.CoolHeld.completeProgram {fn ty tag slot r data} (h : s.CoolHeld) : (s.completeProgram fn ty tag slot r data).CoolHeld :=
  h.complete
theorem State.CoolHeld.addChunk {e} (h : s.CoolHeld) : (s.addChunk e).CoolHeld :=
  cool_ite h.completeProgram (cool_ite h.completeProgram (cool_ite h.beside.completeProgram
    (cool_ite h.beside.completeProgram h.beside)))

theorem execProgramChunk_cool (h : s.CoolHeld) : CoolOut (execProgramChunk s) := by
  refine coolOut_live ?_
  split
  · exact h
  · exact h.beside.addChunk

theorem State.CoolHeld.addReference {e} (h : s.CoolHeld) : (s.addReference e).CoolHeld :=
  cool_ite h.completeProgram (cool_ite h.completeProgram (cool_ite h.completeProgram h.beside))

theorem execProgramReference_cool (h : s.CoolHeld) : CoolOut (execProgramReference s) := by
  refine coolOut_live ?_
  split
  · exact h
  · exact h.beside.addReference

theorem State.CoolHeld.install {q p} (h : s.CoolHeld) : (s.install q p).CoolHeld := by
  unfold State.install
  extract_lets
  split
  · exact h.completeProgram
  · refine cool_ite h.completeProgram ?_
    split
    · exact h.completeProgram
    · exact h.beside.completeProgram

theorem execProgramVerification_cool (h : s.CoolHeld) : CoolOut (execProgramVerification s) := by
  refine coolOut_live ?_
  split
  · exact h
  · extract_lets
    split
    · exact h.beside.completeProgram
    · exact h.beside.install

/-- Every command keeps the alarm held. -/
theorem exec_cool (c : Instr) (h : s.CoolHeld) : CoolOut (exec c s) :=
  match c with
  | .nop .. => coolOut_live (h.item fun _ h => h.beside)
  | .add .. => coolOut_live h.scalarOp
  | .sub .. => coolOut_live h.scalarOp
  | .and .. => coolOut_live h.scalarOp
  | .or .. => coolOut_live h.scalarOp
  | .xor .. => coolOut_live h.scalarOp
  | .shl .. => coolOut_live h.scalarOp
  | .shr .. => coolOut_live h.scalarOp
  | .mul .. => coolOut_live h.scalarOp
  | .addi .. => coolOut_live h.scalarWrite
  | .lih .. => coolOut_live h.scalarWrite
  | .movp .. => coolOut_live h.scalarWrite
  | .rdfeat .. => execRdfeat_cool h
  | .rdstat .. => execRdstat_cool h
  | .loop .. => execLoop_cool h
  | .endl .. => coolOut_live (h.item fun _ h => cool_ite h.beside (cool_ite h.beside h.beside).beside)
  | .waitc .. => execWaitc_cool h
  | .waitb .. => coolOut_live (h.unless fun h => cool_ite h.beside h.beside)
  | .waitResume .. => coolOut_live (h.when (·.beside))
  | .settw .. => coolOut_live (h.item fun _ h => cool_ite h.beside h.beside)
  | .endStream .. => coolOut_live (h.unless fun h => cool_ite h.beside h.beside)
  | .veChain .. => coolOut_live (h.command fun u _ _ => .of_occupy (u.chainRun_issueView ..))
  | .veTensor .. => coolOut_live (h.command fun u _ _ => .of_occupy (u.tensorRun_issueView ..))
  | .veRescale .. => coolOut_live (h.groupCommand fun u _ _ _ _ => u.occupied_switchRun ..)
  | .veModsw .. => coolOut_live (h.groupCommand fun u _ _ _ _ => u.occupied_switchRun ..)
  | .veCvtin .. => coolOut_live (h.command fun u _ _ => .of_occupy (u.cvtinRun_issueView ..))
  | .veCvtout .. => coolOut_live (h.command fun u _ _ => .of_occupy (u.cvtoutRun_issueView ..))
  | .veGather .. => coolOut_live (h.command fun u _ _ => .of_occupy (u.gatherRun_issueView ..))
  | .veAuto .. => coolOut_live (h.groupCommand fun u _ _ _ _ => .of_occupy_each (u.autoRun_issueView ..))
  | .veFill .. => coolOut_live (h.command fun u _ _ => .of_occupy (u.fillRun_issueView ..))
  | .veLdprog .. => coolOut_live (h.command fun u _ _ => .of_occupy (u.ldprogRun_issueView ..))
  | .veLdconst .. => coolOut_live (h.command fun u _ _ => .of_occupy (u.ldconstRun_issueView ..))
  | .teFwd .. => coolOut_live (h.groupCommand fun u _ _ _ _ => .of_occupy_each (u.teRun_issueView ..))
  | .teInv .. => coolOut_live (h.groupCommand fun u _ _ _ _ => .of_occupy_each (u.teRun_issueView ..))
  | .teChecksumVerdict .. => execTeChecksumVerdict_cool h
  | .rmeBconv .. => coolOut_live (h.command fun u _ _ => .of_eq (u.bconvRun_issueView ..))
  | .rmeKip .. => coolOut_live (h.command fun u _ _ => .of_eq (u.kipRun_issueView ..))
  | .rmeCombine .. => coolOut_live (h.clustersCommand fun u _ _ _ _ => u.occupied_combineRun ..)
  | .refRun .. => coolOut_live (h.command fun u _ _ => u.occupied_refRunRun ..)
  | .refreshResume .. => execRefreshResume_cool h
  | .suLoad .. => coolOut_live (h.command fun u _ _ => .of_eq (u.suRun_issueView ..))
  | .suLoads .. => coolOut_live (h.clustersCommand fun u _ _ _ _ => .of_eq (u.loadsRun_issueView ..))
  | .suStore .. => coolOut_live (h.command fun u _ _ => .of_eq (u.suRun_issueView ..))
  | .suArm .. => coolOut_live (h.command fun u _ _ => .of_eq (u.armRun_issueView ..))
  | .shadowRepeat .. => execShadowRepeat_cool h
  | .suRelay .. => coolOut_live (h.command fun u _ _ => .of_eq (u.relayRun_issueView ..))
  | .suKfill .. => coolOut_live (h.command fun u _ _ => .of_eq (u.kfillRun_issueView ..))
  | .suPip .. => coolOut_live (h.command fun u _ _ => .of_eq (u.pipRun_issueView ..))
  | .suTile .. => coolOut_live (h.command fun u _ _ => .of_eq (u.tileRun_issueView ..))
  | .gxMove .. => coolOut_live (h.command fun u _ _ => .of_occupy (u.gxMoveRun_issueView ..))
  | .gxBcast .. => coolOut_live (h.clustersCommand fun u _ _ _ _ => .of_occupy_each (u.gxBcastRun_issueView ..))
  | .fuse .. => coolOut_live h.fuse
  | .sheepdogVerdict .. => execSheepdogVerdict_cool h
  | .transferGrant .. => execTransferGrant_cool h
  | .transferStamp .. => execTransferStamp_cool h
  | .relayRowLanding .. => execRelayRowLanding_cool h
  | .hbmBoundOverrun .. => coolOut_live h.overrun
  | .kcBoundOverrun .. => coolOut_live h.overrun
  | .faultMessage .. => execFaultMessage_cool h
  | .testMessage .. => coolOut_live h.modCollector
  | .deviceCollectorRecord => execDeviceCollectorRecord_cool h
  | .beatBoundary => execBeatBoundary_cool h
  | .programWindowEnd => execProgramWindowEnd_cool h
  | .terrierInjection .. => execTerrierInjection_cool h
  | .terrierVerdict .. => execTerrierVerdict_cool h
  | .terrierRetest .. => coolOut_live (h.when fun h => h.beside.unless (·.dueRetirement))
  | .serviceScrub .. => execServiceScrub_cool h
  | .abortFill .. => execAbortFill_cool h
  | .retrieverAbsorb .. => coolOut_live (h.unless (·.beside))
  | .retrieverFinalize .. => coolOut_live (h.when (·.beside))
  | .ledgerSampling .. => execLedgerSampling_cool h
  | .reconciliation => execReconciliation_cool h
  | .retrieverVerdict => execRetrieverVerdict_cool h
  | .windfallTimeout .. => execWindfallTimeout_cool h
  | .releaseDecision => execReleaseDecision_cool h
  | .checkpointCopy .. => execCheckpointCopy_cool h
  | .submissionWrite .. => execSubmissionWrite_cool h
  | .submissionRead .. => coolOut_live (h.unless (·.beside))
  | .programChunk => execProgramChunk_cool h
  | .programReference => execProgramReference_cool h
  | .programVerification => execProgramVerification_cool h
  | .jobEntry => execJobEntry_cool h
  | .jobMapping .. => execJobMapping_cool h
  | .jobFirstIssue .. => execJobFirstIssue_cool h
  | .jobDeadline .. => execJobDeadline_cool h
  | .jobRestart .. => execJobRestart_cool h
  | .jobCompletion .. => execJobCompletion_cool h
  | .transfer => execTransfer_cool h
  | .transferComplete .. => execTransferComplete_cool h
  | .registerKeyset => execRegisterKeyset_cool h
  | .keysetCommit => execKeysetCommit_cool h
  | .removeKeyset => execRemoveKeyset_cool h
  | .removeProgram => execRemoveProgram_cool h
  | .defineArea => coolOut_live (h.onControl fun _ _ h => cool_ite h.completeControl h.beside.completeControl)
  | .deleteArea => execDeleteArea_cool h
  | .cancelJob => execCancelJob_cool h
  | .marker => execMarker_cool h
  | .encode => coolOut_live (h.unless fun h => h.onControl fun _ _ h => h.beside)
  | .backlogDrain .. => coolOut_live h.drainBacklog
  | .extentDigestDone .. => execExtentDigestDone_cool h
  | .bar2Write .. => coolOut_live (h.unless fun h => cool_ite h.beside (h.beside.when (·.beside)))
  | .bar2Read .. => execBar2Read_cool h
  | .configRequest .. => execConfigRequest_cool h
  | .vfFunctionLevelReset .. => coolOut_live (h.unless (·.flr))
  | .pfFunctionLevelReset => coolOut_live (h.unless (·.flrAll))
  | .pePerstN .. => coolOut_live h.pePerst
  | .d3hotEntry .. => coolOut_live (h.unless (·.beside))
  | .eventSourceFire .. => coolOut_live (h.when (·.beside))
  | .eventTaken .. => coolOut_live (h.when (·.take))
  | .evSet .. => execEvSet_cool h
  | .evComplete .. => execEvComplete_cool h
  | .evMaskWrite .. => execEvMaskWrite_cool h
  | .ringEnable .. => coolOut_live (h.unless (·.beside))
  | .stickyClear .. => execStickyClear_cool h
  | .logTailWrite .. => execLogTailWrite_cool h
  | .registerWrite .. => execRegisterWrite_cool h
  | .lineWriteback .. => execLineWriteback_cool h
  | .rowRemap .. => coolOut_live (h.when (·.remapRow.beside.managementRecord.event.beside))
  | .patrolScrub .. => coolOut_live (h.when fun h => (cool_foldl h fun _ _ h => h.patrolFind).beside)
  | .kcExtentRepair .. => execKcExtentRepair_cool h
  | .stackTemperatureTrigger .. => execStackTemperatureTrigger_cool h
  | .doubledRefreshEntry .. => coolOut_live (h.when (·.beside))
  | .memoryClockSlow .. => coolOut_live (h.when (·.beside))
  | .couplingCapLift => coolOut_live (h.when fun h => cool_forAll h.liftStackCap fun _ _ h => h.restoreMemoryClock)
  | .stepSwitch => execStepSwitch_cool h
  | .avsVoltageConfirm .. => execAvsVoltageConfirm_cool h
  | .stepUpAbandoned => execStepUpAbandoned_cool h
  | .stepUpRetry => coolOut_live (h.when fun h => (h.besideCause (by rfl) (by rfl)).decideStep)
  | .junctionStepUp => coolOut_live (h.when fun h => (h.besideCause (by rfl) (by rfl)).setPermit (by decide))
  | .cappedEvaluation .. => coolOut_live (h.when fun h => (h.besideCause (by rfl) (by rfl)).moveCap)
  | .vddCCurrentLift => coolOut_live (h.when (·.setPermit (by decide)))
  | .hostStep .. => execHostStep_cool h
  | .railRange .. => coolOut_live (h.unless (·.besideCause rfl rfl))
  | .thermalTrip .. => coolOut_live h.trip
  | .powerOnReset => coolOut_next (s.coolHeld_resetDevice _)
  | .brownOutReset => coolOut_next h.resetSource
  | .clockFailure => coolOut_next h.resetSource
  | .lockUp => coolOut_next h.resetSource
  | .resetN => coolOut_next h.resetPin
  | .watchdog => coolOut_next (h.unless (·.writeNow.resetSource))
  | .swReset .. => execSwReset_cool h
  | .releaseStep .. => coolOut_live (h.unless (·.release))
  | .hostReady => coolOut_live (h.unless fun h => h.beside.startFields.startAxes.beside.unless (·.beside))
  | .haltReqN => coolOut_live (h.setPin (by decide)).askHalt
  | .halt .. => execHalt_cool h
  | .orderlyHalt => coolOut_live (h.unless fun h => cool_ite (h.when (·.beginHalt)) (h.when (·.endHalt)))
  | .coolAlarmN .. => coolOut_live (h.unless (·.coolAlarm))
  | .coolAlarmStuck => coolOut_live (h.when (·.besideCause rfl rfl))
  | .coolForcingEnd => coolOut_live (h.when (·.besideCause rfl rfl))
  | .inputGlitch .. => coolOut_live (cool_ite (h.besideCause rfl rfl) (h.unless fun h => (h.besideCause (by rfl) (by rfl)).pinActive))
  | .inputRacingEnd .. => execInputRacingEnd_cool h
  | .beatIn .. => execBeatIn_cool h
  | .trstN => coolOut_live (State.CoolHeld.beside (h.setPin (i := 6) (by decide)))
  | .blockIdleReport .. => coolOut_live (h.when (·.beside.blockReset))
  | .blockIdle .. => coolOut_live (h.when (·.beside.escalate))
  | .groupRetirement .. => coolOut_live (h.unless fun h => cool_ite h.retireExhausted (h.when (·.retire)))
  | .spareProven .. => coolOut_live (h.when fun h => State.CoolHeld.unless (State.CoolHeld.beside h.fillClusters.fillGroupBlock) (·.dueRetirement))
  | .linkFrameReceive .. => execLinkFrameReceive_cool h
  | .linkMessageSend .. => execLinkMessageSend_cool h
  | .linkRetransmit .. => execLinkRetransmit_cool h
  | .linkKeepalive .. => coolOut_live ((cool_forAll h fun _ _ h => h.beside).when (·.retrain))
  | .portTraining .. => execPortTraining_cool h
  | .spareRequest .. => coolOut_live (h.when (·.beside.portState))
  | .spareAcknowledge .. => coolOut_live (h.when (·.beside.acknowledge))
  | .laneSwap .. => execLaneSwap_cool h
  | .beatMarker .. => execBeatMarker_cool h
  | .aligned => coolOut_live (h.when (·.beside))
  | .clear .. => coolOut_live (h.takeRecord fun _ h => h.takeClear)
  | .fail .. => coolOut_live (h.takeRecord fun _ h => h.takeFail)
  | .ready .. => coolOut_live (h.takeRecord fun _ h => h.takeReady)
  | .restart .. => coolOut_live (h.takeRecord fun _ h => h.takeRestart)
  | .terminate .. => coolOut_live (h.takeRecord fun _ h => h.takeTerminate)
  | .step .. => coolOut_live (h.takeRecord fun _ h => h.beside)
  | .domainStepChange => coolOut_live (h.when (·.domainStep))
  | .linkedJobStart .. => execLinkedJobStart_cool h
  | .portEnable .. => coolOut_live (h.when (·.writePort))
  | .retrain .. => coolOut_live (h.when (·.writePort))
  | .identity => mailboxRow_cool h fun _ h => h.beside
  | .ownerState => mailboxRow_cool h fun _ h => h.beside
  | .loadCurve => mailboxRow_cool h fun _ h => h.mailLoadCurve
  | .importOffer => mailboxRow_cool h fun _ h => h.mailImportOffer
  | .importShare => mailboxRow_cool h fun _ h => h.mailImportShare
  | .eraseShare => mailboxRow_cool h fun _ h => h.mailEraseShare
  | .attest => mailboxRow_cool h fun _ h => h.mailAttest
  | .partialDecrypt => mailboxRow_cool h fun _ h => h.mailPartialDecrypt
  | .pointCheck => quinceRow_cool h
  | .scalarMultiplication => quinceRow_cool h
  | .ecdsaVerify => quinceRow_cool h
  | .modularExponentiation => quinceRow_cool h
  | .sealDisable => coolOut_ite (mailboxRow_cool h fun _ h => h.mailSealDisable) (coolOut_live h)
  | .mailboxResponse => coolOut_live (h.when (·.beside))
  | .drbgHealthFailure => coolOut_live (h.unless (·.beside.event))
  | .drbgReseed => coolOut_live (h.when (·.beside))
  | .stageGo .. => coolOut_live (h.unless (·.stageGo))
  | .stageComplete .. => coolOut_live (h.when (·.stageComplete))
  | .adoptGo .. => coolOut_live (h.unless (·.adoptGo))
  | .adoptionPiece .. => coolOut_live (h.when (·.nextPiece))
  | .adoptSwitch => execAdoptSwitch_cool h
  | .groupTableApply .. => coolOut_live (h.when (·.applyTable))
  | .pseudoChannelRetrain .. => coolOut_live (h.unless fun h => cool_ite h.abortAdoption h.beside)
  | .adoptAbort .. => coolOut_live (h.when (·.abortAdoption))
  | .adoptTimeout => coolOut_live (h.when (·.abortAdoption))
  | .factoryAuth .. => coolOut_live (State.CoolHeld.unless (State.CoolHeld.beside (h.setPin (i := 6) (by decide))) fun h => cool_ite h.beside h.beside)
  | .factoryEntry => coolOut_live (h.when (·.enterFactory))
  | .powerReq .. => execPowerReq_cool h
  | .twinAll .. => coolOut_live (h.when (·.beside))
  | .injectionArm .. => execInjectionArm_cool h
  | .injectionFire => coolOut_live (h.unless fun h => cool_ite h.beside.collect h.beside)
  | .ledgerEventWrite .. => execLedgerEventWrite_cool h
  | .ledgerSnapshot .. => coolOut_live (h.unless fun h => cool_ite h.beside (h.unless (·.beside)).flushLedger)
  | .flushNow .. => execFlushNow_cool h
  | .durableCopy .. => coolOut_live (h.unless fun h => cool_ite h.beside h.beside)
  | .windowOffset .. => execWindowOffset_cool h
  | .windowReady => coolOut_live (h.unless (·.beside))
  | .obsSel .. => execObsSel_cool h
  | .anaSel .. => execAnaSel_cool h
  | .extest => coolOut_live (cool_ite (State.CoolHeld.beside (h.tap (code := 0x00))) h.refuseJtag)
  | .samplePreload .. => coolOut_live (State.CoolHeld.beside (h.tap (code := 0x01)))
  | .idcode => coolOut_live (State.CoolHeld.beside (h.tap (code := 0x02)))
  | .clamp => coolOut_live (cool_ite h.tap h.refuseJtag)
  | .highz => coolOut_live (cool_ite h.tap h.refuseJtag)
  | .debugReset .. => coolOut_next (h.unless fun h => h.tap.unless fun h => cool_ite h.writeNow.resetSource h.beside)
  | .scanDump => coolOut_live (cool_ite (State.CoolHeld.beside (h.tap (code := 0x12))) h.refuseJtag)
  | .bypass .. => coolOut_live (State.CoolHeld.beside (h.tap (code := 0xFF)))
  | .status => coolOut_live h.sideband
  | .tj => coolOut_live h.sideband
  | .sbStep => coolOut_live h.sideband
  | .cause => coolOut_live h.sideband
  | .power => coolOut_live h.sideband
  | .alert => coolOut_live (h.unless (·.sideband.besideCause rfl rfl))
  | .smbusTimeout => coolOut_live (h.besideCause rfl rfl)
  | .linkReferenceLoss => coolOut_live (cool_forAll h.beside fun _ _ h => h.portDown)
  | .heldResetRelease => coolOut_next (h.when fun _ => State.coolHeld_resetDevice _)
  | .haltDrainLimit => coolOut_live (h.when (·.endHalt))
  | .encodeComplete => execEncodeComplete_cool h
  | .d0Return .. => coolOut_live (h.unless (·.returnD0))
  | .msixVectorUnmask .. => coolOut_live (h.unless (·.beside.releaseMessage))
  | .ideKm .. => coolOut_live (h.unless fun h => cool_ite h.beside h.beside)

end
end Sys2Proof.Machine
end

section
/-!
PROOFS. The coolant alarm (R421): no step lets go of the clock while the alarm is active, and each activation is recorded in the fault log.
-/
namespace Sys2Proof.Machine

/-! ### A record in the fault log (R293) -/

/-- Between `f` and `g` a record of kind `kind` was written at the log's head, or counted lost where the log was full. -/
structure FaultUnit.Recorded (f g : FaultUnit) (kind : Nat) : Prop where
  written : f.logCount ≠ 4096 → g.logHead = f.logHead + 1 ∧ ∃ w, g.log.find (f.logHead.toNat % 4096) = some w ∧ recKind w = kind
  lost : f.logCount = 4096 → g.logHead = f.logHead ∧ g.logLost = satInc f.logLost

/-- The fault unit with a record appended. -/
def FaultUnit.logged (f : FaultUnit) (w : List Word64) : FaultUnit :=
  if f.logCount = 4096 then { f with logLost := satInc f.logLost }
  else { f with log := f.log.put (f.logHead.toNat % 4096) w, logHead := f.logHead + 1 }

theorem FaultUnit.recorded_logged (f : FaultUnit) (w : List Word64) : f.Recorded (f.logged w) (recKind w) where
  written h := by
    rw [FaultUnit.logged, if_neg h]
    exact ⟨rfl, w, Table.find_put_same .., rfl⟩
  lost h := by
    rw [FaultUnit.logged, if_pos h]
    exact ⟨rfl, rfl⟩

/-- The sticky bits stand beside the log. -/
theorem FaultUnit.Recorded.of_stick {f g : FaultUnit} {unit k kind : Nat} (h : (f.stick unit k).Recorded g kind) : f.Recorded g kind := by
  have hlog : ((f.stick unit k).logHead, (f.stick unit k).logTail, (f.stick unit k).logLost) = (f.logHead, f.logTail, f.logLost) := by
    unfold FaultUnit.stick
    extract_lets key set
    have hset : (set.logHead, set.logTail, set.logLost) = (f.logHead, f.logTail, f.logLost) := by
      unfold set
      split
      · rfl
      · split <;> rfl
    split
    · exact hset
    · exact hset
  obtain ⟨hhead, htl⟩ := Prod.mk.inj hlog
  obtain ⟨htail, hlost⟩ := Prod.mk.inj htl
  have hcount : (f.stick unit k).logCount = f.logCount := by rw [FaultUnit.logCount, FaultUnit.logCount, hhead, htail]
  obtain ⟨hw, hl⟩ := h
  rw [hcount, hhead] at hw hl
  exact ⟨hw, hlost ▸ hl⟩

section
variable (s : State)

theorem State.appendLog_faults (w : List Word64) : (s.appendLog w).faults = s.faults.logged w := by
  have hadd (u : State) (l : List Nat) : (u.forAll l fun u id => u.modRun id fun r => r.addFault w).faults = u.faults :=
    State.forAll_keeps State.faults (f := fun u id => u.modRun id fun r => r.addFault w) (fun _ _ => rfl) l u
  refine (hadd _ _).trans ?_
  unfold FaultUnit.logged
  split <;> rfl

/-- A management record goes into the log with its own kind. -/
theorem State.managementRecord_recorded {kind : Nat} (hk : kind < 256) (op job addr : Nat) :
    s.faults.Recorded (s.managementRecord kind op job addr).2.faults kind := by
  refine FaultUnit.Recorded.of_stick (unit := managementUnit) (k := kind) ?_
  rw [State.managementRecord, State.appendLog_faults]
  have hrec := (recUnit_recKind_record s { fireAt := s.now, unit := managementUnit, kind := kind, op := op, job := job, addr := addr }).2
  have := FaultUnit.recorded_logged (s.faults.stick managementUnit kind)
    (s.record { fireAt := s.now, unit := managementUnit, kind := kind, op := op, job := job, addr := addr })
  rwa [hrec, Nat.mod_eq_of_lt hk] at this

/-! ### An activation (R421) -/

theorem State.setPermit_faults (c k : Nat) : (s.setPermit c k).faults = s.faults := (congrArg State.faults (s.setPermit_besideClock c k) :)

variable {s}

/-- What an activation of the alarm leaves: the clock held, the pin active, and a COOL_ALARM record. -/
theorem State.coolAlarm_activates (h : s.pins.active.getLsbD 3 = false) : (s.coolAlarm true).CoolHeld ∧
    (s.coolAlarm true).pins.active.getLsbD 3 = true ∧ s.faults.Recorded (s.coolAlarm true).faults 0x82 := by
  obtain ⟨hactive, -⟩ := s.coolAlarm_rising_spec h
  refine ⟨(State.coolHeld_of_inactive h).coolAlarm, hactive ▸ getLsbD_setBit_same _ (by decide), ?_⟩
  have halarmed : s.alarmed.faults = s.faults := rfl
  rw [s.coolAlarm_of_rising h, State.setPermit_faults, State.alarmNoted, State.fire_faults, ← halarmed]
  exact s.alarmed.managementRecord_recorded (by decide) _ _ _

end

/-! ### Every step (R421) -/

/-- An empty queue's step moves the cycle alone. -/
theorem State.CoolHeld.tick {s : State} (h : s.CoolHeld) : s.tick.CoolHeld :=
  h.when (·.beside)

theorem step_coolHeld {s t : State} (h : s.CoolHeld) (hstep : step s = .next t) : t.CoolHeld := by
  unfold step at hstep
  split at hstep
  · cases hstep
    exact h.tick
  · next c rest _ =>
    have htaken : State.CoolHeld { s with pending := rest } := h.beside
    exact exec_cool c htaken t hstep

/-- Settles O49: cause 5 stands at 400 MHz or below from the pin's activation on, since only the pin's own end lowers it; the activation,
by the pin or by the start of a racing episode, writes COOL_ALARM to the log. -/
theorem coolAlarmHoldsTheStep : Obligations.CoolAlarmHoldsTheStep := by
  refine ⟨fun s t => step_coolHeld, fun s hd hpin hracing i hi => ?_⟩
  have hexec : ∃ u : State, exec i s = live s (u.coolAlarm true) ∧ u.pins.active.getLsbD 3 = false ∧ u.faults = s.faults := by
    rcases List.mem_pair.mp hi with rfl | rfl
    · exact ⟨s, congrArg (live s) (if_neg (by simp)), hpin, rfl⟩
    · exact ⟨s.raced 3, exec_inputGlitch_racing (p := 3) hracing, hpin, rfl⟩
  obtain ⟨u, he, hu, hfaults⟩ := hexec
  obtain ⟨hheld, hactive, hrec⟩ := State.coolAlarm_activates hu
  obtain ⟨hwritten, hlost⟩ := hfaults ▸ hrec
  exact runs_of_exec_live hd he ⟨hheld, hactive, hwritten, hlost⟩

end Sys2Proof.Machine
end
